-- ==== Sys2Proof/Word.lean ====
section
/-! DEFINITION. The word types of the node and the sparse table that holds the state of its many like instances. -/

namespace Sys2Proof

/-- One byte of memory (R11: multi-byte values are little-endian). -/
abbrev Byte := BitVec 8

/-- A 32-bit word: token counters (R41), ring counts (R30), epochs (R725). -/
abbrev W32 := BitVec 32

/-- A 64-bit word: steps (2.8), summary slots (2.7), Mule integer registers (Table 7.1). -/
abbrev W64 := BitVec 64

/-- A table from a unit's number to its contents, keys strictly rising. A number that is not listed has the contents its reader
names. The operations are in `Sys2Proof/Machine/Tab.lean`. -/
abbrev Tab (α : Type) := List (Nat × α)

end Sys2Proof
end

