-- ==== Sys2Proof/Syntax.lean ====
section
/-! DEFINITION. The steps of the node, one constructor of `Instr` for each row of spec/opcode_table.json, with the operands that
name the unit concerned and carry what comes from outside the node (a written value, a flit, a measured temperature). -/

namespace Sys2Proof

/-- The block types of Table 20.4, in order of their type code (0x01 to 0x12). -/
inductive Block where
  | mgmt | host | pwr | ledg | hen | goose | ox | pony | mule | solv | spad | lpc | drake | wlink | wsw | coll | xag | ten
deriving DecidableEq, Repr

/-- Who reads or writes a register page (R751); the host also reads the configuration space of a function (15.1). -/
inductive Requester where
  | pf                    -- the owner through PF BAR0
  | vf (tenant : Nat)     -- tenant t through VF t + 1
  | mgmt                  -- the management controller
  | cfg (fn : Nat)        -- a PCIe configuration request of function fn: 0 the PF, n VF n
deriving DecidableEq, Repr

/-- A unit that accepts commands (R804): an engine instance, the Mule core pool, a unit. -/
inductive EUnit where
  | ox (n : Nat) | pony (n : Nat) | mule | solv (u : Nat) | drake (g : Nat) | coll | xag
deriving DecidableEq, Repr

/-- Where an issue decision is made: at a unit (R804), or at the front of a stream, where Goose refuses (R800), skips (R56) or
completes a command whose target is gone (R178). -/
inductive IssueAt where
  | unit (u : EUnit)
  | front (tenant stream : Nat)
deriving DecidableEq, Repr

/-- A bank parity error met by an array's pass (R170): the pass, counted from 0, and the cell. -/
structure BankParity where
  pass : Nat
  bank : Nat
  row : Nat
  col : Nat
deriving DecidableEq, Repr

/-- What besides its own rule happens while a Mule core executes an instruction (Table 7.14, R307, R308). -/
inductive MuleEv where
  | ok
  | parity (file reg : Nat)   -- register-file parity error, cause 4
  | gone (elem : Nat)         -- port or die-to-die path gone or timed out at element `elem`, cause 6
  | ue (line : Nat)           -- the access meets an uncorrectable LPDDR error in this line (R378)
  | eccCorr                   -- a cache error was corrected (R307)
  | l2Dirty (line : Nat)      -- an uncorrectable error in a dirty L2 line (R307)
deriving DecidableEq, Repr

/-- The sender of an MCTP message: its binding and endpoint (R637). -/
structure McSender where
  smbus : Bool
  eid : Nat
deriving DecidableEq, Repr

/-- The rights a fabric request needs, which name its kind (Table 14.2). -/
inductive FabKind where
  | load | store | mcast | add | lock | unlock
deriving DecidableEq, Repr

/-- A fabric request message (R568). `data` is the packed range of XSTORE, XMCAST and XADD; `bad` lists the offsets, within the
request, of bytes that come from poisoned lines. -/
structure FabReq where
  kind : FabKind
  srcNode : Nat
  srcTenant : Nat
  gen : Nat
  epoch : Nat
  tag : Nat
  job : Nat
  node : Nat
  tenant : Nat
  herd : Bool
  offset : Nat
  len : Nat
  data : List Byte
  bad : List Nat
  fmt : Nat
  ovf : Bool
  ord : Bool
  flow : Nat
  rsig : Bool
  rtok : Nat
deriving DecidableEq, Repr

/-- A fabric response message (R564, R568, R573). `cause` is 0 when the request was served (Table 14.3 otherwise); `flags` are the
record flags raised at the target; `data` and `bad` the bytes an XLOAD read; `val` the detail of an UNLOCK and the LOCK_BROKEN mark
of a LOCK. -/
structure FabResp where
  node : Nat
  epoch : Nat
  tenant : Nat
  gen : Nat
  tag : Nat
  cause : Nat
  data : List Byte
  bad : List Nat
  flags : Nat
  val : Nat
deriving DecidableEq, Repr

/-- A herd line: home node and tenant, and the line's offset in herd space divided by 64 (14.6). -/
structure HerdLine where
  node : Nat
  tenant : Nat
  line : Nat
deriving DecidableEq, Repr

/-- A herd message (Table 14.7): the line, the sender's member index, the grant tag, the data of the line, the poison mark of the
data, whether an SRSP carries data, its wbif mark, and for GETS and GETM the requesting tenant with its generation and job tag and the
transaction tag that a failure names (R563, R564, R568), and the sender's XAG.EPOCH (R594). -/
structure HerdMsg where
  line : HerdLine
  member : Nat
  tag : Nat
  data : List Byte
  poison : Bool
  present : Bool
  wbif : Bool
  srcTenant : Nat
  gen : Nat
  job : Nat
  xtag : Nat
  epoch : Nat
deriving DecidableEq, Repr

/-- The CAP flit body (Table 12.3). -/
structure CapBody where
  arch : Nat
  rclass : Nat
  genMax : Nat
  fec : Nat
  features : Nat
  lanes : Nat
  node : Nat
  link : Nat
  epoch : Nat
deriving DecidableEq, Repr

/-- A received flit after FEC decoding (Table 12.4): its header fields, its body, its CRC field (R492), the FEC symbols that were
corrected in it, and whether a parity error of a switch buffer strikes it (12.11). -/
structure Flit where
  seq : Nat
  ack : Nat
  vc : Nat
  level : Nat
  cvc : Nat
  clevel : Nat
  credits : Nat
  body : List Byte
  crc : Nat
  fixed : Nat
  struck : Bool
deriving DecidableEq, Repr

/-- The key of an all-reduce operation, as every message carries it (R546). -/
structure CollKey where
  tenant : Nat
  plan : Nat
  step : Nat
  opid : Nat
deriving DecidableEq, Repr

/-- A collective message (13.6): the key, the sender's rank, the instance tag, the piece, which of the data messages of the piece it is
(R543), the elements' values in the accumulation or output format, the poisoned elements, the flags, a grant's digest and shape (R547), an ABORT's cause and origin (R549), and the
instance tag of a child, carried with its first piece (R546). -/
structure CollMsg where
  key : CollKey
  rank : Nat
  tag : Nat
  piece : Nat
  part : Nat
  vals : List Nat
  bad : List Nat
  flags : Nat
  digest : Nat
  fmt : Nat
  count : Nat
  clog : Nat
  arr : Bool
  cause : Nat
  origin : Nat
  ctag : Nat
deriving DecidableEq, Repr

/-- A checkpoint message between Hen engines (R693 to R698): `chunk` 0 is the manifest, `chunk` i + 1 is chunk i;
`node` is the sender, `copy` the tenant's TEN_COPY value, `bad` the poisoned lines of a chunk, `epoch` the HEN.EPOCH of the engine that
opened the exchange, which every message of it carries (R705). -/
structure HenMsg where
  node : Nat
  origin : Nat
  tenant : Nat
  cut : Nat
  copy : Nat
  chunk : Nat
  data : List Byte
  bad : List Nat
  refused : Bool
  epoch : Nat
deriving DecidableEq, Repr

/-- What a lock's target learns of the owner's node (R592). -/
inductive LockNews where
  | notice                 -- a release notice of the owner's node
  | probeGen (gen : Nat)   -- a probe answer naming the tenant generation
  | probeLost              -- no answer within twice the fabric timeout
deriving DecidableEq, Repr

/-- Stored bytes of a memory line that have gone wrong (R375, R376): the line's local address divided by 64, and the places of the bytes.
A scratchpad line is stored as two words of 36 bytes, places 0 to 71; an LPDDR line as 68 bytes. -/
structure MemErr where
  line : Nat
  bad : List Nat
deriving DecidableEq, Repr

/-- A device's MR4 report (R370, Table 9.7): the temperature that it stands for in °C, and the refresh-rate field as read. -/
structure Mr4 where
  temp : Nat
  field : Nat
deriving DecidableEq, Repr

/-- A rank's row when a refresh falls due (R374): whether it has closed since the last one, and whether it is open now with demand accesses
queued to it. -/
structure RowUse where
  closed : Bool
  busy : Bool
deriving DecidableEq, Repr

/-- A piece that is combined (R541), and the elements that an uncorrectable error of the reduction memory or the staging strikes as they are
read (R552). -/
structure Combining where
  piece : Nat
  struck : List Nat := []
deriving DecidableEq, Repr

/-- What a solver command meets in its unit's structure memory (R348): how many single-bit errors, and an uncorrectable one. -/
structure StructErr where
  corrected : Nat := 0
  ue : Bool := false
deriving DecidableEq, Repr

/-- What the arbiter measures over a window (R654, R665): each group's draw and the leakage in W, the draw of the three clock
domains in W, and the hottest sensor of the four dies in °C. -/
structure PowerMeas where
  draw : List Nat
  leakage : Nat
  domain : List Nat
  temps : List Nat
deriving DecidableEq, Repr

/-- The outcome of a training or start-up check of one unit. -/
structure CheckResult where
  block : Block
  inst : Nat
  pass : Bool
deriving DecidableEq, Repr

/-- A firmware image written by PLDM firmware update (R741). -/
structure FwImage where
  authentic : Bool
  version : Nat
  digest : Nat
deriving DecidableEq, Repr

/-- The steps of the node: one constructor for each row of spec/opcode_table.json, in its order. -/
inductive Instr where
  /-- TAIL_WRITE (R31). Software writes a stream's TAIL count, the doorbell that makes new commands available to Goose. -/
  | tailWrite (r : Requester) (tenant stream value : Nat)
  /-- CPL_REL_WRITE (R31). Software writes CPL_REL, releasing completion slots so that Goose may fetch further commands. -/
  | cplRelWrite (r : Requester) (tenant stream value : Nat)
  /-- GOOSE_FETCH (R31). Goose fetches the command at a stream's head count once the tail count and the completion-slot room allow it, and runs the acceptance checks. -/
  | gooseFetch (tenant stream now : Nat)
  /-- COMMAND_ISSUE (R804). An engine instance, core pool or unit accepts the next ready command, chosen by arbitration class, round robin and energy fit. -/
  | commandIssue (site : IssueAt) (now : Nat)
  /-- COMMAND_COMPLETE (R43). An engine reports a command's completion; Goose writes the completion record, signals the token and raises any interrupt. -/
  | commandComplete (tenant stream count iter now : Nat)
  /-- DEFER_LIMIT_EXPIRE (R630). A command held with cause queue longer than TEN.DEFER_LIM completes REFUSED_QUEUE or REFUSED_QUOTA. -/
  | deferLimitExpire (tenant stream now : Nat)
  /-- NOP (R36). Goose completes the NOP command with no effect. -/
  | nop (tenant stream now : Nat)
  /-- WAIT (R47). The WAIT command completes DONE once its header wait and every enabled extra token wait are satisfied. -/
  | waitTok (tenant stream now : Nat)
  /-- SIGNAL (R47). The SIGNAL command adds inc to a token and optionally clears its error bit. -/
  | signalTok (tenant stream now : Nat)
  /-- FENCE (R47). The FENCE command completes once every earlier command of its stream, or of the tenant, has completed. -/
  | fenceCmd (tenant stream now : Nat)
  /-- STEP (R66). The STEP command ends a stream's part of the step, or in stream 0 closes the step, writes the ledger entry, decides the cut and increments the current step. -/
  | stepClose (tenant stream now : Nat)
  /-- CUT (R69). The CUT command marks the current step for a checkpoint cut and completes DONE. -/
  | cut (tenant stream now : Nat)
  /-- TEST (R54). The TEST command compares a summary slot with an immediate and skips the following commands when the condition does not hold. -/
  | testSlot (tenant stream now : Nat)
  /-- LOOP (R59). The LOOP command runs its fetched body a counted number of times and completes with the count of full iterations. -/
  | loopRun (tenant stream now : Nat)
  /-- MM (R140). The MM command runs a matrix product as passes on an Ox array and narrows the accumulators into C. -/
  | mm (array : Nat) (par : Option BankParity) (errs : List MemErr)
  /-- MM_SPLIT (R199). The MM_SPLIT command computes an FP32 or FP64 product by slicing the operands and recombining the exact slice products. -/
  | mmSplit (array : Nat) (par : Option BankParity) (errs : List MemErr)
  /-- LOAD_STAT (R166). The LOAD_STAT command loads a B tile into the bank of the array's next pass and holds it for a consuming MM. -/
  | loadStat (array : Nat)
  /-- STEER_ENTER (R181). The management controller sets OX.STEER_CTRL.enter to put an OFF or FAULT array into Steer mode. -/
  | steerEnter (r : Requester) (array : Nat)
  /-- STEER_LEAVE (R185). Clearing OX.STEER_CTRL.enter zeroes the banks and accumulators and puts the array into READY, FAULT or its entry state. -/
  | steerLeave (r : Requester) (array : Nat)
  /-- STEER_GO (R182). Writing OX.STEER_CTRL.go starts a Steer test with the seed and count, or sets ERR_STATUS if either is zero. -/
  | steerGo (r : Requester) (array : Nat)
  /-- STEER_TEST_END (R183). A Steer test ends, its CRC-64 signature is compared with STEER_EXPECT and done and fail are set. -/
  | steerTestEnd (array : Nat)
  /-- VOP (R218). The VOP command applies an element-wise function on a Pony slice and writes the output. -/
  | vop (slice : Nat) (badTable : List Nat) (errs : List MemErr)
  /-- VRED (R231). The VRED command reduces each row in fixed lane-and-tree order and may write a summary. -/
  | vred (slice : Nat) (errs : List MemErr)
  /-- VSUM (R229). The VSUM command reduces the whole tensor in fixed order into a summary slot. -/
  | vsum (slice : Nat) (errs : List MemErr)
  /-- VGEN (R236). The VGEN command fills a tensor from the keyed generator with a bits, uniform, normal or Bernoulli distribution. -/
  | vgen (slice : Nat) (badTable : List Nat)
  /-- MULE_RUN (R291). The MULE_RUN command loads and checks a kernel on n cores and starts or resumes the run. -/
  | muleRun (core : Nat)
  /-- MULE_RUN_END (R296). A run ends when every core has halted, stopped or is stuck at a barrier, and the summary and record are formed. -/
  | muleRunEnd (core : Nat)
  /-- BARRIER_RELEASE (R292). The cores waiting at barrier n continue once every other core of the run has reached it or halted. -/
  | barrierRelease (core : Nat)
  /-- SYS_NOP (R265). The Mule SYS NOP instruction does nothing. -/
  | sysNop (core : Nat) (ev : MuleEv)
  /-- SYS_HALT (R265). The Mule HALT instruction ends the core's part of the run. -/
  | sysHalt (core : Nat) (ev : MuleEv)
  /-- SYS_BAR (R292). The Mule BAR instruction makes the core wait at its next barrier. -/
  | sysBar (core : Nat) (ev : MuleEv)
  /-- SYS_RET (R262). The Mule RET instruction pops the return stack, or halts on an empty stack. -/
  | sysRet (core : Nat) (ev : MuleEv)
  /-- SYS_SUMI (R265). The Mule SUMI instruction sets the core's summary value from an integer register. -/
  | sysSumi (core : Nat) (ev : MuleEv)
  /-- SYS_SUMF (R265). The Mule SUMF instruction sets the core's summary value from an FP register. -/
  | sysSumf (core : Nat) (ev : MuleEv)
  /-- SYS_FSRR (R265). The Mule FSRR instruction reads the sticky flag register. -/
  | sysFsrr (core : Nat) (ev : MuleEv)
  /-- SYS_FSRC (R265). The Mule FSRC instruction clears selected sticky flags. -/
  | sysFsrc (core : Nat) (ev : MuleEv)
  /-- SYS_SETVL (R265). The Mule SETVL instruction sets the vector length for an element width. -/
  | sysSetvl (core : Nat) (ev : MuleEv)
  /-- IOP (R259). The Mule IOP instruction performs a 64-bit integer function. -/
  | iop (core : Nat) (ev : MuleEv)
  /-- ADDI (R260). The Mule ADDI instruction adds an immediate with wrap. -/
  | addi (core : Nat) (ev : MuleEv)
  /-- LIS (R260). The Mule LIS instruction shifts a register left 16 bits and inserts an immediate. -/
  | lis (core : Nat) (ev : MuleEv)
  /-- JT (R263). The Mule JT instruction jumps through a table of J words. -/
  | jt (core : Nat) (ev : MuleEv)
  /-- LD (R280). The Mule LD instruction loads 64 bits into an integer register. -/
  | ld (core : Nat) (ev : MuleEv)
  /-- ST (R280). The Mule ST instruction stores 64 bits from an integer register. -/
  | st (core : Nat) (ev : MuleEv)
  /-- LDW (R280). The Mule LDW instruction loads 32 bits sign-extended. -/
  | ldw (core : Nat) (ev : MuleEv)
  /-- LDWU (R280). The Mule LDWU instruction loads 32 bits zero-extended. -/
  | ldwu (core : Nat) (ev : MuleEv)
  /-- STW (R280). The Mule STW instruction stores 32 bits. -/
  | stw (core : Nat) (ev : MuleEv)
  /-- FLD (R280). The Mule FLD instruction loads 64 bits into an FP register. -/
  | fld (core : Nat) (ev : MuleEv)
  /-- FST (R280). The Mule FST instruction stores 64 bits from an FP register. -/
  | fst (core : Nat) (ev : MuleEv)
  /-- FOP (R266). The Mule FOP instruction performs a scalar FP64 function. -/
  | fop (core : Nat) (ev : MuleEv)
  /-- FMA (R267). The Mule FMA instruction performs a scalar fused multiply-add with one rounding. -/
  | fma (core : Nat) (ev : MuleEv)
  /-- FCMP (R268). The Mule FCMP instruction compares or classifies FP64 values. -/
  | fcmp (core : Nat) (ev : MuleEv)
  /-- FCVT (R269). The Mule FCVT instruction converts between FP64 and integers or bit patterns. -/
  | fcvt (core : Nat) (ev : MuleEv)
  /-- VFOP (R274). The Mule VFOP instruction applies an FP64 function to vector elements. -/
  | vfop (core : Nat) (ev : MuleEv)
  /-- VFOPS (R274). The Mule VFOPS instruction applies an FP64 function to vector elements and a scalar. -/
  | vfops (core : Nat) (ev : MuleEv)
  /-- VFMA (R274). The Mule VFMA instruction performs an element-wise fused multiply-add. -/
  | vfma (core : Nat) (ev : MuleEv)
  /-- VFMAS (R274). The Mule VFMAS instruction performs a fused multiply-add with a scalar multiplier. -/
  | vfmas (core : Nat) (ev : MuleEv)
  /-- VFCMP (R275). The Mule VFCMP instruction writes a mask of element comparisons. -/
  | vfcmp (core : Nat) (ev : MuleEv)
  /-- VFRED (R276). The Mule VFRED instruction reduces vector elements in fixed tree order. -/
  | vfred (core : Nat) (ev : MuleEv)
  /-- VFCVT (R274). The Mule VFCVT instruction converts vector elements. -/
  | vfcvt (core : Nat) (ev : MuleEv)
  /-- VI64 (R277). The Mule VI64 instruction performs integer and fixed-point functions on 64-bit elements. -/
  | vi64 (core : Nat) (ev : MuleEv)
  /-- VI32 (R277). The Mule VI32 instruction performs integer and fixed-point functions on 32-bit elements. -/
  | vi32 (core : Nat) (ev : MuleEv)
  /-- VI16 (R277). The Mule VI16 instruction performs integer and fixed-point functions on 16-bit elements. -/
  | vi16 (core : Nat) (ev : MuleEv)
  /-- VMISC (R279). The Mule VMISC instruction performs broadcasts, moves and mask operations. -/
  | vmisc (core : Nat) (ev : MuleEv)
  /-- VLD64 (R282). The Mule VLD64 instruction loads 64-bit vector elements by unit stride, stride or index. -/
  | vld64 (core : Nat) (ev : MuleEv)
  /-- VLD32 (R282). The Mule VLD32 instruction loads 32-bit vector elements. -/
  | vld32 (core : Nat) (ev : MuleEv)
  /-- VLD16 (R282). The Mule VLD16 instruction loads 16-bit vector elements. -/
  | vld16 (core : Nat) (ev : MuleEv)
  /-- VST64 (R282). The Mule VST64 instruction stores 64-bit vector elements. -/
  | vst64 (core : Nat) (ev : MuleEv)
  /-- VST32 (R282). The Mule VST32 instruction stores 32-bit vector elements. -/
  | vst32 (core : Nat) (ev : MuleEv)
  /-- VST16 (R282). The Mule VST16 instruction stores 16-bit vector elements. -/
  | vst16 (core : Nat) (ev : MuleEv)
  /-- BEQ (R261). The Mule BEQ instruction branches when two registers are equal. -/
  | beq (core : Nat) (ev : MuleEv)
  /-- BNE (R261). The Mule BNE instruction branches when two registers differ. -/
  | bne (core : Nat) (ev : MuleEv)
  /-- BLT (R261). The Mule BLT instruction branches on signed less-than. -/
  | blt (core : Nat) (ev : MuleEv)
  /-- BGE (R261). The Mule BGE instruction branches on signed greater-or-equal. -/
  | bge (core : Nat) (ev : MuleEv)
  /-- BLTU (R261). The Mule BLTU instruction branches on unsigned less-than. -/
  | bltu (core : Nat) (ev : MuleEv)
  /-- BGEU (R261). The Mule BGEU instruction branches on unsigned greater-or-equal. -/
  | bgeu (core : Nat) (ev : MuleEv)
  /-- J (R261). The Mule J instruction jumps by an offset. -/
  | j (core : Nat) (ev : MuleEv)
  /-- CALL (R262). The Mule CALL instruction pushes a return index and jumps. -/
  | call (core : Nat) (ev : MuleEv)
  /-- SOLVE_SETUP_CREATE (R321). SOLVE_SETUP create checks the descriptor, performs the symbolic analysis and builds a system in structure memory. -/
  | solveSetupCreate (u : Nat)
  /-- SOLVE_SETUP_RELEASE (R328). SOLVE_SETUP release zeroes a system's granules and frees them. -/
  | solveSetupRelease (u : Nat)
  /-- SOLVE_SETUP_MEASURE (R324). SOLVE_SETUP measure checks the descriptor and writes only the setup record. -/
  | solveSetupMeasure (u : Nat)
  /-- SOLVE_UPD (R331). The SOLVE_UPD command replaces or adds matrix values from a pair list and marks the factor stale. -/
  | solveUpd (u : Nat) (se : StructErr)
  /-- FACTOR (R334). SOLVE method FACTOR factors the system in structure order with pivot replacement. -/
  | factor (u : Nat) (se : StructErr)
  /-- DIRECT (R340). SOLVE method DIRECT sets x to the preconditioning solve of b. -/
  | direct (u : Nat) (se : StructErr)
  /-- REFINE (R342). SOLVE method REFINE runs iterative refinement with the factor. -/
  | refine (u : Nat) (se : StructErr)
  /-- CG (R342). SOLVE method CG runs preconditioned conjugate gradients. -/
  | cg (u : Nat) (se : StructErr)
  /-- BICGSTAB (R342). SOLVE method BICGSTAB runs preconditioned BiCGStab. -/
  | bicgstab (u : Nat) (se : StructErr)
  /-- MOVE (R417). The MOVE command copies element bits over a window with optional wrap. -/
  | moveT (group idx : Nat) (errs : List MemErr)
  /-- CONVERT (R418). The CONVERT command converts elements to another format, choosing block scales when asked. -/
  | convertT (group idx : Nat) (errs : List MemErr)
  /-- GATHER_WIDEN (R420). The GATHER_WIDEN command gathers along one dimension through an index tensor and widens. -/
  | gatherWiden (group idx : Nat) (errs : List MemErr)
  /-- PREFETCH (R429). The PREFETCH command fills a schedule of scratchpad slots, each entry committing when its slot is released. -/
  | prefetch (group idx : Nat)
  /-- PREFETCH_RUNAHEAD (R430). A Drake group reads a later PREFETCH entry into a staging block ahead of its commit. -/
  | prefetchRunahead (group idx entry : Nat)
  /-- PREFETCH_COMMIT (R429). A PREFETCH entry commits once its predecessors have and its release token is reached, writes its slot and signals fill_tok. -/
  | prefetchCommit (group idx : Nat)
  /-- PREFETCH_PROMOTE (R394). A PREFETCH's remaining traffic is promoted to demand level when its consumer is otherwise ready. -/
  | prefetchPromote (group idx : Nat)
  /-- ZERO (R426). The ZERO command writes zero into a tensor's extent, or passes a page range to the zeroing engines. -/
  | zeroT (group idx : Nat)
  /-- ALLREDUCE (R535). The ALLREDUCE command checks its plan and sums a tensor over the members in plan order. -/
  | allreduce
  /-- GRANT_SEND (R539). A rank reserves a segment or staging slot for a piece and sends a grant to all its children. -/
  | grantSend (slot piece : Nat)
  /-- GRANT (R547). A child receives a grant, compares the digest and shape, and sends its partial sum. -/
  | grant (m : CollMsg)
  /-- PARTIAL_SUM (R541). A rank receives a child's partial sum for a piece into the granted place. -/
  | partialSum (m : CollMsg)
  /-- PIECE_COMBINE (R541). A rank combines a piece once its input and all its children's sums have arrived, then sends it up or narrows at the root. -/
  | pieceCombine (slot : Nat) (c : Combining)
  /-- RESULT_PIECE (R542). A rank receives a result piece, writes its y and forwards it to its children. -/
  | resultPiece (m : CollMsg)
  /-- ACKNOWLEDGEMENT (R541). A rank receives an acknowledgement and frees the place of a piece. -/
  | acknowledgement (m : CollMsg)
  /-- ABORT (R549). A rank receives an ABORT, forwards it, acknowledges it and completes COLLECTIVE_ABORT. -/
  | abortMsg (m : CollMsg)
  /-- COLLECTIVE_WAIT_TIMEOUT (R548). A rank's wait for a grant, sum, acknowledgement or result exceeds the limit and it aborts with cause 1. -/
  | collectiveWaitTimeout (slot : Nat)
  /-- ABORT_HOLD_EXPIRE (R550). A held ABORT for an unissued operation expires after twice the wait limit. -/
  | abortHoldExpire (key : CollKey)
  /-- XLOAD (R570). The XLOAD command reads a remote range into the local tensor. -/
  | xload
  /-- XSTORE (R571). The XSTORE command writes the local tensor to a remote range and may signal a target token. -/
  | xstore
  /-- XMCAST (R572). The XMCAST command writes the same data to every member of a multicast group. -/
  | xmcast
  /-- XADD (R573). The XADD command adds the local tensor into a remote range by indivisible line updates. -/
  | xadd
  /-- XINVAL (R577). The XINVAL command invalidates open-space lines of the tenant's remote cache. -/
  | xinval
  /-- LOCK (R590). The LOCK command takes a remote lock or waits in its queue. -/
  | lockTake
  /-- UNLOCK (R591). The UNLOCK command releases a lock held by the requester, passing it to the oldest waiter. -/
  | lockRelease
  /-- REMOTE_REQUEST (R563). The target agent receives a fabric request, checks it in order and serves or fails it. -/
  | remoteRequest (m : FabReq)
  /-- REMOTE_RESPONSE (R564). The source agent receives a response and completes or advances the remote command. -/
  | remoteResponse (m : FabResp)
  /-- RMW_UNIT_SERVE (R575). A read-modify-write unit serves the next queued line operation. -/
  | rmwUnitServe (unit : Nat)
  /-- FABRIC_TIMEOUT (R731). A fabric request or lock wait of node `node` reaches the fabric timeout and completes TIMEOUT with cause 0. -/
  | fabricTimeout (node tag : Nat)
  /-- GETS (R583). The home receives GETS and grants a read-only copy or snoops the owner. -/
  | gets (m : HerdMsg)
  /-- GETM (R583). The home receives GETM and grants ownership after invalidating other copies. -/
  | getm (m : HerdMsg)
  /-- SNPS (R583). An owner receives SNPS, returns its data and keeps a shared copy. -/
  | snps (m : HerdMsg)
  /-- SNPI (R583). A member receives SNPI, invalidates its copy and returns data if owned. -/
  | snpi (m : HerdMsg)
  /-- DATA_S (R583). A member receives DATA_S and enters S. -/
  | dataS (m : HerdMsg)
  /-- DATA_M (R583). A member receives DATA_M with a grant tag and enters M. -/
  | dataM (m : HerdMsg)
  /-- SRSP (R585). The home receives a snoop answer and completes or holds the transaction. -/
  | srsp (m : HerdMsg)
  /-- WB (R584). The home receives a writeback, writes it to memory and updates the directory. -/
  | wb (m : HerdMsg)
  /-- EVC (R586). The home receives an eviction notice for a read-only copy. -/
  | evc (m : HerdMsg)
  /-- WB_ACK (R584). A member receives WB_ACK and leaves MI for I. -/
  | wbAck (m : HerdMsg)
  /-- HERD_EVICT (R584). A member evicts a herd line, sending WB or EVC. -/
  | herdEvict (line : HerdLine)
  /-- HERD_MEMBER_LEAVE (R597). A herd member leaves; its owned lines are poisoned and its shared copies dropped at the home. -/
  | herdMemberLeave (member : Nat)
  /-- LOCK_PROBE (R592). The lock probe period expires and the target probes the owner node of a lock with waiters. -/
  | lockProbe (tenant offset : Nat)
  /-- LOCK_RELEASE_NOTICE (R592). A target receives a release notice or a failed probe and breaks the lock. -/
  | lockReleaseNotice (tenant offset ownerNode ownerTenant : Nat) (news : LockNews)
  /-- REGION_SYNC (R561). Writing XAG.REGION_SYNC.go starts reading the region table. -/
  | regionSync (r : Requester)
  /-- REGION_TABLE_READ_END (R561). The region table read ends; the new table takes force or is rejected, and waiting requests resume. -/
  | regionTableReadEnd
  /-- HERD_CONFIG_WRITE (R602). The owner writes HERD or HERD_MEMBER, accepted only while the herd is off and no herd line is held. -/
  | herdConfigWrite (r : Requester) (reg value : Nat)
  /-- FAB_TMO_WRITE (R731). The owner writes the fabric timeout, ignored outside 100 µs to 1 s. -/
  | fabTmoWrite (r : Requester) (value : Nat)
  /-- LINK_ENABLE (R485). Setting WLINK.CTRL.enable moves a link from DISABLED to DOWN. -/
  | linkEnable (r : Requester) (link : Nat)
  /-- LINK_DETECT (R485). A DOWN link sees activity and enters DETECT. -/
  | linkDetect (link : Nat)
  /-- LINK_STATE_ADVANCE (R485). A bring-up state's work ends and the link enters the next state of Table 12.2. -/
  | linkStateAdvance (link lanes : Nat)
  /-- LINK_STATE_TIMEOUT (R486). A bring-up state exceeds its limit and the attempt fails. -/
  | linkStateTimeout (link : Nat)
  /-- ATTEMPT_BACKOFF_END (R486). The 100 ms wait after a failed attempt ends and the link returns to DETECT. -/
  | attemptBackoffEnd (link : Nat)
  /-- LINK_FAILED_RETRY (R485). A FAILED link returns to DETECT after 10 s. -/
  | linkFailedRetry (link : Nat)
  /-- CAP (R487). A link receives its partner's CAP flit and both ends compute the mode. -/
  | cap (link : Nat) (body : CapBody)
  /-- CAP_REPEAT (R487). The 10 µs repeat timer resends the CAP flit until the partner's arrives. -/
  | capRepeat (link : Nat)
  /-- VERIFY_END (R488). VERIFY ends; the link enters ACTIVE or retrains one mode lower. -/
  | verifyEnd (link : Nat) (flits : List (List Byte))
  /-- DATA_FLIT (R495). A receiver takes a data flit, checks CRC and sequence, and passes it to the switch or discards it. -/
  | dataFlit (link : Nat) (f : Flit)
  /-- IDLE_FLIT (R493). A receiver takes an idle flit carrying the ack and returned credits. -/
  | idleFlit (link : Nat) (f : Flit)
  /-- RETRY_REQUEST (R494). A sender receives a retry request and resends its replay buffer from the named sequence. -/
  | retryRequest (link : Nat) (f : Flit)
  /-- RETRY_REQUEST_REPEAT (R494). The 2 µs timer repeats a retry request until the expected flit arrives. -/
  | retryRequestRepeat (link : Nat)
  /-- LINK_ERROR_WINDOW (R497). A 1 ms error window ends and protection or adaptation retrains the link one mode down. -/
  | linkErrorWindow (link : Nat)
  /-- LINK_STEP_UP (R497). After 1 s without a trigger, or when data waits under psave, the link retrains one mode up. -/
  | linkStepUp (link : Nat)
  /-- LINK_IDLE_STEPDOWN (R497). With psave set and no traffic for idle_us, the link retrains to gen_floor. -/
  | linkIdleStepdown (link : Nat)
  /-- RETRAIN_END (R499). A retrain ends and the link resumes ACTIVE, resending unacknowledged flits. -/
  | retrainEnd (link : Nat)
  /-- LINK_OVERRIDE_RETURN (R498). The hysteresis expires and a link taken outside policy retrains into policy and an OVERRIDE entry is written. -/
  | linkOverrideReturn (link outsideUs : Nat)
  /-- LINK_DOWN (R516). A link leaves ACTIVE for DOWN or FAILED; queued flits are lost and the epoch increments. -/
  | linkDown (link : Nat) (failed : Bool)
  /-- ROUTE_HOLD_END (R513). A fixed-route hold started by a candidate change ends after the fabric timeout. -/
  | routeHoldEnd (hold : Nat)
  /-- NODE_CFG_WRITE (R519). The owner writes WSW.NODE_CFG or GRP_SIZE, accepted only while no link is ACTIVE. -/
  | nodeCfgWrite (r : Requester) (reg value : Nat)
  /-- SET_LOAD (R383). SPAD.SET_CMD load moves a shared set from EMPTY to LOADING. -/
  | setLoad (r : Requester) (die : Nat)
  /-- SET_ACTIVATE (R383). SPAD.SET_CMD activate starts computing digests and copying the set into the golden store. -/
  | setActivate (r : Requester) (die : Nat)
  /-- SET_ACTIVATE_DONE (R383). Digests and golden copies are written and the set becomes ACTIVE. -/
  | setActivateDone (die set : Nat)
  /-- SET_RETIRE (R383). SPAD.SET_CMD retire zeroes the pages, golden copies and digests and empties the set. -/
  | setRetire (r : Requester) (die : Nat)
  /-- SHARED_PAGE_RESTORE (R387). At the next tick the management plane restores a withdrawn page from its golden copy and writes a ledger entry. -/
  | sharedPageRestore (die page : Nat)
  /-- HOST_IMG_SUBMIT (R388). The owner sets SPAD.HOST_IMG.go; the image is checked and written to the page and golden copy. -/
  | hostImgSubmit (r : Requester) (die addr : Nat)
  /-- SET_IMAGE_TIMEOUT (R389). No valid host image arrives within SET_TMO and the set becomes FAILED. -/
  | setImageTimeout (die set : Nat)
  /-- SCRUB_READ (R381). Patrol scrub reads a line in its period and corrects or poisons it. -/
  | scrubRead (line : Nat) (bad : List Nat)
  /-- MR4_POLL (R370). Every 32 µs the controller reads MR4 and sets the refresh rate. -/
  | mr4Poll (port : Nat) (rank0 rank1 : List Mr4)
  /-- REFRESH_DUE (R374). A refresh interval ends and a rank owes a refresh, issued at once or postponed. -/
  | refreshDue (port rank : Nat) (row : RowUse)
  /-- WIN_WRITE (R367). A write to a WIN register, accepted only while the windows are unlocked, and revalidation of the set. -/
  | winWrite (r : Requester) (window value : Nat)
  /-- WIN_LOCK (R367). Setting LPC.WIN_CTRL.lock locks the windows, ignored while valid is 0. -/
  | winLock (r : Requester)
  /-- TENANT_SEAL (R391). A tenant requests the seal of a granule through TEN.SEAL.go. -/
  | tenantSeal (r : Requester) (tenant addr : Nat)
  /-- OWNER_SEAL (R391). The owner requests the seal of a granule through HOST.SEAL.go. -/
  | ownerSeal (r : Requester) (addr : Nat)
  /-- SEAL_TAKE_EFFECT (R391). Once earlier writes complete, the granule is sealed, hashed and entered in the ledger. -/
  | sealTakeEffect (granule : Nat)
  /-- ZREQ_SUBMIT (R623). The owner submits a local range for zeroing through HOST.ZREQ.go. -/
  | zreqSubmit (r : Requester) (pages : Nat)
  /-- ZERO_DONE (R623). A range's zeroing completes, its entry is removed and zero_done is raised. -/
  | zeroDone (idx : Nat)
  /-- ZERO_FILL_END (R719). A trained port's start-up zero fill ends and the port becomes READY. -/
  | zeroFillEnd (port : Nat)
  /-- TEN_MODE_WRITE (R442). A write to LEDG.TEN_MODE.replay, accepted only with the tenant's streams disabled, appends a GENESIS. -/
  | tenModeWrite (r : Requester) (value : Nat)
  /-- TEN_SEED_WRITE (R442). A write to LEDG.TEN_SEED, accepted only with the tenant's streams disabled, appends a GENESIS. -/
  | tenSeedWrite (r : Requester) (value : Nat)
  /-- TEN_SEAL_REQUEST (R470). Writing 1 to LEDG.TEN_MODE.seal seals the selected chain at the next tick. -/
  | tenSealRequest (r : Requester)
  /-- SEAL_PERIOD (R470). At each multiple of SEAL_MS the management plane seals every chain that has gained entries. -/
  | sealPeriod (fail : Bool)
  /-- LEDGER_ENTRY_WRITE (R474). A waiting ledger entry is written whole once the ring has room. -/
  | ledgerEntryWrite
  /-- RING_UNIT_RETRY (R472). A ring unit write that completed TARGET_GONE is retried until it completes. -/
  | ringUnitRetry
  /-- RING_CONFIG_WRITE (R472). The owner writes RING_BASE or RING_LOG, accepted only with the ring empty and the ring valid. -/
  | ringConfigWrite (r : Requester) (reg value : Nat)
  /-- RD_PTR_WRITE (R474). The owner advances RD_PTR, releasing ring space. -/
  | rdPtrWrite (r : Requester) (value : Nat)
  /-- TEN_STOP_WRITE (R475). A write to TEN_STOP or TEN_STOP_STEP sets or releases a replay stop point and clears hit. -/
  | tenStopWrite (r : Requester) (reg value : Nat)
  /-- STOP_HIT (R475). Every command up to the stop point has completed; hit is set and the stop event raised. -/
  | stopHit (tenant : Nat)
  /-- SYSTIME_WRITE (R714). The owner loads LEDG.SYSTIME, replacing the system time. -/
  | systimeWrite (r : Requester) (value : Nat)
  /-- STEP_REGISTER_WRITE (R70). A write to a context's STEP register, accepted only while all its streams are disabled. -/
  | stepRegisterWrite (r : Requester) (tenant value : Nat)
  /-- STREAM_EN_WRITE (R71). A write to STREAM_EN takes effect, or is held while a stream-0 STEP is in progress. -/
  | streamEnWrite (r : Requester) (tenant value : Nat)
  /-- CMD_BASE_WRITE (R625). A write to CMD_BASE, ignored while the stream is enabled. -/
  | cmdBaseWrite (r : Requester) (tenant stream value : Nat)
  /-- CPL_BASE_WRITE (R625). A write to CPL_BASE, ignored while the stream is enabled. -/
  | cplBaseWrite (r : Requester) (tenant stream value : Nat)
  /-- ARB_WRITE (R628). The owner writes TEN.ARB, ignored if reserved shares would exceed 192/256. -/
  | arbWrite (r : Requester) (tenant value : Nat)
  /-- TRANSLATION_INVALIDATE (R622). Writing TEN.INV.go invalidates cached translations of a range or the whole tenant. -/
  | translationInvalidate (r : Requester) (tenant value : Nat)
  /-- PF_BAR2_READ (R608). The host reads local memory through PF BAR2. -/
  | pfBar2Read (addr len : Nat) (errs : List MemErr)
  /-- PF_BAR2_WRITE (R608). The host writes local memory through PF BAR2. -/
  | pfBar2Write (addr : Nat) (data : List Byte)
  /-- VF_BAR2_READ (R609). The host reads tenant memory through a VF BAR2 window. -/
  | vfBar2Read (tenant addr len : Nat) (errs : List MemErr)
  /-- VF_BAR2_WRITE (R609). The host writes tenant memory through a VF BAR2 window. -/
  | vfBar2Write (tenant addr : Nat) (data : List Byte)
  /-- MSIX_UNMASK (R626). Unmasking an MSI-X vector sends one message for its pending raisings. -/
  | msixUnmask (fn vector : Nat)
  /-- PCIE_RESET (R606). A conventional reset or link loss resets the host interface and configuration space only. -/
  | pcieReset (linkLost : Bool)
  /-- OWN_CTRL_CLAIM (R613). A write of HOST.OWN_CTRL.claim through the PF claims an unowned node. -/
  | ownCtrlClaim (r : Requester)
  /-- OWN_CLAIM (R613). An MCTP OWN_CLAIM message claims an unowned node or is answered NOT_OWNER. -/
  | ownClaim (src : McSender)
  /-- OWN_STATUS (R637). An MCTP OWN_STATUS message is answered with the ownership state. -/
  | ownStatus (src : McSender)
  /-- OWN_CTRL_RELEASE (R615). The owner writes HOST.OWN_CTRL.release and the release sequence starts. -/
  | ownCtrlRelease (r : Requester)
  /-- OWN_RELEASE (R615). An MCTP OWN_RELEASE message from the owner starts the release sequence. -/
  | ownRelease (src : McSender)
  /-- OWN_FORCE (R615). An MCTP OWN_FORCE message from the board authority starts the release sequence. -/
  | ownForce (src : McSender)
  /-- RELEASE_LEDGER_WAIT_END (R615). The ledger drains or HOST.REL_TMO passes, and the release sequence enters ZEROING. -/
  | releaseLedgerWaitEnd (timedOut : Bool)
  /-- RELEASE_ZEROING_END (R615). Release zeroing ends; the node becomes UNOWNED and own_change is raised. -/
  | releaseZeroingEnd
  /-- TENANT_RESET (R634). A tenant reset is triggered by TEN.CTRL2.reset; Goose stops, records CANCELLED_RESET and increments the generation. -/
  | tenantReset (r : Requester) (tenant : Nat)
  /-- VF_FLR (R633). A Function Level Reset of a VF resets its tenant. -/
  | vfFlr (tenant : Nat)
  /-- PF_FLR (R633). A Function Level Reset of the PF resets every tenant. -/
  | pfFlr
  /-- VF_ENABLE_CLEAR (R633). Clearing VF Enable by a configuration write resets every tenant. -/
  | vfEnableClear
  /-- TENANT_RESET_DONE (R634). Engines have drained the tenant; its context is reset, ledger entries written and done raised. -/
  | tenantResetDone (tenant : Nat)
  /-- SET_ENDPOINT_ID (R637). An MCTP Set Endpoint ID message assigns the node's endpoint ID on a binding. -/
  | setEndpointId (smbus : Bool) (eid : Nat)
  /-- PLDM_DISCOVERY (R637). A PLDM Type 0 discovery command is answered. -/
  | pldmDiscovery (src : McSender)
  /-- PLDM_SENSOR_READ (R638). A PLDM request reads a numeric sensor. -/
  | pldmSensorRead (src : McSender) (sensor : Nat)
  /-- PLDM_SET_VALUE (R638). A PLDM command that sets a value, accepted only from the owner or the board authority. -/
  | pldmSetValue (src : McSender) (reg : Nat) (value : Nat)
  /-- PLDM_FIRMWARE_UPDATE (R741). PLDM firmware update writes and authenticates an image in the inactive slot. -/
  | pldmFirmwareUpdate (src : McSender) (image : FwImage)
  /-- GET_VERSION (R637). The SPDM GET_VERSION request is answered. -/
  | getVersion (src : McSender)
  /-- GET_CAPABILITIES (R637). The SPDM GET_CAPABILITIES request is answered. -/
  | getCapabilities (src : McSender)
  /-- NEGOTIATE_ALGORITHMS (R637). The SPDM NEGOTIATE_ALGORITHMS request is answered. -/
  | negotiateAlgorithms (src : McSender)
  /-- GET_DIGESTS (R639). The SPDM GET_DIGESTS request returns certificate chain digests. -/
  | getDigests (src : McSender)
  /-- GET_CERTIFICATE (R639). The SPDM GET_CERTIFICATE request returns a certificate chain from slot 0 or 1. -/
  | getCertificate (src : McSender) (slot : Nat)
  /-- CHALLENGE (R637). The SPDM CHALLENGE request is answered with a signed response. -/
  | challenge (src : McSender) (slot : Nat) (nonce : Nat)
  /-- GET_MEASUREMENTS (R639). The SPDM GET_MEASUREMENTS request returns firmware, configuration and fingerprint measurements. -/
  | getMeasurements (src : McSender) (index : Nat)
  /-- GRANT_BOUNDARY (R654). At each 10 µs boundary the arbiter computes grants, refills balances and applies new budgets. -/
  | grantBoundary (meas : PowerMeas)
  /-- CLOCK_SWITCH (R649). A frequency change reaches its switch edge and the new period begins. -/
  | clockSwitch (domain : Nat)
  /-- LIMIT_WRITE (R4). A write to PWR.LIMIT, refused outside the grade range. -/
  | limitWrite (r : Requester) (value : Nat)
  /-- GRP_POL_WRITE (R655). A write to PWR.GRP_POL, ignored if the floors would exceed the limit minus 140 W. -/
  | grpPolWrite (r : Requester) (value : Nat)
  /-- CLK_POL_WRITE (R648). A write to PWR.CLK_POL, ignored with floor above ceiling. -/
  | clkPolWrite (r : Requester) (value : Nat)
  /-- CURRENT_LIMIT (R666). A core rail exceeds its current limit; clocks drop 200 MHz and rail grants are halved. -/
  | currentLimit (rail : Nat)
  /-- THERM_WARN (R666). A die sensor reaches 105 °C; clocks step down and grants are cut to floors. -/
  | thermWarn (die temp : Nat)
  /-- THERMAL_HOLD_EXPIRE (R666). Cause 2 persists 100 ms, or a sensor reaches 110 °C, and Lamb mode is entered. -/
  | thermalHoldExpire (die temp : Nat)
  /-- THERMAL_TRIP (R671). A sensor reaches 120 °C; TRIP_N goes low and every clock except mgmt_clk stops. -/
  | thermalTrip (die : Nat)
  /-- BRAKE_ASSERT (R672). BRAKE_N held low 0.5 µs halves the clocks and caps the limit at half. -/
  | brakeAssert
  /-- RAIL_FAULT (R785). A rail stays outside its margin more than 5 µs; Lamb mode, or power-on reset for VDD_AON or VDDIO. -/
  | railFault (rail : Nat)
  /-- OVERRIDE_EPISODE_END (R666). A protection cause clears for its hysteresis; the node returns to policy and an OVERRIDE entry is written. -/
  | overrideEpisodeEnd (cause : Nat) (us : Nat)
  /-- TEN_COPY_WRITE (R681). A write to HEN.TEN_COPY, ignored if the slots overflow or overlap. -/
  | tenCopyWrite (r : Requester) (value : Nat)
  /-- TEN_TRIG_WRITE (R684). A write to HEN.TEN_TRIG sets the triggers and restarts the timer base. -/
  | tenTrigWrite (r : Requester) (value : Nat)
  /-- CHUNK_COPY (R688). Hen copies and hashes a chunk of a cut, first and at demand level when a write to it is held. -/
  | chunkCopy (tenant : Nat)
  /-- CUT_COMPLETE (R691). All chunks and the manifest are written; the slot is marked complete and the CUT entry written. -/
  | cutComplete (tenant : Nat)
  /-- BUDDY_DRAIN_CHUNK (R693). Hen sends the manifest or a chunk of the newest complete cut to the buddy. -/
  | buddyDrainChunk
  /-- BUDDY_CHUNK_RECEIVE (R694). The buddy receives and checks a drained chunk into its hold area. -/
  | buddyChunkReceive (m : HenMsg)
  /-- BUDDY_ACK (R694). The origin receives the buddy's acknowledgement and sets SLOT_STAT.buddy. -/
  | buddyAck (m : HenMsg)
  /-- DRAIN_RESTART (R695). A failed drain restarts from the manifest 1 s later. -/
  | drainRestart
  /-- REST_GO (R697). Writing HEN.REST_CTRL.go starts a restore if the target tenant allows it. -/
  | restGo (r : Requester) (value : Nat)
  /-- REBUILD_REQUEST (R698). A buddy receives a request for a held cut and serves it if authorised. -/
  | rebuildRequest (m : HenMsg)
  /-- REST_CHECK (R699). Hen checks the manifest and chunks and lists missing ones, entering NEED_HOST. -/
  | restCheck
  /-- REST_HOST_DONE (R699). Writing REST_CTRL.host_done makes Hen check the host-written chunks. -/
  | restHostDone (r : Requester)
  /-- REST_ABORT (R700). Writing REST_CTRL.abort aborts the restore with cause 2. -/
  | restAbort (r : Requester)
  /-- REST_TIMEOUT (R700). REST_TMO passes in NEED_HOST and the restore aborts with cause 2. -/
  | restTimeout
  /-- REST_APPLY (R701). Hen applies a checked cut to the tenant and writes the RESTORE entry. -/
  | restApply
  /-- MGMT_TICK (R740). The 1 ms management tick takes snapshots, reconciles FENCED blocks and evaluates tick-driven work. -/
  | mgmtTick
  /-- AVAIL_MAKE_READY (R733). AVAIL action 1 makes a block READY if its state matches, else fences it. -/
  | availMakeReady (expect : Nat)
  /-- AVAIL_QUIESCE_OFF (R733). AVAIL action 2 quiesces a block to OFF if its state matches, else fences it. -/
  | availQuiesceOff (expect : Nat)
  /-- AVAIL_RESET_CHECK (R733). AVAIL action 3 resets a block and runs its start-up check, giving READY or FAULT. -/
  | availResetCheck (expect : Nat) (bad : List Nat)
  /-- AVAIL_LEAVE_FENCED (R733). AVAIL action 4 moves a FENCED block to READY. -/
  | availLeaveFenced (expect : Nat)
  /-- BLOCK_QUIESCE (R726). A write of CTRL.quiesce quiesces a block to OFF. -/
  | blockQuiesce (r : Requester) (block : Block) (inst : Nat)
  /-- BLOCK_RESET (R775). A write of CTRL.reset resets one block instance under its chapter, incrementing EPOCH. -/
  | blockReset (r : Requester) (block : Block) (inst : Nat)
  /-- QUIESCE_TIMEOUT (R727). A block not quiesced within QUIESCE_TMO is reset at once. -/
  | quiesceTimeout (block : Block) (inst : Nat)
  /-- D2D_TIMEOUT (R730). A die-to-die request reaches 50 µs and completes TARGET_GONE. -/
  | d2dTimeout (block : Block) (inst : Nat) (unit : EUnit) (idx : Nat)
  /-- CONTROL_FAULT (R735). An uncorrectable error in control state is a class 7 fault and enters Lamb mode. -/
  | controlFault (block : Block) (inst : Nat)
  /-- LAMB_CTRL_ENTER (R744). The owner writes MGMT.LAMB_CTRL.enter, entering Lamb mode with cause 5. -/
  | lambCtrlEnter (r : Requester)
  /-- NODE_RESET (R723). MGMT.NODE_RST.go resets every block and reruns start-up from phase 2. -/
  | nodeReset (r : Requester)
  /-- MGMT_RESTART (R742). MGMT_CTRL.restart or firmware activation restarts the management firmware. -/
  | mgmtRestart (r : Requester)
  /-- MGMT_RESTART_END (R742). A management restart ends, ticks resume and pending entries are written. -/
  | mgmtRestartEnd
  /-- WATCHDOG_EXPIRE (R743). The management watchdog expires and the firmware restarts, rolling back if needed. -/
  | watchdogExpire
  /-- POWER_ON_RESET (R798). POR_N is asserted and the node resets at once. -/
  | powerOnReset
  /-- POR_RELEASE (R718). POR_N is released and start-up phase 1 begins. -/
  | porRelease
  /-- STARTUP_PHASE_END (R718). A start-up phase ends and the next begins, or start-up completes. -/
  | startupPhaseEnd (results : List CheckResult)
  /-- INDEX_REGISTER_WRITE (R762). A write to an index register discards the requester's staged words in the page. -/
  | indexRegisterWrite (r : Requester) (block : Block) (inst off value : Nat)
  /-- EVENT_WRITE (R651). Writing 1 to an EVENT bit clears the bit and its count. -/
  | eventWrite (r : Requester) (block : Block) (inst mask : Nat)
  /-- REGISTER_WRITE (R761). A write to a register with no row of its own, staged or committed and checked for access and reserved values. -/
  | registerWrite (r : Requester) (addr width value : Nat)
  /-- TAP_RESET (R793). TRST_N or POR_N low resets the test access port. -/
  | tapReset
  /-- IDCODE (R793). The JTAG IDCODE instruction returns the stepping's IDCODE. -/
  | idcode
  /-- BYPASS (R793). The JTAG BYPASS instruction selects the bypass register. -/
  | bypassTap
  /-- SAMPLE_PRELOAD (R793). The JTAG SAMPLE/PRELOAD instruction, acting as BYPASS unless UNOWNED. -/
  | samplePreload
  /-- EXTEST (R793). The JTAG EXTEST instruction, acting as BYPASS unless UNOWNED. -/
  | extestTap
  /-- EXTEST_PULSE (R793). The IEEE 1149.6 EXTEST_PULSE instruction on link and PCIe lanes, only while UNOWNED. -/
  | extestPulse
  /-- EXTEST_TRAIN (R793). The IEEE 1149.6 EXTEST_TRAIN instruction on link and PCIe lanes, only while UNOWNED. -/
  | extestTrain
  /-- LANE_LOCK_LOSS (R497). A receive lane of an ACTIVE link loses lock, and protection retrains the link one mode down regardless of policy. -/
  | laneLockLoss (link lane : Nat)
  /-- PCIE_LINK_UP (R643). The PCIe link finishes training and comes up, raising HOST.EVENT.link_up. -/
  | pcieLinkUp (gen width : Nat) (flit : Bool)
  /-- VF_ENABLE_SET (R606). A configuration write sets NumVFs and VF Enable, letting tenants' VFs decode and resume. -/
  | vfEnableSet (numVfs : Nat)
  /-- D3HOT (R605). A configuration write puts the PF or a VF into D3hot or back to D0, stopping or resuming that function's interrupts and BAR decoding. -/
  | d3hot (fn : Nat) (on : Bool)
  /-- REGISTER_SNAPSHOT_READ (R763). A read of the lowest word of a register wider than 32 bits takes a snapshot of the whole register for the requester. -/
  | registerSnapshotRead (r : Requester) (addr width : Nat)
  /-- OWNER_NODE_PROBE (R592). A lock owner's node receives a probe from a lock's target and answers with its tenant's current generation. -/
  | ownerNodeProbe (node tenant offset ownerTenant : Nat)
  /-- REBUILD_CHUNK_RECEIVE (R698). A restoring node receives the manifest, a chunk or a refusal from the buddy it asked, and fills its slot. -/
  | rebuildChunkReceive (m : HenMsg)
  /-- CHUNK_REQUESTED_AGAIN (R694). The origin receives the buddy's request to resend a chunk that failed its check and resends it once. -/
  | chunkRequestedAgain (m : HenMsg)
deriving DecidableEq, Repr

end Sys2Proof
end

