-- ==== Sys2Proof/Config.lean ====
section
/-! DEFINITION. What one node fixes and what the spec leaves free: constants without a body, so that no proof can see a value. -/

namespace Sys2Proof.Config

/-- R468: the node's ledger signing key, generated at manufacture and never revealed. -/
opaque signingKey : Nat

/-- R639: the private key of the leaf certificate of slot 0, the device identity. -/
opaque deviceKey : Nat

/-- R639: the chain of slot 0 before the subject serialNumber of its leaf certificate. -/
opaque certHead : List Byte

/-- R639: the chain of slot 0 after that serialNumber, which its signature covers. -/
opaque certTail : List Byte → List Byte

/-- R639: the chain of slot 1, that of the ledger key. -/
opaque ledgerChain : List Byte

/-- Where the Device Serial Number capability stands in the PF's configuration space (R604). -/
opaque serialCap : Nat

/-- R177, R185: the seed and the count of the start-up Steer test, part of the signed management firmware. -/
opaque steerTest : Nat × Nat

/-- R375, R376: check symbol `i` of the three that a stored word or line carries beside its data and its tag; the spec does not give the
code's generator. -/
opaque checkSymbol : List Byte → Byte → Nat → Byte

/-- A byte whose value the spec does not state, by the number of free values drawn before it (notes/assumptions, free values). -/
opaque freeByte : Nat → Byte

/-- A 64-bit word whose value the spec does not state, by the number of free values drawn before it. -/
opaque freeWord : Nat → W64

/-- What a PERF counter of cycles, waits or memory traffic shows beyond the value last written: by page key, counter, and moment. -/
opaque perfPart : Nat → Nat → Nat → W64

end Sys2Proof.Config
end

