-- ==== Sys2Proof/Machine/Tab.lean ====
section
/-! DEFINITION. Sparse tables: lookup and update by number. -/

namespace Sys2Proof.Machine

/-- The entry of `k`, if listed. -/
def tabFind {α : Type} : Tab α → Nat → Option α
  | [], _ => none
  | (j, v) :: t, k => if j = k then some v else tabFind t k

/-- The entry of `k`, or `d` where none is listed. -/
def tabGet {α : Type} (d : α) (t : Tab α) (k : Nat) : α := (tabFind t k).getD d

/-- The table with `k` set to `v`, keys kept rising. -/
def tabSet {α : Type} : Tab α → Nat → α → Tab α
  | [], k, v => [(k, v)]
  | (j, w) :: t, k, v =>
    if j = k then (k, v) :: t
    else if k < j then (k, v) :: (j, w) :: t
    else (j, w) :: tabSet t k v

/-- The table without `k`. -/
def tabDel {α : Type} (t : Tab α) (k : Nat) : Tab α := t.filter (fun e => e.1 != k)

/-- The table with the entry of `k` (or `d` where none is listed) replaced by `f` of it. -/
def tabMod {α : Type} (d : α) (t : Tab α) (k : Nat) (f : α → α) : Tab α := tabSet t k (f (tabGet d t k))

/-- Every entry's contents changed by `f`. -/
def tabMap {α : Type} (t : Tab α) (f : Nat → α → α) : Tab α := t.map (fun e => (e.1, f e.1 e.2))

/-- Item `i` of a list set to `v`, the list unchanged where it has no item `i`. -/
def listSet {α : Type} (l : List α) (i : Nat) (v : α) : List α := l.set i v

/-- Item `i` of a list changed by `f`. -/
def listMod {α : Type} (l : List α) (i : Nat) (f : α → α) : List α := l.modify i f

/-- The position of the first item that `p` accepts. -/
def listIdx {α : Type} (p : α → Bool) (l : List α) : Option Nat := l.findIdx? p

/-- The numbers `a`, `a + 1`, …, `a + n - 1`. -/
def natsFrom (a n : Nat) : List Nat := (List.range n).map (· + a)

end Sys2Proof.Machine
end

