-- ==== Sys2Proof/Machine/Hash.lean ====
section
/-! DEFINITION. Digests, checks and signatures: SHA-256 and SHA-384, CRC-64 and CRC-32, ECDSA P-384 with the nonce of RFC 6979. -/

namespace Sys2Proof.Machine

/-- A right rotation of a word of `w` bits. -/
def rotr (w n x : Nat) : Nat := (x >>> n) ||| ((x <<< (w - n)) % 2 ^ w)

/-- A left rotation of a 32-bit word (R452). -/
def rotl32 (x c : Nat) : Nat := ((x <<< c) ||| (x >>> (32 - c))) % 2 ^ 32

/-- The round constants of SHA-256 (FIPS 180-4). -/
def sha256K : List Nat :=
  [0x428A2F98, 0x71374491, 0xB5C0FBCF, 0xE9B5DBA5, 0x3956C25B, 0x59F111F1, 0x923F82A4, 0xAB1C5ED5] ++
  [0xD807AA98, 0x12835B01, 0x243185BE, 0x550C7DC3, 0x72BE5D74, 0x80DEB1FE, 0x9BDC06A7, 0xC19BF174] ++
  [0xE49B69C1, 0xEFBE4786, 0x0FC19DC6, 0x240CA1CC, 0x2DE92C6F, 0x4A7484AA, 0x5CB0A9DC, 0x76F988DA] ++
  [0x983E5152, 0xA831C66D, 0xB00327C8, 0xBF597FC7, 0xC6E00BF3, 0xD5A79147, 0x06CA6351, 0x14292967] ++
  [0x27B70A85, 0x2E1B2138, 0x4D2C6DFC, 0x53380D13, 0x650A7354, 0x766A0ABB, 0x81C2C92E, 0x92722C85] ++
  [0xA2BFE8A1, 0xA81A664B, 0xC24B8B70, 0xC76C51A3, 0xD192E819, 0xD6990624, 0xF40E3585, 0x106AA070] ++
  [0x19A4C116, 0x1E376C08, 0x2748774C, 0x34B0BCB5, 0x391C0CB3, 0x4ED8AA4A, 0x5B9CCA4F, 0x682E6FF3] ++
  [0x748F82EE, 0x78A5636F, 0x84C87814, 0x8CC70208, 0x90BEFFFA, 0xA4506CEB, 0xBEF9A3F7, 0xC67178F2]

/-- The initial hash value of SHA-256. -/
def sha256H : List Nat :=
  [0x6A09E667, 0xBB67AE85, 0x3C6EF372, 0xA54FF53A, 0x510E527F, 0x9B05688C, 0x1F83D9AB, 0x5BE0CD19]

/-- The round constants of SHA-512, which SHA-384 uses. -/
def sha512K : List Nat :=
  [0x428A2F98D728AE22, 0x7137449123EF65CD, 0xB5C0FBCFEC4D3B2F, 0xE9B5DBA58189DBBC, 0x3956C25BF348B538, 0x59F111F1B605D019, 0x923F82A4AF194F9B, 0xAB1C5ED5DA6D8118] ++
  [0xD807AA98A3030242, 0x12835B0145706FBE, 0x243185BE4EE4B28C, 0x550C7DC3D5FFB4E2, 0x72BE5D74F27B896F, 0x80DEB1FE3B1696B1, 0x9BDC06A725C71235, 0xC19BF174CF692694] ++
  [0xE49B69C19EF14AD2, 0xEFBE4786384F25E3, 0x0FC19DC68B8CD5B5, 0x240CA1CC77AC9C65, 0x2DE92C6F592B0275, 0x4A7484AA6EA6E483, 0x5CB0A9DCBD41FBD4, 0x76F988DA831153B5] ++
  [0x983E5152EE66DFAB, 0xA831C66D2DB43210, 0xB00327C898FB213F, 0xBF597FC7BEEF0EE4, 0xC6E00BF33DA88FC2, 0xD5A79147930AA725, 0x06CA6351E003826F, 0x142929670A0E6E70] ++
  [0x27B70A8546D22FFC, 0x2E1B21385C26C926, 0x4D2C6DFC5AC42AED, 0x53380D139D95B3DF, 0x650A73548BAF63DE, 0x766A0ABB3C77B2A8, 0x81C2C92E47EDAEE6, 0x92722C851482353B] ++
  [0xA2BFE8A14CF10364, 0xA81A664BBC423001, 0xC24B8B70D0F89791, 0xC76C51A30654BE30, 0xD192E819D6EF5218, 0xD69906245565A910, 0xF40E35855771202A, 0x106AA07032BBD1B8] ++
  [0x19A4C116B8D2D0C8, 0x1E376C085141AB53, 0x2748774CDF8EEB99, 0x34B0BCB5E19B48A8, 0x391C0CB3C5C95A63, 0x4ED8AA4AE3418ACB, 0x5B9CCA4F7763E373, 0x682E6FF3D6B2B8A3] ++
  [0x748F82EE5DEFB2FC, 0x78A5636F43172F60, 0x84C87814A1F0AB72, 0x8CC702081A6439EC, 0x90BEFFFA23631E28, 0xA4506CEBDE82BDE9, 0xBEF9A3F7B2C67915, 0xC67178F2E372532B] ++
  [0xCA273ECEEA26619C, 0xD186B8C721C0C207, 0xEADA7DD6CDE0EB1E, 0xF57D4F7FEE6ED178, 0x06F067AA72176FBA, 0x0A637DC5A2C898A6, 0x113F9804BEF90DAE, 0x1B710B35131C471B] ++
  [0x28DB77F523047D84, 0x32CAAB7B40C72493, 0x3C9EBE0A15C9BEBC, 0x431D67C49C100D4C, 0x4CC5D4BECB3E42B6, 0x597F299CFC657E2A, 0x5FCB6FAB3AD6FAEC, 0x6C44198C4A475817]

/-- The initial hash value of SHA-384. -/
def sha384H : List Nat :=
  [0xCBBB9D5DC1059ED8, 0x629A292A367CD507, 0x9159015A3070DD17, 0x152FECD8F70E5939, 0x67332667FFC00B31, 0x8EB44A8768581511, 0xDB0C2E0D64F98FA7, 0x47B5481DBEFA4FA4]

/-- The shift amounts of a SHA-2 function: Σ0, Σ1 and σ0, σ1 (rotations and, for σ, a shift). -/
structure ShaShape where
  w : Nat
  s0 : Nat × Nat × Nat
  s1 : Nat × Nat × Nat
  g0 : Nat × Nat × Nat
  g1 : Nat × Nat × Nat

/-- SHA-256's amounts. -/
def shape256 : ShaShape := ⟨32, (2, 13, 22), (6, 11, 25), (7, 18, 3), (17, 19, 10)⟩

/-- SHA-512's amounts. -/
def shape512 : ShaShape := ⟨64, (28, 34, 39), (14, 18, 41), (1, 8, 7), (19, 61, 6)⟩

/-- Σ of three rotations. -/
def shaBig (w : Nat) (r : Nat × Nat × Nat) (x : Nat) : Nat := Nat.xor (Nat.xor (rotr w r.1 x) (rotr w r.2.1 x)) (rotr w r.2.2 x)

/-- σ of two rotations and a shift. -/
def shaSmall (w : Nat) (r : Nat × Nat × Nat) (x : Nat) : Nat := Nat.xor (Nat.xor (rotr w r.1 x) (rotr w r.2.1 x)) (x >>> r.2.2)

/-- The message schedule, newest word first. -/
def shaSchedule (h : ShaShape) : Nat → List Nat → List Nat
  | 0, ws => ws
  | n + 1, ws =>
    shaSchedule h n
      (((shaSmall h.w h.g1 (ws.getD 1 0) + ws.getD 6 0 + shaSmall h.w h.g0 (ws.getD 14 0) + ws.getD 15 0) % 2 ^ h.w) :: ws)

/-- One round over the eight working words. -/
def shaRound (h : ShaShape) (v : List Nat) (kw : Nat) : List Nat :=
  match v with
  | [a, b, c, d, e, f, g, hh] =>
    let t1 := hh + shaBig h.w h.s1 e + Nat.xor (e &&& f) (((2 ^ h.w - 1) - e) &&& g) + kw
    let t2 := shaBig h.w h.s0 a + Nat.xor (Nat.xor (a &&& b) (a &&& c)) (b &&& c)
    [(t1 + t2) % 2 ^ h.w, a, b, c, (d + t1) % 2 ^ h.w, e, f, g]
  | v => v

/-- One block: the schedule and the rounds. -/
def shaBlock (h : ShaShape) (ks : List Nat) (hs : List Nat) (block : List Nat) : List Nat :=
  let ws := (shaSchedule h (ks.length - 16) block.reverse).reverse
  let v := ((ks.zip ws).map (fun x => x.1 + x.2)).foldl (shaRound h) hs
  (hs.zip v).map (fun x => (x.1 + x.2) % 2 ^ h.w)

/-- A list cut into pieces of `n`; `fuel` bounds the pieces. -/
def piecesOf {α : Type} (n : Nat) : Nat → List α → List (List α)
  | 0, _ => []
  | fuel + 1, l => if l.isEmpty then [] else l.take n :: piecesOf n fuel (l.drop n)

/-- The padded message of SHA-2 with blocks of `16 × w` bits. -/
def shaPad (w : Nat) (m : List Byte) : List Byte :=
  let blk := 2 * w
  let z := (blk - (m.length + 1 + w / 4) % blk) % blk
  m ++ [(0x80 : Byte)] ++ List.replicate z 0 ++ beBytes (w / 4) (8 * m.length)

/-- The digest words of a message. -/
def shaWords (h : ShaShape) (ks hs : List Nat) (m : List Byte) : List Nat :=
  let ws := (piecesOf (h.w / 8) (m.length + 64) (shaPad h.w m)).map beNat
  (piecesOf 16 (ws.length + 1) ws).foldl (shaBlock h ks) hs

/-- SHA-256 as 32 bytes. [DESIGN CHOICE, log 88] -/
def sha256 (m : List Byte) : List Byte := (shaWords shape256 sha256K sha256H m).flatMap (beBytes 4)

/-- SHA-384 as 48 bytes. [DESIGN CHOICE, log 88] -/
def sha384 (m : List Byte) : List Byte := ((shaWords shape512 sha512K sha384H m).take 6).flatMap (beBytes 8)

/-- HMAC with SHA-384 (FIPS 198-1). -/
def hmac384 (key m : List Byte) : List Byte :=
  let k0 := if key.length > 128 then sha384 key else key
  let k := k0 ++ List.replicate (128 - k0.length) 0
  sha384 (k.map (· ^^^ 0x5C) ++ sha384 (k.map (· ^^^ 0x36) ++ m))

/-! CRCs. -/

/-- One bit into a CRC register of `w` bits, most significant bit first. -/
def crcBit (w poly : Nat) (r : Nat) (b : Bool) : Nat :=
  let top := r.testBit (w - 1) != b
  let r := (r <<< 1) % 2 ^ w
  if top then Nat.xor r poly else r

/-- One byte into a CRC register, most significant bit first. -/
def crcByte (w poly : Nat) (r : Nat) (b : Byte) : Nat :=
  (List.range 8).foldl (fun r i => crcBit w poly r (b.toNat.testBit (7 - i))) r

/-- R492: the CRC-32 of IEEE 802.3, reflected, initial value and final XOR all ones. [DESIGN CHOICE, log 88] -/
def crc32 (m : List Byte) : Nat :=
  Nat.xor (revBits 32 (m.foldl (fun r b => crcByte 32 0x04C11DB7 r (BitVec.ofNat 8 (revBits 8 b.toNat))) 0xFFFFFFFF)) 0xFFFFFFFF

/-! ECDSA on curve P-384 (FIPS 186-5) with the deterministic nonce of RFC 6979 (R468, R469). -/

/-- The field prime. -/
def p384P : Nat := 2 ^ 384 - 2 ^ 128 - 2 ^ 96 + 2 ^ 32 - 1
/-- The group order. -/
def p384N : Nat := 0xFFFFFFFFFFFFFFFFFFFFFFFFFFFFFFFFFFFFFFFFFFFFFFFFC7634D81F4372DDF581A0DB248B0A77AECEC196ACCC52973
/-- The base point's x. -/
def p384Gx : Nat := 0xAA87CA22BE8B05378EB1C71EF320AD746E1D3B628BA79B9859F741E082542A385502F25DBF55296C3A545E3872760AB7
/-- The base point's y. -/
def p384Gy : Nat := 0x3617DE4A96262C6F5D9E98BF9292DC29F8F41DBD289A147CE9DA3113B5F0B8C00A60B1CE1D7E819D7A431D7C90EA0E5F

/-- x to the power of a number of `n` bits, modulo `m`. -/
def powMod (m x e : Nat) : Nat → Nat
  | 0 => 1 % m
  | n + 1 =>
    let r := powMod m x e n
    let i := n
    -- bits are taken from the top: bit i of the reversed count
    let r2 := r * r % m
    if e.testBit (Nat.log2 e - i) then r2 * x % m else r2

/-- The inverse modulo a prime. -/
def invMod (p x : Nat) : Nat := powMod p (x % p) (p - 2) (Nat.log2 (p - 2) + 1)

/-- A point of the curve; none is the point at infinity. -/
abbrev Point := Option (Nat × Nat)

/-- The sum of two points. -/
def ptAdd (a b : Point) : Point :=
  match a, b with
  | none, b => b
  | a, none => a
  | some (x1, y1), some (x2, y2) =>
    if x1 = x2 ∧ (y1 + y2) % p384P = 0 then none
    else
      let l := if x1 = x2 then (3 * x1 * x1 + (p384P - 3)) * invMod p384P (2 * y1) % p384P
        else (y2 + p384P - y1) * invMod p384P (x2 + p384P - x1) % p384P
      let x := (l * l + 2 * p384P - x1 - x2) % p384P
      some (x, (l * (x1 + p384P - x) + p384P - y1) % p384P)

/-- `k` times a point, over the low `n` bits of `k` from the top. -/
def ptMul (k : Nat) (g : Point) : Nat → Point
  | 0 => none
  | n + 1 =>
    let q := ptMul (k / 2) g n
    let d := ptAdd q q
    if k % 2 = 1 then ptAdd d g else d

/-- RFC 6979 3.2, steps d to g: the HMAC generator's key and value after the message. -/
def rfcSeed (x h : List Byte) : List Byte × List Byte :=
  let v := List.replicate 48 (0x01 : Byte)
  let k := List.replicate 48 (0x00 : Byte)
  let k := hmac384 k (v ++ [0x00] ++ x ++ h)
  let v := hmac384 k v
  let k := hmac384 k (v ++ [0x01] ++ x ++ h)
  (k, hmac384 k v)

/-- RFC 6979 3.2 step h: the first value in range; `fuel` bounds the tries. -/
def rfcNonce : Nat → List Byte → List Byte → Nat
  | 0, _, v => beNat v % (p384N - 1) + 1
  | fuel + 1, k, v =>
    let v := hmac384 k v
    if 1 ≤ beNat v ∧ beNat v < p384N then beNat v
    else
      let k := hmac384 k (v ++ [0x00])
      rfcNonce fuel k (hmac384 k v)

/-- The signature (r, s) of a message under the private key `d` (R469). [DESIGN CHOICE, log 43; DESIGN CHOICE, log 88] -/
def ecdsaSign (d : Nat) (m : List Byte) : Nat × Nat :=
  let h := sha384 m
  let z := beNat h
  let seed := rfcSeed (beBytes 48 d) (beBytes 48 (z % p384N))
  let k := rfcNonce 64 seed.1 seed.2
  let r := match ptMul k (some (p384Gx, p384Gy)) 384 with
    | some (x, _) => x % p384N
    | none => 0
  (r, invMod p384N k * (z + r * d) % p384N)

/-- The public key of a private key (R468). -/
def publicKey (d : Nat) : Nat × Nat := (ptMul d (some (p384Gx, p384Gy)) 384).getD (0, 0)

/-- R468: the key's identifier: the first 8 bytes of the SHA-256 of its uncompressed SEC1 encoding. -/
def keyId (d : Nat) : List Byte :=
  let q := publicKey d
  (sha256 ([(0x04 : Byte)] ++ beBytes 48 q.1 ++ beBytes 48 q.2)).take 8

/-! The keyed generator (R452). -/

/-- One round. -/
def genRound (x : Nat × Nat × Nat × Nat) (ka kb : Nat) : Nat × Nat × Nat × Nat :=
  let p := 0xE6B13A45 * Nat.xor x.1 ka
  let y1 := Nat.xor x.2.1 (p / 2 ^ 32)
  let y3 := (x.2.2.2 + rotl32 y1 7 + kb) % 2 ^ 32
  let y2 := Nat.xor x.2.2.1 (rotl32 y3 19)
  (y2, p % 2 ^ 32, y3, y1)

/-- Rounds `12 - n` to 11, the key advanced before every round but the first. -/
def genRounds : Nat → Nat × Nat × Nat × Nat → Nat → Nat → Nat × Nat × Nat × Nat
  | 0, x, _, _ => x
  | n + 1, x, ka, kb =>
    let k := if n = 11 then (ka, kb) else ((ka + 0x5A17C3E9) % 2 ^ 32, Nat.xor (rotl32 kb 5) 0x2D6B8F35)
    genRounds n (genRound x k.1 k.2) k.1 k.2

/-- The block of twelve rounds. -/
def genBlock (x : Nat × Nat × Nat × Nat) (ka kb : Nat) : Nat × Nat × Nat × Nat := genRounds 12 x ka kb

/-- R452: the generator's 32-bit output for (seed, σ, step, τ, n). -/
def genDraw (seed sigma step tau n : Nat) : Nat :=
  let a := genBlock (seed % 2 ^ 32, bits seed 32 32, sigma % 2 ^ 32, tau % 2 ^ 32) 0x2F836B1D 0x8C4E15A7
  let n := n % 2 ^ 64
  let g := n / 4
  let o := genBlock (g % 2 ^ 32, bits g 32 32, step % 2 ^ 32, bits step 32 32) (Nat.xor a.1 a.2.2.1) (Nat.xor a.2.1 a.2.2.2)
  match n % 4 with
  | 0 => o.1
  | 1 => o.2.1
  | 2 => o.2.2.1
  | _ => o.2.2.2

end Sys2Proof.Machine
end

