-- ==== Sys2Proof/Machine/State.lean ====
section
/-! DEFINITION. The state of the node as plain data, and its value at reset. -/

namespace Sys2Proof.Machine

/-- No command of this block stops the machine with a fault: R108 and R735 give every error a response after which the node goes
on, so the type has no constructor (safe: nothing is hidden behind a stop). -/
inductive Fault where
deriving DecidableEq, Repr

/-- Why a command is refused by the model. -/
inductive Refusal where
  /-- Raised by `exec` for a row of the opcode table that has no meaning yet; safe, since nothing can be proved of it. -/
  | notModelled (mnemonic : String)
deriving DecidableEq, Repr

/-! Register pages (chapter 20). -/

/-- A word staged by a requester for a register wider than 32 bits (R761). The requester is coded as `Requester` is by `reqCode`. -/
structure Staged where
  req : Nat
  off : Nat
  word : Nat
deriving DecidableEq, Repr

/-- A snapshot of a register wider than 32 bits, taken for a requester (R763). -/
structure Snap where
  req : Nat
  off : Nat
  value : Nat
deriving DecidableEq, Repr

/-- One register page: the common registers of Table 20.2 and the RW words of the block's own registers. -/
structure Page where
  st : Nat := 0                 -- STATE, R734
  epoch : W32 := 0              -- EPOCH
  event : W32 := 0              -- EVENT
  eventEn : W32 := 0            -- EVENT_EN
  count : Tab Nat := []         -- EVENT_COUNT bytes 0 to 7
  errValid : Bool := false      -- ERR_STATUS
  errOver : Bool := false
  errClass : Nat := 0
  errCode : Nat := 0
  errAddr : W64 := 0            -- ERR_ADDR
  errTenant : Nat := 0          -- ERR_INFO
  errEpoch : Nat := 0
  perf : Tab W64 := []          -- PERF0 to PERF7
  regs : Tab W32 := []          -- 32-bit words of the RW registers at 0x100 and above
  staged : List Staged := []    -- R761
  snaps : List Snap := []       -- R763
deriving DecidableEq, Repr

/-! Memory (chapter 9). -/

/-- The bytes of the node's memories by local address (Table 9.1). A byte that is not listed reads as zero. [DESIGN CHOICE, log 4] -/
structure Memory where
  cells : List Host.Cell := []
deriving DecidableEq, Repr

/-- A request for a seal that has not yet taken effect (R391): the granule's local address, and the tenant, or 512 for the owner. -/
structure SealReq where
  addr : Nat
  tenant : Nat
deriving DecidableEq, Repr

/-- A shared weight set of a die (R382, R383): 0 EMPTY, 1 LOADING, 2 ACTIVE, 3 RESTORING, 4 FAILED; its pages; whether an
activation is under way. -/
structure SharedSet where
  st : Nat := 0
  first : Nat := 0
  pages : Nat := 0
  activating : Bool := false
deriving DecidableEq, Repr

/-- The steps of a tenant's commands that met a withdrawn page (R386). -/
structure StepRange where
  tenant : Nat
  lo : W64
  hi : W64
deriving DecidableEq, Repr

/-- An entry of the withdrawn-page table (R385, R386); `img` says that a host image has been asked for the page (R388). -/
structure Withdrawn where
  page : Nat
  setNo : Nat
  img : Bool := false
  ranges : List StepRange := []
  ovf : Bool := false
deriving DecidableEq, Repr

/-- The last poisoned line of a memory (UE_LOG). -/
structure UeLog where
  valid : Bool := false
  addr : Nat := 0
deriving DecidableEq, Repr

/-- A scratchpad die (chapter 9). -/
structure Spad where
  sets : Tab SharedSet := []
  wd : List Withdrawn := []
  ue : UeLog := {}
deriving DecidableEq, Repr

/-- An LPDDR port (R361 to R374): what training found, the refresh rate in force, the lower rate last reported and how many reads in a
row have reported it, the refreshes postponed for each rank, and the end of the start-up zero fill. -/
structure Port where
  typ : Nat := 0
  trained : Bool := false
  ranks : Nat := 0
  density : Nat := 0
  mts : Nat := 0
  vendor : Nat := 0
  revision : Nat := 0
  usable : Nat := 0
  rate : Nat := 0
  report : Nat := 0
  lower : Nat := 0
  lowerCode : Nat := 0
  floor : Nat := 0
  post0 : Nat := 0
  post1 : Nat := 0
  filling : Bool := false
  ue : UeLog := {}
deriving DecidableEq, Repr

/-! Goose (chapter 2) and tenants (chapter 15). -/

/-- A fetched command: its ring count, its eight 64-bit words (Table 2.1), the tenant-wide order of its fetch, its ordinal among
the stream's commands of its step (R475), the status and
detail code of the first acceptance check it failed (0 when it passed them, R39, R40), whether a structure that Goose read for it was
poisoned (R799), and the 64-byte structures that Goose read, by address divided by 64. [DEDUCED, log 13] -/
structure Cmd where
  count : W32 := 0
  words : List Nat := []
  seq : Nat := 0
  ord : Nat := 0
  verdict : Nat := 0
  code : Nat := 0
  poisoned : Bool := false
  read : Tab Nat := []
deriving DecidableEq, Repr

/-- What a command leaves when it completes: status, flags in the bits of a record, detail, the skip bit, and whether it is the cap stop of
a MULE_RUN (R448). -/
structure Result where
  status : Nat := 0
  flags : Nat := 0
  detail : Nat := 0
  skip : Bool := false
  cap : Bool := false
deriving DecidableEq, Repr

/-- The holds of a ready command (R75): when it became ready, when and for what cause it was last passed over, the time held for
each cause 1 to 4, the refusal code of the queue hold (Table 15.6) and when it was first held for lack of cores (R289); the last grant window in which it was passed over for energy,
how many windows in a row, and the mark of R661. -/
structure Hold where
  readyAt : Option Nat := none
  lastAt : Nat := 0
  lastCause : Nat := 0
  sums : Tab Nat := []
  queueCode : Nat := 0
  coresAt : Option Nat := none
  eWin : Nat := 0
  eCount : Nat := 0
  marked : Bool := false
deriving DecidableEq, Repr

/-- A completion record (Table 2.7), as 32 bytes, with what its completion still owes when it is held (R801). -/
structure Rec where
  bytes : List Byte
  irq : Bool
deriving DecidableEq, Repr

/-- What a loop has recorded of one body command (R61, R62). -/
structure BodyAcc where
  flags : Nat := 0
  wait : Nat := 0
  deferred : Bool := false
  cause : Nat := 0
  hold : Nat := 0
  issued : Nat := 0
  finished : Nat := 0
  lastIter : Nat := 0
  skip : Bool := false
  detail : Nat := 0
  written : Bool := false
deriving DecidableEq, Repr

/-- A running LOOP (R58 to R63): its command and its own wait and cause, its body, the iteration and place of the next command to
issue, the iteration after which it stops, what each body command has gathered, the body commands that completed well in each
iteration, and whether a quiesce of the core has ended its issuing (R80). -/
structure Looping where
  cmd : Cmd
  wait : Nat
  cause : Nat
  body : List Cmd
  times : Nat
  iter : Nat := 0
  pos : Nat := 0
  stopAfter : Option Nat := none
  accs : List BodyAcc := []
  good : Tab Nat := []
  quit : Bool := false
deriving DecidableEq, Repr

/-- One of the eight streams of a tenant (2.2, Table 15.12). `fault` has bit 0 for a fetch fault (R33) and bit 1 for a completion
fault (R801). `skip` counts the commands that a TEST still skips (R54), or that a refused LOOP's body still holds (`skipAll`, R59). -/
structure Stream where
  cmdBase : Nat := 0
  k : Nat := 4
  cplBase : Nat := 0
  tail : W32 := 0
  head : W32 := 0
  rel : W32 := 0
  wr : W32 := 0
  fetched : List Cmd := []
  fault : Nat := 0
  held : List Rec := []
  skip : Nat := 0
  skipAll : Bool := false
  loops : List Looping := []
  hold : Hold := {}
  stepDone : Option W64 := none   -- the step of the last STEP that this stream completed (R66)
  inStep : Bool := false          -- stream 0: the STEP at the front has put its entry to the ledger (R465)
  ordStep : Nat := 0              -- the step field of the last command fetched, and its ordinal in that step (R475)
  ordNum : Nat := 0
deriving DecidableEq, Repr

/-- A cached translation (R622): the tenant page (4 KiB), its local page, and whether it is writable. -/
structure TlbEntry where
  vpage : Nat
  ppage : Nat
  wr : Bool
deriving DecidableEq, Repr

/-- A step's command as the STEP entry needs it (R462): its step field, stream and ring count, its words, its class, and its record
once written (flags included). -/
structure StepItem where
  step : Nat
  stream : Nat
  count : W32
  words : List Nat
  record : List Byte
  cap : Bool := false
deriving DecidableEq, Repr

/-- A tenant: its Goose context (2.8, 2.11) and its TEN registers (Table 15.12). [DESIGN CHOICE, log 5] -/
structure Tenant where
  step : W64 := 0
  tokens : Tab W32 := []
  tokenErr : W64 := 0
  sums : Tab W64 := []
  enWritten : Nat := 0
  en : Nat := 0
  cutPend : Bool := false
  streams : Tab Stream := []
  nextSeq : Nat := 0
  lastStream : Nat := 7
  stepEntry : Nat := 0            -- the entry index and the status of a STEP that has put its entry to the ledger (R464, R465)
  stepStatus : Nat := 0
  assigned : Bool := false
  gen : Nat := 0
  resetting : Bool := false
  done : Bool := false
  bg : Nat := 0
  arbClass : Nat := 1
  weight : Nat := 1
  share : Nat := 0
  qInflight : Nat := 64
  qMule : Nat := 128
  qColl : Nat := 4
  qSmem : Nat := 0
  qStage : Nat := 16
  deferLim : Nat := 0
  rootValid : Bool := false
  root : Nat := 0
  invAddr : Nat := 0
  invPages : Nat := 0
  invAll : Bool := false
  faultAddr : Nat := 0
  faultWrite : Bool := false
  faultValid : Bool := false
  sealAddr : Nat := 0
  sealBusy : Bool := false
  sealRefused : Bool := false
  tlb : List TlbEntry := []
  -- replay (11.2, 11.3, 11.10)
  replay : Bool := false
  seed : W64 := 0
  stopStep : W64 := 0
  stopStream : Nat := 0
  stopOrd : Nat := 0
  stopEn : Bool := false
  stopHit : Bool := false
  items : List StepItem := []        -- the open step's commands and records (R462)
deriving DecidableEq, Repr

/-- A command that an engine has accepted and that Goose has not recorded: where it runs, its loop iteration, the wait and cause of
its record (R75), the tenant generation and Goose epoch it was issued under, and its result once the engine has finished. An
orphan's completion is discarded (R80, R634). -/
structure Job where
  tenant : Nat
  stream : Nat
  cmd : Cmd
  iter : Option Nat := none
  unit : EUnit
  wait : Nat := 0
  cause : Nat := 0
  hold : Nat := 0
  gen : Nat := 0
  orphan : Bool := false
  started : Bool := false
  result : Option Result := none
deriving DecidableEq, Repr

/-! The host interface (chapter 15). -/

/-- A function's MSI-X vectors (R626): mask and pending bits, and each vector's table entry but its control word, 96 bits of message
address and data. A vector is masked at reset, as PCIe has it. [DESIGN CHOICE, log 6] -/
structure Msix where
  mask : Nat := 0xFFFF
  pend : Nat := 0
  entries : Tab Nat := []
deriving DecidableEq, Repr

/-- A range waiting to be zeroed for an owner change (R623). -/
structure Zreq where
  addr : Nat
  pages : Nat
deriving DecidableEq, Repr

/-- A BAR2 access that waits for a recall (R587): through the PF's window, or that of tenant `vf`; a read's `len` bytes, or a write's
bytes. -/
structure BarAcc where
  vf : Option Nat
  addr : Nat
  len : Nat
  write : Bool
  data : List Byte
deriving DecidableEq, Repr

/-- The host interface: ownership (R612 to R616), the PCIe link, MSI-X, endpoint IDs (R637) and pending zeroing (R623).
`own` is 0 UNOWNED, 1 OWNED, 2 RELEASING, 3 ZEROING; `relSealed` says that step 3 of R615 has sealed the chains. [DESIGN CHOICE, log 6] -/
structure HostIf where
  own : Nat := 0
  viaPf : Bool := false
  eid : Nat := 0
  smbus : Bool := false
  vfEnable : Bool := false
  numVfs : Nat := 0
  d3 : List Nat := []
  gen : Nat := 0
  width : Nat := 0
  flit : Bool := false
  crs : Bool := true
  msix : Tab Msix := []
  eidPcie : Nat := 0
  eidSmbus : Nat := 0
  zreq : List Zreq := []
  relSealed : Bool := false
  sealBusy : Bool := false
  sealRefused : Bool := false
  barWait : List BarAcc := []      -- oldest first
deriving DecidableEq, Repr

/-! The management plane (chapter 19). -/

/-- A firmware slot in SPI flash (19.7): whether its image authenticates, its version and its digest. [DESIGN CHOICE, log 6] -/
structure FwSlot where
  good : Bool := true
  version : Nat := 1
  digest : Nat := 0
deriving DecidableEq, Repr

/-- A board configuration of one LPDDR port: type, density code, ranks, rate, MR5 and MR6 identifiers. [DESIGN CHOICE, log 6] -/
structure PortCfg where
  typ : Nat
  density : Nat
  ranks : Nat
  mts : Nat
  vendor : Nat
  revision : Nat
deriving DecidableEq, Repr

/-- The board configuration in SPI flash (R362, R368, R520, R615, R792): whether it authenticates, the ports, windows (base, set, size,
pbase), the switch's register words by offset, the links' policy words, the links to enable, the board authority's SMBus endpoint, the
node's SMBus address, and its digest. [DESIGN CHOICE, log 6] -/
structure BoardCfg where
  good : Bool := true
  ports : Tab PortCfg := (List.range 16).map (fun p => (p, { typ := 2, density := 4, ranks := 2, mts := 9600, vendor := 0, revision := 0 }))
  windows : List (List Nat) := []
  switch : List (Nat × Nat) := []
  policies : List (Nat × Nat) := []
  links : List Nat := []
  authority : Nat := 0x10
  smbusAddr : Nat := 0x20
  digest : Nat := 0
deriving DecidableEq, Repr

/-- What the package fixes: grade (R5), stepping, unit serial, lot code (Table 0.3). [DESIGN CHOICE, log 6] -/
structure Part where
  mGrade : Bool := false
  stepping : Nat := 0xB0
  serial : Nat := 0
  lot : Nat := 0
deriving DecidableEq, Repr

/-- An entry that is due: chain, type, tflags from bit 36 up, step field, body from byte 64 to its end (Table 11.2). -/
structure Entry where
  chain : Nat
  typ : Nat
  tflags : Nat := 0
  step : W64 := 0
  body : List Byte
deriving DecidableEq, Repr

/-- The management plane: start-up, resets, AVAIL, FENCED blocks by page key in order of age, Lamb mode and the RAS log. `ticks` counts
management ticks; `resetting` lists the Goose cores that quiesce (R80), by page key, each with the STATE that follows. `owed` holds
ledger entries of the management plane that wait for the end of a restart (R674, R742). -/
structure Mgmt where
  por : Bool := true
  tripped : Bool := false
  phase : Nat := 0
  startDone : Bool := false
  rstKind : Nat := 0
  rstLamb : Nat := 0
  restarting : Bool := false
  restartTicked : Bool := true
  fw : List FwSlot := [{}, {}]
  slotB : Bool := false
  staged : Bool := false
  board : BoardCfg := {}
  mmBusy : Bool := false
  mismatch : Bool := false
  fenced : List Nat := []
  lamb : Bool := false
  lambCause : Nat := 0
  lambTime : Nat := 0
  lambOwed : Bool := false
  nodeRstOwed : Bool := false
  log : Tab Nat := []
  logHead : W32 := 0
  systime : W64 := 0
  systimeSet : Bool := false
  ticks : Nat := 0
  resetting : List (Nat × Nat) := []
  owed : List Entry := []
deriving DecidableEq, Repr

/-- What the test access port has loaded (R793). -/
inductive TapInstr where
  | idcode | bypass | sample | extest | pulse | train
deriving DecidableEq, Repr

/-! Power, clocks and thermal control (chapter 16). -/

/-- A power group (Tables 16.2 and 16.10): its policy (no ceiling written: the group maximum), its default estimate, the grant in force
and the draw of the last window in W, its balance R_g in nJ (R659), the estimates of the window that runs (R654), and whether a
protection cause other than 6 cut the grant (R662). -/
structure PwrGrp where
  floor : Nat := 0
  ceil : Option Nat := none
  floorIn : Nat := 0
  ceilIn : Option Nat := none
  defEst : Nat := 1000
  grant : Nat := 0
  draw : Nat := 0
  bal : Int := 0
  demand : Nat := 0
  cut : Bool := false
deriving DecidableEq, Repr

/-- A clock domain (R647, R648): its policy (unwritten: the domain minimum and the grade ceiling), the frequency in force (unset: the
domain minimum), a frequency decided whose switch edge has not come (R649), and the cap of a protection cause. -/
structure PwrDom where
  floor : Option Nat := none
  ceil : Option Nat := none
  pin : Bool := false
  mhz : Option Nat := none
  next : Option Nat := none
  cap : Option Nat := none
deriving DecidableEq, Repr

/-- The power arbiter: groups, clock domains, PWR.CTRL.enable, the borrow in force, the hottest sensor of each die, the open override
episodes as cause and rail, die, port or link (R666), what the last boundary measured and found, times of ended episodes, and the number
of the grant window that runs. -/
structure Pwr where
  groups : Tab PwrGrp := []
  doms : Tab PwrDom := []
  enabled : Bool := false
  borrow : Nat := 4
  temps : List Nat := [0, 0, 0, 0]
  eps : List (Nat × Nat) := []
  pkg : Nat := 0
  leak : Nat := 0
  limEff : Nat := 0
  floorScaled : Bool := false
  brakeShort : Bool := false
  ovrTime : Tab W64 := []
  ovrLast : Nat := 0
  mj : Nat := 0
  win : Nat := 0
deriving DecidableEq, Repr

/-- What an engine keeps for arbitration (R627, R804): the acceptances of each tenant and of all in the grant window, the tenant that the
weighted round robin serves and what is left of its turn, and the acceptances since the last of a background stream. [DESIGN CHOICE, log 5] -/
structure Arb where
  accs : Tab Nat := []
  total : Nat := 0
  last : Nat := 0
  left : Nat := 0
  sinceBg : Nat := 0
deriving DecidableEq, Repr

/-! The ledger (chapter 11). -/

/-- A chain (R458): the next index, the hash of the last entry, the first index that no SEAL covers, whether it has gained entries
since its last seal, whether an owner change cleared it last (R461), whether a seal is asked for (R470). Entries that wait are
counted in `due`. -/
structure Chain where
  next : W64 := 0
  head : Nat := 0
  sealFrom : W64 := 0
  gained : Bool := false
  cleared : Bool := false
  sealReq : Bool := false
  due : Nat := 0
deriving DecidableEq, Repr

/-- The ledger: chains by number (0xFFF the node chain), entries that wait, oldest first, the units of the front entry written so
far with the bytes formed for it, and the ring's pointers in units. -/
structure Ledger where
  chains : Tab Chain := []
  waiting : List Entry := []
  built : List Byte := []
  unitsDone : Nat := 0
  stuck : Bool := false
  wr : W64 := 0
  rd : W64 := 0
deriving DecidableEq, Repr

/-! Drake (chapter 10). -/

/-- An entry of a PREFETCH read ahead into staging (R430): the bits of its elements, for each element the bits that came from poisoned
lines, its blocks. -/
structure StagedEntry where
  vals : List Nat
  bad : List (List Nat)
  blocks : List Nat
deriving DecidableEq, Repr

/-- A PREFETCH that runs (R429): its command's key, the entries committed, the entries staged, whether it is promoted (R394), the
flags its entries have raised. -/
structure PfRun where
  tenant : Nat
  stream : Nat
  count : W32
  iter : Option Nat
  committed : Nat := 0
  staged : Tab StagedEntry := []
  promoted : Bool := false
  poison : Bool := false
deriving DecidableEq, Repr

/-- A Drake group: its running PREFETCHes, and for each staging block used so far the tenant that held it last and whether it is
held now (R432). -/
structure DrakeGrp where
  runs : List PfRun := []
  owner : Tab Nat := []
  busy : List Nat := []
deriving DecidableEq, Repr

/-! Ox (chapter 4). -/

/-- A tile held by LOAD_STAT (R166, R167): its tenant, its b_desc and the descriptor, whether it is packed for the quad class, and per
element, dimension 0 fastest, its bits, its scale byte, and whether it came from a poisoned line. -/
structure HeldTile where
  tenant : Nat
  bdesc : Nat
  desc : Nat
  quad : Bool
  vals : List Nat := []
  scales : List Nat := []
  bad : List Bool := []
deriving DecidableEq, Repr

/-- A stationary bank (R130, R158, R204): whether a cell holds two tile rows of one bank (the quad class), the rows and columns of the
tile, and its elements as the load wrote them, tile row by tile row. Every cell outside the tile holds zero. -/
structure OxBank where
  quad : Bool := false
  depth : Nat := 0
  width : Nat := 0
  vals : List Nat := []
deriving DecidableEq, Repr

/-- An Ox array: the two banks and the bank of the next pass, the two accumulator sets and the set of the next (M-chunk, N-tile) pair
(R154), the recombination set of split mode (R206), each as rows of entries with zero where nothing is listed; the set that each tenant
used last, 2 standing for the three of split mode, and the tenants whose reset still owes a zeroing (R175, R209); whether a command
was waiting when the last one ended (R160); the held tile; Steer mode (4.10) with the state it was entered from, the seed, count and
column of the test that runs, whether a test runs, whether the last test ended and failed as STEER_STAT shows it, whether one has ended
since Steer mode was entered and whether that failed, its signature; the parity log. -/
structure OxArr where
  bank : Nat := 0
  bank0 : OxBank := {}
  bank1 : OxBank := {}
  acc0 : Tab (List Nat) := []
  acc1 : Tab (List Nat) := []
  accNext : Nat := 0
  recomb : Tab (List Nat) := []
  accUse : Tab Nat := []
  owing : List Nat := []
  active : Bool := false
  held : Option HeldTile := none
  steer : Bool := false
  steerFrom : Nat := 0
  tSeed : Nat := 0
  tCount : Nat := 0
  tCol : Option Nat := none
  busy : Bool := false
  done : Bool := false
  fail : Bool := false
  ended : Bool := false
  lastFail : Bool := false
  sig : W64 := 0
  logCol : Nat := 0
  logRow : Nat := 0
  logBank : Nat := 0
  logValid : Bool := false
deriving DecidableEq, Repr

/-! Pony (chapter 6). -/

/-- What a Pony slice keeps between commands: the last summary it wrote (Table 6.8). -/
structure PonySl where
  lastSum : W64 := 0
  lastSlot : Nat := 0
  lastTenant : Nat := 0
deriving DecidableEq, Repr

/-! Mule (chapter 7). -/

/-- A Mule core (Table 7.1). `st` is as CORE_STAT codes it: 0 OFF, 1 IDLE, 2 RUNNING, 3 AT_BAR, 4 HALTED, 5 STOPPING, 6 FAULT; a
core that has stopped keeps 5, with its cause, until its run ends, or until its cluster's reset or its own FAULT takes it from the run.
`passed` counts the barriers it has continued past; `recBad` says that its save record could not be written. -/
structure MCore where
  st : Nat := 0
  run : Nat := 0
  lcore : Nat := 0
  tenant : Nat := 0
  step : W64 := 0
  code : List W32 := []
  i : Tab W64 := []
  v : Tab (BitVec 4096) := []
  k : Tab (BitVec 256) := []
  vl : Nat := 64
  vresume : Nat := 0
  fsr : BitVec 7 := 0
  flags : BitVec 7 := 0
  sr : W64 := 0
  pc : Nat := 0
  ret : List Nat := []             -- newest first
  retired : W64 := 0
  passed : W32 := 0
  cause : Nat := 0
  recBad : Bool := false
deriving DecidableEq, Repr

/-- What a run keeps of a core that it has lost to a cluster reset or to FAULT (R304, R308), or sees of one that it has: the core, its
logical number, stop cause, run flags, instructions retired, summary register, whether it has halted, waits at a barrier, the barriers
it has reached, and whether its record could not be written. -/
structure MEnd where
  core : Nat
  lcore : Nat
  cause : Nat
  flags : BitVec 7
  retired : W64
  sr : W64
  halted : Bool
  waits : Bool := false
  reach : Nat
  recBad : Bool
deriving DecidableEq, Repr

/-- A line that a cluster's L2 holds dirty for a run (R285, R307). -/
structure L2Line where
  cluster : Nat
  line : Nat
  run : Nat
deriving DecidableEq, Repr

/-- A run (7.8): its number, the command it serves, its cores in logical order, whether it has been loaded and started, and the cores
that it has lost. -/
structure MuleRun where
  id : Nat
  tenant : Nat
  stream : Nat
  count : W32
  iter : Option Nat
  gen : Nat
  cores : List Nat
  started : Bool := false
  lost : List MEnd := []
deriving DecidableEq, Repr

/-- A cluster's PARITY_LOG (Table 7.17). -/
structure MuleLog where
  valid : Bool := false
  core : Nat := 0
  reg : Nat := 0
  file : Nat := 0
deriving DecidableEq, Repr

/-- The Mule processor: its cores, its runs, the number of the next run, and the clusters' logs. [DESIGN CHOICE, log 5] -/
structure Mule where
  cores : Tab MCore := []
  runs : List MuleRun := []
  nextRun : Nat := 1
  logs : Tab MuleLog := []
  dirty : List L2Line := []
deriving DecidableEq, Repr

/-! Solver units (chapter 8). -/

/-- Column j of a numeric factor (R334): l[i][j] for the L rows below j, the diagonal element, and u[k][j] for U(j) (LU only), as FP64
bits by permuted index. -/
structure FCol where
  l : Tab Nat := []
  d : Nat := 0
  u : Tab Nat := []
deriving DecidableEq, Repr

/-- A numeric factor: its columns, and the permuted row that Π puts at each place. The spec keeps it in the factor area of LPDDR in a
layout internal to the unit (R318, R334). [DESIGN CHOICE, log 49] -/
structure Factor where
  cols : List FCol
  rowAt : List Nat
deriving DecidableEq, Repr

/-- A system (R315 to R323): its owner and kind, the pattern by CSR, the current values as FP64 bits, the permutation, the supernode
boundaries, the row set of each supernode (R322), its factor area and log by tenant address, its sizes (R323), its factor, and its
marks. `replaced` counts the pivots replaced in the last factorisation (SOLV.SYS_REG). [DESIGN CHOICE, log 49] -/
structure SolSys where
  tenant : Nat
  chol : Bool
  n : Nat
  rowptr : List Nat
  colidx : List Nat
  vals : List Nat
  perm : List Nat
  snode : List Nat
  rows : List (List Nat)
  farea : Nat
  log : Nat
  logcap : Nat
  granules : Nat
  nnzp : Nat
  nidx : Nat
  fvals : Nat
  fpages : Nat
  factor : Option Factor := none
  stale : Bool := false
  failed : Bool := false
  replaced : Nat := 0
deriving DecidableEq, Repr

/-! Checkpoints (chapter 17). -/

/-- An entry of a set table as a cut resolved it (Tables 17.1 and 17.3): kind 0 a range, 1 a system with its granules, factor pages and
setup record; its first chunk and its chunks; and, the model's own, the system as it stood when the cut began. -/
structure CutEntry where
  kind : Nat
  unit : Nat := 0
  sys : Nat := 0
  addr : Nat := 0
  bytes : Nat := 0
  granules : Nat := 0
  fpages : Nat := 0
  setup : List Byte := []
  first : Nat := 0
  chunks : Nat := 0
  snap : Option SolSys := none
deriving DecidableEq, Repr

/-- A cut that is copying (R687, R688): what it captured, the local page of each chunk, the chunks not copied yet, the digest of each copied
chunk, and the chunks that carry poison. A page number of 2^28 or more names a chunk of a system's granules: entry × 2^20 + chunk. -/
structure Cutting where
  tenant : Nat
  cut : W64
  step : W64
  slot : Nat
  entries : List CutEntry
  pages : List Nat
  left : List Nat
  hashes : Tab Nat := []
  bad : List Nat := []
  tokens : Tab W32
  tokenErr : W64
  sums : Tab W64
  seed : W64
  replay : Bool
deriving DecidableEq, Repr

/-- A checkpoint slot (Table 17.9), with its entries as the cut resolved them (the model's own). -/
structure Slot where
  complete : Bool := false
  poison : Bool := false
  buddy : Bool := false
  hostLock : Bool := false
  cut : W64 := 0
  step : W64 := 0
  digest : Nat := 0
  entries : List CutEntry := []
deriving DecidableEq, Repr

/-- What Hen holds for a tenant: its registers, its next cut number, the steps closed since the last cut, the management tick from which
its timer counts, whether a trigger is pending, whether the closing step is a cut, its two slots, and the slot of its newest complete
cut. -/
structure HenTen where
  setAddr : Nat := 0
  setValid : Bool := false
  copyOff : Nat := 0
  copySize : Nat := 0
  steps : Nat := 0
  secs : Nat := 0
  next : W64 := 0
  since : Nat := 0
  base : Nat := 0
  trig : Bool := false
  decided : Bool := false
  failCode : Nat := 0
  slot0 : Slot := {}
  slot1 : Slot := {}
  newest : Option Nat := none
deriving DecidableEq, Repr

/-- A drain to the buddy (R693): the tenant, the slot, the next part to send, 0 the manifest and i + 1 chunk i, and the parts sent again.
`failed` waits for the restart of R695. -/
structure Drain where
  tenant : Nat
  slot : Nat
  cut : W64
  next : Nat := 0
  again : List Nat := []
  failed : Bool := false
deriving DecidableEq, Repr

/-- A cut held for another node (R694): origin node and tenant, place, whether complete, its cut number, the origin's TEN_COPY fields, the entries
and chunks that its manifest gives, the chunks received, and the chunks asked for again. -/
structure Held where
  origin : Nat := 0
  otenant : Nat
  place : Nat
  complete : Bool := false
  cut : W64 := 0
  copyOff : Nat := 0
  copySize : Nat := 0
  entries : Nat := 0
  chunks : Nat := 0
  got : List Nat := []
  again : List Nat := []
deriving DecidableEq, Repr

/-- A restore (R697 to R702): `st` and `cause` as REST_STAT codes them; the tenant, the source and the slot that is filled; the chunks
received from the buddy and whether its manifest was; the list at REST_LIST; the chunks that passed their check; and which sources
gave chunks that passed. -/
structure Restore where
  st : Nat := 0
  cause : Nat := 0
  tenant : Nat := 0
  source : Nat := 0
  slot : Nat := 0
  got : List Nat := []
  manifest : Bool := false
  listed : List Nat := []
  checked : Nat := 0
  fromBuddy : Bool := false
  fromHost : Bool := false
deriving DecidableEq, Repr

/-- The Hen engine. -/
structure Hen where
  tens : Tab HenTen := []
  cuts : List Cutting := []
  drain : Option Drain := none
  held : List Held := []
  rest : Restore := {}
deriving DecidableEq, Repr

/-! Messages between nodes. -/

/-- The herd messages (Table 14.7). -/
inductive HerdOp where
  | gets | getm | snps | snpi | dataS | dataM | srsp | wb | evc | wbAck
deriving DecidableEq, Repr

/-- The collective messages (13.4, 13.6). -/
inductive CollOp where
  | grant | partialSum | result | ack | abort
deriving DecidableEq, Repr

/-- The checkpoint messages (17.5, 17.6): a chunk to the buddy, its acknowledgement, a request to rebuild, a chunk sent for a restore, a
chunk asked for again. -/
inductive HenOp where
  | chunk | ack | rebuild | restore | again
deriving DecidableEq, Repr

/-- What the header of another node's message says (R510 to R512): its source, destination and flow, the intermediate group of a
non-minimal route, and the flits that it occupies (R501). -/
structure Transit where
  src : Nat
  dst : Nat
  flow : Nat
  mid : Option Nat
  flits : Nat
deriving DecidableEq, Repr

/-- A message to another node. -/
inductive Msg where
  | req (m : FabReq)
  | resp (m : FabResp)
  | herd (op : HerdOp) (m : HerdMsg)
  | coll (op : CollOp) (m : CollMsg)
  | hen (op : HenOp) (m : HenMsg)
  | lockProbe (tenant offset owner gen : Nat)          -- R592: to the owner's node
  | lockAnswer (tenant offset owner gen : Nat)         -- R592: the owner's node answers with its tenant's generation
  | lockNotice (tenant offset owner : Nat)             -- R592: a release notice
  | transit (x : Transit) (level : Nat) (body : List Byte) (link pair : Nat)
    -- another node's flit that passes through (R511), at a level (R500), held for the input port and the pair it came on (R496)
deriving DecidableEq, Repr

/-- A message on its way: destination node, virtual channel (Table 12.6), flow (R503). [DESIGN CHOICE, log 55] -/
structure Parcel where
  dst : Nat
  vc : Nat
  flow : Nat
  msg : Msg
deriving DecidableEq, Repr

/-- A data flit of a message on its way out of a link: its level (R500), which of the message's flits it is (R501), the message. -/
structure TxFlit where
  level : Nat
  part : Nat
  p : Parcel
deriving DecidableEq, Repr

/-- The way of another node's message whose first flit has come (R501): its header, the flits still to come, the link its flits take. -/
structure FlitPath where
  x : Transit
  left : Nat
  via : Option Nat
deriving DecidableEq, Repr

/-! Links and the switch (chapter 12). -/

/-- A link's mode: generation 1 to 3, width 1 or 2. -/
structure LinkMode where
  gen : Nat := 0
  width : Nat := 0
deriving DecidableEq, Repr

/-- A link (Table 12.9): its state (Table 12.2), the wait after a failed attempt (R486), the receive lanes that locked, the partner's CAP
and the CAP that this end sent (R487), the CAP of the partner with which it last became ACTIVE (R490), the POLICY in force (R25), the mode agreed and in force, features, the target of a retrain, failed
attempts, the override episode with its hysteresis in s and the times within policy in ms and outside it in µs (R498), the counts of the
1 ms window (R497), and the retry and credit state of R493 to R496. `credits`, `owed`, `loan` (the slots of the input port's shared pool
that a pair has) and `paths` are keyed by 3 × VC + level; `ackSent` is the ack of the flit sent last; `slot` and `served` are the
arbiter's (R502). -/
structure Link where
  st : Nat := 0
  backoff : Bool := false
  rxLanes : Nat := 0
  cap : Option CapBody := none
  sent : Option CapBody := none
  partner : Option CapBody := none
  pol : Nat := 0x03E8000D
  agreed : LinkMode := {}
  mode : LinkMode := {}
  fec : Nat := 0
  feat : Nat := 0
  arch : Nat := 0
  txLanes : Nat := 0
  target : LinkMode := {}
  attempts : Nat := 0
  failState : Nat := 0
  ovr : Bool := false
  hyst : Nat := 1
  inMs : Nat := 64000
  outUs : Nat := 0
  ovrTime : W64 := 0
  stepped : Bool := false
  calmMs : Nat := 0
  winFlits : Nat := 0
  winBad : Nat := 0
  crcErrs : Nat := 0
  retries : Nat := 0
  fecFixed : W64 := 0
  txSeq : Nat := 0
  replay : List (Nat × TxFlit) := []          -- with their sequence numbers; oldest first
  queue : List TxFlit := []
  credits : Tab Nat := []
  owed : Tab Nat := []
  loan : Tab Nat := []
  paths : Tab FlitPath := []
  ackSent : Nat := 0
  rxSeq : Nat := 0
  discarding : Bool := false
  slot : Nat := 0
  served : Tab Nat := []
deriving DecidableEq, Repr

/-- A fixed-route hold (R513): its number, the links that carried routes before the change, and the messages held. -/
structure RouteHold where
  id : Nat
  before : List Nat
  held : List Parcel := []
deriving DecidableEq, Repr

/-- The switch: the counter k of R512 and the holds. [DESIGN CHOICE, log 5] -/
structure Switch where
  nonminK : W32 := 0
  nextHold : Nat := 1
  holds : List RouteHold := []
deriving DecidableEq, Repr

/-! The collective unit (chapter 13). -/

/-- A member of a plan (Table 13.3). -/
structure Member where
  node : Nat
  tenant : Nat
  parent : Nat
  root : Bool
  rsv : Bool
deriving DecidableEq, Repr

/-- A partial sum or a result of a piece: the elements' bits, the poisoned elements, the flags of a record. -/
structure PieceVal where
  vals : List Nat := []
  bad : List Nat := []
  flags : Nat := 0
deriving DecidableEq, Repr

/-- A piece at a rank (R539 to R542): whether its place is reserved, the staging slot or none for a segment, whether the parent has
granted it, the data messages of it that have come while others of the same sender are still to come, by sender and number (R543), the
children's sums in order of arrival, what has been sent up, its acknowledgement, the result, the children that have
acknowledged the result, and whether it is done here. -/
structure CollPiece where
  placed : Bool := false
  stage : Option Nat := none
  granted : Bool := false
  partIn : List (Nat × Nat × PieceVal) := []
  sums : List (Nat × PieceVal) := []
  up : Bool := false
  upAck : Bool := false
  result : Option PieceVal := none
  acks : List Nat := []
  done : Bool := false
deriving DecidableEq, Repr

/-- A running ALLREDUCE in a slot of the unit: the command it serves, its key, rank, members, digest, shape, tags, pieces, the flags
gathered, an abort with the neighbours whose acknowledgement is awaited, and the tenant ranges to be zeroed when the slot is given back
(R554). `phase` is as COLL.OP_STAT codes it. -/
structure CollOpn where
  tenant : Nat
  stream : Nat
  count : W32
  iter : Option Nat
  gen : Nat
  key : CollKey
  rank : Nat
  members : List Member
  digest : Nat
  tag : Nat
  parentTag : Option Nat := none
  childTags : Tab Nat := []
  pieces : List CollPiece
  flags : Nat := 0
  sum : Nat := 0
  phase : Nat := 1
  abort : Option (Nat × Nat) := none
  awaiting : List Nat := []
  zero : List (Nat × Nat) := []
deriving DecidableEq, Repr

/-- An ABORT held for an operation not yet issued (R550). -/
structure HeldAbort where
  key : CollKey
  cause : Nat
  origin : Nat
deriving DecidableEq, Repr

/-- The collective unit: operations by slot, held ABORTs, the next instance tag, and ABORT_LOG. [DESIGN CHOICE, log 5] -/
structure Coll where
  ops : Tab CollOpn := []
  held : List HeldAbort := []
  nextTag : Nat := 1
  logCause : Nat := 0
  logRank : Nat := 0
  logValid : Bool := false
deriving DecidableEq, Repr

/-! The fabric agent (chapter 14). -/

/-- A region (Table 14.2). -/
structure Region where
  tenant : Nat
  herd : Bool
  wr : Bool
  add : Bool
  lk : Bool
  job : Nat
  obase : Nat
  size : Nat
  tbase : Nat
deriving DecidableEq, Repr

/-- A line's state at a caching member (Table 14.6); `open` is a copy of open space. -/
inductive LineSt where
  | opened | s | m | is | im | sm | mi
deriving DecidableEq, Repr

/-- A line of the remote cache: the tenant that it serves, target node and tenant, space, offset / 64, its data. -/
structure CacheLine where
  tenant : Nat
  node : Nat
  rtenant : Nat
  herd : Bool
  line : Nat
  st : LineSt
  data : List Byte := []
  poison : Bool := false
  tag : Nat := 0
  xtag : Nat := 0
deriving DecidableEq, Repr

/-- What the home waits for on a line (R583 to R587): the request, none for a local access, the members whose SRSP is awaited, those
that owe a WB by its grant tag, data received, and a WB that came before its SRSP. -/
structure HerdTrans where
  req : Option (HerdOp × HerdMsg)
  wait : List Nat
  owed : Option (Nat × Nat) := none
  data : Option (List Byte × Bool) := none
  wb : Option HerdMsg := none
  keep : Option Nat := none
deriving DecidableEq, Repr

/-- A directory entry at the home (Table 14.6): 0 U, 1 S, 2 M; the sharers, the owner, the grant tag, the transaction under way, and
the requests that wait. -/
structure DirLine where
  st : Nat := 0
  sharers : List Nat := []
  owner : Nat := 0
  tag : Nat := 0
  trans : Option HerdTrans := none
  queue : List (HerdOp × HerdMsg) := []
deriving DecidableEq, Repr

/-- A part of a remote command: one request (R568), or one herd line. `member` numbers the targets of a multicast; `st` is 0 to be
sent, 1 sent, 2 answered; `cause` is that of Table 14.3, 100 for a timeout; `sig` marks the closing signal of R571. -/
structure XPart where
  node : Nat
  tenant : Nat
  offset : Nat
  len : Nat
  member : Nat := 0
  tag : Nat := 0
  st : Nat := 0
  cause : Nat := 0
  flags : Nat := 0
  val : Nat := 0
  data : List Byte := []
  bad : List Nat := []
  sig : Bool := false
deriving DecidableEq, Repr

/-- A remote command that runs: the command it serves and its parts in request order. -/
structure XRun where
  tenant : Nat
  stream : Nat
  count : W32
  iter : Option Nat
  gen : Nat
  parts : List XPart
deriving DecidableEq, Repr

/-- A lock (R590): tenant and offset, its owner if held, the broken mark, the waiters in order. -/
structure Lock where
  tenant : Nat
  offset : Nat
  owner : Option (Nat × Nat × Nat) := none
  broken : Bool := false
  waiters : List FabReq := []
deriving DecidableEq, Repr

/-- A request that an agent serves line by line (R573 to R575): the lines still to be served, the flags, the poison. -/
structure RmwJob where
  id : Nat
  req : FabReq
  left : List Nat
  flags : Nat := 0
  fail : Nat := 0
deriving DecidableEq, Repr

/-- A tenant's fabric registers (Table 14.10). -/
structure XTen where
  job : W32 := 0
  groups : Nat := 0
  groupBase : Nat := 0
deriving DecidableEq, Repr

/-- The fabric agent: the regions in force, REGION_SYNC, requests that wait, herd requests that wait, running remote commands, the remote cache, the directory by
tenant × 2^36 + line, locks and LOCKs that wait for a table entry, the read-modify-write queues as (request, line), tenants' registers,
the latest epoch seen of each node and generation of each remote tenant (R594), and herd members split from this node. [DESIGN CHOICE, log 5] -/
structure Xag where
  regions : List Region := []
  syncBusy : Bool := false
  syncBad : Bool := false
  waiting : List FabReq := []
  herdWait : List (HerdOp × HerdMsg) := []
  runs : List XRun := []
  nextTag : Nat := 1
  cache : List CacheLine := []
  dir : Tab DirLine := []
  locks : List Lock := []
  lockWait : List FabReq := []
  rmw : List RmwJob := []
  queues : Tab (List (Nat × Nat)) := []
  nextRmw : Nat := 1
  tens : Tab XTen := []
  peerEpoch : Tab W32 := []
  peerGen : Tab Nat := []
  split : List Nat := []
  mine : List (Nat × Nat × Nat × Nat) := []   -- locks that tenants of this node hold: node, target tenant, offset, own tenant
deriving DecidableEq, Repr

/-! What the node sends out. -/

/-- A message, reply or read completion that leaves the node. [DESIGN CHOICE, log 84] -/
inductive Out where
  | msix (fn vector : Nat)                          -- R626
  | regData (value : Nat)                           -- a register read's data
  | ur                                              -- Unsupported Request
  | crs                                             -- Configuration Request Retry Status (R640)
  | data (bytes : List Byte) (ep : List Nat)        -- BAR2 read data; the offsets of 64-byte lines with the EP bit (R380)
  | mctp (src : McSender) (code : Nat) (data : List Nat)   -- an MCTP, PLDM, SPDM or Aqtan reply
  | notice (kind : Nat) (data : List Nat)           -- a notice or PLDM platform event to the owner
  | flit (link : Nat) (bytes : List Byte)            -- an idle, control, retry or test flit (Table 12.4)
  | send (link seq : Nat) (f : TxFlit) (bytes : List Byte)   -- a data flit on a link (Table 12.4), and what it carries
  | eject (port : Nat) (p : Parcel)                 -- a message of this node to itself, at the internal port of its unit (R500)
  | toSwitch (link : Nat) (f : Flit)                -- a received data flit passed to the switch (R495)
  | tdo (value : Nat)                               -- what the selected JTAG register shifts out
deriving DecidableEq, Repr

/-- The state of the node. `pending` is the queue of the commands that wait, first in, first out. -/
structure State where
  part : Part := {}
  pages : Tab Page := []
  -- memory
  mem : Memory := {}
  poison : List Nat := []            -- poisoned lines, local address / 64, rising
  dark : List (Nat × Byte) := []     -- LPDDR bytes that no valid window shows: port × 2^40 + port-local address
  darkPoison : List Nat := []        -- poisoned LPDDR lines that no valid window shows: (port × 2^40 + port-local address) / 64
  darkErrs : List MemErr := []       -- wrong bytes of LPDDR lines that no valid window shows, by line as in darkPoison
  memErrs : List MemErr := []        -- stored bytes that have gone wrong and that no access has met yet (R375, R376)
  sealedG : List Nat := []           -- sealed granules, local address / 2^21, rising
  seals : List SealReq := []
  spads : Tab Spad := []
  ports : Tab Port := []
  -- streams
  tenants : Tab Tenant := []
  jobs : List Job := []              -- in order of issue
  hostIf : HostIf := {}
  hen : Hen := {}
  ledger : Ledger := {}
  drakes : Tab DrakeGrp := []
  oxs : Tab OxArr := []
  ponys : Tab PonySl := []
  mule : Mule := {}
  solvs : Tab (Tab SolSys) := []     -- the systems of each solver unit, by number (R315)
  links : Tab Link := []
  sw : Switch := {}
  coll : Coll := {}
  xag : Xag := {}
  mgmt : Mgmt := {}
  pwr : Pwr := {}
  arbs : Tab Arb := []
  tap : TapInstr := .idcode
  gclk : Nat := 0                    -- goose_clk cycles (ns) of the latest timed step
  out : List Out := []               -- what the node has sent, oldest first
  freeCount : Nat := 0               -- the model's own: how many free values have been drawn
  pending : List Instr := []
deriving DecidableEq, Repr

/-- The machine right after reset: power-on reset asserted (R798), every field at its reset value. [DESIGN CHOICE, log 1; DESIGN CHOICE, log 5; DESIGN CHOICE, log 6] -/
def State.reset : State := {}

end Sys2Proof.Machine
end

