-- ==== Sys2Proof/Machine/Ops.lean ====
section
/-! DEFINITION. The shared operations over the state: memory lines, poison, seals, the local map, register pages, events, errors,
interrupts and translation. -/

namespace Sys2Proof.Machine

/-- Power-on reset is not asserted and no thermal trip has stopped the clocks. [DEDUCED, log 3] -/
def live (s : State) : Bool := !s.mgmt.por && !s.mgmt.tripped

/-- What a command makes of the node: `t`, but for the queue and for what the package fixes (R771), which no command changes. Nothing
happens while power-on reset is asserted (R798), or after a thermal trip, which stops every clock but mgmt_clk until the next power-on
reset (R671). [DEDUCED, log 3; DESIGN CHOICE, log 8] -/
def whenLive (s t : State) : State := if live s then { t with part := s.part, pending := s.pending } else s

/-! Memory cells in canonical form: addresses strictly rising, no entry equal to zero, which an unlisted byte reads as. -/

/-- The byte at `a` of a list of cells. [DESIGN CHOICE, log 4] -/
def cellGet : List Host.Cell → Nat → Byte
  | [], _ => 0
  | (b, v) :: t, a => if b = a then v else if a < b then 0 else cellGet t a

/-- The cells with byte `a` set to `v`, in canonical form. [DESIGN CHOICE, log 4] -/
def cellSet : List Host.Cell → Nat → Byte → List Host.Cell
  | [], a, v => if v = 0 then [] else [(a, v)]
  | (b, w) :: t, a, v =>
    if b = a then (if v = 0 then t else (a, v) :: t)
    else if a < b then (if v = 0 then (b, w) :: t else (a, v) :: (b, w) :: t)
    else (b, w) :: cellSet t a v

/-- Addresses strictly rising from `lo`, no zero byte. -/
def cellsWf : Nat → List Host.Cell → Bool
  | _, [] => true
  | lo, (a, v) :: t => decide (lo ≤ a) && v != 0 && cellsWf (a + 1) t

/-- The canonical form of the memory. [DESIGN CHOICE, log 4] -/
def Memory.wf (m : Memory) : Bool := cellsWf 0 m.cells

/-- The byte at local address `a`. -/
def memByte (s : State) (a : Nat) : Byte := cellGet s.mem.cells a

/-- The `n` bytes from local address `a`. -/
def memBytes (s : State) (a n : Nat) : List Byte := (natsFrom a n).map (memByte s)

/-- The little-endian value of the `n` bytes from local address `a`. -/
def memNat (s : State) (a n : Nat) : Nat := leNat (memBytes s a n)

/-- The cells with `bs` written from `a` upward. -/
def cellsPut (c : List Host.Cell) (a : Nat) : List Byte → List Host.Cell
  | [] => c
  | b :: bs => cellsPut (cellSet c a b) (a + 1) bs

/-- R23: a write of `n` bytes at local address `a` takes the lines it overlaps out of every Mule cache: none stays dirty in an L2. -/
def uncache (s : State) (a n : Nat) : State :=
  { s with mule := { s.mule with dirty := s.mule.dirty.filter (fun d => d.line * 64 + 64 ≤ a || a + n ≤ d.line * 64) } }

/-- The state with `bs` in memory from `a` upward, whatever lies there: the raw write under every rule of chapter 9. -/
def memPut (s : State) (a : Nat) (bs : List Byte) : State :=
  { uncache s a bs.length with mem := { cells := cellsPut s.mem.cells a bs } }

/-- The cells without those from `a` to `a + n - 1`: zeroed. -/
def cellsZero (c : List Host.Cell) (a n : Nat) : List Host.Cell := c.filter (fun e => e.1 < a || a + n ≤ e.1)

/-- A rising list with `x` put in. -/
def insNat (x : Nat) : List Nat → List Nat
  | [] => [x]
  | y :: t => if x = y then y :: t else if x < y then x :: y :: t else y :: insNat x t

/-- Line `l` reads as poison (R377). -/
def linePoison (s : State) (l : Nat) : Bool := s.poison.contains l

/-- Line `l` stored anew, marked poisoned and zeroed (R377). -/
def setPoison (s : State) (l : Nat) : State :=
  { s with poison := insNat l s.poison, mem := { cells := cellsZero s.mem.cells (l * 64) 64 }
           memErrs := s.memErrs.filter (fun e => e.line != l) }

/-- Line `l` stored anew, marked good. -/
def clrPoison (s : State) (l : Nat) : State :=
  { s with poison := s.poison.filter (· != l), memErrs := s.memErrs.filter (fun e => e.line != l) }

/-- The lines that `n` bytes from `a` touch. -/
def linesOf (a n : Nat) : List Nat := if n = 0 then [] else natsFrom (a / 64) ((a + n - 1) / 64 - a / 64 + 1)

/-- Some of the lines reads as poison. -/
def anyPoison (s : State) (a n : Nat) : Bool := (linesOf a n).any (linePoison s)

/-- R395: whole lines of zero data with tag 0x00. -/
def zeroRange (s : State) (a n : Nat) : State :=
  { uncache s a n with
    mem := { cells := cellsZero s.mem.cells a n }
    poison := s.poison.filter (fun l => l * 64 < a || a + n ≤ l * 64)
    memErrs := s.memErrs.filter (fun e => e.line * 64 < a || a + n ≤ e.line * 64) }

/-! Register pages (chapter 20). -/

/-- The type code of a block (Table 20.4). -/
def blkCode : Block → Nat
  | .mgmt => 1 | .host => 2 | .pwr => 3 | .ledg => 4 | .hen => 5 | .goose => 6 | .ox => 7 | .pony => 8 | .mule => 9 | .solv => 10
  | .spad => 11 | .lpc => 12 | .drake => 13 | .wlink => 14 | .wsw => 15 | .coll => 16 | .xag => 17 | .ten => 18

/-- Instances of a block (Table 20.4). -/
def blkCount : Block → Nat
  | .mgmt => 1 | .host => 1 | .pwr => 1 | .ledg => 1 | .hen => 1 | .goose => 32 | .ox => 24 | .pony => 24 | .mule => 16 | .solv => 4
  | .spad => 2 | .lpc => 16 | .drake => 3 | .wlink => 96 | .wsw => 1 | .coll => 1 | .xag => 1 | .ten => 512

/-- Every block, in order of type code. -/
def blkList : List Block :=
  [.mgmt, .host, .pwr, .ledg, .hen, .goose, .ox, .pony, .mule, .solv, .spad, .lpc, .drake, .wlink, .wsw, .coll, .xag, .ten]

/-- The die of an instance (Table 20.4). -/
def blkDie (b : Block) (i : Nat) : Nat :=
  match b with
  | .mgmt | .host | .pwr | .ledg | .hen | .mule | .solv | .ten => 2
  | .goose => if i < 12 then 0 else if i < 24 then 1 else 2
  | .ox | .pony => if i < 12 then 0 else 1
  | .spad | .drake => i
  | .lpc => if i < 4 then 0 else if i < 8 then 1 else 2
  | .wlink | .wsw | .coll | .xag => 3

/-- The key of a page in the table of pages. -/
def pageKey (b : Block) (i : Nat) : Nat := blkCode b * 4096 + i

/-- The page of an instance. -/
def page (s : State) (b : Block) (i : Nat) : Page := tabGet {} s.pages (pageKey b i)

/-- The state with the page of an instance changed. -/
def modPage (s : State) (b : Block) (i : Nat) (f : Page → Page) : State := { s with pages := tabMod {} s.pages (pageKey b i) f }

/-- The value of an instance's ID register (Table 20.2). -/
def pageId (b : Block) (i : Nat) : Nat := blkCode b + i * 256 + blkDie b i * 2 ^ 20

/-- The block that an ID value names. -/
def idBlock (id : Nat) : Option (Block × Nat) :=
  match blkList[bits id 0 8 - 1]? with
  | some b => if bits id 0 8 ≠ 0 ∧ bits id 8 12 < blkCount b ∧ id = pageId b (bits id 8 12) then some (b, bits id 8 12) else none
  | none => none

/-- STATE as stored for an instance (R734): 0 OFF, 1 READY, 2 RUNNING, 3 QUIESCING, 4 FENCED, 5 LAMB, 6 FAULT. READY stands for
READY and RUNNING; `Sys2Proof/Machine/RegRead.lean` shows RUNNING where the block holds work. [DEDUCED, log 91] -/
def blkState (s : State) (b : Block) (i : Nat) : Nat := (page s b i).st

/-- The instance accepts work. -/
def blkReady (s : State) (b : Block) (i : Nat) : Bool := blkState s b i == 1

/-- The state with an instance's STATE set. -/
def setBlkState (s : State) (b : Block) (i st : Nat) : State := modPage s b i (fun p => { p with st := st })

/-- The RW word at `off` of a page, `d` where nothing was written (its reset value). -/
def regWord (s : State) (b : Block) (i off d : Nat) : Nat := (tabGet (BitVec.ofNat 32 d) (page s b i).regs off).toNat

/-- The state with the RW word at `off` of a page set. -/
def setRegWord (s : State) (b : Block) (i off v : Nat) : State :=
  modPage s b i (fun p => { p with regs := tabSet p.regs off (BitVec.ofNat 32 v) })

/-- The RW register of 64 bits at `off`, with its reset value. -/
def regWord2 (s : State) (b : Block) (i off d : Nat) : Nat :=
  regWord s b i off (d % 2 ^ 32) + 2 ^ 32 * regWord s b i (off + 4) (d / 2 ^ 32)

/-- PERF counter `k` of a page raised by `n` (Table 20.2). -/
def perfAdd (s : State) (b : Block) (i k n : Nat) : State :=
  modPage s b i (fun p => { p with perf := tabMod 0 p.perf k (· + BitVec.ofNat 64 n) })

/-- A message put out. [DESIGN CHOICE, log 84] -/
def emit (s : State) (o : Out) : State := { s with out := s.out ++ [o] }

/-! Interrupts and events (R626, R651). -/

/-- The function's MSI-X state. -/
def msixOf (s : State) (fn : Nat) : Msix := tabGet {} s.hostIf.msix fn

/-- A vector can be sent: unmasked, the PCIe link up, the function in D0, and for a VF its VF enabled (R605, R606, R626). [DEDUCED, log 90] -/
def msixOpen (s : State) (fn vec : Nat) : Bool :=
  !bitAt (msixOf s fn).mask vec && s.hostIf.gen != 0 && !s.hostIf.d3.contains fn && (fn == 0 || s.hostIf.vfEnable)

/-- R626: a vector is raised: sent, or kept pending. HOST.PERF3 counts the messages sent. [DEDUCED, log 90] -/
def raiseVec (s : State) (fn vec : Nat) : State :=
  if msixOpen s fn vec then perfAdd (emit s (.msix fn vec)) .host 0 3 1
  else
    let m := msixOf s fn
    { s with hostIf := { s.hostIf with msix := tabSet s.hostIf.msix fn { m with pend := m.pend ||| 2 ^ vec } } }

/-- The vector that an enabled event of a page raises (R626): the function and the vector. -/
def eventVec (b : Block) (i : Nat) : Nat × Nat :=
  match b with
  | .host => (0, 0)
  | .ledg => (0, 1)
  | .ten => (i + 1, 8)
  | _ => (0, 2)

/-- R651, R755: event bit `n` of a page is raised and counted; an enabled event raises its vector (R626). -/
def raiseEvent (s : State) (b : Block) (i n : Nat) : State :=
  let s := modPage s b i (fun p =>
    { p with event := p.event ||| BitVec.ofNat 32 (2 ^ n), count := tabMod 0 p.count (min n 7) (fun c => satTo 8 (c + 1)) })
  if (page s b i).eventEn.getLsbD n then raiseVec s (eventVec b i).1 (eventVec b i).2 else s

/-! Errors (R736, R737). -/

/-- R737: an entry of the RAS log: system time, ID, class, code, tenant, epoch, address. -/
def rasEntry (s : State) (b : Block) (i cls code addr tenant : Nat) : Nat :=
  s.mgmt.systime.toNat + 2 ^ 64 * (pageId b i + 2 ^ 32 * (cls + 2 ^ 8 * (code + 2 ^ 8 * (tenant + 2 ^ 16 *
    ((page s b i).epoch.toNat + 2 ^ 32 * (addr % 2 ^ 64))))))

/-- An entry put into the ring of 256 (R737). -/
def putRas (s : State) (e : Nat) : State :=
  { s with mgmt := { s.mgmt with log := tabSet s.mgmt.log (s.mgmt.logHead.toNat % 256) e, logHead := s.mgmt.logHead + 1 } }

/-- R737: the entry is written to the ring of 256; overwriting the oldest raises MGMT.EVENT.log_wrap. MGMT.PERF2 counts entries. -/
def rasLog (s : State) (b : Block) (i cls code addr tenant : Nat) : State :=
  let t := perfAdd (putRas s (rasEntry s b i cls code addr tenant)) .mgmt 0 2 1
  if 256 ≤ s.mgmt.logHead.toNat then raiseEvent t .mgmt 0 7 else t

/-- R736: what a page records of an error: the first one, and overflow after it. -/
def noteErr (cls code addr tenant : Nat) (p : Page) : Page :=
  if p.errValid then { p with errOver := true }
  else { p with errValid := true, errClass := cls, errCode := code % 256, errAddr := BitVec.ofNat 64 addr, errTenant := tenant,
                errEpoch := p.epoch.toNat % 2 ^ 16 }

/-- R736: an error of a block: the first is recorded, a later one sets overflow; classes 3 to 7 enter the RAS log (R737). [DEDUCED, log 47] -/
def blkError (s : State) (b : Block) (i cls code addr tenant : Nat) : State :=
  let t := modPage s b i (noteErr cls code addr tenant)
  if 3 ≤ cls then rasLog t b i cls (code % 256) addr tenant else t

/-- R735, class 4: an instance enters FAULT, which MGMT.EVENT.fault reports. [DEDUCED, log 47] -/
def enterFault (s : State) (b : Block) (i tenant : Nat) : State :=
  raiseEvent (setBlkState (blkError s b i 4 0 0 tenant) b i 6) .mgmt 0 2

/-- The first local address of a block's region (Table 20.4), as a BAR0 offset. [DEDUCED, log 73] -/
def blkBase (b : Block) : Nat := if b = .ten then 0x2000000 else (blkCode b - 1) * 0x100000

/-- A register write ignored: class 1, the code being the offset divided by 4 modulo 256; the address concerned is the register's local
address, the tenant that of a TEN page (R736). [DEDUCED, log 67; DEDUCED, log 73] -/
def regError (s : State) (b : Block) (i off : Nat) : State :=
  blkError s b i 1 (off / 4) (0xF000000000 + blkBase b + 0x1000 * i + off) (if b = .ten then i else 0xFFF)

/-! The local map (Table 9.1) and the windows (R365 to R367). -/

/-- The ports of a port set (R365), ascending. -/
def portSet : Nat → List Nat
  | 1 => natsFrom 0 16
  | 2 => natsFrom 8 8
  | 3 => natsFrom 0 8
  | 4 => natsFrom 0 4
  | 5 => natsFrom 4 4
  | _ => []

/-- An interleave window (R365): base and size in GiB, port set, per-port base in 64 MiB. -/
structure Window where
  base : Nat
  pset : Nat
  size : Nat
  pbase : Nat
deriving DecidableEq, Repr

/-- LPC.WIN_n as a window (Table 9.12). -/
def windowOf (s : State) (n : Nat) : Window :=
  let w := regWord2 s .lpc 0 (0x140 + 8 * n) 0
  { base := bits w 0 9, pset := bits w 12 3, size := bits w 16 9, pbase := bits w 32 10 }

/-- The windows that are on. -/
def windows (s : State) : List Window := ((List.range 8).map (windowOf s)).filter (fun w => w.pset != 0)

/-- The port of a number. -/
def portOf (s : State) (p : Nat) : Port := tabGet {} s.ports p

/-- The state with a port changed. -/
def modPort (s : State) (p : Nat) (f : Port → Port) : State := { s with ports := tabMod {} s.ports p f }

/-- The part of a window on each of its ports, in units of 64 MiB (size / ports). -/
def winPart (w : Window) : Nat := w.size * 16 / (portSet w.pset).length

/-- Two half-open ranges overlap. -/
def rangesMeet (a la b lb : Nat) : Bool := 0 < la && 0 < lb && a < b + lb && b < a + la

/-- Every two items of a list satisfy `p`. -/
def allPairs {α : Type} (p : α → α → Bool) : List α → Bool
  | [] => true
  | x :: xs => xs.all (p x) && allPairs p xs

/-- R367: the window set is consistent. With every window off there is no set, and valid reads 0 as at reset (Table 9.12). -/
def winValid (s : State) : Bool :=
  let ws := windows s
  !ws.isEmpty && allPairs (fun v w => !rangesMeet v.base v.size w.base w.size) ws
  && ws.all (fun w => 0 < w.size && (w.size * 16) % (portSet w.pset).length == 0
      && (portSet w.pset).all (fun p => w.pbase + winPart w ≤ (portOf s p).usable))
  && allPairs (fun v w => (portSet v.pset).all (fun p => !(portSet w.pset).contains p
      || !rangesMeet v.pbase (winPart v) w.pbase (winPart w))) ws

/-- R366: the fold of the granule number into `q` bits. -/
def winHash (q g : Nat) : Nat → Nat
  | 0 => 0
  | i + 1 => Nat.xor (winHash q g i) ((g >>> (q * i)) % 2 ^ q)

/-- The window that holds a local address (R366). -/
def windowAt (s : State) (a : Nat) : Option Window := (windows s).find? (fun w => w.base * 2 ^ 30 ≤ a && a < (w.base + w.size) * 2 ^ 30)

/-- R366: the port and the port-local data address of a local address in the LPDDR range. -/
def locate (s : State) (a : Nat) : Option (Nat × Nat) :=
  match windowAt s a with
  | none => none
  | some w =>
    let off := a - w.base * 2 ^ 30
    let g := off / 256
    let ps := portSet w.pset
    let q := Nat.log2 ps.length
    let h := winHash q g (ceilDiv 33 q)
    some (ps.getD h 0, w.pbase * 2 ^ 26 + (g >>> q) * 256 + off % 256)

/-- The LPDDR range of Table 9.1. -/
def inLpddr (a : Nat) : Bool := a < 0x8000000000

/-- The die and tier of a scratchpad address: tier 0 upper, 1 lower (Table 9.1). -/
def spadOf (a : Nat) : Option (Nat × Nat) :=
  if 0x8000000000 ≤ a ∧ a < 0x8080000000 then some ((a - 0x8000000000) / 2 ^ 30, (a / 2 ^ 29) % 2) else none

/-- The first address of a die's upper tier. -/
def upperBase (die : Nat) : Nat := 0x8000000000 + die * 2 ^ 30

/-- The first address of a die's lower tier. -/
def lowerBase (die : Nat) : Nat := upperBase die + 2 ^ 29

/-- An upper-tier address. -/
def inUpper (a : Nat) : Bool := match spadOf a with
  | some (_, 0) => true
  | _ => false

/-- Solver structure memory (Table 9.1). -/
def inSmem (a : Nat) : Bool := 0x9000000000 ≤ a && a < 0x9010000000

/-- The block that owns an address. -/
def ownerBlk (s : State) (a : Nat) : Option (Block × Nat) :=
  match spadOf a with
  | some (d, _) => some (.spad, d)
  | none => if inLpddr a then (locate s a).map (fun x => (.lpc, x.1)) else none

/-- A port serves accesses: it is READY, or goes on in Lamb mode (R746). -/
def portUp (s : State) (p : Nat) : Bool := blkReady s .lpc p || blkState s .lpc p == 5

/-- R356: populated memory backs the address: an LPDDR address in a window of a valid set whose ports all serve (R363, R719), a
scratchpad that is READY, structure memory. -/
def backed (s : State) (a : Nat) : Bool :=
  if inLpddr a then
    winValid s && (match windowAt s a with
      | some w => (portSet w.pset).all (portUp s)
      | none => false)
  else match spadOf a with
    | some (d, _) => blkReady s .spad d
    | none => inSmem a

/-- The scratchpad of a die. -/
def spad (s : State) (d : Nat) : Spad := tabGet {} s.spads d

/-- The state with a die's scratchpad changed. -/
def modSpad (s : State) (d : Nat) (f : Spad → Spad) : State := { s with spads := tabMod {} s.spads d f }

/-- The shared set of a die that holds upper-tier page `p` (R382). -/
def setOfPage (s : State) (d p : Nat) : Option Nat :=
  ((spad s d).sets.find? (fun e => e.2.st != 0 && e.2.first ≤ p && p < e.2.first + e.2.pages)).map (·.1)

/-- R385, R389: the page of the address is withdrawn: entered in the table, or in a FAILED set. -/
def withdrawn (s : State) (a : Nat) : Bool :=
  match spadOf a with
  | some (d, 0) =>
    let p := (a - upperBase d) / 4096
    (spad s d).wd.any (fun e => e.page == p)
      || (match setOfPage s d p with
        | some k => (tabGet {} (spad s d).sets k).st == 4
        | none => false)
  | _ => false

/-- An access to the address is served: backed and not withdrawn. -/
def served (s : State) (a : Nat) : Bool := backed s a && !withdrawn s a

/-- Every line of a local range is served. -/
def servedRange (s : State) (a n : Nat) : Bool := (linesOf a n).all (fun l => served s (l * 64))

/-! Errors met on reading (R375 to R381, R385). -/

/-- R389: the set becomes FAILED and its event is raised. The ledger's entry and the tenants' event follow in
`Sys2Proof/Machine/Errors.lean`. -/
def setFailed (s : State) (d k : Nat) : State :=
  raiseEvent (modSpad s d (fun x => { x with
    sets := tabMod {} x.sets k (fun e => { e with st := 4 })
    wd := x.wd.map (fun w => if w.setNo == k then { w with img := false } else w) })) .spad d 4

/-- R378: a read of a line meets an uncorrectable error: the line is poisoned, EVENT.ue raised and the address logged while the log
is armed; the error is of class 3. -/
def meetUe (s : State) (l : Nat) : State :=
  let a := l * 64
  let s := setPoison s l
  match spadOf a with
  | some (d, _) =>
    let s := modSpad s d (fun x => if x.ue.valid then x else { x with ue := { valid := true, addr := a - upperBase d } })
    blkError (raiseEvent s .spad d 1) .spad d 3 0 a 0xFFF
  | none =>
    match locate s a with
    | some (p, dd) =>
      let s := modPort s p (fun x => if x.ue.valid then x else { x with ue := { valid := true, addr := dd } })
      blkError (raiseEvent s .lpc p 2) .lpc p 3 0 a 0xFFF
    | none => s

/-- R381: a correctable error of the line at an address: EVENT.ce is raised and the error counted. -/
def corrected (s : State) (a : Nat) : State :=
  match spadOf a with
  | some (d, _) => perfAdd (raiseEvent s .spad d 0) .spad d 6 1
  | none => match locate s a with
    | some (p, _) => perfAdd (raiseEvent s .lpc p 1) .lpc p 7 1
    | none => s

/-- R377: the tag byte of a line's words. -/
def lineTag (s : State) (l : Nat) : Byte := if linePoison s l then 0xFF else 0x00

/-- R375, R376: what is stored beside data: three check symbols and the tag byte. -/
def checkBytes (data : List Byte) (tag : Byte) : List Byte := (List.range 3).map (Config.checkSymbol data tag) ++ [tag]

/-- R375: the 36 bytes that a scratchpad stores for the 32-byte word at a local address. -/
def storedWord (s : State) (a : Nat) : List Byte := memBytes s a 32 ++ checkBytes (memBytes s a 32) (lineTag s (a / 64))

/-- R369: the device line of port-local data line `l`. -/
def deviceLine (l : Nat) : Nat := l / 15 * 16 + l % 15

/-- R369: the device line that holds the check bytes of port-local data line `l`, and their first byte in it. -/
def checkPlace (l : Nat) : Nat × Nat := (l / 15 * 16 + 15, l % 15 * 4)

/-- What the code of a stored line makes of its wrong bytes. -/
inductive Ecc where
  | clean | corrects | detects | beyond
deriving DecidableEq, Repr

/-- R375, R376: the code corrects one wrong byte of a word and detects two; of more the spec says nothing. A scratchpad line is two words
of 36 stored bytes, an LPDDR line one of 68. -/
def eccOf (l : Nat) (bad : List Nat) : Ecc :=
  let n := fun lo hi => (bad.dedup.filter (fun b => lo ≤ b && b < hi)).length
  match (if inLpddr (l * 64) then n 0 68 else max (n 0 36) (n 36 72)) with
  | 0 => .clean
  | 1 => .corrects
  | 2 => .detects
  | _ => .beyond

/-- The wrong bytes of a stored line. -/
def errsAt (s : State) (l : Nat) : List Nat := (s.memErrs.filter (fun e => e.line == l)).flatMap (·.bad)

/-- The state with a line stored anew: nothing of it is wrong. -/
def clrErrs (s : State) (l : Nat) : State := { s with memErrs := s.memErrs.filter (fun e => e.line != l) }

/-- Free values drawn. -/
def drawn (s : State) (n : Nat) : State := { s with freeCount := s.freeCount + n }

/-- A line with wrong bytes is read (R378, R381): corrected and counted, or poisoned and logged. With three wrong bytes or more of a word
a free value chooses between the detection and a wrong correction, whose bytes are free. [DESIGN CHOICE, log 100] -/
def meetErr (s : State) (l : Nat) : State :=
  let s1 := clrErrs s l
  match eccOf l (errsAt s l) with
  | .clean => s1
  | .corrects => corrected s1 (l * 64)
  | .detects => meetUe s1 l
  | .beyond =>
    if (Config.freeWord s1.freeCount).toNat % 2 = 0 then meetUe (drawn s1 1) l
    else corrected (memPut (drawn s1 65) (l * 64) ((natsFrom (s1.freeCount + 1) 64).map Config.freeByte)) (l * 64)

/-- The lines of those that `p` accepts that hold wrong bytes. -/
def errLines (s : State) (p : Nat → Bool) : List Nat := ((s.memErrs.map (·.line)).dedup).filter p

/-- Bytes that have gone wrong in stored lines. -/
def addErrs (s : State) (es : List MemErr) : State := { s with memErrs := s.memErrs ++ es }

/-- The lines that `p` accepts are read: the errors in them are met. -/
def meetErrs (s : State) (p : Nat → Bool) : State := (errLines s p).foldl meetErr s

/-! Translation (15.4). -/

/-- The tenant of a number. -/
def ten (s : State) (t : Nat) : Tenant := tabGet {} s.tenants t

/-- The state with a tenant changed. -/
def modTen (s : State) (t : Nat) (f : Tenant → Tenant) : State := { s with tenants := tabMod {} s.tenants t f }

/-- What a walk ends at: a page (its local base, log2 of its size, writable), nothing, or an entry that breaks Table 15.4 or lies in
a poisoned line. -/
inductive Walk where
  | page (base log : Nat) (wr : Bool)
  | none
  | bad
deriving DecidableEq, Repr

/-- R623, R396: the local page waits to be zeroed. -/
def zeroPending (s : State) (a : Nat) : Bool := s.hostIf.zreq.any (fun z => z.addr ≤ a && a < z.addr + 4096 * z.pages)

/-- R618, R619: the walk from the table at `tbl` of level `lvl` (4 down to 1). -/
def walkFrom (s : State) (va : Nat) : Nat → Nat → Bool → Walk
  | 0, _, _ => .none
  | lvl + 1, tbl, wr =>
    let sh := 12 + 9 * lvl
    let ea := tbl + 8 * bits va sh 9
    if !(inLpddr ea && backed s ea) then .none
    else if linePoison s (ea / 64) then .bad
    else
      let e := memNat s ea 8
      if !bitAt e 0 then .none
      else
        let leaf := bitAt e 1
        let addr := bits e 12 36 * 4096
        if bits e 3 9 != 0 || bits e 48 16 != 0 || (leaf && lvl == 3) || (!leaf && lvl == 0)
            || (leaf && addr % 2 ^ sh != 0) then .bad
        else if leaf then
          (if (inLpddr addr && inLpddr (addr + 2 ^ sh - 1)) || (inUpper addr && inUpper (addr + 2 ^ sh - 1) && sh ≤ 29)
           then (if zeroPending s (addr + va % 2 ^ sh) then .none else .page addr sh (wr && bitAt e 2)) else .none)
        else if inLpddr addr then walkFrom s va lvl addr (wr && bitAt e 2)
        else .none

/-- R619: the walk of a tenant address. -/
def walk (s : State) (t va : Nat) : Walk :=
  if (ten s t).rootValid then walkFrom s va 4 (ten s t).root true else .none

/-- The local address and writability of a tenant address: a cached translation, else a walk (R622). -/
def xlate (s : State) (t va : Nat) : Option (Nat × Bool) :=
  match (ten s t).tlb.find? (fun e => e.vpage == va / 4096) with
  | some e => some (e.ppage * 4096 + va % 4096, e.wr)
  | none =>
    match walk s t va with
    | .page base sh wr => some (base + va % 2 ^ sh, wr)
    | _ => none

/-- The tenant pages that `n` bytes from `va` touch. -/
def pagesOf (va n : Nat) : List Nat := if n = 0 then [] else natsFrom (va / 4096) ((va + n - 1) / 4096 - va / 4096 + 1)

/-- R622: one walk of a tenant page that is not cached: what it ends at is cached; a bad entry raises TEN.EVENT.pt_bad (R619).
TEN.PERF4 counts the walks. -/
def fillPage (s : State) (t vp : Nat) : State :=
  if (ten s t).tlb.any (fun e => e.vpage == vp) then s
  else
    let s := perfAdd s .ten t 4 1
    match walk s t (vp * 4096) with
    | .page base sh wr =>
      modTen s t (fun x => { x with tlb := ⟨vp, (base + (vp * 4096) % 2 ^ sh) / 4096, wr⟩ :: x.tlb })
    | .none => s
    | .bad => raiseEvent s .ten t 1

/-- The translations of `n` bytes from `va` are cached. [DEDUCED, log 83] -/
def fillTlb (s : State) (t va n : Nat) : State := (pagesOf va n).foldl (fun s p => fillPage s t p) s

/-- R620: the local page lies in a shared set. -/
def inShared (s : State) (a : Nat) : Bool :=
  match spadOf a with
  | some (d, 0) => (setOfPage s d ((a - upperBase d) / 4096)).isSome
  | _ => false

/-- The local address of a tenant address that is mapped writable (R619, R620). -/
def xlateW (s : State) (t va : Nat) : Option Nat :=
  match xlate s t va with
  | some (a, wr) => if wr && !inShared s a then some a else none
  | none => none

/-- `n` bytes from `va` are wholly mapped, writable where `w`. -/
def mapped (s : State) (t va n : Nat) (w : Bool) : Bool :=
  va + n ≤ 2 ^ 48 && (pagesOf va n).all (fun p =>
    match xlate s t (p * 4096) with
    | some (a, wr) => !w || (wr && !inShared s a)
    | none => false)

/-- `n` bytes from `va` are wholly mapped and memory backs them (R39, R356). -/
def present (s : State) (t va n : Nat) : Bool :=
  mapped s t va n false && (pagesOf va n).all (fun p => match xlate s t (p * 4096) with
    | some (a, _) => backed s a
    | none => false)

/-- `n` bytes from `va` can be accessed now: mapped and served. -/
def usable (s : State) (t va n : Nat) (w : Bool) : Bool :=
  va + n ≤ 2 ^ 48 && (pagesOf va n).all (fun p =>
    match xlate s t (p * 4096) with
    | some (a, wr) => (!w || (wr && !inShared s a)) && served s a
    | none => false)

/-- The local address of a tenant address; an address that is not mapped gives one that nothing backs. -/
def localOf (s : State) (t va : Nat) : Nat := ((xlate s t va).map (·.1)).getD (2 ^ 48 + va)

/-- The byte at a tenant address. -/
def tByte (s : State) (t va : Nat) : Byte := memByte s (localOf s t va)

/-- The `n` bytes from a tenant address. -/
def tBytes (s : State) (t va n : Nat) : List Byte := (natsFrom va n).map (tByte s t)

/-- The little-endian value of `n` bytes from a tenant address. -/
def tNat (s : State) (t va n : Nat) : Nat := leNat (tBytes s t va n)

/-- Some line of `n` bytes from a tenant address reads as poison. -/
def tPoison (s : State) (t va n : Nat) : Bool := (linesOf va n).any (fun l => linePoison s (localOf s t (l * 64) / 64))

end Sys2Proof.Machine
end

