-- ==== Sys2Proof/Machine/Store.lean ====
section
/-! DEFINITION. Writes to memory under the rules of chapter 9: seals, poison, backing, and the chunks of a running cut (R688). -/

/-- R318: the bytes of a system's granules in structure memory, whose layout is internal to the unit, by position. [DESIGN CHOICE, log 66] -/
opaque Sys2Proof.Config.structByte : Sys2Proof.Machine.SolSys → Nat → Sys2Proof.Byte

/-- R701: the system that a unit recreates from the bytes of its granules and factor area, where the node holds no record of its own of
what it was. [DESIGN CHOICE, log 66] -/
opaque Sys2Proof.Config.restoredSys : List Sys2Proof.Byte → Option Sys2Proof.Machine.SolSys

namespace Sys2Proof.Machine

/-- What Hen holds for a tenant. -/
def henTen (s : State) (t : Nat) : HenTen := tabGet {} s.hen.tens t

/-- The state with what Hen holds for a tenant changed. -/
def modHenTen (s : State) (t : Nat) (f : HenTen → HenTen) : State := { s with hen := { s.hen with tens := tabMod {} s.hen.tens t f } }

/-- R681: the local address of a tenant's slot. -/
def slotBase (s : State) (t slot : Nat) : Nat :=
  let h := henTen s t
  regWord2 s .hen 0 0x108 0 % 2 ^ 48 + (h.copyOff + slot * h.copySize) * 2 ^ 21

/-- R692: the bytes of a manifest of `e` entries and `c` chunks. -/
def manifestBytes (e c : Nat) : Nat := 1024 + 64 * e + 32 * c

/-- R683: the pages that a manifest fills at the start of its slot. -/
def manifestPages (e c : Nat) : Nat := ceilDiv (manifestBytes e c) 4096

/-- The bytes of chunk `i` of a cut: its local page, or a page of a system's granules as they stood when the cut began (R680). -/
def chunkBytes (s : State) (c : Cutting) (i : Nat) : List Byte :=
  let p := c.pages.getD i 0
  if p < 2 ^ 28 then memBytes s (p * 4096) 4096
  else match (c.entries[(p - 2 ^ 28) / 2 ^ 20]?).bind (·.snap) with
    | some y => (natsFrom ((p % 2 ^ 20) * 4096) 4096).map (Config.structByte y)
    | none => List.replicate 4096 0

/-- The lines of chunk `i` of a cut that read as poison, by their place in the chunk. -/
def chunkPoison (s : State) (c : Cutting) (i : Nat) : List Nat :=
  let p := c.pages.getD i 0
  if p < 2 ^ 28 then (List.range 64).filter (fun j => linePoison s (p * 64 + j)) else []

/-- R391, R392: the line lies in a sealed granule. -/
def isSealed (s : State) (a : Nat) : Bool := s.sealedG.contains (a / 2 ^ 21)

/-- R392: a write to a sealed granule is discarded and raises seal_wr on the block that owns the address. -/
def sealHit (s : State) (a : Nat) : State :=
  match ownerBlk s a with
  | some (.spad, d) => raiseEvent s .spad d 7
  | some (.lpc, p) => raiseEvent s .lpc p 6
  | _ => s

/-- Every line of a local page is read: the errors in it are met (R378, R381). -/
def pageRead (s : State) (pg : Nat) : State := meetErrs s (fun l => l / 64 == pg)

/-- A page that Hen writes in its copy or hold area, poisoned lines as poison (R690). Nothing is written where no memory backs the page,
and a write to a sealed granule is discarded (R392). -/
def henPage (s : State) (dst : Nat) (bs : List Byte) (bad : List Nat) : State :=
  if !(inLpddr dst && backed s dst) then s
  else if isSealed s dst then sealHit s dst
  else bad.foldl (fun x j => setPoison x (dst / 64 + j)) (memPut (zeroRange s dst 4096) dst bs)

/-- R688, R690: chunk `i` of a cut read, copied into its slot and hashed. HEN.PERF1 counts the chunks copied. -/
def copyChunk (s : State) (c : Cutting) (i : Nat) : State :=
  let s := if c.pages.getD i 0 < 2 ^ 28 then pageRead s (c.pages.getD i 0) else s
  let bs := chunkBytes s c i
  let bad := chunkPoison s c i
  let s' := henPage s (slotBase s c.tenant c.slot + (manifestPages c.entries.length c.pages.length + i) * 4096) bs bad
  let s' := { s' with hen := { s'.hen with cuts := s'.hen.cuts.map (fun d =>
    if d.tenant == c.tenant then
      { d with left := d.left.filter (· != i), hashes := tabSet d.hashes i (beNat (sha256 bs)), bad := if bad.isEmpty then d.bad else d.bad ++ [i] }
    else d) } }
  perfAdd s' .hen 0 1 1

/-- The chunks not copied yet, of every running cut, that lie on a local page. -/
def uncopied (s : State) (pg : Nat) : List (Cutting × Nat) :=
  s.hen.cuts.flatMap (fun c => (c.left.filter (fun i => c.pages.getD i 0 == pg)).map (fun i => (c, i)))

/-- R688: a write to a page with chunks not copied yet is held until Hen has copied them; HEN.PERF2 counts the writes held. -/
def holdFor (s : State) (a : Nat) : State :=
  match uncopied s (a / 4096) with
  | [] => s
  | cs => cs.foldl (fun x c => copyChunk x c.1 c.2) (perfAdd s .hen 0 2 1)

/-- An access that is not served: LPC.EVENT.gone at the port, or SPAD.PERF7 at a withdrawn page. -/
def goneHit (s : State) (a : Nat) : State :=
  match ownerBlk s a with
  | some (.lpc, p) => raiseEvent s .lpc p 5
  | some (.spad, d) => if withdrawn s a then perfAdd s .spad d 7 1 else s
  | _ => s

/-- A tenant access that is not served, at the first of its pages that is mapped as it asks and not served (R356, R385): the request
completes TARGET_GONE there, which its port's EVENT.gone or its scratchpad's PERF7 tells. -/
def missAt (s : State) (t va n : Nat) (w : Bool) : State :=
  match (pagesOf va n).find? (fun p => !usable s t (p * 4096) 1 w) with
  | none => s
  | some p => match xlate s t (p * 4096) with
    | some (a, wr) => if !w || (wr && !inShared s a) then goneHit s (a + (max va (p * 4096) - p * 4096)) else s
    | none => s

/-- Bytes put into memory one by one, whatever lies there. -/
def putCells (s : State) (cs : List (Nat × Byte)) : State := { s with mem := { cells := cs.foldl (fun c e => cellSet c e.1 e.2) s.mem.cells } }

/-- The bytes of one line written by one write, as (address, byte) pairs of that line: true where it is discarded (R356, R385, R392).
64 pairs cover the line and clear its poison; fewer are discarded where the line is poisoned (R379). -/
def storeCells (s : State) (l : Nat) (cs : List (Nat × Byte)) : State × Bool :=
  if !served s (l * 64) then (goneHit s (l * 64), true)
  else if isSealed s (l * 64) then (sealHit s (l * 64), true)
  else
    let s := uncache (holdFor s (l * 64)) (l * 64) 64
    if cs.length == 64 then (putCells (clrPoison s l) cs, false)
    else
      let s := meetErrs s (· == l)
      if linePoison s l then (s, false) else (putCells s cs, false)

/-- A write of bytes within one line: true where it is discarded and its command completes TARGET_GONE (R356, R385, R392). A part of a
poisoned line is discarded and the line stays poisoned; the whole line clears the poison (R379). -/
def storeLine (s : State) (a : Nat) (bs : List Byte) : State × Bool :=
  if !served s a then (goneHit s a, true)
  else if isSealed s a then (sealHit s a, true)
  else
    let s := holdFor s a
    if bs.length == 64 then (memPut (clrPoison s (a / 64)) a bs, false)
    else
      let s := meetErrs s (· == a / 64)
      if linePoison s (a / 64) then (s, false) else (memPut s a bs, false)

/-- A write of bytes at a local address, line by line; `fuel` bounds the lines. -/
def storeLines : Nat → State → Nat → List Byte → State × Bool
  | 0, s, _, _ => (s, false)
  | fuel + 1, s, a, bs =>
    if bs.isEmpty then (s, false)
    else
      let n := 64 - a % 64
      let r := storeLine s a (bs.take n)
      let q := storeLines fuel r.1 (a + n) (bs.drop n)
      (q.1, r.2 || q.2)

/-- A write of bytes at a local address: true where some line was discarded. -/
def store (s : State) (a : Nat) (bs : List Byte) : State × Bool := storeLines (bs.length / 64 + 2) s a bs

/-- A line written as a poisoned word (R380), under the same rules; true where it was discarded. -/
def storePoison (s : State) (a : Nat) : State × Bool :=
  if !served s a then (goneHit s a, true)
  else if isSealed s a then (sealHit s a, true)
  else (setPoison (uncache (holdFor s a) a 64) (a / 64), false)

/-- A write of bytes within one page at a tenant address: discarded with TARGET_GONE where it is not mapped writable. -/
def tStorePage (s : State) (t va : Nat) (bs : List Byte) : State × Bool :=
  match xlateW s t va with
  | some a => store s a bs
  | none => (s, true)

/-- A write of bytes at a tenant address, page by page; `fuel` bounds the pages. -/
def tStorePages : Nat → State → Nat → Nat → List Byte → State × Bool
  | 0, s, _, _, _ => (s, false)
  | fuel + 1, s, t, va, bs =>
    if bs.isEmpty then (s, false)
    else
      let n := 4096 - va % 4096
      let r := tStorePage s t va (bs.take n)
      let q := tStorePages fuel r.1 t (va + n) (bs.drop n)
      (q.1, r.2 || q.2)

/-- A write of bytes at a tenant address: true where some of it was discarded. -/
def tStore (s : State) (t va : Nat) (bs : List Byte) : State × Bool := tStorePages (bs.length / 4096 + 2) s t va bs

/-- A line at a tenant address written as a poisoned word; true where it was discarded. -/
def tStorePoison (s : State) (t va : Nat) : State × Bool :=
  match xlateW s t va with
  | some a => storePoison s a
  | none => (s, true)

/-- R395: the lines of a range zeroed by a zeroing engine, chunks of a cut copied first (R704). -/
def zeroEngine (s : State) (a n : Nat) : State :=
  zeroRange ((s.hen.cuts.flatMap (fun c => c.pages.filter (fun p => a ≤ p * 4096 + 4095 && p * 4096 < a + n))).foldl
    (fun x p => holdFor x (p * 4096)) s) a n

end Sys2Proof.Machine
end

