-- ==== Sys2Proof/Machine/Ledger.lean ====
section
/-! DEFINITION. The ledger: entries due, chains, the ring, seals (chapter 11). -/

namespace Sys2Proof.Machine

/-- The number of the node chain (R458). -/
def nodeChain : Nat := 0xFFF

/-- The chain of a number. -/
def chainOf (s : State) (c : Nat) : Chain := tabGet {} s.ledger.chains c

/-- The state with a chain changed. -/
def modChain (s : State) (c : Nat) (f : Chain → Chain) : State :=
  { s with ledger := { s.ledger with chains := tabMod {} s.ledger.chains c f } }

/-- R449: bits [63:0] of the fingerprint. -/
def fprintLo (s : State) : Nat := 0x0101010100010101 + s.part.stepping * 2 ^ 24

/-- R449: bits [127:64] of the fingerprint. -/
def fprintHi : Nat := 0x0000010101018001

/-- The bytes of the fingerprint. -/
def fprintBytes (s : State) : List Byte := leBytes 8 (fprintLo s) ++ leBytes 8 fprintHi

/-- RING_LOG (Table 11.6). -/
def ringLog (s : State) : Nat := bits (regWord s .ledg 0 0x110 0) 0 5

/-- RING_BASE (Table 11.6). -/
def ringBase (s : State) : Nat := bits (regWord2 s .ledg 0 0x108 0) 0 48

/-- R474: `u` more units fit the ring. -/
def ringRoom (s : State) (u : Nat) : Bool := ringLog s != 0 && (s.ledger.wr - s.ledger.rd).toNat + u ≤ 2 ^ ringLog s

/-- The units of an entry (R459). -/
def entryUnits (e : Entry) : Nat := (64 + e.body.length) / 128

/-- The units of the waiting entries that are not written yet. [DEDUCED, log 41] -/
def waitingUnits (s : State) : Nat := (s.ledger.waiting.map entryUnits).foldl (· + ·) 0 - s.ledger.unitsDone

/-- An entry put behind the waiting ones; where the ring has no room for it after them, LEDG.EVENT.full is raised (R474). [DEDUCED, log 41] -/
def ledgerPush (s : State) (e : Entry) : State :=
  let s' := { s with ledger := { s.ledger with waiting := s.ledger.waiting ++ [e] } }
  let s' := modChain s' e.chain (fun c => { c with due := c.due + 1, gained := e.typ != 3 })
  if ringLog s = 0 || ringRoom s (waitingUnits s + entryUnits e) then s' else raiseEvent s' .ledg 0 0

/-- A GENESIS entry of a chain with a reason, mode and seed (Table 11.3, R461). -/
def genesisEntry (s : State) (c reason : Nat) (replay : Bool) (seed : W64) : Entry :=
  { chain := c, typ := 1, step := if c = nodeChain then 0 else (ten s c).step,
    body := fprintBytes s ++ (if c = nodeChain then leBytes 8 0 ++ leBytes 1 0 else leBytes 8 seed.toNat ++ leBytes 1 (b2n replay))
      ++ leBytes 1 reason ++ List.replicate 38 0 }

/-- The chain holds no entry, written or due. -/
def chainEmpty (s : State) (c : Nat) : Bool := (chainOf s c).next == 0 && (chainOf s c).due == 0

/-- R461: an entry is due; in an empty chain a GENESIS of reason 0, or 3 after an owner change, comes first, with the mode and seed
as they stand. -/
def ledgerDue (s : State) (e : Entry) : State :=
  let s := if chainEmpty s e.chain then
      ledgerPush s (genesisEntry s e.chain (if (chainOf s e.chain).cleared then 3 else 0) (ten s e.chain).replay (ten s e.chain).seed)
    else s
  ledgerPush s e

/-- R471: a SEAL of a chain is due; `fail` says that it cannot be made. -/
def sealNow (s : State) (c : Nat) (fail : Bool) : State :=
  if fail then raiseEvent s .ledg 0 2
  else ledgerDue s { chain := c, typ := 3, step := if c = nodeChain then 0 else (ten s c).step, body := List.replicate 192 0 }

/-- R470, R471: a SEAL is due for a chain that has gained entries since its last one. -/
def sealDue (s : State) (c : Nat) (fail : Bool) : State := if (chainOf s c).gained then sealNow s c fail else s

/-- Every chain that is listed, with a SEAL due where it has gained entries. -/
def sealAll (s : State) (fail : Bool) : State := s.ledger.chains.foldl (fun x e => sealDue x e.1 fail) s

/-- R471: a SEAL that another row brings with it; the spec does not say when a seal cannot be made, so whether it can be is a free value.
[DESIGN CHOICE, log 43] -/
def sealFree (s : State) (c : Nat) : State :=
  sealNow { s with freeCount := s.freeCount + 1 } c ((Config.freeWord s.freeCount).toNat % 2 == 1)

/-- R470: every chain that has gained entries is sealed, outside SEAL_PERIOD. -/
def sealGained (s : State) : State :=
  s.ledger.chains.foldl (fun x e => if (chainOf x e.1).gained then sealFree x e.1 else x) s

/-- The header of Table 11.2 with the time given. -/
def entryHead (s : State) (e : Entry) (time : Nat) : List Byte :=
  leBytes 8 (0x01 + e.typ * 2 ^ 8 + entryUnits e * 2 ^ 16 + e.chain * 2 ^ 24 + e.tflags * 2 ^ 36)
    ++ leBytes 8 (chainOf s e.chain).next.toNat ++ leBytes 8 e.step.toNat ++ leBytes 8 time ++ beBytes 32 (chainOf s e.chain).head

/-- The body of a SEAL without its signature (R469). [DESIGN CHOICE, log 43] -/
def sealBody (s : State) (e : Entry) (r v : Nat) : List Byte :=
  keyId Config.signingKey ++ leBytes 8 (chainOf s e.chain).sealFrom.toNat ++ beBytes 48 r ++ beBytes 48 v ++ List.replicate 80 0

/-- The body an entry is written with: a SEAL signs the SHA-384 of its two units with time, r and s zero (R469). -/
def entryBody (s : State) (e : Entry) : List Byte :=
  if e.typ = 3 then
    let sg := ecdsaSign Config.signingKey (entryHead s e 0 ++ sealBody s e 0 0)
    sealBody s e sg.1 sg.2
  else e.body

/-- The chain hash of an entry (R460): its units with the time zero. -/
def entryHash (s : State) (e : Entry) : Nat := beNat (sha256 (entryHead s e 0 ++ entryBody s e))

/-- The local address of ring unit `u`. -/
def ringUnitAddr (s : State) (u : Nat) : Nat := ringBase s + (u % 2 ^ ringLog s) * 128

/-- One unit of the front entry written; none where it completes TARGET_GONE (R472). -/
def writeUnit (s : State) : Option State :=
  let u := s.ledger.unitsDone
  let a := ringUnitAddr s s.ledger.wr.toNat
  let r := store s a ((s.ledger.built.drop (128 * u)).take 128)
  if r.2 then none
  else
    let s := perfAdd r.1 .ledg 0 1 1
    some { s with ledger := { s.ledger with unitsDone := u + 1, wr := s.ledger.wr + 1 } }

/-- What an entry's last unit leaves: its chain advances, its event and counts are raised, and it stops waiting. -/
def entryDone (s : State) (e : Entry) (hash : Nat) : State :=
  let s := modChain s e.chain (fun c => { c with
    head := hash, next := c.next + 1, due := c.due - 1, sealFrom := if e.typ = 3 then c.next + 1 else c.sealFrom })
  let s := { s with ledger := { s.ledger with waiting := s.ledger.waiting.drop 1, built := [], unitsDone := 0, stuck := false } }
  let s := perfAdd s .ledg 0 0 1
  match e.typ with
  | 1 => perfAdd (raiseEvent s .ledg 0 3) .ledg 0 5 1
  | 3 => perfAdd (raiseEvent s .ledg 0 1) .ledg 0 3 1
  | _ => s

/-- The units of the front entry written from the first not yet written; `fuel` bounds them. -/
def writeUnits (e : Entry) (hash : Nat) : Nat → State → State
  | 0, s => s
  | fuel + 1, s =>
    if entryUnits e ≤ s.ledger.unitsDone then entryDone s e hash
    else match writeUnit s with
      | none => raiseEvent { s with ledger := { s.ledger with stuck := true } } .ledg 0 7
      | some s => writeUnits e hash fuel s

/-- R474: the front waiting entry is written whole once the ring has room for it; it waits otherwise. -/
def ledgerWrite (s : State) : State :=
  match s.ledger.waiting with
  | [] => s
  | e :: _ =>
    if !s.ledger.built.isEmpty then writeUnits e (entryHash s e) (entryUnits e + 1) s
    else if !ringRoom s (entryUnits e) then (if ringLog s = 0 then s else raiseEvent s .ledg 0 0)
    else
      let b := entryHead s e s.mgmt.systime.toNat ++ entryBody s e
      writeUnits e (entryHash s e) (entryUnits e + 1) { s with ledger := { s.ledger with built := b, unitsDone := 0 } }

/-- Waiting entries written until one must wait; `fuel` bounds them. -/
def ledgerDrain : Nat → State → State
  | 0, s => s
  | fuel + 1, s =>
    match s.ledger.waiting with
    | [] => s
    | e :: _ => if s.ledger.stuck || (s.ledger.built.isEmpty && !ringRoom s (entryUnits e)) then s else ledgerDrain fuel (ledgerWrite s)

/-- A MEMORY entry's body (R466): subtype, die, set, source, page, bytes 72 to 87, granule address and digest. [DEDUCED, log 37] -/
def memoryBody (sub die sn src pg : Nat) (mid : List Byte) (gran : Nat) (digest : List Byte) : List Byte :=
  leBytes 1 sub ++ leBytes 1 die ++ leBytes 1 sn ++ leBytes 1 src ++ leBytes 4 pg ++ mid ++ leBytes 8 gran ++ digest

/-- R467: a page restore or set failure: one entry in the node chain and one in the chain of each tenant recorded. -/
def memoryEntries (s : State) (sub die sn src pg : Nat) (w : Withdrawn) : State :=
  let z := List.replicate 32 (0 : Byte)
  let s := ledgerDue s {
    chain := nodeChain, typ := 6,
    body := memoryBody sub die sn src pg (leBytes 2 w.ranges.length ++ leBytes 1 (b2n w.ovf) ++ List.replicate 13 0) 0 z }
  w.ranges.foldl (fun x r => ledgerDue x {
    chain := r.tenant, typ := 6, step := (ten x r.tenant).step,
    body := memoryBody sub die sn src pg (leBytes 8 r.lo.toNat ++ leBytes 8 r.hi.toNat) 0 z }) s

/-- R666: an OVERRIDE entry in the node chain: the cause, the timing-only mark and the duration in µs. During a management restart it
waits for its end (R674). -/
def overrideEntry (s : State) (cause us : Nat) : State :=
  let e : Entry := { chain := nodeChain, typ := 7, body := leBytes 1 cause ++ leBytes 1 1 ++ List.replicate 6 0 ++ leBytes 8 us ++ List.replicate 48 0 }
  if s.mgmt.restarting then { s with mgmt := { s.mgmt with owed := s.mgmt.owed ++ [e] } } else ledgerDue s e

end Sys2Proof.Machine
end

