-- ==== Sys2Proof/Machine/Flags.lean ====
section
/-! DEFINITION. The flags that arithmetic raises (Table 3.11) and the overflow of integer operations (Table 3.7). -/

namespace Sys2Proof.Machine

/-- The flags raised by an operation: those of a completion record (R119, Table 2.7) and the IEEE flags that only Mule keeps (R124). -/
structure Fl where
  sat : Bool := false
  nv : Bool := false
  dz : Bool := false
  nan : Bool := false
  poison : Bool := false
  reg : Bool := false
  ofl : Bool := false
  ufl : Bool := false
  nx : Bool := false
deriving DecidableEq, Repr

/-- No flag. -/
def Fl.none : Fl := {}

/-- The OR of two sets of flags (R119: no flag is cleared while the command runs). -/
def flOr (a b : Fl) : Fl :=
  { sat := a.sat || b.sat, nv := a.nv || b.nv, dz := a.dz || b.dz, nan := a.nan || b.nan, poison := a.poison || b.poison,
    reg := a.reg || b.reg, ofl := a.ofl || b.ofl, ufl := a.ufl || b.ufl, nx := a.nx || b.nx }

/-- The OR over a list. -/
def flAll (l : List Fl) : Fl := l.foldl flOr Fl.none

/-- Bits [22:16] of a completion record: SAT, NV, DZ, NAN, POISON, (DEFERRED, which no operation raises), REG (Table 2.7). -/
def flBits (f : Fl) : Nat :=
  b2n f.sat + 2 * b2n f.nv + 4 * b2n f.dz + 8 * b2n f.nan + 16 * b2n f.poison + 64 * b2n f.reg

/-- The flags that a value of `flBits` stands for. -/
def flOfBits (n : Nat) : Fl :=
  { sat := bitAt n 0, nv := bitAt n 1, dz := bitAt n 2, nan := bitAt n 3, poison := bitAt n 4, reg := bitAt n 6 }

/-- R74: DONE_FLAGS when any of SAT, NV, DZ, NAN and REG is set, DONE otherwise. -/
def flDone (f : Fl) : Nat := if f.sat || f.nv || f.dz || f.nan || f.reg then 1 else 0

/-! Integer operations of Table 3.7 on words of `w` bits. Operands and results are the words themselves. -/

/-- The value of a word. -/
def iVal (signed : Bool) (w x : Nat) : Int := if signed then sgn w x else ((x % 2 ^ w : Nat) : Int)

/-- The ends of a format's range. -/
def iMin (signed : Bool) (w : Nat) : Int := if signed then - ((2 ^ (w - 1) : Nat) : Int) else 0

/-- The upper end of a format's range. -/
def iMax (signed : Bool) (w : Nat) : Int := if signed then ((2 ^ (w - 1) : Nat) : Int) - 1 else ((2 ^ w : Nat) : Int) - 1

/-- R105: the true result where it lies in range; else its low bits under wrap, the nearer end under saturate, with SAT. -/
def iFit (signed wrap : Bool) (w : Nat) (r : Int) : Nat × Fl :=
  if iMin signed w ≤ r ∧ r ≤ iMax signed w then (unsgn w r, Fl.none)
  else if wrap then (unsgn w r, { sat := true })
  else (unsgn w (if r < iMin signed w then iMin signed w else iMax signed w), { sat := true })

/-- Addition. -/
def iAdd (signed wrap : Bool) (w x y : Nat) : Nat × Fl := iFit signed wrap w (iVal signed w x + iVal signed w y)

/-- Subtraction. -/
def iSub (signed wrap : Bool) (w x y : Nat) : Nat × Fl := iFit signed wrap w (iVal signed w x - iVal signed w y)

/-- Multiplication. -/
def iMul (signed wrap : Bool) (w x y : Nat) : Nat × Fl := iFit signed wrap w (iVal signed w x * iVal signed w y)

/-- Negation. -/
def iNeg (signed wrap : Bool) (w x : Nat) : Nat × Fl := iFit signed wrap w (- iVal signed w x)

/-- The absolute value. -/
def iAbs (signed wrap : Bool) (w x : Nat) : Nat × Fl := iFit signed wrap w ((iVal signed w x).natAbs : Int)

/-- The quotient, truncated toward zero (R106), with the divide rows of Table 3.7. -/
def iQuo (signed wrap : Bool) (w x y : Nat) : Nat × Fl :=
  if iVal signed w y = 0 then
    (if signed then
      (if wrap then 2 ^ w - 1 else if 0 ≤ iVal signed w x then 2 ^ (w - 1) - 1 else 2 ^ (w - 1))
     else 2 ^ w - 1, { dz := true })
  else iFit signed wrap w ((iVal signed w x).tdiv (iVal signed w y))

/-- The remainder, with the sign of the dividend (R106); x and DZ for a zero divisor. -/
def iRem (signed : Bool) (w x y : Nat) : Nat × Fl :=
  if iVal signed w y = 0 then (x % 2 ^ w, { dz := true })
  else (unsgn w ((iVal signed w x).tmod (iVal signed w y)), Fl.none)

/-- The shift left rows of Table 3.7; the count is an unsigned integer and is never masked (R107). -/
def iShl (signed wrap : Bool) (w x c : Nat) : Nat × Fl :=
  if x % 2 ^ w = 0 then (0, Fl.none)
  else if w ≤ c then
    (if wrap then 0 else unsgn w (if 0 < iVal signed w x then iMax signed w else iMin signed w), { sat := true })
  else iFit signed wrap w (iVal signed w x * ((2 ^ c : Nat) : Int))

/-- The logical shift right rows of Table 3.7. -/
def iShr (w x c : Nat) : Nat × Fl :=
  if w ≤ c then (0, { sat := x % 2 ^ w != 0 }) else ((x % 2 ^ w) >>> c, Fl.none)

/-- The arithmetic shift right rows of Table 3.7. -/
def iSar (w x c : Nat) : Nat × Fl :=
  if w ≤ c then (unsgn w (if sgn w x < 0 then -1 else 0), { sat := x % 2 ^ w != 0 })
  else (unsgn w (sgn w x / ((2 ^ c : Nat) : Int)), Fl.none)

/-- R803: an integer value converted into another integer format. -/
def iConv (sSigned : Bool) (sw : Nat) (tSigned : Bool) (tw : Nat) (wrap : Bool) (x : Nat) : Nat × Fl :=
  iFit tSigned wrap tw (iVal sSigned sw x)

end Sys2Proof.Machine
end

