-- ==== Sys2Proof/Machine/Format.lean ====
section
/-! DEFINITION. The number formats of Table 3.1, the exact values their elements have, rounding and narrowing (chapter 3). -/

namespace Sys2Proof.Machine

/-- The formats of Table 3.1, in order of their codes 0x01 to 0x0F. -/
inductive Fmt where
  | e2m1 | e2m3 | e3m2 | e4m3 | e5m2 | int8 | uint8 | int4 | bf16 | fp16 | fp32 | fp64 | int32 | int64 | uint32
deriving DecidableEq, Repr

/-- The formats in order of their codes. -/
def fmtList : List Fmt :=
  [.e2m1, .e2m3, .e3m2, .e4m3, .e5m2, .int8, .uint8, .int4, .bf16, .fp16, .fp32, .fp64, .int32, .int64, .uint32]

/-- R82: the format of a code; every other code is reserved. -/
def fmtOf (c : Nat) : Option Fmt := if c = 0 then none else fmtList[c - 1]?

/-- The code of a format. -/
def fmtCode (f : Fmt) : Nat := (fmtList.findIdx (· == f)) + 1

/-- Bits per element (Table 3.1). -/
def fmtBits : Fmt → Nat
  | .e2m1 => 4 | .e2m3 => 6 | .e3m2 => 6 | .e4m3 => 8 | .e5m2 => 8 | .int8 => 8 | .uint8 => 8 | .int4 => 4
  | .bf16 => 16 | .fp16 => 16 | .fp32 => 32 | .fp64 => 64 | .int32 => 32 | .int64 => 64 | .uint32 => 32

/-- A float format. -/
def fmtFloat : Fmt → Bool
  | .e2m1 | .e2m3 | .e3m2 | .e4m3 | .e5m2 | .bf16 | .fp16 | .fp32 | .fp64 => true
  | .int8 | .uint8 | .int4 | .int32 | .int64 | .uint32 => false

/-- A signed integer format. -/
def fmtSigned : Fmt → Bool
  | .int8 | .int4 | .int32 | .int64 => true
  | _ => false

/-- R82: the formats with a shared scale, codes 0x01 to 0x08. -/
def fmtScaled (f : Fmt) : Bool := fmtCode f ≤ 8

/-- The exponent bits e of Table 3.2; 0 for an integer format. -/
def fmtE : Fmt → Nat
  | .e2m1 => 2 | .e2m3 => 2 | .e3m2 => 3 | .e4m3 => 4 | .e5m2 => 5 | .bf16 => 8 | .fp16 => 5 | .fp32 => 8 | .fp64 => 11
  | _ => 0

/-- The mantissa bits t of Table 3.2; 0 for an integer format. -/
def fmtT : Fmt → Nat
  | .e2m1 => 1 | .e2m3 => 3 | .e3m2 => 2 | .e4m3 => 3 | .e5m2 => 2 | .bf16 => 7 | .fp16 => 10 | .fp32 => 23 | .fp64 => 52
  | _ => 0

/-- The bias of Table 3.2. -/
def fmtBias (f : Fmt) : Nat := 2 ^ (fmtE f - 1) - 1

/-- The formats with infinities: E all ones, m = 0. -/
def fmtInf : Fmt → Bool
  | .e5m2 | .bf16 | .fp16 | .fp32 | .fp64 => true
  | _ => false

/-- The float formats with NaN. -/
def fmtNaN (f : Fmt) : Bool := fmtInf f || f == .e4m3

/-- The canonical NaN of Table 3.3. -/
def fmtCanon : Fmt → Nat
  | .e4m3 => 0x7F | .e5m2 => 0x7E | .bf16 => 0x7FC0 | .fp16 => 0x7E00 | .fp32 => 0x7FC00000 | .fp64 => 0x7FF8000000000000
  | _ => 0

/-- The exponent of the smallest subnormal. -/
def fmtEmin (f : Fmt) : Int := 1 - (fmtBias f : Int) - (fmtT f : Int)

/-- The largest finite magnitude M as an integer times a power of two. -/
def fmtMax (f : Fmt) : Nat × Int :=
  match f with
  | .e4m3 => (14, 5)
  | .e2m1 | .e2m3 | .e3m2 => (2 ^ (fmtT f + 1) - 1, (2 ^ fmtE f - 1 : Nat) - (fmtBias f : Int) - fmtT f)
  | _ => (2 ^ (fmtT f + 1) - 1, (2 ^ fmtE f - 2 : Nat) - (fmtBias f : Int) - fmtT f)

/-- The exact value of an element: NaN, an infinity, or the magnitude m × 2^e with a sign. `sticky` says that the true magnitude
lies strictly between m × 2^e and (m + 1) × 2^e, as an unrounded quotient or root may. -/
inductive Val where
  | nan (snan : Bool)
  | inf (neg : Bool)
  | fin (neg : Bool) (m : Nat) (e : Int) (sticky : Bool)
deriving DecidableEq, Repr

/-- Zero. -/
def vZero : Val := .fin false 0 0 false

/-- An integer's value. -/
def vInt (i : Int) : Val := .fin (i < 0) i.natAbs 0 false

/-- The value is NaN. -/
def vIsNaN : Val → Bool
  | .nan _ => true
  | _ => false

/-- The value is a signalling NaN (R89). -/
def vIsSNaN : Val → Bool
  | .nan s => s
  | _ => false

/-- The value is an infinity. -/
def vIsInf : Val → Bool
  | .inf _ => true
  | _ => false

/-- The value is a zero. -/
def vIsZero : Val → Bool
  | .fin _ m _ s => m == 0 && !s
  | _ => false

/-- The sign of a value; a NaN counts as positive (R88). -/
def vNeg : Val → Bool
  | .nan _ => false
  | .inf n => n
  | .fin n _ _ _ => n

/-- R83, R84: the value of a float element. -/
def fDecode (f : Fmt) (x : Nat) : Val :=
  let t := fmtT f
  let e := fmtE f
  let m := bits x 0 t
  let ee := bits x t e
  let neg := bitAt x (t + e)
  if fmtInf f && ee == 2 ^ e - 1 then (if m = 0 then .inf neg else .nan (!bitAt x (t - 1)))
  else if f == .e4m3 && ee == 15 && m == 7 then .nan false
  else if ee = 0 then .fin neg m (fmtEmin f) false
  else .fin neg (2 ^ t + m) ((ee : Int) - fmtBias f - t) false

/-- The value of an element of any format. -/
def fmtDecode (f : Fmt) (x : Nat) : Val :=
  if fmtFloat f then fDecode f x
  else vInt (iVal (fmtSigned f) (fmtBits f) x)

/-- The encoding of a magnitude that the format represents (or zero). -/
def fEncodeMag (f : Fmt) (m : Nat) (e : Int) : Nat :=
  if m = 0 then 0
  else
    let l : Int := (Nat.log2 m : Int) + e
    let t := fmtT f
    if l < 1 - (fmtBias f : Int) then
      (if fmtEmin f ≤ e then m <<< (e - fmtEmin f).toNat else m >>> (fmtEmin f - e).toNat)
    else
      let s : Int := e - (l - t)
      (if 0 ≤ s then m <<< s.toNat else m >>> (-s).toNat) - 2 ^ t + ((l + fmtBias f).toNat <<< t)

/-- The encoding with its sign. -/
def fEncode (f : Fmt) (neg : Bool) (m : Nat) (e : Int) : Nat := (b2n neg <<< (fmtE f + fmtT f)) + fEncodeMag f m e

/-- An infinity's encoding. -/
def fEncodeInf (f : Fmt) (neg : Bool) : Nat := (b2n neg <<< (fmtE f + fmtT f)) + ((2 ^ fmtE f - 1) <<< fmtT f)

/-- The largest finite value's encoding. -/
def fEncodeMax (f : Fmt) (neg : Bool) : Nat := fEncode f neg (fmtMax f).1 (fmtMax f).2

/-- The rounding modes: those of Table 3.4, SR with its 32-bit draw (R97), and the two directed modes that only Mule has (R123). -/
inductive Rnd where
  | rne
  | sr (draw : Nat)
  | rtz
  | up
  | down
deriving DecidableEq, Repr

/-- The magnitude rounded to an integer count of 2^u, and whether that was inexact. -/
def roundAt (u : Int) (rnd : Rnd) (neg : Bool) (m : Nat) (e : Int) (sticky : Bool) : Nat × Bool :=
  if u ≤ e && !sticky then (m <<< (e - u).toNat, false)
  else
    -- with a sticky part the value is first brought to at least 34 bits below the unit
    let k : Nat := if e < u then (u - e).toNat else 0
    let m0 := if e < u then m else m <<< (e - u).toNat
    let q := m0 >>> k
    let rest := m0 % 2 ^ k
    let inex := rest != 0 || sticky
    let half := 2 ^ k
    match rnd with
    | .rne =>
      let up := (2 * rest > half) || (2 * rest == half && 0 < k && (sticky || q % 2 == 1))
      (if up then q + 1 else q, inex)
    | .sr draw =>
      let t := (rest <<< 32) >>> k
      (if inex && draw < t then q + 1 else q, inex)
    | .rtz => (q, inex)
    | .up => (if inex && !neg then q + 1 else q, inex)
    | .down => (if inex && neg then q + 1 else q, inex)

/-- The exponent of the unit in the last place of a magnitude on the format's unbounded-exponent grid. -/
def ulpExp (f : Fmt) (m : Nat) (e : Int) : Int :=
  if m = 0 then fmtEmin f else max (fmtEmin f) ((Nat.log2 m : Int) + e - fmtT f)

/-- The magnitude m × 2^e exceeds M of the format. -/
def exceedsMax (f : Fmt) (m : Nat) (e : Int) : Bool :=
  let (mm, me) := fmtMax f
  let lo := min e me
  mm <<< (me - lo).toNat < m <<< (e - lo).toNat

/-- R99 to R101 and Table 3.5: an overflowing float result. IEEE flags OF and NX are raised with it (R124). -/
def fOverflow (f : Fmt) (wrap : Bool) (rnd : Rnd) (neg : Bool) : Nat × Fl :=
  let fl : Fl := { sat := true, ofl := true, nx := true }
  match rnd with
  | .rtz => (fEncodeMax f neg, fl)
  | .up => if neg then (fEncodeMax f neg, fl) else (fEncodeInf f neg, fl)
  | .down => if neg then (fEncodeInf f neg, fl) else (fEncodeMax f neg, fl)
  | _ =>
    match f with
    | .fp64 => (fEncodeInf f neg, fl)
    | .fp32 => if wrap then (fEncodeInf f neg, fl) else (fEncodeMax f neg, fl)
    | .e4m3 | .e5m2 | .bf16 | .fp16 => if wrap then (fmtCanon f, { fl with nan := true }) else (fEncodeMax f neg, fl)
    | _ => (fEncodeMax f neg, fl)

/-- A finite value rounded once into a float format (R95, R97, R99 to R101); UF is raised when the result is tiny after rounding
and inexact (R125). -/
def fNarrowFin (f : Fmt) (rnd : Rnd) (wrap neg : Bool) (m : Nat) (e : Int) (sticky : Bool) : Nat × Fl :=
  let u := ulpExp f m e
  let (q, inex) := roundAt u rnd neg m e sticky
  if exceedsMax f q u then fOverflow f wrap rnd neg
  else
    -- tiny: below the smallest normal when rounded with an unbounded exponent
    let uu : Int := (Nat.log2 m : Int) + e - fmtT f
    let (q2, _) := roundAt uu rnd neg m e sticky
    let tiny := m != 0 && ((Nat.log2 q2 : Int) + uu < 1 - (fmtBias f : Int))
    (fEncode f neg q u, { nx := inex, ufl := tiny && inex })

/-- R103: a float value rounded to an integer and brought into an integer format. An inexact result in range raises the IEEE flag NX, the
inexact-signalling of IEEE 754's two families of conversions. [DESIGN CHOICE, log 99] -/
def iNarrowFin (f : Fmt) (rnd : Rnd) (wrap neg : Bool) (m : Nat) (e : Int) (sticky : Bool) : Nat × Fl :=
  let (q, inex) := roundAt 0 rnd neg m e sticky
  let (x, fl) := iFit (fmtSigned f) wrap (fmtBits f) (if neg then - (q : Int) else q)
  (x, { fl with nv := fl.sat, nx := inex && !fl.sat })

/-- R95, R99 to R104, Table 3.6: a value narrowed into a format. -/
def narrow (f : Fmt) (rnd : Rnd) (wrap : Bool) (v : Val) : Nat × Fl :=
  let sn : Fl := { nv := vIsSNaN v }
  if fmtFloat f then
    match v with
    | .nan _ => if fmtNaN f then (fmtCanon f, flOr sn { nan := true }) else (0, { nv := true })
    | .inf neg =>
      if fmtInf f then (fEncodeInf f neg, Fl.none)
      else if f == .e4m3 && wrap then (fmtCanon f, { sat := true, nan := true })
      else (fEncodeMax f neg, { sat := true })
    | .fin neg m e st => fNarrowFin f rnd wrap neg m e st
  else
    match v with
    | .nan _ => (0, { nv := true })
    | .inf neg => (unsgn (fmtBits f) (if neg then iMin (fmtSigned f) (fmtBits f) else iMax (fmtSigned f) (fmtBits f)), { sat := true, nv := true })
    | .fin neg m e st => iNarrowFin f rnd wrap neg m e st

/-- A value narrowed into a format, `int` saying that it comes from integers: R142, R213, R418 and R803 then give an integer target's
range SAT alone, where R103 gives a float's SAT and NV. Through a block scale on either side the same holds. [DESIGN CHOICE, log 99] -/
def narrowFrom (int : Bool) (f : Fmt) (rnd : Rnd) (wrap : Bool) (v : Val) : Nat × Fl :=
  match v with
  | .fin neg m e st =>
    if int && !fmtFloat f then let q := iNarrowFin f rnd wrap neg m e st; (q.1, { q.2 with nv := false }) else narrow f rnd wrap v
  | _ => narrow f rnd wrap v

end Sys2Proof.Machine
end

