-- ==== Sys2Proof/Machine/Arith.lean ====
section
/-! DEFINITION. Exact float arithmetic on values, with the special cases of 3.2, and the rounded operations of the engines. -/

namespace Sys2Proof.Machine

/-- A NaN operand's flags: NAN for the canonical NaN result, NV for a signalling NaN (R89, R92). -/
def nanFl (vs : List Val) : Fl := { nan := true, nv := vs.any vIsSNaN }

/-- An invalid operation (R91). -/
def invalidFl : Fl := { nan := true, nv := true }

/-- A value with its sign changed. -/
def vFlip : Val → Val
  | .nan s => .nan s
  | .inf n => .inf (!n)
  | .fin n m e s => .fin (!n) m e s

/-- A value with the given sign. -/
def vWithSign (neg : Bool) : Val → Val
  | .nan s => .nan s
  | .inf _ => .inf neg
  | .fin _ m e s => .fin neg m e s

/-- The exact sum of two finite values: sign, magnitude and exponent. The zero sum of opposite signs is +0, or -0 when `rdn`
(R90). -/
def finAdd (rdn : Bool) (n1 : Bool) (m1 : Nat) (e1 : Int) (n2 : Bool) (m2 : Nat) (e2 : Int) : Val :=
  let e := min e1 e2
  let a : Int := (m1 <<< (e1 - e).toNat : Nat)
  let b : Int := (m2 <<< (e2 - e).toNat : Nat)
  let r := (if n1 then -a else a) + (if n2 then -b else b)
  if r = 0 then
    (if m1 = 0 && m2 = 0 then .fin (if n1 == n2 then n1 else rdn) 0 0 false else .fin rdn 0 0 false)
  else .fin (r < 0) r.natAbs e false

/-- The exact sum (R90 to R92). -/
def vAdd (rdn : Bool) (x y : Val) : Val × Fl :=
  match x, y with
  | .nan a, y => (.nan false, nanFl [.nan a, y])
  | x, .nan b => (.nan false, nanFl [x, .nan b])
  | .inf a, .inf b => if a == b then (.inf a, Fl.none) else (.nan false, invalidFl)
  | .inf a, _ => (.inf a, Fl.none)
  | _, .inf b => (.inf b, Fl.none)
  | .fin n1 m1 e1 _, .fin n2 m2 e2 _ => (finAdd rdn n1 m1 e1 n2 m2 e2, Fl.none)

/-- The exact product (R90 to R92). -/
def vMul (x y : Val) : Val × Fl :=
  match x, y with
  | .nan a, y => (.nan false, nanFl [.nan a, y])
  | x, .nan b => (.nan false, nanFl [x, .nan b])
  | .inf a, .inf b => (.inf (a != b), Fl.none)
  | .inf a, .fin n m _ _ => if m = 0 then (.nan false, invalidFl) else (.inf (a != n), Fl.none)
  | .fin n m _ _, .inf b => if m = 0 then (.nan false, invalidFl) else (.inf (n != b), Fl.none)
  | .fin n1 m1 e1 _, .fin n2 m2 e2 _ => (.fin (n1 != n2) (m1 * m2) (e1 + e2) false, Fl.none)

/-- The exact fused multiply-add x × y + z; 0 × ∞ sets NV also beside a NaN addend (R92). -/
def vFma (rdn : Bool) (x y z : Val) : Val × Fl :=
  if vIsNaN x || vIsNaN y then (.nan false, nanFl [x, y, z])
  else
    let p := vMul x y
    if vIsNaN p.1 then (.nan false, flOr invalidFl { nv := vIsSNaN z }) else vAdd rdn p.1 z

/-- The quotient to at least 192 bits with its sticky part (R90 to R93). -/
def vDiv (x y : Val) : Val × Fl :=
  match x, y with
  | .nan a, y => (.nan false, nanFl [.nan a, y])
  | x, .nan b => (.nan false, nanFl [x, .nan b])
  | .inf _, .inf _ => (.nan false, invalidFl)
  | .inf a, .fin n _ _ _ => (.inf (a != n), Fl.none)
  | .fin n _ _ _, .inf b => (.fin (n != b) 0 0 false, Fl.none)
  | .fin n1 m1 e1 _, .fin n2 m2 e2 _ =>
    if m2 = 0 then (if m1 = 0 then (.nan false, invalidFl) else (.inf (n1 != n2), { dz := true }))
    else
      let k := 192 + Nat.log2 m2 + 1
      let q := (m1 <<< k) / m2
      (.fin (n1 != n2) q (e1 - e2 - k) ((m1 <<< k) % m2 != 0), Fl.none)

/-- The square root to at least 192 bits with its sticky part; the root of -0 is -0 (R91). -/
def vSqrt (x : Val) : Val × Fl :=
  match x with
  | .nan a => (.nan false, nanFl [.nan a])
  | .inf n => if n then (.nan false, invalidFl) else (.inf false, Fl.none)
  | .fin n m e _ =>
    if m = 0 then (.fin n 0 0 false, Fl.none)
    else if n then (.nan false, invalidFl)
    else
      let m1 := if e % 2 = 0 then m else 2 * m
      let e1 := if e % 2 = 0 then e else e - 1
      let a := m1 <<< 384
      let r := isqrt a
      (.fin false r (e1 / 2 - 192) (r * r != a), Fl.none)

/-- The order of two values, neither NaN: `lt`, `eq` or `gt`; the zeros are equal. -/
def vCmp (x y : Val) : Ordering :=
  match x, y with
  | .inf a, .inf b => if a == b then .eq else if a then .lt else .gt
  | .inf a, _ => if a then .lt else .gt
  | _, .inf b => if b then .gt else .lt
  | .fin n1 m1 e1 s1, .fin n2 m2 e2 s2 =>
    let e := min e1 e2
    let a : Int := (m1 <<< (e1 - e).toNat : Nat)
    let b : Int := (m2 <<< (e2 - e).toNat : Nat)
    let a := 2 * (if n1 then -a else a) + (if s1 then (if n1 then -1 else 1) else 0)
    let b := 2 * (if n2 then -b else b) + (if s2 then (if n2 then -1 else 1) else 0)
    compare a b
  | _, _ => .eq

/-- A value below another. -/
def vLt (x y : Val) : Bool := vCmp x y == .lt

/-- The minimum (R92; -0 orders below +0 as R128 and Pony have it). -/
def vMin (x y : Val) : Val × Fl :=
  if vIsNaN x || vIsNaN y then (.nan false, nanFl [x, y])
  else if vIsZero x && vIsZero y then (if vNeg x then x else y, Fl.none)
  else (if vCmp y x == .lt then y else x, Fl.none)

/-- The maximum. -/
def vMax (x y : Val) : Val × Fl :=
  if vIsNaN x || vIsNaN y then (.nan false, nanFl [x, y])
  else if vIsZero x && vIsZero y then (if vNeg x then y else x, Fl.none)
  else (if vCmp x y == .lt then y else x, Fl.none)

/-- The flags a record carries, without the IEEE flags that only Mule keeps. -/
def flRec (f : Fl) : Fl := { f with ofl := false, ufl := false, nx := false }

/-- A value times 2^k. -/
def vScale (k : Int) : Val → Val
  | .fin n m e s => .fin n m (e + k) s
  | v => v

/-- The floor of log2 of a finite non-zero magnitude. -/
def vLog2 : Val → Int
  | .fin _ m e _ => (Nat.log2 m : Int) + e
  | _ => 0

/-- The absolute value. -/
def vAbs : Val → Val
  | .nan s => .nan s
  | .inf _ => .inf false
  | .fin _ m e s => .fin false m e s

/-! Shared scales (3.6). -/

/-- R113: the value of a scale byte: `sfmt` 1 E8M0, 2 UE4M3. -/
def scaleDecode (sfmt c : Nat) : Val :=
  if sfmt = 1 then (if c = 0xFF then .nan false else .fin false 1 ((c : Int) - 127) false)
  else if 0x7F ≤ c then .nan false else fDecode .e4m3 c

/-- R114: an element times its scale; a NaN scale gives NaN, NV and NAN. The product is an operation of section 3.2, so a NaN element of a
scaled block raises NAN here, whatever operation reads it. [DESIGN CHOICE, log 99] -/
def scaled (v s : Val) : Val × Fl :=
  if vIsNaN s then (.nan false, invalidFl) else vMul v s

/-- R115 step 3: the exponent chosen for a block with the largest magnitude `amax`, non-zero, unclamped. `emax` of Table 3.9 is
the floor of log2 M, where M is the largest magnitude of the format. -/
def scaleExpRaw (srule : Nat) (f : Fmt) (amax : Val) : Int :=
  let mx : Nat × Int := if fmtFloat f then fmtMax f else ((iMax (fmtSigned f) (fmtBits f)).toNat, 0)
  let e0 := vLog2 amax - ((Nat.log2 mx.1 : Int) + mx.2)
  if srule = 0 then e0
  else if vCmp amax (.fin false mx.1 (mx.2 + e0) false) == .gt then e0 + 1 else e0

/-- R115: the scale exponent of a block, clamped to what the scale format holds. -/
def scaleExp (sfmt srule : Nat) (f : Fmt) (amax : Val) : Int :=
  if vIsZero amax then 0
  else if sfmt = 1 then max (-127) (min 127 (scaleExpRaw srule f amax))
  else max (-9) (min 8 (scaleExpRaw srule f amax))

/-- R116: the code of a scale exponent. -/
def scaleCode (sfmt : Nat) (e : Int) : Nat :=
  if sfmt = 1 then (e + 127).toNat
  else if -6 ≤ e then ((e + 7) * 8).toNat
  else if e = -7 then 4 else if e = -8 then 2 else 1

end Sys2Proof.Machine
end

