-- ==== Sys2Proof/Machine/Operands.lean ====
section
/-! DEFINITION. The operand forms: command fields (Table 2.1), tensor descriptors (Table 10.1), elements and block scales. -/

namespace Sys2Proof.Machine

/-! Command fields. -/

/-- The 64-bit word of bytes 8i to 8i + 7 of a command. -/
def cw (c : Cmd) (i : Nat) : Nat := c.words.getD i 0

/-- The field of `w` bits at bit `lo` of word `i`. -/
def cf (c : Cmd) (i lo w : Nat) : Nat := bits (cw c i) lo w

/-- The opcode (Table 2.2). -/
def cOp (c : Cmd) : Nat := cf c 0 0 8
/-- The version. -/
def cVer (c : Cmd) : Nat := cf c 0 8 8
/-- The D or V class. -/
def cVcls (c : Cmd) : Bool := bitAt (cw c 0) 16
/-- The overflow mode: true wraps. -/
def cOvf (c : Cmd) : Bool := bitAt (cw c 0) 17
/-- An interrupt is requested. -/
def cIrq (c : Cmd) : Bool := bitAt (cw c 0) 18
/-- The energy estimate in nJ. -/
def cEnergy (c : Cmd) : Nat := cf c 0 32 32
/-- The step field. -/
def cStep (c : Cmd) : Nat := cw c 1
/-- The token waited on. -/
def cWaitTok (c : Cmd) : Nat := cf c 2 0 8
/-- The token signalled. -/
def cSigTok (c : Cmd) : Nat := cf c 2 8 8
/-- The wait is enabled. -/
def cWaitEn (c : Cmd) : Bool := bitAt (cw c 2) 16
/-- The signal is enabled. -/
def cSigEn (c : Cmd) : Bool := bitAt (cw c 2) 17
/-- The per-iteration advance of the wait value. -/
def cLstep (c : Cmd) : Nat := cf c 2 24 8
/-- The wait value. -/
def cWaitVal (c : Cmd) : Nat := cf c 2 32 32
/-- The software tag. -/
def cTag (c : Cmd) : Nat := cf c 3 0 32

/-- A field of bits that must be zero. -/
def cZero (c : Cmd) (i lo w : Nat) : Bool := cf c i lo w == 0

/-- The 64-byte structure that Goose read for the command at the address whose bits [47:6] are `d`. [DEDUCED, log 13] -/
def cRead (c : Cmd) (d : Nat) : Nat := tabGet 0 c.read d

/-! Tensor descriptors. -/

/-- A tensor descriptor (Table 10.1). -/
structure TDesc where
  version : Nat
  fmt : Nat
  base : Nat
  scale : Nat
  tau : Nat
  wrap : Nat
  rsv : Nat
  strides : List Int
  exts : List Nat
deriving DecidableEq, Repr

/-- The descriptor that 64 bytes hold. -/
def tdesc (n : Nat) : TDesc :=
  { version := bits n 0 8, fmt := bits n 8 8, base := bits n 16 48, scale := bits n 64 64, tau := bits n 128 24,
    wrap := bits n 152 6, rsv := bits n 158 2 + bits n 496 16,
    strides := (List.range 6).map (fun i => sgn 32 (bits n (160 + 32 * i) 32)),
    exts := (List.range 6).map (fun i => bits n (352 + 24 * i) 24) }

/-- The descriptor that a command names, as Goose read it. [DEDUCED, log 13] -/
def cDesc (c : Cmd) (d : Nat) : TDesc := tdesc (cRead c d)

/-- The extent of dimension `i`. -/
def dExt (d : TDesc) (i : Nat) : Nat := d.exts.getD i 1

/-- The stride of dimension `i`. -/
def dStride (d : TDesc) (i : Nat) : Int := d.strides.getD i 0

/-- The format of a descriptor; FP4 stands for a reserved code, which `descOk` refuses. -/
def dFmt (d : TDesc) : Fmt := (fmtOf d.fmt).getD .e2m1

/-- The scale word's fields (Table 3.8). -/
def dSfmt (d : TDesc) : Nat := bits d.scale 0 2
/-- log2 of the block. -/
def dBlog (d : TDesc) : Nat := bits d.scale 2 4
/-- The block size B. -/
def dBlock (d : TDesc) : Nat := 2 ^ dBlog d
/-- The scaled direction: false along the reduction dimension. -/
def dDir (d : TDesc) : Bool := bitAt d.scale 6
/-- The selection rule. -/
def dSrule (d : TDesc) : Nat := bits d.scale 7 1
/-- The tenant address of the scale array. -/
def dSaddr (d : TDesc) : Nat := bits d.scale 8 48

/-- R110: the scale word is acceptable. -/
def scaleOk (d : TDesc) : Bool :=
  if dSfmt d == 0 then d.scale == 0
  else dSfmt d != 3 && 3 ≤ dBlog d && dBlog d ≤ 8 && bits d.scale 8 6 == 0 && bits d.scale 56 8 == 0 && fmtScaled (dFmt d)

/-- R411: the strides of sub-byte formats. The stride of an unused dimension, of extent 1 above dimension 0, has no effect (R409).
[DEDUCED, log 27] -/
def strideOk (d : TDesc) : Bool :=
  let ok := fun (k : Int) => dStride d 0 == 1 && (List.range 5).all (fun i => dExt d (i + 1) == 1 || dStride d (i + 1) % k == 0)
  match dFmt d with
  | .e2m1 | .int4 => ok 2
  | .e2m3 | .e3m2 => ok 4
  | _ => true

/-- R409, R411, R110, R82: the descriptor is well formed. [DEDUCED, log 27] -/
def descOk (d : TDesc) : Bool :=
  d.version == 1 && (fmtOf d.fmt).isSome && d.rsv == 0 && d.exts.all (fun e => 1 ≤ e) && scaleOk d && strideOk d

/-- The number of elements of an extent. -/
def extCount (e : List Nat) : Nat := e.foldl (· * ·) 1

/-- The indices of linear element `n` over extents, dimension 0 fastest (R98). -/
def unlin : List Nat → Nat → List Nat
  | [], _ => []
  | e :: es, n => n % e :: unlin es (n / e)

/-- The linear index of indices over extents. -/
def lin : List Nat → List Nat → Nat
  | e :: es, i :: is => i + e * lin es is
  | _, _ => 0

/-- R410: the element offset of indices. -/
def elemOff : List Int → List Nat → Int
  | st :: sts, i :: is => st * (i : Int) + elemOff sts is
  | _, _ => 0

/-- The bytes that hold one element: 1 for a sub-byte pair, 3 for an FP6 group (R412). -/
def elemSpan (f : Fmt) : Nat :=
  match f with
  | .e2m1 | .int4 => 1
  | .e2m3 | .e3m2 => 3
  | f => fmtBits f / 8

/-- R410: the first byte of the bytes that hold the element at offset `o`; a byte below 0 lies outside every map. -/
def elemAddr (f : Fmt) (base : Nat) (o : Int) : Int :=
  match f with
  | .e2m1 | .int4 => (base : Int) + o / 2
  | .e2m3 | .e3m2 => (base : Int) + 3 * (o / 4)
  | f => (base : Int) + o * ((fmtBits f / 8 : Nat) : Int)

/-- R85: the first bit of the element within those bytes. -/
def elemBit (f : Fmt) (o : Int) : Nat :=
  match f with
  | .e2m1 | .int4 => 4 * (o % 2).toNat
  | .e2m3 | .e3m2 => 6 * (o % 4).toNat
  | _ => 0

/-- A byte address as a Nat; an address below 0 becomes one that nothing maps. -/
def addrNat (a : Int) : Nat := if a < 0 then 2 ^ 48 else a.toNat

/-- The tenant address of the bytes of an element. -/
def dAddr (d : TDesc) (idx : List Nat) : Nat := addrNat (elemAddr (dFmt d) d.base (elemOff d.strides idx))

/-- The raw bits of an element in the tenant's memory. -/
def dBits (s : State) (t : Nat) (d : TDesc) (idx : List Nat) : Nat :=
  bits (tNat s t (dAddr d idx) (elemSpan (dFmt d))) (elemBit (dFmt d) (elemOff d.strides idx)) (fmtBits (dFmt d))

/-- The element can be read now. -/
def dUsable (s : State) (t : Nat) (d : TDesc) (idx : List Nat) : Bool := usable s t (dAddr d idx) (elemSpan (dFmt d)) false

/-- The element lies in a poisoned line. -/
def dPoison (s : State) (t : Nat) (d : TDesc) (idx : List Nat) : Bool := tPoison s t (dAddr d idx) (elemSpan (dFmt d))

/-! Block scales (3.6). `red` and `free` are the command's reduction and free dimensions. -/

/-- The scaled dimension. -/
def scaledDim (d : TDesc) (red free : Nat) : Nat := if dDir d then free else red

/-- The scale array's extents (R112). -/
def scaleExts (d : TDesc) (dim : Nat) : List Nat := d.exts.set dim (ceilDiv (dExt d dim) (dBlock d))

/-- The tenant address of the scale byte of an element (R111, R112). -/
def scaleAddr (d : TDesc) (red free : Nat) (idx : List Nat) : Nat :=
  let k := scaledDim d red free
  dSaddr d + lin (scaleExts d k) (idx.set k (idx.getD k 0 / dBlock d))

/-- The block of an element: a number that two elements share exactly when they share a scale. -/
def blockOf (d : TDesc) (red free : Nat) (idx : List Nat) : Nat := scaleAddr d red free idx - dSaddr d

/-- The value of an element with its block scale (R83, R113, R114). -/
def dVal (s : State) (t : Nat) (d : TDesc) (red free : Nat) (idx : List Nat) : Val × Fl :=
  let v := fmtDecode (dFmt d) (dBits s t d idx)
  if dSfmt d = 0 then (v, Fl.none)
  else scaled v (scaleDecode (dSfmt d) (tByte s t (scaleAddr d red free idx)).toNat)

/-- The element and its scale can be read now. -/
def dUsableS (s : State) (t : Nat) (d : TDesc) (red free : Nat) (idx : List Nat) : Bool :=
  dUsable s t d idx && (dSfmt d == 0 || usable s t (scaleAddr d red free idx) 1 false)

/-- The element or its scale lies in a poisoned line. -/
def dPoisonS (s : State) (t : Nat) (d : TDesc) (red free : Nat) (idx : List Nat) : Bool :=
  dPoison s t d idx || (dSfmt d != 0 && tPoison s t (scaleAddr d red free idx) 1)

/-! Byte ranges (R412). -/

/-- The least and greatest element offset over a box of indices, given per dimension as (least, greatest). -/
def offRange : List Int → List (Nat × Nat) → Int × Int
  | st :: sts, (a, b) :: r =>
    let q := offRange sts r
    (q.1 + min (st * a) (st * b), q.2 + max (st * a) (st * b))
  | _, _ => (0, 0)

/-- The whole extent as a box. -/
def fullBox (d : TDesc) : List (Nat × Nat) := d.exts.map (fun e => (0, e - 1))

/-- The span of bytes of a box: first byte and length; none where it leaves the address space. -/
def boxSpan (d : TDesc) (box : List (Nat × Nat)) : Option (Nat × Nat) :=
  let r := offRange d.strides box
  let lo := elemAddr (dFmt d) d.base r.1
  let hi := elemAddr (dFmt d) d.base r.2 + (elemSpan (dFmt d) : Int)
  if lo < 0 || hi > 2 ^ 48 then none else some (lo.toNat, (hi - lo).toNat)

/-- The span of the scale bytes of a box. -/
def scaleSpan (d : TDesc) (red free : Nat) (box : List (Nat × Nat)) : Option (Nat × Nat) :=
  if dSfmt d = 0 then some (0, 0)
  else
    let lo := scaleAddr d red free (box.map (·.1))
    let hi := scaleAddr d red free (box.map (·.2)) + 1
    if hi > 2 ^ 48 then none else some (lo, hi - lo)

/-- Every local page of a span satisfies `p`. -/
def spanIn (s : State) (t : Nat) (p : Nat → Bool) : Option (Nat × Nat) → Bool
  | none => false
  | some (a, n) => (pagesOf a n).all (fun q => match xlate s t (q * 4096) with
    | some (la, _) => p la
    | none => false)

/-- Table 1.8: the local addresses an engine reaches: the scratchpad of its own die, or, with no die, what its tenant maps. -/
def reachDie (die : Option Nat) (a : Nat) : Bool := match die with
  | none => true
  | some d => spadOf a == some (d, 0)

/-- A span can be accessed now by an engine of a die (R20): what lies elsewhere counts as not mapped. [DEDUCED, log 32] -/
def usableOn (s : State) (t : Nat) (die : Option Nat) (va n : Nat) (w : Bool) : Bool :=
  usable s t va n w && spanIn s t (reachDie die) (some (va, n))

/-- A span is wholly mapped, writable where `w`. -/
def spanMapped (s : State) (t : Nat) (w : Bool) : Option (Nat × Nat) → Bool
  | none => false
  | some (a, n) => mapped s t a n w

/-- A tensor's elements and scales, over a box, are wholly mapped. -/
def tensorMapped (s : State) (t : Nat) (d : TDesc) (red free : Nat) (box : List (Nat × Nat)) (w : Bool) : Bool :=
  spanMapped s t w (boxSpan d box) && spanMapped s t w (scaleSpan d red free box)

/-- Two spans overlap. -/
def spansMeet : Option (Nat × Nat) → Option (Nat × Nat) → Bool
  | some (a, la), some (b, lb) => rangesMeet a la b lb
  | _, _ => false

/-! Output of an engine. -/

/-- An element that an engine writes: the tenant address of its bytes, the bit within them, its width in bits and value, and whether
it is written as poison. -/
structure OutElem where
  addr : Nat
  bit : Nat
  width : Nat
  val : Nat
  bad : Bool
deriving DecidableEq, Repr

/-- The bytes that hold the output element (R412). -/
def outSpan (e : OutElem) : Nat := if e.width = 6 then 3 else (e.width + 7) / 8

/-- A byte OR-ed into a rising list of (address, byte); sub-byte elements of one byte come together so. -/
def orByte (a : Nat) (b : Byte) : List (Nat × Byte) → List (Nat × Byte)
  | [] => [(a, b)]
  | (x, v) :: t => if x = a then (x, v ||| b) :: t else if a < x then (a, b) :: (x, v) :: t else (x, v) :: orByte a b t

/-- The bytes of an output element put into a rising list. Bits of a byte or group beyond the elements are zero (R422). [DEDUCED, log 12] -/
def outBytes (e : OutElem) (acc : List (Nat × Byte)) : List (Nat × Byte) :=
  let n := outSpan e
  ((leBytes n (e.val <<< e.bit)).zip (natsFrom e.addr n)).foldr (fun x l => orByte x.2 x.1 l) acc

/-- The pairs of one line, then the rest. -/
def takeLine (l : Nat) : List (Nat × Byte) → List (Nat × Byte) × List (Nat × Byte)
  | [] => ([], [])
  | (a, b) :: t => if a / 64 = l then (let q := takeLine l t; ((a, b) :: q.1, q.2)) else ([], (a, b) :: t)

/-- A rising list of (address, byte) split into its lines; `fuel` bounds the lines. [DEDUCED, log 12] -/
def splitLines : Nat → List (Nat × Byte) → List (Nat × List (Nat × Byte))
  | 0, _ => []
  | _, [] => []
  | fuel + 1, (a, b) :: t => let q := takeLine (a / 64) ((a, b) :: t); (a / 64, q.1) :: splitLines fuel q.2

/-- One line of an engine's output at tenant line `l`: as poison, or its bytes. -/
def tStoreLine (s : State) (t l : Nat) (cs : List (Nat × Byte)) (bad : Bool) : State × Bool :=
  match xlateW s t (l * 64) with
  | none => (s, true)
  | some a => if bad then storePoison s a else storeCells s (a / 64) (cs.map (fun e => (a + e.1 % 64, e.2)))

/-- What writing an engine's output did: the state, the lines written, whether some line was discarded, and whether the engine
stopped at a line that it could not reach. -/
structure Wrote where
  st : State
  lines : Nat := 0
  gone : Bool := false
  stopped : Bool := false

/-- One line of an engine's output after those before it: an engine stops at the first line that is not mapped writable or not
served (R172, R242, R435); a write to a sealed granule is discarded and the engine goes on (R392). -/
def writeLine (t : Nat) (badLines : List Nat) (w : Wrote) (l : Nat × List (Nat × Byte)) : Wrote :=
  if w.stopped then w
  else if !usable w.st t (l.1 * 64) 64 true then { w with st := missAt w.st t (l.1 * 64) 64 true, gone := true, stopped := true }
  else
    let r := tStoreLine w.st t l.1 l.2 (badLines.contains l.1)
    { st := r.1, lines := w.lines + b2n (!r.2), gone := w.gone || r.2 }

/-- The output elements of a command written line by line in address order, each line once; the lines that hold an element written
as poison, and the lines of the addresses `badAt`, become poisoned (R380, R434). [DEDUCED, log 12] -/
def writeOut (s : State) (t : Nat) (es : List OutElem) (badAt : List Nat) : Wrote :=
  let bytes := es.foldr outBytes []
  let badLines := badAt.map (· / 64) ++ (es.filter (·.bad)).flatMap (fun e => linesOf e.addr (outSpan e))
  (splitLines bytes.length bytes).foldl (writeLine t badLines) { st := s }

/-- The output element of a tensor at some indices. -/
def outElem (d : TDesc) (idx : List Nat) (val : Nat) (bad : Bool) : OutElem :=
  { addr := dAddr d idx, bit := elemBit (dFmt d) (elemOff d.strides idx), width := fmtBits (dFmt d), val := val, bad := bad }

end Sys2Proof.Machine
end

