-- ==== Sys2Proof/Machine/Errors.lean ====
section
/-! DEFINITION. Uncorrectable errors, withdrawn pages and the tenants that map a page (9.7, 9.9). -/

namespace Sys2Proof.Machine

/-- The entry numbers of a table that are not all zero. -/
def usedEntries (s : State) (tbl : Nat) : List Nat :=
  ((s.mem.cells.filter (fun e => tbl ≤ e.1 && e.1 < tbl + 4096)).map (fun e => (e.1 - tbl) / 8)).dedup

/-- The leaves below a table of level `lvl`: local base and log2 of the size (R618, R619). -/
def leavesFrom (s : State) : Nat → Nat → List (Nat × Nat)
  | 0, _ => []
  | lvl + 1, tbl =>
    if !(inLpddr tbl && backed s tbl) then []
    else (usedEntries s tbl).flatMap (fun i =>
      let e := memNat s (tbl + 8 * i) 8
      let a := bits e 12 36 * 4096
      let n := 2 ^ (12 + 9 * lvl)
      if linePoison s ((tbl + 8 * i) / 64) || !bitAt e 0 || bits e 3 9 != 0 || bits e 48 16 != 0 then []
      else if bitAt e 1 then
        (if lvl == 3 || a % n != 0 then []
         else if (inLpddr a && inLpddr (a + n - 1)) || (inUpper a && inUpper (a + n - 1) && lvl < 2) then [(a, 12 + 9 * lvl)]
         else [])
      else leavesFrom s lvl a)

/-- Some page of the tenant meets a local range. -/
def tenantMaps (s : State) (t a n : Nat) : Bool :=
  (ten s t).rootValid && (leavesFrom s 4 (ten s t).root).any (fun p => rangesMeet p.1 (2 ^ p.2) a n)

/-- The numbers of the tenants that hold something. -/
def tenantNums (s : State) : List Nat := s.tenants.map (·.1)

/-- Some tenant maps a local range. [DEDUCED, log 38] -/
def anyMaps (s : State) (a n : Nat) : Bool := (tenantNums s).any (fun t => tenantMaps s t a n)

/-- The memory event of every tenant that maps a local range (TEN.EVENT.mem). -/
def memEvents (s : State) (a n : Nat) : State :=
  ((tenantNums s).filter (fun t => tenantMaps s t a n)).foldl (fun x t => raiseEvent x .ten t 2) s

/-- The shared set of a die. -/
def sharedSet (s : State) (d k : Nat) : SharedSet := tabGet {} (spad s d).sets k

/-- The state with a shared set changed. -/
def modSet (s : State) (d k : Nat) (f : SharedSet → SharedSet) : State :=
  modSpad s d (fun x => { x with sets := tabMod {} x.sets k f })

/-- R389: a set becomes FAILED on account of a page: its event, the memory event of every tenant that maps the set, a ledger entry. -/
def failSet (s : State) (d k : Nat) (w : Withdrawn) : State :=
  let e := sharedSet s d k
  memoryEntries (memEvents (setFailed s d k) (upperBase d + e.first * 4096) (e.pages * 4096)) 2 d k 0 w.page w

/-- R385, R390: a page of a shared set meets an uncorrectable error. -/
def withdrawPage (s : State) (d k p : Nat) : State :=
  if (spad s d).wd.any (fun e => e.page == p) then s
  else if 64 ≤ (spad s d).wd.length then failSet s d k { page := p, setNo := k }
  else
    let s := modSpad s d (fun x => { x with wd := x.wd ++ [{ page := p, setNo := k }] })
    let s := modSet s d k (fun e => { e with st := 3 })
    memEvents (raiseEvent s .spad d 2) (upperBase d + p * 4096) 4096

/-- R385, steps 2 to 4: the page of a line that has met an uncorrectable error is withdrawn where it lies in a shared set that is in use. [DEDUCED, log 34] -/
def withdrawLine (s : State) (l : Nat) : State :=
  match spadOf (l * 64) with
  | some (d, 0) =>
    let p := (l * 64 - upperBase d) / 4096
    match setOfPage s d p with
    | some k => if (sharedSet s d k).st == 2 || (sharedSet s d k).st == 3 then withdrawPage s d k p else s
    | none => s
  | _ => s

/-- The pages of lines that a read has just poisoned are withdrawn (R385): those poisoned in `s1` and not in `s0`. The read itself returns
poison (R378, R386), and the withdrawal holds from the next access on. [DEDUCED, log 34] -/
def withdrawNew (s0 s1 s : State) : State :=
  ((errLines s0 (fun l => !linePoison s0 l && linePoison s1 l)).foldl withdrawLine s)

/-- The local lines that `p` accepts are read: errors met, and pages withdrawn. -/
def readNow (s : State) (p : Nat → Bool) : State := let s1 := meetErrs s p; withdrawNew s s1 s1

/-- A local line holds bytes of these tenant spans. -/
def spansHave (s : State) (t : Nat) (spans : List (Option (Nat × Nat))) (l : Nat) : Bool :=
  spans.any (fun sp => match sp with
    | none => false
    | some (a, n) => (pagesOf a n).any (fun p => match xlate s t (p * 4096) with
      | some (la, _) => la / 4096 == l / 64 && rangesMeet a n (p * 4096 + (l % 64) * 64) 64
      | none => false))

/-- The translations of tenant spans are cached. -/
def fillSpans (s : State) (t : Nat) (spans : List (Option (Nat × Nat))) : State :=
  spans.foldl (fun x sp => match sp with
    | some (a, n) => fillTlb x t a n
    | none => x) s

/-- The state as a command's reads of tenant spans leave it: translations cached, errors met, the lines of uncorrectable ones poisoned.
`withdrawNew` follows once the command has read. [DEDUCED, log 34] -/
def readSpans (s : State) (t : Nat) (spans : List (Option (Nat × Nat))) : State :=
  let s := fillSpans s t spans
  meetErrs s (spansHave s t spans)

/-- A step range widened by a step (R386); a 65th tenant sets the overflow mark. [DEDUCED, log 36] -/
def widen (w : Withdrawn) (t step : Nat) : Withdrawn :=
  let st := BitVec.ofNat 64 step
  if w.ranges.any (fun r => r.tenant == t) then
    { w with ranges := w.ranges.map (fun r => if r.tenant == t then
        { r with lo := if st < r.lo then st else r.lo, hi := if r.hi < st then st else r.hi } else r) }
  else if 64 ≤ w.ranges.length then { w with ovf := true }
  else { w with ranges := w.ranges ++ [{ tenant := t, lo := st, hi := st }] }

/-- R386: a tenant's command of a step completed POISONED or TARGET_GONE; the withdrawn pages that its spans touch record the step. [DEDUCED, log 36] -/
def noteWithdrawn (s : State) (t step : Nat) (spans : List (Option (Nat × Nat))) : State :=
  let pages := spans.flatMap (fun sp => match sp with
    | none => []
    | some (a, n) => (pagesOf a n).filterMap (fun p => (xlate s t (p * 4096)).map (fun x => x.1 / 4096)))
  let hit := fun d (w : Withdrawn) => pages.contains (upperBase d / 4096 + w.page)
  [0, 1].foldl (fun x d => modSpad x d (fun sp => { sp with wd := sp.wd.map (fun w => if hit d w then widen w t step else w) })) s

end Sys2Proof.Machine
end

