-- ==== Sys2Proof/Machine/Goose.lean ====
section
/-! DEFINITION. Goose: streams, readiness, holds, completion records, tokens, loops (chapter 2). -/

namespace Sys2Proof.Machine

/-! Streams and fronts. -/

/-- Stream `st` of tenant `t`. -/
def stream (s : State) (t st : Nat) : Stream := tabGet {} (ten s t).streams st

/-- The state with a stream changed. -/
def modStream (s : State) (t st : Nat) (f : Stream → Stream) : State :=
  modTen s t (fun x => { x with streams := tabMod {} x.streams st f })

/-- R27: the Goose core of a tenant. -/
def coreOf (t : Nat) : Nat := t / 16

/-- The stream is enabled in effect (R71). -/
def enabled (s : State) (t st : Nat) : Bool := bitAt (ten s t).en st

/-- The loop whose body still issues: the last one, while iterations are left (R60, R62) and no quiesce has ended it (R80). -/
def loopIssuing (l : Looping) : Bool :=
  !l.quit && l.iter < l.times && (match l.stopAfter with
    | some i => l.iter ≤ i
    | none => true)

/-- The loop of the stream that issues now. -/
def curLoop (x : Stream) : Option Looping :=
  match x.loops.getLast? with
  | some l => if loopIssuing l then some l else none
  | none => none

/-- The front command (R805): the oldest fetched command that has not issued, with its iteration inside a loop body. -/
def front (x : Stream) : Option (Cmd × Option Nat) :=
  match curLoop x with
  | some l => (l.body[l.pos]?).map (fun c => (c, some l.iter))
  | none => (x.fetched.head?).map (fun c => (c, none))

/-- The loop moved past the command at its place (R60). -/
def loopStep (l : Looping) : Looping :=
  let accs := listMod l.accs l.pos (fun a => { a with issued := a.issued + 1 })
  if l.pos + 1 < l.body.length then { l with pos := l.pos + 1, accs := accs } else { l with pos := 0, iter := l.iter + 1, accs := accs }

/-- The stream with its front command taken away and the holds of the next cleared; the end of a loop's iteration ends a skip
range (R57). -/
def dropFront (x : Stream) : Stream :=
  match curLoop x with
  | some l => { x with loops := x.loops.dropLast ++ [loopStep l], hold := {},
                       skip := if l.pos + 1 < l.body.length then x.skip else 0 }
  | none => { x with fetched := x.fetched.drop 1, hold := {} }

/-- The last command of a loop's body stands at the front. -/
def lastOfBody (x : Stream) : Bool := match curLoop x with
  | some l => decide (l.body.length ≤ l.pos + 1)
  | none => false

/-- The front command of a stream leaves it. GOOSE.PERF6 counts an iteration when its last command leaves (R81). [DEDUCED, log 11] -/
def takeFront (s : State) (t st : Nat) : State :=
  let s' := modStream s t st dropFront
  if lastOfBody (stream s t st) then perfAdd s' .goose (coreOf t) 6 1 else s'

/-! Tokens (2.5). -/

/-- A token's counter. -/
def token (s : State) (t n : Nat) : W32 := tabGet 0 (ten s t).tokens n

/-- R41: the token has reached `w`: the difference, read as signed, is zero or positive. -/
def reached (s : State) (t n : Nat) (w : W32) : Bool := !(token s t n - w).msb

/-- R42: the effective wait value. -/
def waitVal (c : Cmd) (iter : Option Nat) : W32 := BitVec.ofNat 32 (cWaitVal c + iter.getD 0 * cLstep c)

/-- The header wait is satisfied (R41). -/
def headWait (s : State) (t : Nat) (c : Cmd) (iter : Option Nat) : Bool := !cWaitEn c || reached s t (cWaitTok c) (waitVal c iter)

/-- A token's error bit set, with GOOSE.EVENT.token_err. -/
def tokenErr (s : State) (t n : Nat) : State :=
  raiseEvent (modTen s t (fun x => { x with tokenErr := x.tokenErr ||| BitVec.ofNat 64 (2 ^ n) })) .goose (coreOf t) 1

/-- `n` added to a token's counter. -/
def tokenAdd (s : State) (t n inc : Nat) : State :=
  modTen s t (fun x => { x with tokens := tabMod 0 x.tokens n (· + BitVec.ofNat 32 inc) })

/-- R43, R44: the signal of a command that completes with a status. -/
def signal (s : State) (t : Nat) (c : Cmd) (status : Nat) : State :=
  if cSigEn c && cSigTok c ≤ 63 then
    let s := tokenAdd s t (cSigTok c) 1
    if 0x10 ≤ status then tokenErr s t (cSigTok c) else s
  else s

/-! Holds (R75). -/

/-- The time of a step becomes known: the node's clock never goes back. [DESIGN CHOICE, log 10] -/
def atTime (s : State) (now : Nat) : State := { s with gclk := max s.gclk now }

/-- A hold's sums with the time since it was last passed over added. [DEDUCED, log 21] -/
def holdUpTo (h : Hold) (now : Nat) : Hold :=
  if h.lastCause = 0 then h
  else { h with sums := tabMod 0 h.sums h.lastCause (· + (now - h.lastAt)), lastAt := now }

/-- The front command was passed over at `now` for a cause (R75), with the refusal code of a queue hold (Table 15.6). [DEDUCED, log 21] -/
def passOver (s : State) (t st now cause code : Nat) : State :=
  modStream s t st (fun x =>
    let h := holdUpTo x.hold now
    { x with hold := { h with readyAt := some (h.readyAt.getD now), lastAt := now, lastCause := cause, queueCode := code,
                              coresAt := if code = 3 then some (h.coresAt.getD now) else h.coresAt } })

/-- The cause that held longest, a tie going to the lower code; 0 where the command was never passed over (R75). [DEDUCED, log 21] -/
def holdCause (h : Hold) : Nat :=
  if h.lastCause = 0 then 0
  else
    let v := fun c => tabGet 0 h.sums c
    let best := maxOf [v 1, v 2, v 3, v 4]
    ([1, 2, 3, 4].find? (fun c => v c == best && ((tabFind h.sums c).isSome || c == h.lastCause))).getD h.lastCause

/-- The time from readiness to `now`, as the wait field has it. -/
def holdWait (h : Hold) (now : Nat) : Nat := satTo 32 (now - h.readyAt.getD now)

/-! Readiness (2.6). -/

/-- R475: the replay stop point holds the command back. [DEDUCED, log 44] -/
def stopHolds (x : Tenant) (st : Nat) (c : Cmd) : Bool :=
  x.replay && x.stopEn && x.stopStream == st
    && (x.stopStep.toNat < cStep c || (x.stopStep.toNat == cStep c && x.stopOrd < c.ord))

/-- The commands of stream `st` issued and not completed. -/
def jobsOf (s : State) (t st : Nat) : List Job := s.jobs.filter (fun j => j.tenant == t && j.stream == st && !j.orphan)

/-- Every issued iteration of a loop's body has completed and every record of it is written, so that its LOOP may complete (R62, R63). -/
def loopFinished (l : Looping) : Bool := !loopIssuing l && l.accs.all (fun a => a.written && a.finished == a.issued)

/-- Every earlier command of the stream has completed: no command of it is issued, and no loop but the one that now issues runs. -/
def streamClear (s : State) (t st : Nat) : Bool :=
  let x := stream s t st
  (jobsOf s t st).isEmpty && (match curLoop x with
    | some _ => x.loops.length == 1
    | none => x.loops.isEmpty)

/-- FENCE with all set: no command of another stream fetched before sequence number `q` is incomplete. -/
def othersClear (s : State) (t st q : Nat) : Bool :=
  (List.range 8).all (fun o => o == st ||
    (let x := stream s t o
     x.fetched.all (fun c => q ≤ c.seq)
     && x.loops.all (fun l => q ≤ l.cmd.seq && l.body.all (fun c => q ≤ c.seq))
     && (jobsOf s t o).all (fun j => q ≤ j.cmd.seq)))

/-- R66: the waits of a stream-0 STEP of a step: earlier commands complete, every other enabled stream past its STEP of the step. -/
def stepWaits (s : State) (t step : Nat) : Bool :=
  streamClear s t 0 && (List.range 8).all (fun o => o == 0 || !enabled s t o || (stream s t o).stepDone == some (BitVec.ofNat 64 step))

/-- R52: a command names a summary slot that it will write. [DEDUCED, log 18] -/
def namesSlot (c : Cmd) (slot : Nat) : Bool :=
  match cOp c with
  | 0x21 => bitAt (cw c 5) 52 && cf c 5 48 4 == slot
  | 0x22 => bitAt (cw c 5) 52 && cf c 5 48 4 == slot
  | 0x30 => bitAt (cw c 5) 60 && cf c 5 56 4 == slot
  | 0x31 => bitAt (cw c 5) 20 && cf c 5 16 4 == slot
  | 0x50 => bitAt (cw c 4) 60 && cf c 4 56 4 == slot
  | _ => false

/-- R47: the extra waits of a WAIT. [DEDUCED, log 18] -/
def waitExtra (s : State) (t : Nat) (c : Cmd) (iter : Option Nat) : Bool :=
  [4, 5, 6, 7].all (fun i => !bitAt (cw c i) 8
    || reached s t (cf c i 0 8) (BitVec.ofNat 32 (cf c i 32 32 + iter.getD 0 * cLstep c)))

/-- The token waits of a command, each with whether it is satisfied (R41, R47). -/
def tokenWaits (s : State) (t : Nat) (c : Cmd) (iter : Option Nat) : List (Nat × Bool) :=
  (if cWaitEn c then [(cWaitTok c, headWait s t c iter)] else [])
    ++ (if cOp c == 0x01 then (([4, 5, 6, 7].filter (fun i => bitAt (cw c i) 8)).map (fun i =>
      (cf c i 0 8, reached s t (cf c i 0 8) (BitVec.ofNat 32 (cf c i 32 32 + iter.getD 0 * cLstep c))))) else [])

/-- The order waits of a command at the front (WAIT_ORDER of Table 2.12). [DEDUCED, log 15] -/
def orderOk (s : State) (t st : Nat) (c : Cmd) : Bool :=
  match cOp c with
  | 0x03 => streamClear s t st && (!bitAt (cw c 4) 0 || othersClear s t st c.seq)
  | 0x04 => if st = 0 then stepWaits s t (cStep c) else streamClear s t st
  | 0x06 => !(s.jobs.any (fun j => j.tenant == t && !j.orphan && namesSlot j.cmd (cf c 4 0 4)))
  | _ => true

/-- R64: the step that the command names has been reached. -/
def stepReached (s : State) (t : Nat) (c : Cmd) : Bool := decide (cStep c ≤ (ten s t).step.toNat)

/-- R59: a LOOP's body is wholly fetched. -/
def loopBodyOk (x : Stream) (c : Cmd) : Bool := cOp c != 0x07 || cf c 4 0 6 < x.fetched.length

/-- A command that was refused or found poisoned at fetch, or whose step has been passed (R39, R799, R800). [DEDUCED, log 15] -/
def badAtFront (s : State) (t : Nat) (c : Cmd) : Bool := c.verdict != 0 || c.poisoned || cStep c < (ten s t).step.toNat

/-- The context runs: not in Lamb mode, the core READY or FENCED (which finishes what it has accepted, R739), no tenant reset (R745, R80,
R634). [DEDUCED, log 23] -/
def ctxRuns (s : State) (t : Nat) : Bool :=
  !s.mgmt.lamb && (blkReady s .goose (coreOf t) || blkState s .goose (coreOf t) == 4) && !(ten s t).resetting

/-- The front of a stream may leave it at all: the stream runs and has not stopped on a fetch fault (R33), and no stop point or
release holds it. [DEDUCED, log 14] -/
def frontLive (s : State) (t st : Nat) : Bool := ctxRuns s t && enabled s t st && !bitAt (stream s t st).fault 0

/-- A skip range covers the front command (R54, R57, R59): a STEP, CUT or LOOP ends the range of a TEST. [DEDUCED, log 17] -/
def skipActive (x : Stream) (c : Cmd) : Bool := x.skip != 0 && (x.skipAll || !(cOp c == 0x04 || cOp c == 0x05 || cOp c == 0x07))

/-- The front command of a stream is ready (2.6): its waits are satisfied, its step is current and it has passed its checks. -/
def ready (s : State) (t st : Nat) : Option (Cmd × Option Nat) :=
  let x := stream s t st
  if !frontLive s t st then none
  else match front x with
    | none => none
    | some (c, it) =>
      if skipActive x c || badAtFront s t c || stopHolds (ten s t) st c || cStep c != (ten s t).step.toNat || !headWait s t c it
        || !(cOp c != 0x01 || waitExtra s t c it) || !orderOk s t st c || !loopBodyOk x c then none
      else some (c, it)

/-- Every stream's front command that is ready and has no time of readiness gets the present one (R75). [DEDUCED, log 21] -/
def markReady (s : State) (t : Nat) : State :=
  (List.range 8).foldl (fun y st =>
    if (ready y t st).isSome && (stream y t st).hold.readyAt.isNone then
      modStream y t st (fun x => { x with hold := { x.hold with readyAt := some y.gclk } })
    else y) s

/-! Completion records (2.10). -/

/-- A completion's timing: the wait in ns and the cause of the longest hold, 0 when not deferred. -/
structure Timing where
  wait : Nat := 0
  cause : Nat := 0
deriving DecidableEq, Repr

/-- The 32 bytes of a completion record (Table 2.7). -/
def recBytes (t st : Nat) (c : Cmd) (r : Result) (tm : Timing) : List Byte :=
  leBytes 8 (cOp c + r.status * 2 ^ 8 + r.flags * 2 ^ 16 + b2n (tm.cause != 0) * 2 ^ 21 + tm.cause * 2 ^ 24 + b2n r.skip * 2 ^ 28
      + b2n (cVcls c) * 2 ^ 29 + t * 2 ^ 32 + st * 2 ^ 44)
    ++ leBytes 8 (cStep c) ++ leBytes 8 (cTag c + satTo 32 tm.wait * 2 ^ 32)
    ++ leBytes 8 (r.detail % 2 ^ 32 + c.count.toNat * 2 ^ 32)

/-- The tenant address of completion slot `n` of a stream (R30). -/
def cplSlot (x : Stream) (n : W32) : Nat := x.cplBase + 32 * (n.toNat % 2 ^ x.k)

/-- One record written to its slot: true where it was written, false where it cannot be (R801). A slot in a sealed granule takes no
write and raises seal_wr (R392); the model holds the record as R801 does, since R801 loses none. [DEDUCED, log 97] -/
def putRec (s : State) (t st : Nat) (r : Rec) : State × Bool :=
  let x := stream s t st
  let va := cplSlot x x.wr
  let s := fillTlb s t va 32
  match xlateW s t va with
  | none => (s, false)
  | some a =>
    if !served s a then (s, false)
    else if isSealed s a then (sealHit s a, false)
    else if linePoison s (a / 64) then (s, false)
    else
      let s := (store s a r.bytes).1
      let s := modStream s t st (fun x => { x with wr := x.wr + 1 })
      (if r.irq then raiseVec s (t + 1) st else s, true)

/-- R801: the stream stops because a record could not be written. -/
def cplFault (s : State) (t st : Nat) : State :=
  raiseEvent (modStream s t st (fun x => { x with fault := x.fault ||| 2 })) .goose (coreOf t) 4

/-- R32, R801: a record in completion order: written, or held with the stream in FAULT; records behind a held one are held. -/
def writeRec (s : State) (t st : Nat) (r : Rec) : State :=
  if !(stream s t st).held.isEmpty then modStream s t st (fun x => { x with held := x.held ++ [r] })
  else
    let q := putRec s t st r
    if q.2 then q.1 else cplFault (modStream q.1 t st (fun x => { x with held := [r] })) t st

/-- Held records written in order until one cannot be (R801). -/
def flushHeld : Nat → State → Nat → Nat → State
  | 0, s, _, _ => s
  | n + 1, s, t, st =>
    match (stream s t st).held with
    | [] => s
    | r :: rs =>
      let q := putRec s t st r
      if q.2 then flushHeld n (modStream q.1 t st (fun x => { x with held := rs })) t st else cplFault q.1 t st

/-- Counters and events of a completion (Tables 2.9, 15.11): deferrals by cause, queue time, refusals, skips. -/
def countCompletion (s : State) (t : Nat) (r : Result) (tm : Timing) : State :=
  let g := coreOf t
  let s := perfAdd s .ten t 0 1
  let s := if tm.cause != 0 then perfAdd s .goose g tm.cause 1 else s
  let s := if tm.cause == 1 then perfAdd (perfAdd s .ten t 1 1) .ten t 3 tm.wait else s
  let s := if r.skip then perfAdd s .goose g 5 1 else s
  let s := if r.status == 0x12 then perfAdd (raiseEvent s .ledg 0 6) .ledg 0 6 1 else s
  let s := if r.status == 0x10 || r.status == 0x11 then raiseEvent s .ten t 4 else s
  if 0x10 ≤ r.status && r.status ≤ 0x14 then perfAdd (raiseEvent s .goose g 2) .ten t 2 1 else s

/-- The record of a command is formed, entered among the commands of its step (R462) and written (R32). -/
def record (s : State) (t st : Nat) (c : Cmd) (r : Result) (tm : Timing) : State :=
  let b := recBytes t st c r tm
  let s := modTen s t (fun x => { x with items := x.items ++ [{ step := cStep c, stream := st, count := c.count, words := c.words, record := b, cap := r.cap }] })
  writeRec (countCompletion s t r tm) t st { bytes := b, irq := cIrq c }

/-- A command outside a loop completes: its record, then its token (R43). [DEDUCED, log 17] -/
def completePlain (s : State) (t st : Nat) (c : Cmd) (r : Result) (tm : Timing) : State :=
  markReady (signal (record s t st c r tm) t c r.status) t

/-! Loops (R58 to R63). -/

/-- No iteration of body command `b` is still to issue. -/
def bodyIssued (l : Looping) (b : Nat) : Bool :=
  l.quit ||
  let last := match l.stopAfter with
    | some i => min i (l.times - 1)
    | none => l.times - 1
  last < l.iter || (last == l.iter && b < l.pos)

/-- R61: the result and timing of a body command's record from what its iterations left; its status follows R74. -/
def bodyResult (a : BodyAcc) : Result × Timing :=
  ({ status := flDone (flOfBits a.flags), flags := a.flags, detail := a.detail, skip := a.skip },
   { wait := a.wait, cause := if a.deferred then a.cause else 0 })

/-- R61: what one iteration of a body command leaves folded in. [DEDUCED, log 16] -/
def foldBody (a : BodyAcc) (i : Nat) (r : Result) (tm : Timing) (hold : Nat) : BodyAcc :=
  let latest := a.finished == 0 || a.lastIter ≤ i
  let longer := tm.cause != 0 && (!a.deferred || a.hold < hold || (a.hold == hold && tm.cause < a.cause))
  { a with
    flags := a.flags ||| r.flags, wait := satTo 32 (a.wait + tm.wait), deferred := a.deferred || tm.cause != 0,
    cause := if longer then tm.cause else a.cause, hold := if longer then hold else a.hold,
    finished := a.finished + 1, lastIter := max a.lastIter i,
    skip := if latest then r.skip else a.skip, detail := if latest then r.detail else a.detail }

/-- The place of a loop in a stream's loops, by the ring count of a body command. [DEDUCED, log 16] -/
def loopOf (x : Stream) (c : Cmd) : Option Nat := listIdx (fun l => l.body.any (fun b => b.count == c.count)) x.loops

/-- The iterations completed in full (R63): from 0 up to the first that was not; `fuel` bounds the count. -/
def fullIters (l : Looping) : Nat → Nat → Nat
  | 0, n => n
  | fuel + 1, n => if tabGet 0 l.good n == l.body.length then fullIters l fuel (n + 1) else n

/-- The records of a loop's body commands that are due are written, in ring order (R61). -/
def writeBodies (s : State) (t st k : Nat) : Nat → State
  | 0 => s
  | n + 1 =>
    let s := writeBodies s t st k n
    match (stream s t st).loops[k]? with
    | none => s
    | some l =>
      match l.body[n]?, l.accs[n]? with
      | some c, some a =>
        if !a.written && bodyIssued l n && a.finished == a.issued then
          let s := modStream s t st (fun x => { x with loops := listMod x.loops k (fun l =>
            { l with accs := listMod l.accs n (fun a => { a with written := true }) }) })
          record s t st c (bodyResult a).1 (bodyResult a).2
        else s
      | _, _ => s

/-- R63: a loop whose body has ended completes its LOOP. -/
def closeLoop (s : State) (t st k : Nat) : State :=
  match (stream s t st).loops[k]? with
  | none => s
  | some l =>
    let s := writeBodies s t st k l.body.length
    match (stream s t st).loops[k]? with
    | none => s
    | some l =>
      if loopFinished l then
        let s := modStream s t st (fun x => { x with loops := x.loops.eraseIdx k })
        completePlain s t st l.cmd { detail := fullIters l (l.times + 1) 0 } { wait := l.wait, cause := l.cause }
      else s

/-- Where the loop of the front command has stopped issuing in the middle of an iteration, the body's end ends a skip range (R57) and the
holds of the command that stood at the front. -/
def leaveBody (before : Bool) (x : Stream) : Stream :=
  if before && (curLoop x).isNone then { x with skip := 0, skipAll := false, hold := {} } else x

/-- A body command completes one iteration (R61, R62): its token is signalled, what it leaves is folded in, a first failure stops the
loop, and a failing command's record is written at once. -/
def completeBody (s : State) (t st : Nat) (c : Cmd) (i : Nat) (r : Result) (tm : Timing) (hold : Nat) : State :=
  match loopOf (stream s t st) c with
  | none => signal s t c r.status
  | some k =>
    let b := match (stream s t st).loops[k]? with
      | some l => l.body.findIdx (fun d => d.count == c.count)
      | none => 0
    let acc := match (stream s t st).loops[k]? with
      | some l => l.accs.getD b {}
      | none => {}
    let fails := decide (0x10 ≤ r.status)
    let a' := if acc.written then { acc with finished := acc.finished + 1 } else foldBody acc i r tm hold
    let s := modStream s t st (fun x => leaveBody (curLoop x).isSome { x with loops := listMod x.loops k (fun l =>
      { l with accs := listMod l.accs b (fun _ => { a' with written := acc.written || fails }),
               good := if fails then l.good else tabMod 0 l.good i (· + 1),
               stopAfter := if fails && l.stopAfter.isNone then some i else l.stopAfter }) })
    let s := if fails && !acc.written then
        record s t st c { status := r.status, flags := a'.flags, detail := i, skip := r.skip, cap := r.cap }
          { wait := a'.wait, cause := if a'.deferred then a'.cause else 0 }
      else s
    markReady (closeLoop (signal s t c r.status) t st k) t

/-- A command completes, inside a loop or not. [DEDUCED, log 23] -/
def complete (s : State) (t st : Nat) (c : Cmd) (iter : Option Nat) (r : Result) (tm : Timing) (hold : Nat) : State :=
  match iter with
  | none => completePlain s t st c r tm
  | some i => completeBody s t st c i r tm hold

/-- The front command of a stream leaves it and completes at `now` without an engine: a control command, a refusal or a skip. -/
def completeFront (s : State) (t st now : Nat) (c : Cmd) (iter : Option Nat) (r : Result) : State :=
  let h := holdUpTo (stream s t st).hold now
  let tm : Timing := if r.skip then {} else { wait := holdWait h now, cause := holdCause h }
  complete (takeFront s t st) t st c iter r tm (tabGet 0 h.sums (holdCause h))

/-! Issued commands. -/

/-- The job of an engine that it serves next: the oldest it has accepted and not finished (R49). -/
def nextJob (s : State) (u : EUnit) : Option Job := s.jobs.find? (fun j => decide (j.unit = u) && j.result.isNone)

/-- Two jobs are the same command in the same iteration. -/
def sameJob (a b : Job) : Bool := a.tenant == b.tenant && a.stream == b.stream && a.cmd.count == b.cmd.count && decide (a.iter = b.iter)
  && a.gen == b.gen

/-- The state with a job changed. -/
def modJob (s : State) (j : Job) (f : Job → Job) : State := { s with jobs := s.jobs.map (fun k => if sameJob j k then f k else k) }

/-- R688: a command whose write was held for `ns` completes DEFERRED with cause bandwidth, where nothing held it longer (R75). -/
def heldJob (j : Job) (ns : Nat) : Job := if j.cause = 0 || j.hold < ns then { j with cause := 4, hold := max j.hold ns } else j

/-- An engine has finished a job with a result. `before` is the state at its start, which shows whether a write was held (R688); how
long it was held is a time that the step does not carry, so it is a free value. [DESIGN CHOICE, log 10] -/
def finishJob (before s : State) (j : Job) (r : Result) : State :=
  let held := tabGet 0 (page before .hen 0).perf 2 != tabGet 0 (page s .hen 0).perf 2
  if held then
    modJob { s with freeCount := s.freeCount + 1 } j
      (fun k => heldJob { k with result := some r } ((Config.freeWord s.freeCount).toNat % 2 ^ 32))
  else modJob s j (fun k => { k with result := some r })

/-- A summary slot written (R51). -/
def writeSum (s : State) (t slot v : Nat) : State := modTen s t (fun x => { x with sums := tabSet x.sums slot (BitVec.ofNat 64 v) })

/-- A job's summary slot written, unless its context has been reset since it issued (R80, R634). -/
def jobSum (s : State) (j : Job) (slot v : Nat) : State := if j.orphan then s else writeSum s j.tenant slot v

/-- A summary slot read; slot 15 reads the token error bits (2.7). -/
def readSum (s : State) (t slot : Nat) : W64 := if slot = 15 then (ten s t).tokenErr else tabGet 0 (ten s t).sums slot

/-- The result of a command that ran: flags, status (R74), POISONED where some output is poisoned, detail. -/
def ranResult (f : Fl) (detail : Nat) : Result :=
  { status := if f.poison then 0x20 else flDone f, flags := flBits f, detail := detail }

/-- The result of a command that completes with a status other than DONE, with the flags it raised. [DEDUCED, log 25] -/
def failResult (status : Nat) (f : Fl) (detail : Nat) : Result := { status := status, flags := flBits f, detail := detail }

end Sys2Proof.Machine
end

