-- ==== Sys2Proof/Machine/Links.lean ====
section
/-! DEFINITION. Walsol links and the switch: wiring, routes, holds, flits, credits, modes (chapter 12). -/

/-- What the header in a data flit's body says, for a message of one node to another; none for a flit that carries no header. [DESIGN CHOICE, log 55] -/
opaque Sys2Proof.Config.transitOf : List Sys2Proof.Byte → Option Sys2Proof.Machine.Transit

/-- The header of a message of this node, and whatever else of it the spec gives no layout: source node, destination, flow, message.
[DESIGN CHOICE, log 55] -/
opaque Sys2Proof.Config.msgHead : Nat → Nat → Nat → Sys2Proof.Machine.Msg → List Sys2Proof.Byte

/-- The state from which the PRBS31 sequence of VERIFY starts, and the header word of its flits (R488). [DESIGN CHOICE, log 103] -/
opaque Sys2Proof.Config.prbsStart : Nat
/-- The first header word of a test flit (R488). [DESIGN CHOICE, log 103] -/
opaque Sys2Proof.Config.testHead : BitVec 32

namespace Sys2Proof.Machine

/-- Link `n`. -/
def lnk (s : State) (n : Nat) : Link := tabGet {} s.links n

/-- The state with a link changed. -/
def modLink (s : State) (n : Nat) (f : Link → Link) : State := { s with links := tabMod {} s.links n f }

/-! Configuration (Tables 12.9 and 12.11). -/

/-- This node's number v. -/
def nodeNum (s : State) : Nat := bits (regWord s .wsw 0 0x100 0) 0 20
/-- G. -/
def groupsG (s : State) : Nat := bits (regWord s .wsw 0 0x100 0) 20 11
/-- NODE_CFG.lock. -/
def cfgLock (s : State) : Bool := bitAt (regWord s .wsw 0 0x100 0) 31
/-- GRP_SIZE. -/
def grpSize (s : State) : Nat := bits (regWord s .wsw 0 0x128 0x20) 0 6

/-- R519: the configurations that leave NODE_CFG.lock set. -/
def cfgValid (v g n : Nat) : Bool :=
  1 ≤ g && g ≤ 1024 && v < 32 * g && (g < 2 || n == 32) && (g != 1 || (v < n && 2 ≤ n && n ≤ 32))

/-- The link that spare `n` (94 or 95) serves under SPARE_MAP. -/
def spareFor (s : State) (n : Nat) : Option Nat :=
  let w := regWord s .wsw 0 0x114 0
  if n = 94 then (if bitAt w 7 then some (bits w 0 7) else none)
  else if n = 95 then (if bitAt w 15 then some (bits w 8 7) else none)
  else none

/-- R506, R507, R508: the partner node and link that the wiring expects of a link below 94. [DEDUCED, log 56] -/
def wiredTo (v g n link : Nat) : Option (Nat × Nat) :=
  let i := v % 32
  let gr := v / 32
  if link < 62 then
    let k := link / 2
    let m := (i + k + 1) % 32
    if g = 1 && n ≤ m then none else some (32 * gr + m, 2 * (30 - k) + link % 2)
  else if link < 94 && 2 ≤ g then
    let p := 32 * i + (link - 62)
    let dd := g - 1
    let d := p % dd
    if p < dd * (1024 / dd) then
      let q := (p / dd) * dd + (g - 2 - d)
      some (32 * ((gr + 1 + d) % g) + q / 32, 62 + q % 32)
    else none
  else none

/-- R490, R509: a link's partner is the one that the wiring expects; a spare's partner is the node expected of the link it serves. -/
def wiredOk (s : State) (n : Nat) : Bool :=
  match (lnk s n).cap with
  | none => false
  | some c =>
    let exp := fun m => wiredTo (nodeNum s) (groupsG s) (grpSize s) m
    if n < 94 then exp n == some (c.node, c.link)
    else match spareFor s n with
      | some m => (match exp m with
        | some e => e.1 == c.node
        | none => false)
      | none => false

/-- Link `n` is excluded from routing (EXCL_LO, EXCL_HI). -/
def excluded (s : State) (n : Nat) : Bool :=
  if n < 64 then bitAt (regWord2 s .wsw 0 0x118 0) n else bitAt (regWord s .wsw 0 0x120 0) (n - 64)

/-- The links that carry fixed-route traffic: ACTIVE or in RETRAIN (R499), wired as expected, not excluded. -/
def routeLinks (s : State) : List Nat :=
  ((s.links.filter (fun e => e.2.st == 7 || e.2.st == 8)).map (·.1)).filter (fun n => wiredOk s n && !excluded s n)

/-- The links that carry adaptive traffic: none of them in RETRAIN (R499). -/
def activeLinks (s : State) : List Nat := (routeLinks s).filter (fun n => (lnk s n).st == 7)

/-- R509: the link that carries link m's traffic among the links `us`: m itself, else a spare that serves it. -/
def carrier (s : State) (us : List Nat) (m : Nat) : Option Nat :=
  if us.contains m then some m
  else if excluded s m then none
  else [94, 95].find? (fun n => us.contains n && spareFor s n == some m)

/-! Routes (12.7). -/

/-- R510: the path hash. -/
def pathHash (src dst flow : Nat) : Nat :=
  let x := Nat.xor (Nat.xor src (dst <<< 12)) (flow <<< 16) % 2 ^ 32
  Nat.xor x (x >>> 16) % 2 ^ 16

/-- The flits that wait at a link. -/
def queued (s : State) (n : Nat) : Nat := (lnk s n).queue.length

/-- R511, R512: the link of a local pair to member `j`, by a bit of the hash, or for adaptive traffic the one with fewer flits queued;
`ok` says which carriers can take the message. -/
def pairLink (s : State) (us : List Nat) (ok : Nat → Bool) (adapt : Bool) (j b : Nat) : Option Nat :=
  let k := (j + 31 - nodeNum s % 32) % 32
  let at_ := fun b => match carrier s us (2 * k + b) with
    | some n => if ok n then some n else none
    | none => none
  if k = 31 then none
  else match at_ b, at_ (1 - b) with
    | some x, some y => if adapt && queued s y < queued s x then some y else some x
    | some x, none => some x
    | none, y => y

/-- R511: the global ports of this group that lead to group `t`, ascending, those of this node only where their link carries traffic. -/
def globalPorts (s : State) (us : List Nat) (t : Nat) : List Nat :=
  let g := groupsG s
  let gr := nodeNum s / 32
  let dd := g - 1
  let d := (t + g - gr - 1) % g
  ((List.range (1024 / dd)).map (fun q => q * dd + d)).filter (fun p =>
    p / 32 != nodeNum s % 32 || (carrier s us (62 + p % 32)).isSome)

/-- The first link of the way to group `t` with hash `h`. -/
def groupLink (s : State) (us : List Nat) (ok : Nat → Bool) (adapt : Bool) (t h : Nat) : Option Nat :=
  let ps := globalPorts s us t
  match ps[(h >>> 2) % ps.length]? with
  | none => none
  | some p => if p / 32 = nodeNum s % 32 then carrier s us (62 + p % 32) else pairLink s us ok adapt (p / 32) (h % 2)

/-- R511: the first link of the fixed route to a node, among the links `us`. -/
def routeLink (s : State) (us : List Nat) (ok : Nat → Bool) (adapt : Bool) (dst flow : Nat) : Option Nat :=
  let h := pathHash (nodeNum s) dst flow
  if !cfgLock s || (groupsG s = 1 && grpSize s ≤ dst) || 32 * groupsG s ≤ dst then none
  else if dst / 32 = nodeNum s / 32 then pairLink s us ok adapt (dst % 32) (h % 2)
  else groupLink s us ok adapt (dst / 32) h

/-- R511, R512: the next link of another node's message: the last hop takes bit 1 of the hash; a message on the first part of a
non-minimal route goes to the intermediate group. -/
def transitLink (s : State) (us : List Nat) (ok : Nat → Bool) (adapt : Bool) (x : Transit) : Option Nat :=
  let h := pathHash x.src x.dst x.flow
  let here := nodeNum s / 32
  if !cfgLock s then none
  else if x.dst / 32 = here then pairLink s us ok adapt (x.dst % 32) (h / 2 % 2)
  else groupLink s us ok adapt (match x.mid with
    | some m => if x.src / 32 = here && m != here then m else x.dst / 32
    | none => x.dst / 32) h

/-- A virtual channel with fixed routes (Table 12.6). -/
def fixedVc (vc : Nat) : Bool := vc == 0 || vc == 3 || vc == 4 || vc == 5

/-- R512: the intermediate group of the next non-minimal choice. -/
def midGroup (s : State) (t : Nat) : Nat :=
  let g := groupsG s
  let others := ((List.range g).map (fun m => (t + 1 + m) % g)).filter (fun x => x != nodeNum s / 32 && x != t)
  others.getD (s.sw.nonminK.toNat % (g - 2)) 0

/-- R512: the first link of an adaptive message's route, and whether the route is non-minimal. -/
def adaptiveLink (s : State) (us : List Nat) (ok : Nat → Bool) (dst flow : Nat) : Option (Nat × Bool) :=
  let w := regWord s .wsw 0 0x110 0x10010
  match routeLink s us ok true dst flow with
  | none => none
  | some n =>
    if bitAt w 16 && 3 ≤ groupsG s && dst / 32 != nodeNum s / 32 then
      match groupLink s us ok true (midGroup s (dst / 32)) (pathHash (nodeNum s) dst flow) with
      | some m => if 2 * queued s m + bits w 0 16 < queued s n then some (m, true) else some (n, false)
      | none => some (n, false)
    else some (n, false)

/-! Flits (12.3). -/

/-- R491: bytes 0 to 251 of a flit: its header and its body, which fills with zero. -/
def flitHead (typ seq ack vc level cvc clevel credits : Nat) (body : List Byte) : List Byte :=
  leBytes 4 (seq + ack * 2 ^ 12 + vc * 2 ^ 24 + typ * 2 ^ 27 + level * 2 ^ 29) ++ leBytes 4 (cvc + clevel * 8 + credits * 32)
    ++ (body ++ List.replicate 244 0).take 244

/-- R491, R492: bytes with their CRC behind them. -/
def withCrc (h : List Byte) : List Byte := h ++ leBytes 4 (crc32 h)

/-- R492: a received flit of a type passes its CRC. -/
def flitSound (typ : Nat) (f : Flit) : Bool := f.crc == crc32 (flitHead typ f.seq f.ack f.vc f.level f.cvc f.clevel f.credits f.body)

/-- R492: the 256 bytes of a flit pass its CRC. -/
def bytesSound (bs : List Byte) : Bool := bs.length == 256 && leNat (bs.drop 252) == crc32 (bs.take 252)

/-- The bytes of a message that the spec gives as such: its data. -/
def msgData : Msg → List Byte
  | .req m => m.data
  | .resp m => m.data
  | .herd _ m => m.data
  | .hen _ m => m.data
  | _ => []

/-- R501: the bodies of the flits of a message: another node's flit has its own; a message of this node is its header and its data, 244
bytes to a flit. [DESIGN CHOICE, log 55] -/
def flitBodies (s : State) (p : Parcel) : List (List Byte) :=
  match p.msg with
  | .transit _ _ b _ _ => [b]
  | m =>
    let bs := Config.msgHead (nodeNum s) p.dst p.flow m ++ msgData m
    (List.range (max 1 (ceilDiv bs.length 244))).map (fun i => (bs.drop (244 * i)).take 244)

/-- R501: the flits of a message at a level. -/
def flitsOf (s : State) (level : Nat) (p : Parcel) : List TxFlit :=
  (List.range (flitBodies s p).length).map (fun i => { level := level, part := i, p := p })

/-- The credits that the next flit returns: their key and count. -/
def owedNext (l : Link) : Nat × Nat := match l.owed with
  | [] => (0, 0)
  | (k, n) :: _ => (k, min n 255)

/-- The link with the credits of its next flit returned. -/
def payOwed (l : Link) : Link := match l.owed with
  | [] => l
  | (k, n) :: t => { l with owed := if n ≤ 255 then t else (k, n - 255) :: t }

/-- A flit other than a data flit sent: idle (type 0), control (2), or a retry request (3). Every flit carries the current ack and the
credits that are owed (R491, R493). -/
def sendCtl (s : State) (n typ : Nat) (body : List Byte) : State :=
  let l := lnk s n
  let o := owedNext l
  emit (modLink s n (fun l => payOwed { l with ackSent := l.rxSeq }))
    (.flit n (withCrc (flitHead typ 0 l.rxSeq 0 0 (o.1 / 3) (o.1 % 3) o.2 body)))

/-- R491, R493: a data flit sent under its sequence number, with the current ack and the credits that are owed. -/
def sendData (s : State) (n seq : Nat) (f : TxFlit) : State :=
  let l := lnk s n
  let o := owedNext l
  emit (modLink s n (fun l => payOwed { l with ackSent := l.rxSeq }))
    (.send n seq f (withCrc (flitHead 1 seq l.rxSeq f.p.vc f.level (o.1 / 3) (o.1 % 3) o.2 ((flitBodies s f.p).getD f.part []))))

/-- An idle flit sent. WLINK.PERF2 counts idle flits sent. -/
def sendIdle (s : State) (n : Nat) : State := perfAdd (sendCtl s n 0 []) .wlink n 2 1

/-- R493, R496: what the partner has not been told yet, the ack and the credits, goes to it in idle flits while the link is ACTIVE. The
idle flits that fill a link otherwise carry nothing new and are left out. [DESIGN CHOICE, log 57] -/
def tell : Nat → State → Nat → State
  | 0, s, _ => s
  | k + 1, s, n =>
    let l := lnk s n
    if l.st == 7 && (l.ackSent != l.rxSeq || !l.owed.isEmpty) then tell k (sendIdle s n) n else s

/-- The partner of a link is told what it has not been told yet. -/
def tellAll (s : State) (n : Nat) : State := tell ((lnk s n).owed.length + 2) s n

/-! Input ports (R496). -/

/-- The slots of an input port's shared pool of 192 that pairs have. -/
def poolUsed (l : Link) : Nat := sumOf (l.loan.map (·.2))

/-- A flit of a pair takes a slot of its input port; while the shared pool has a slot, the pair gets it, and the sender a credit for it.
[DESIGN CHOICE, log 57] -/
def takeInSlot (l : Link) (k : Nat) : Link :=
  if poolUsed l < 192 then { l with loan := tabMod 0 l.loan k (· + 1), owed := tabMod 0 l.owed k (· + 1) } else l

/-- A flit of a pair leaves its input port: its credit returns to the sender, or, where the pool has none left, a slot that the pair has
of it goes back. [DESIGN CHOICE, log 57] -/
def freeInSlot (l : Link) (k : Nat) : Link :=
  if 0 < tabGet 0 l.loan k && poolUsed l == 192 then { l with loan := tabMod 0 l.loan k (· - 1) }
  else { l with owed := tabMod 0 l.owed k (· + 1) }

/-- A message leaves this node, or is dropped: another node's flit frees its slot. -/
def freeInput (s : State) (p : Parcel) : State := match p.msg with
  | .transit _ _ _ n k => modLink s n (fun l => freeInSlot l k)
  | _ => s

/-- The same, and the partner is told. -/
def leaveInput (s : State) (p : Parcel) : State := match p.msg with
  | .transit _ _ _ n _ => tellAll (freeInput s p) n
  | _ => s

/-- R494: a retry request naming the expected sequence number. -/
def sendRetry (s : State) (n : Nat) : State := perfAdd (sendCtl s n 3 (leBytes 2 (lnk s n).rxSeq)) .wlink n 3 1

/-- R496, R502: the virtual channels whose first waiting flit has a credit. -/
def sendable (l : Link) : List Nat :=
  (List.range 8).filter (fun v => match l.queue.find? (fun e => e.p.vc == v) with
    | some e => 0 < tabGet 0 l.credits (3 * v + e.level)
    | none => false)

/-- R502: the virtual channel that the output port serves next: VC 5 first but for every fourth slot, VC 7 in the last BG_SHARE slots of
sixteen or when no other waits, the others by weighted round robin. [DESIGN CHOICE, log 57] -/
def arbVc (s : State) (l : Link) : Option Nat :=
  let vs := sendable l
  let bg := max 1 (bits (regWord s .wsw 0 0x10C 2) 0 4)
  let w := fun v => bits (regWord s .wsw 0 0x108 0x44444444) (4 * v) 4
  let others := vs.filter (fun v => v != 5 && v != 7)
  if vs.contains 5 && (l.slot % 4 != 3 || vs.length == 1) then some 5
  else if vs.contains 7 && (16 ≤ l.slot % 16 + bg || others.isEmpty) then some 7
  else
    let weighted := others.filter (fun v => 0 < w v)
    match weighted.find? (fun v => tabGet 0 l.served v < w v) with
    | some v => some v
    | none => match weighted with
      | v :: _ => some v
      | [] => others.head?

/-- The arbiter's counts after virtual channel `v` is served. [DESIGN CHOICE, log 57] -/
def serveVc (s : State) (l : Link) (v : Nat) : Link :=
  let w := bits (regWord s .wsw 0 0x108 0x44444444) (4 * v) 4
  { l with slot := (l.slot + 1) % 16, served := if tabGet 0 l.served v < w then tabMod 0 l.served v (· + 1) else [(v, 1)] }

/-- R493, R496: flits that wait are sent while the link is ACTIVE, credits are held and fewer than 512 are unacknowledged. WLINK.PERF0
counts data flits sent; WSW.PERF7 those of VC 7. -/
def pumpLink : Nat → State → Nat → State
  | 0, s, _ => s
  | fuel + 1, s, n =>
    let l := lnk s n
    if l.st != 7 || 512 ≤ l.replay.length then s
    else match arbVc s l with
      | none => s
      | some v =>
        match listIdx (fun (e : TxFlit) => e.p.vc == v) l.queue with
        | none => s
        | some i =>
          match l.queue[i]? with
          | none => s
          | some f =>
            let s := modLink s n (fun l => { serveVc s l v with
              queue := l.queue.eraseIdx i, replay := l.replay ++ [(l.txSeq, f)], txSeq := (l.txSeq + 1) % 4096,
              credits := tabMod 0 l.credits (3 * v + f.level) (· - 1) })
            let s := leaveInput (perfAdd (sendData s n l.txSeq f) .wlink n 0 1) f.p
            pumpLink fuel (if v = 7 then perfAdd s .wsw 0 7 1 else s) n

/-- The flits that wait at a link sent as far as they can be. -/
def pump (s : State) (n : Nat) : State := pumpLink ((lnk s n).queue.length + 1) s n

/-- R500: the level at which a message leaves this node. -/
def leaveLevel (p : Parcel) : Nat := match p.msg with
  | .transit _ lev _ _ _ => lev
  | _ => 0

/-- The message is another node's. [DESIGN CHOICE, log 55] -/
def isTransit (p : Parcel) : Bool := match p.msg with
  | .transit _ _ _ _ _ => true
  | _ => false

/-- The flits of a message of this node counted as switched and injected (WSW.PERF0, PERF2); another node's was counted when it came. -/
def countSent (s : State) (p : Parcel) : State :=
  let n := (flitBodies s p).length
  if isTransit p then s else perfAdd (perfAdd s .wsw 0 0 n) .wsw 0 2 n

/-- R500: the internal port at which the unit that sends a message stands: 96 for the fabric agent's requests and the responses it gets,
97 for the requests it serves and its responses, 98 and 99 for the collective unit's bulk path, 100 for its in-switch reduction, 101 for
Hen. The bulk path's two ports are taken by the parity of the flow. [DESIGN CHOICE, log 57] -/
def unitPort (p : Parcel) (sent : Bool) : Nat :=
  let asks := fun (b : Bool) => if b == sent then 96 else 97
  match p.msg with
  | .req _ | .lockProbe _ _ _ _ | .lockNotice _ _ _ => asks true
  | .resp _ | .lockAnswer _ _ _ _ => asks false
  | .herd op _ => match op with
    | .gets | .getm | .snps | .snpi | .wb | .evc => asks true
    | .dataS | .dataM | .srsp | .wbAck => asks false
  | .coll _ _ => if p.vc == 5 then 100 else 98 + p.flow % 2
  | .hen _ _ => 101
  | .transit _ _ _ n _ => n

/-- R568: the internal port at which a message of this node to itself is handed over: link loopback, 103, for the fabric agent's. -/
def ownPort (p : Parcel) : Nat := if unitPort p false < 98 then 103 else unitPort p false

/-- A message put on a link, flit by flit. R544: VC 5 becomes VC 6 where the link lacks in-switch reduction; COLL.PERF4 counts the
flits. -/
def enqueue (s : State) (n : Nat) (p : Parcel) : State :=
  let move := p.vc == 5 && !bitAt (lnk s n).feat 1
  let p := if move then { p with vc := 6 } else p
  let s := if move then perfAdd s .coll 0 4 (flitBodies s p).length else s
  pump (modLink (countSent s p) n (fun l => { l with queue := l.queue ++ flitsOf s (leaveLevel p) p })) n

/-- R588: herd messages use only links with the herd feature. -/
def featOk (s : State) (vc n : Nat) : Bool := !(vc == 3 || vc == 4) || bitAt (lnk s n).feat 0

/-- The link of a message's fixed route among the links `us` (R511). -/
def fixedLink (s : State) (us : List Nat) (p : Parcel) : Option Nat := match p.msg with
  | .transit x _ _ _ _ => transitLink s us (featOk s p.vc) false x
  | _ => routeLink s us (featOk s p.vc) false p.dst p.flow

/-- The link of an adaptive message's route, and whether the message starts a non-minimal one (R512). -/
def freeLink (s : State) (us : List Nat) (p : Parcel) : Option (Nat × Bool) := match p.msg with
  | .transit x _ _ _ _ => (transitLink s us (featOk s p.vc) true x).map (fun n => (n, false))
  | _ => adaptiveLink s us (featOk s p.vc) p.dst p.flow

/-- R513: a hold keeps the message: its fixed route before the change was another. -/
def holdOf (s : State) (p : Parcel) : Option RouteHold :=
  let now := fixedLink s (routeLinks s) p
  s.sw.holds.find? (fun h => match fixedLink s h.before p with
    | some n => now != some n
    | none => false)

/-- R511: a message without a route is dropped at the source. [DEDUCED, log 58] -/
def routeMiss (s : State) : State := perfAdd (raiseEvent s .wsw 0 0) .wsw 0 6 1

/-- The message is dropped for want of a route. -/
def dropMsg (s : State) (p : Parcel) : State := leaveInput (routeMiss s) p

/-- The messages that the holds keep. -/
def heldMsgs (s : State) : Nat := sumOf (s.sw.holds.map (fun h => h.held.length))

/-- The commands that something has held with cause bandwidth (R75). How long is a time that no step carries, so it is a free value.
[DESIGN CHOICE, log 10] -/
def jobsHeld (s : State) (serves : Job → Bool) : State :=
  { s with freeCount := s.freeCount + 1,
           jobs := s.jobs.map (fun j => if serves j then heldJob j ((Config.freeWord s.freeCount).toNat % 2 ^ 32) else j) }

/-- R513: where a hold has kept a message sent since `before`, the command that it serves completes DEFERRED with cause bandwidth, unless
something held it longer (R75). How long the hold keeps it is a time that no step carries, so it is a free value. [DESIGN CHOICE, log 10] -/
def holdJobs (before s : State) (serves : Job → Bool) : State := if heldMsgs before < heldMsgs s then jobsHeld s serves else s

/-- The link on which a message leaves now (R511, R512), and whether it starts a non-minimal route; nothing holds it. -/
def wayOf (s : State) (p : Parcel) : Option (Nat × Bool) :=
  if fixedVc p.vc then (fixedLink s (routeLinks s) p).map (fun n => (n, false)) else freeLink s (activeLinks s) p

/-- A message leaves this node: to a unit of its own, held (R513), on the next link of its route, or dropped (R511). -/
def sendMsg (s : State) (p : Parcel) : State :=
  if p.dst = nodeNum s then emit (perfAdd (countSent s p) .wsw 0 3 (flitBodies s p).length) (.eject (ownPort p) p)
  else if !blkReady s .wsw 0 then dropMsg s p
  else match (if fixedVc p.vc then holdOf s p else none) with
    | some h => { s with sw := { s.sw with holds := s.sw.holds.map (fun x => if x.id == h.id then { x with held := x.held ++ [p] } else x) } }
    | none => match wayOf s p with
      | some (n, nm) =>
        enqueue (if nm then perfAdd { s with sw := { s.sw with nonminK := s.sw.nonminK + 1 } } .wsw 0 4 1 else s) n p
      | none => dropMsg s p

/-- Messages sent in order. -/
def sendAll (s : State) (ps : List Parcel) : State := ps.foldl sendMsg s

/-- R509: the spares that stand in for a link, where the links `us` carry routes. -/
def spareTakes (s : State) (us : List Nat) : List Nat :=
  [94, 95].filter (fun n => us.contains n && (match spareFor s n with
    | some m => !us.contains m && !excluded s m
    | none => false))

/-- R509: a spare that takes over a link raises WSW.EVENT.spare. -/
def spareEvents (before : List Nat) (s : State) : State :=
  ((spareTakes s (routeLinks s)).filter (fun n => !(spareTakes s before).contains n)).foldl (fun x _ => raiseEvent x .wsw 0 4) s

/-- R513: the links that carry routes have changed: new fixed-route messages whose route changes are held. [DEDUCED, log 58] -/
def routesChanged (before : List Nat) (s : State) : State :=
  let s := spareEvents before s
  if routeLinks s == before || before.isEmpty then s
  else
    let s := { s with sw := { s.sw with holds := s.sw.holds ++ [{ id := s.sw.nextHold, before := before }], nextHold := s.sw.nextHold + 1 } }
    perfAdd (raiseEvent s .wsw 0 1) .wsw 0 5 1

/-- R513: a hold ends and its messages are sent. -/
def endHold (s : State) (id : Nat) : State :=
  match s.sw.holds.find? (fun h => h.id == id) with
  | none => s
  | some h => sendAll { s with sw := { s.sw with holds := s.sw.holds.filter (fun x => x.id != id) } } h.held

/-! Modes (12.2, 12.4). -/

/-- The modes in descending order (R488). -/
def modeLadder : List LinkMode := [⟨3, 2⟩, ⟨2, 2⟩, ⟨1, 2⟩, ⟨1, 1⟩]

/-- The modes in descending order that a link which agreed on a mode can be in: at x1 also the higher generations (Table 12.5). -/
def ladderOf (agreed : LinkMode) : List LinkMode := if agreed.width = 1 then [⟨3, 1⟩, ⟨2, 1⟩, ⟨1, 1⟩] else modeLadder

/-- The POLICY in force: as the register stood at the last grant boundary (R25). -/
def polWord (s : State) (n : Nat) : Nat := (lnk s n).pol

/-- R25, R664: at a grant boundary every link's POLICY and every port's REF_FLOOR as written takes effect, a link's not while protection
holds its mode (R669). -/
def latchPolicies (s : State) : State :=
  let s := (List.range 16).foldl (fun x p =>
    let w := bits (regWord x .lpc p 0x108 0) 0 2
    if (portOf x p).floor == w then x else modPort x p (fun q => { q with floor := w })) s
  (List.range 96).foldl (fun x n =>
    let w := regWord x .wlink n 0x10C 0x03E8000D
    if (lnk x n).ovr || (lnk x n).pol == w then x else modLink x n (fun l => { l with pol := w })) s

/-- gen_floor. -/
def genFloor (s : State) (n : Nat) : Nat := bits (polWord s n) 0 2
/-- gen_ceil. -/
def genCeil (s : State) (n : Nat) : Nat := bits (polWord s n) 2 2
/-- pin. -/
def polPin (s : State) (n : Nat) : Bool := bitAt (polWord s n) 4
/-- wfloor. -/
def polWfloor (s : State) (n : Nat) : Bool := bitAt (polWord s n) 5
/-- fec. -/
def polFec (s : State) (n : Nat) : Nat := bits (polWord s n) 6 2
/-- psave. -/
def polPsave (s : State) (n : Nat) : Bool := bitAt (polWord s n) 8

/-- Table 12.1, R487: the strongest FEC mode of a generation within a mask: 0 none, 1 RS(528,514), 2 RS(544,514). -/
def fecOf (gen mask : Nat) : Option Nat :=
  match gen with
  | 3 => if bitAt mask 2 then some 2 else none
  | 2 => if bitAt mask 2 then some 2 else if bitAt mask 1 then some 1 else none
  | 1 => if bitAt mask 1 then some 1 else if bitAt mask 0 then some 0 else none
  | _ => none

/-- R487: the FEC mask that this end offers. -/
def fecMask (s : State) (n : Nat) : Nat := if polFec s n = 0 then 7 else 2 ^ (polFec s n - 1)

/-- The CAP body that this end sends (Table 12.3). -/
def ownCap (s : State) (n : Nat) : CapBody :=
  { arch := 1, rclass := 1, genMax := min 3 (genCeil s n), fec := fecMask s n, features := bits (regWord s .wlink n 0x110 3) 0 2,
    lanes := (lnk s n).rxLanes, node := nodeNum s, link := n, epoch := (page s .wlink n).epoch.toNat }

/-- The bytes of a CAP body from byte 8 of its flit. -/
def capBytes (c : CapBody) : List Byte :=
  [1, BitVec.ofNat 8 c.arch, BitVec.ofNat 8 c.rclass, BitVec.ofNat 8 c.genMax, BitVec.ofNat 8 c.fec, BitVec.ofNat 8 c.features,
    BitVec.ofNat 8 c.lanes, 0] ++ leBytes 3 c.node ++ leBytes 1 c.link ++ leBytes 4 c.epoch

/-- The CAP body that this end has sent (R487). -/
def sentCap (s : State) (n : Nat) : CapBody := (lnk s n).sent.getD (ownCap s n)

/-- The CAP flit sent, the first time or again: what it says is fixed when NEGOTIATE begins. -/
def sendCap (s : State) (n : Nat) : State :=
  let c := sentCap s n
  sendCtl (modLink s n (fun l => { l with sent := some c })) n 2 (capBytes c)

/-- The FEC masks of both CAP flits together. -/
def commonFec (s : State) (n : Nat) : Nat := match (lnk s n).cap with
  | some c => (sentCap s n).fec &&& c.fec
  | none => 0

/-- R487: the lower-numbered good lane of a receiver, as a mask. -/
def lowLane (lanes : Nat) : Nat := if bitAt lanes 0 then 1 else if bitAt lanes 1 then 2 else 0

/-- R487: the mode that two CAP flits give; none where the attempt fails. -/
def agreeMode (a b : CapBody) : Option LinkMode :=
  match [3, 2, 1].find? (fun g => g ≤ a.genMax && g ≤ b.genMax && (fecOf g (a.fec &&& b.fec)).isSome) with
  | none => none
  | some g =>
    if a.lanes % 4 = 3 && b.lanes % 4 = 3 then some ⟨g, 2⟩
    else if lowLane a.lanes = 0 || lowLane b.lanes = 0 then none
    else some ⟨g, 1⟩

/-- The next mode down that both ends can use (R488). [DEDUCED, log 56] -/
def modeDown (s : State) (n : Nat) (m : LinkMode) : Option LinkMode :=
  modeLadder.find? (fun x => (x.gen < m.gen || (x.gen == m.gen && x.width < m.width)) && x.width ≤ m.width
    && (fecOf x.gen (commonFec s n)).isSome)

/-- A mode lies within policy. -/
def inPolicy (s : State) (n : Nat) (m : LinkMode) : Bool :=
  genFloor s n ≤ m.gen && m.gen ≤ genCeil s n && (!polPin s n || m.gen == genCeil s n) && (!polWfloor s n || m.width == 2)
    && (polFec s n == 0 || fecOf m.gen (commonFec s n) == some (polFec s n - 1))

/-- The next mode up within policy and within what negotiation agreed (Table 12.5). -/
def modeUp (s : State) (n : Nat) : Option LinkMode :=
  let l := lnk s n
  (ladderOf l.agreed).reverse.find? (fun x => (l.mode.gen < x.gen || (l.mode.gen == x.gen && l.mode.width < x.width)) && x.gen ≤ l.agreed.gen
    && x.width ≤ l.agreed.width && (fecOf x.gen (commonFec s n)).isSome && inPolicy s n x)

/-- R498: the lowest mode within policy. -/
def lowestMode (s : State) (n : Nat) : Option LinkMode :=
  (ladderOf (lnk s n).agreed).reverse.find? (fun x => x.gen ≤ (lnk s n).agreed.gen && x.width ≤ (lnk s n).agreed.width
    && (fecOf x.gen (commonFec s n)).isSome && inPolicy s n x)

/-- A mode put in force. -/
def setMode (s : State) (n : Nat) (m : LinkMode) : State :=
  let f := (fecOf m.gen (commonFec s n)).getD 0
  let peer := match (lnk s n).cap with
    | some c => lowLane c.lanes
    | none => 1
  modLink s n (fun l => { l with mode := m, fec := f, txLanes := if m.width = 2 then 3 else peer })

/-- RETRAIN toward a mode (R499). -/
def retrain (s : State) (n : Nat) (m : LinkMode) : State := modLink s n (fun l => { l with st := 8, target := m })

/-! Leaving ACTIVE (R516) and failing (R486). -/

/-- R516: a link that was ACTIVE or in RETRAIN loses its flits; its epoch increments. -/
def linkLost (s : State) (n : Nat) : State :=
  let l := lnk s n
  if l.st != 7 && l.st != 8 then s
  else
    let s := l.queue.foldl (fun x f => leaveInput x f.p) (modLink s n (fun l => { l with
      replay := [], queue := [], discarding := false, paths := [], loan := [] }))
    raiseEvent (modPage s .wlink n (fun p => { p with epoch := p.epoch + 1 })) .wlink n 1

/-- A link put into a state without a mode. -/
def linkIdle (s : State) (n st : Nat) : State :=
  modLink s n (fun l => { l with st := st, mode := {}, fec := 0, txLanes := 0, feat := 0, arch := 0, backoff := false, cap := if st = 0 then none else l.cap })

/-- R486: an attempt fails: after three in a row the link is FAILED, else it waits in DOWN. [DEDUCED, log 56] -/
def attemptFails (s : State) (n : Nat) : State :=
  let l := lnk s n
  let s := modLink (linkLost s n) n (fun x => { x with attempts := satTo 4 (l.attempts + 1), failState := l.st })
  if 3 ≤ l.attempts + 1 then raiseEvent (linkIdle s n 9) .wlink n 4
  else modLink (linkIdle s n 1) n (fun x => { x with backoff := true })

/-- R487, R488: a bring-up state is left for TRAIN at a mode. [DEDUCED, log 56] -/
def trainAt (s : State) (n : Nat) (m : LinkMode) : State := modLink s n (fun l => { l with st := 5, target := m })

/-- R489: this end alone could reach a generation at its floor or above, so that an agreed one below it is the partner's doing. -/
def reachesFloor (s : State) (n : Nat) (own : CapBody) : Bool :=
  [3, 2, 1].any (fun g => genFloor s n ≤ g && g ≤ own.genMax && (fecOf g own.fec).isSome)

/-- The credits that a sender holds when its link becomes ACTIVE: the 8 reserved flits of each pair of virtual channel and level
(R496). [DEDUCED, log 56] -/
def freshCredits : Tab Nat := (List.range 24).map (fun k => (k, 8))

/-- R489, R490, R515: a link enters ACTIVE after VERIFY. -/
def enterActive (s : State) (n : Nat) : State :=
  let before := routeLinks s
  let l := lnk s n
  match l.cap with
  | none => s
  | some c =>
    let own := sentCap s n
    let s := modLink (setMode s n l.target) n (fun l => { l with
      st := 7, attempts := 0, partner := some c, feat := own.features &&& c.features, arch := min own.arch c.arch, txSeq := 0, rxSeq := 0, replay := [],
      queue := [], credits := freshCredits, owed := [], loan := [], paths := [], ackSent := 0, discarding := false, winFlits := 0, winBad := 0, calmMs := 0, stepped := false })
    let s := raiseEvent s .wlink n 0
    let s := if l.agreed.gen < genFloor s n && reachesFloor s n own then raiseEvent s .wlink n 6 else s
    let s := if c.rclass != 1 || c.arch != 1 then raiseEvent s .wlink n 8 else s
    let s := if wiredOk s n then s else raiseEvent (raiseEvent s .wlink n 7) .wsw 0 3
    routesChanged before s

/-- R499: the unacknowledged flits of a link sent again (WLINK.PERF4). -/
def resendReplay (s : State) (n : Nat) : State :=
  (lnk s n).replay.foldl (fun x e => sendData x n e.1 e.2) (perfAdd s .wlink n 4 (lnk s n).replay.length)

/-- R499: a retrain ends: the mode is in force and the unacknowledged flits are sent again. WLINK.PERF7 counts retrains. -/
def retrainDone (s : State) (n : Nat) : State :=
  let before := routeLinks s
  let l := lnk s n
  let s := modLink (setMode s n l.target) n (fun l => { l with st := 7 })
  pump (routesChanged before (resendReplay (perfAdd (raiseEvent s .wlink n 2) .wlink n 7 1) n)) n

/-! VERIFY (R488). -/

/-- The next bit of the PRBS31 sequence of ITU-T O.150, inverted, and the register after it: x^31 + x^28 + 1. [PRESUMED, log 102] -/
def prbsStep (x : Nat) : Bool × Nat :=
  let b := Bool.xor (x.testBit 30) (x.testBit 27)
  (!b, (2 * x + b2n b) % 2 ^ 31)

/-- The next `n` bits as a number, the first bit least significant, and the register after them. -/
def prbsBits : Nat → Nat → Nat × Nat
  | 0, x => (0, x)
  | n + 1, x =>
    let q := prbsStep x
    let r := prbsBits n q.2
    (b2n q.1 + 2 * r.1, r.2)

/-- R488: `n` test flits, whose bodies are the PRBS31 sequence. [DESIGN CHOICE, log 103] -/
def testFlits : Nat → Nat → List (List Byte)
  | 0, _ => []
  | n + 1, x =>
    let r := prbsBits 1952 x
    withCrc (leBytes 4 Config.testHead.toNat ++ leBytes 4 0 ++ leBytes 244 r.1) :: testFlits n r.2

/-- R488: VERIFY sends its 4,096 test flits. -/
def sendTests (s : State) (n : Nat) : State := { s with out := s.out ++ (testFlits 4096 Config.prbsStart).map (Out.flit n) }

/-- R488: VERIFY passes when every one of the 4,096 flits received passes its CRC. -/
def verifyPasses (got : List (List Byte)) : Bool := got.length == 4096 && got.all bytesSound

/-! Receiving (R492 to R496). -/

/-- R493, R496: the ack and the credits of a received flit. -/
def takeHead (s : State) (n : Nat) (f : Flit) : State :=
  let l := lnk s n
  let first := match l.replay with
    | e :: _ => e.1
    | [] => l.txSeq
  let k := (f.ack + 4096 - first) % 4096
  let s := modLink s n (fun l => { l with
    replay := if k ≤ l.replay.length then l.replay.drop k else l.replay,
    credits := if f.credits = 0 then l.credits else tabMod 0 l.credits (3 * f.cvc + f.clevel) (· + f.credits) })
  pump s n

/-- R492, R494: a flit that failed its CRC. -/
def crcFailed (s : State) (n : Nat) : State :=
  raiseEvent (modLink s n (fun l => { l with crcErrs := satTo 32 (l.crcErrs + 1) })) .wlink n 5

/-- R494: a flit is discarded; the first of a run sends a retry request. -/
def discardFlit (s : State) (n : Nat) : State :=
  if (lnk s n).discarding then s else sendRetry (modLink s n (fun l => { l with discarding := true })) n

/-- A global link, or a spare in place of one (R508, R509). -/
def isGlobal (s : State) (n : Nat) : Bool := 62 ≤ (if n < 94 then n else (spareFor s n).getD 0)

/-- The pair of virtual channel and level of a received flit. -/
def pairOf (f : Flit) : Nat := 3 * f.vc + f.level

/-- R500: another node's flit received on link `n`, as it goes on: one level up after a global link. -/
def transitParcel (s : State) (n : Nat) (f : Flit) (x : Transit) : Parcel :=
  { dst := x.dst, vc := f.vc, flow := x.flow, msg := .transit x (min 2 (f.level + b2n (isGlobal s n))) f.body n (pairOf f) }

/-- A received flit ejected to an internal port (WSW.PERF3): it leaves its input port. -/
def ejectFlit (s : State) (n : Nat) (f : Flit) : State := modLink (perfAdd s .wsw 0 3 1) n (fun l => freeInSlot l (pairOf f))

/-- The rest of a message of which `left` flits are still to come takes the way of this one. -/
def keepPath (s : State) (n : Nat) (f : Flit) (x : Transit) (left : Nat) (via : Option Nat) : State :=
  modLink s n (fun l => { l with
    paths := if left = 0 then l.paths.filter (fun e => e.1 != pairOf f) else tabSet l.paths (pairOf f) { x := x, left := left, via := via } })

/-- R500, R511: the first flit of a message, received on link `n`, whose header says `x`, goes on its way. WSW.PERF1 counts it, PERF3 one
that is for this node. -/
def passTo (s : State) (n : Nat) (f : Flit) (x : Transit) : State :=
  let p := transitParcel s n f x
  let s := keepPath s n f x (x.flits - 1) (if x.dst = nodeNum s then none else (wayOf s p).map (·.1))
  if x.dst = nodeNum s then ejectFlit s n f else sendMsg (perfAdd s .wsw 0 1 1) p

/-- R501: a later flit of a message takes the way of its first: a fixed route, or the link that the first took while it is ACTIVE. -/
def passRest (s : State) (n : Nat) (f : Flit) (q : FlitPath) : State :=
  let p := transitParcel s n f q.x
  let s := keepPath s n f q.x (q.left - 1) q.via
  if q.x.dst = nodeNum s then ejectFlit s n f
  else match (if fixedVc f.vc then none else q.via) with
    | some m => if (activeLinks s).contains m then enqueue (perfAdd s .wsw 0 1 1) m p else sendMsg (perfAdd s .wsw 0 1 1) p
    | none => sendMsg (perfAdd s .wsw 0 1 1) p

/-- A flit received on link `n` goes on where its header names another node; one without a header belongs to the message whose header came
last on its virtual channel and level. [DESIGN CHOICE, log 55] -/
def passOn (s : State) (n : Nat) (f : Flit) : State := match Config.transitOf f.body, tabFind (lnk s n).paths (pairOf f) with
  | some x, _ => passTo s n f x
  | none, some q => passRest s n f q
  | none, none => ejectFlit s n f

/-- A parity error of a switch buffer discards a flit, which is lost as under R516 (12.11). -/
def bufParity (s : State) (n : Nat) (f : Flit) : State := modLink (raiseEvent s .wsw 0 2) n (fun l => freeInSlot l (pairOf f))

/-- A received flit's FEC symbols corrected counted (FEC_CNT). -/
def countFixed (s : State) (n : Nat) (f : Flit) : State :=
  if f.fixed = 0 then s else modLink s n (fun l => { l with fecFixed := l.fecFixed + BitVec.ofNat 64 f.fixed })

/-- R494, R495: a data flit received. WLINK.PERF1 counts data flits received. [DESIGN CHOICE, log 55; DESIGN CHOICE, log 85] -/
def doDataFlit (s : State) (n : Nat) (f : Flit) : State :=
  let l := lnk s n
  if l.st != 7 then s
  else
    let ok := flitSound 1 f
    let s := modLink (countFixed s n f) n (fun l => { l with winFlits := l.winFlits + 1, winBad := l.winBad + b2n (!ok) })
    if !ok then discardFlit (crcFailed s n) n
    else
      let s := takeHead (perfAdd s .wlink n 1 1) n f
      if f.seq != l.rxSeq then discardFlit s n
      else
        let s := modLink s n (fun l => takeInSlot { l with rxSeq := (l.rxSeq + 1) % 4096, discarding := false } (pairOf f))
        let s := perfAdd (emit s (.toSwitch n f)) .wsw 0 0 1
        tellAll (if f.struck then bufParity s n f else passOn s n f) n

/-- R493: an idle flit received. -/
def doIdleFlit (s : State) (n : Nat) (f : Flit) : State :=
  if (lnk s n).st != 7 then s
  else
    let s := countFixed s n f
    if flitSound 0 f then takeHead s n f else discardFlit (crcFailed s n) n

/-- R494: a retry request received: the replay buffer is sent again from the named sequence number. -/
def doRetryRequest (s : State) (n : Nat) (f : Flit) : State :=
  if (lnk s n).st != 7 then s
  else
    let s := countFixed s n f
    if !flitSound 3 f then discardFlit (crcFailed s n) n
    else
      let s := modLink (takeHead s n f) n (fun l => { l with retries := satTo 32 (l.retries + 1) })
      let from_ := leNat (f.body.take 2) % 4096
      let again := (lnk s n).replay.dropWhile (fun e => e.1 != from_)
      again.foldl (fun x e => sendData x n e.1 e.2) (perfAdd s .wlink n 4 again.length)

/-- R494: the 2 µs timer of a retry request. -/
def doRetryRepeat (s : State) (n : Nat) : State := if (lnk s n).st == 7 && (lnk s n).discarding then sendRetry s n else s

end Sys2Proof.Machine
end

