-- ==== Sys2Proof/Machine/Funcs.lean ====
section
/-! DEFINITION. The primitive functions of Pony (R806): each to some 200 significant bits, from which one rounding to FP32 or BF16 is
the correct one. Fixed-point numbers here have 384 fraction bits. -/

namespace Sys2Proof.Machine

/-- ln 2 with 384 fraction bits. -/
def fxLn2 : Int := 0xB17217F7D1CF79ABC9E3B39803F2F6AF40F343267298B62D8A0D175B8BAAFA2BE7B876206DEBAC98559552FB4AFA1B10

/-- π/2 with 640 fraction bits. -/
def fxHalfPi : Int :=
  0x1921FB54442D18469898CC51701B839A252049C1114CF98E804177D4C76273644A29410F31C6809BBDF2A33679A748636605614DBE4BE286E9FC26ADADAA3848BC90B6AECC4BCFD8DE89885D34C6FDAD6

/-- 2/√π with 384 fraction bits. -/
def fxErfC : Int := 0x120DD750429B6D11AE3A914FED7FD8688281341D7587CEA2E7342B06199CC416180EB39F0B24E1E2281806C12D98F35D7

/-- One in fixed point. -/
def fxOne : Int := 2 ^ 384

/-- A product in fixed point. -/
def fxMul (a b : Int) : Int := a * b / 2 ^ 384

/-- A finite value in fixed point. -/
def fxOf (neg : Bool) (m : Nat) (e : Int) : Int :=
  let q : Nat := if 0 ≤ e + 384 then m <<< (e + 384).toNat else m >>> (-(e + 384)).toNat
  if neg then -(q : Int) else q

/-- A fixed-point number times 2^k as a value that is not exact. -/
def fxVal (x : Int) (k : Int) : Val := .fin (x < 0) x.natAbs (k - 384) true

/-- The terms of e^r after the first: `n` is the number of the next one. [DEDUCED, log 89] -/
def fxExpSum (r : Int) : Nat → Nat → Int → Int
  | 0, _, _ => 0
  | fuel + 1, n, term =>
    let t := fxMul term r / (n : Int)
    t + fxExpSum r fuel (n + 1) t

/-- e^x as a fixed-point number in about [0.7, 1.42] and a power of two. -/
def fxExp (x : Int) : Int × Int :=
  let k := (x + fxLn2 / 2) / fxLn2
  (fxOne + fxExpSum (x - k * fxLn2) 90 1 fxOne, k)

/-- e^x in fixed point, for moderate x. -/
def fxExpFlat (x : Int) : Int :=
  let q := fxExp x
  if 0 ≤ q.2 then q.1 * 2 ^ q.2.toNat else q.1 / 2 ^ (-q.2).toNat

/-- The magnitude of a finite value is at least 2^10, far beyond any result an exponential can have. -/
def farOut (m : Nat) (e : Int) : Bool := m != 0 && 10 ≤ (Nat.log2 m : Int) + e

/-- A value above every format's range, and a positive one below every format's. -/
def hugeVal (neg : Bool) : Val := .fin neg 1 5000 true
/-- A positive value below every format's range. -/
def tinyVal : Val := .fin false 1 (-5000) true

/-- e^x for finite non-zero x. -/
def expFin (n : Bool) (m : Nat) (e : Int) : Val :=
  if farOut m e then (if n then tinyVal else hugeVal false) else let q := fxExp (fxOf n m e); fxVal q.1 q.2

/-- 2^x for finite non-zero x. -/
def exp2Fin (n : Bool) (m : Nat) (e : Int) : Val :=
  if farOut m e then (if n then tinyVal else hugeVal false)
  else
    let x := fxOf n m e
    let k := x / fxOne
    let f := x % fxOne
    if f = 0 then .fin false 1 k false else let q := fxExp (fxMul f fxLn2); fxVal q.1 (k + q.2)

/-- e^x - 1 for finite non-zero x. -/
def expm1Fin (n : Bool) (m : Nat) (e : Int) : Val :=
  if farOut m e then (if n then .fin true (2 ^ 384 - 1) (-384) true else hugeVal false)
  else fxVal (fxExpFlat (fxOf n m e) - fxOne) 0

/-- The terms of artanh z: z²'s multiple `p` is the power that the next term divides by `n`. -/
def fxAtanhSum (z2 : Int) : Nat → Nat → Int → Int
  | 0, _, _ => 0
  | fuel + 1, n, p => p / (n : Int) + fxAtanhSum z2 fuel (n + 2) (fxMul p z2)

/-- ln y for a fixed-point y in [1, 2). [DEDUCED, log 89] -/
def fxLn (y : Int) : Int :=
  let z := (y - fxOne) * 2 ^ 384 / (y + fxOne)
  2 * fxAtanhSum (fxMul z z) 125 1 z

/-- A positive finite value as 2^k × y with y in [1, 2) in fixed point. -/
def fxNorm (m : Nat) (e : Int) : Int × Int :=
  let l := Nat.log2 m
  ((if l ≤ 384 then m <<< (384 - l) else m >>> (l - 384) : Nat), e + l)

/-- ln x for finite positive x. -/
def lnFin (m : Nat) (e : Int) : Val :=
  let q := fxNorm m e
  if q.1 = fxOne && q.2 = 0 then vZero else fxVal (q.2 * fxLn2 + fxLn q.1) 0

/-- log2 x for finite positive x. -/
def log2Fin (m : Nat) (e : Int) : Val :=
  let q := fxNorm m e
  if q.1 = fxOne then vInt q.2 else fxVal (q.2 * fxOne + fxLn q.1 * 2 ^ 384 / fxLn2) 0

/-- The terms of the sine or cosine series: the term `t` with index `n`, then those two indices further. [DEDUCED, log 89] -/
def fxTrigSum (r2 : Int) : Nat → Nat → Int → Int
  | 0, _, _ => 0
  | fuel + 1, n, t => t + fxTrigSum r2 fuel (n + 2) (-(fxMul t r2) / (((n + 1) * (n + 2) : Nat) : Int))

/-- A finite magnitude reduced by quarter turns: the quarter, and the rest in fixed point. -/
def fxQuarter (m : Nat) (e : Int) : Nat × Int :=
  let x : Int := ((if 0 ≤ e + 640 then m <<< (e + 640).toNat else m >>> (-(e + 640)).toNat : Nat) : Int)
  let k := x / fxHalfPi
  ((k % 4).toNat, (x - k * fxHalfPi) / 2 ^ 256)

/-- The sine of a finite magnitude moved by `q` quarter turns. -/
def sinQuarter (q : Nat) (m : Nat) (e : Int) : Int :=
  let p := fxQuarter m e
  let r2 := fxMul p.2 p.2
  let k := (p.1 + q) % 4
  let v := if k % 2 = 0 then fxTrigSum r2 50 1 p.2 else fxTrigSum r2 50 0 fxOne
  if 2 ≤ k then -v else v

/-- sin x for finite non-zero x. -/
def sinFin (n : Bool) (m : Nat) (e : Int) : Val := let v := sinQuarter 0 m e; fxVal (if n then -v else v) 0

/-- cos x for finite x. -/
def cosFin (m : Nat) (e : Int) : Val := fxVal (sinQuarter 1 m e) 0

/-- The terms of the error function's series: the signed power over the factorial `t` with index `n`. [DEDUCED, log 89] -/
def fxErfSum (x2 : Int) : Nat → Nat → Int → Int
  | 0, _, _ => 0
  | fuel + 1, n, t => t / ((2 * n + 1 : Nat) : Int) + fxErfSum x2 fuel (n + 1) (-(fxMul t x2) / ((n + 1 : Nat) : Int))

/-- erf x for finite non-zero x; from 8 upward it lies above 1 - 2^-90. -/
def erfFin (n : Bool) (m : Nat) (e : Int) : Val :=
  if m != 0 && 3 ≤ (Nat.log2 m : Int) + e then .fin n (2 ^ 90 - 1) (-90) true
  else
    let x := fxOf false m e
    let v := fxMul fxErfC (fxErfSum (fxMul x x) 400 0 x)
    fxVal (if n then -v else v) 0

/-- 1/√x for finite positive x. -/
def rsqrtFin (m : Nat) (e : Int) : Val :=
  let m1 := if e % 2 = 0 then m else 2 * m
  let e1 := if e % 2 = 0 then e else e - 1
  let a := 2 ^ (768 + 2 * Nat.log2 m1) / m1
  let r := isqrt a
  .fin false r (-(e1 / 2) - 384 - Nat.log2 m1) (r * r * m1 != 2 ^ (768 + 2 * Nat.log2 m1))

/-- The one-operand primitives of Table 6.2 (R806): the functions 0x11 to 0x1B. [DEDUCED, log 89] -/
def prim1 (fn : Nat) (x : Val) : Val × Fl :=
  match x with
  | .nan s => (.nan false, nanFl [.nan s])
  | .inf n =>
    match fn with
    | 0x11 => if n then (.nan false, invalidFl) else (.inf false, Fl.none)
    | 0x12 => (.fin n 0 0 false, Fl.none)
    | 0x13 => if n then (.nan false, invalidFl) else (vZero, Fl.none)
    | 0x14 | 0x15 => (if n then vZero else .inf false, Fl.none)
    | 0x16 => (if n then vInt (-1) else .inf false, Fl.none)
    | 0x17 | 0x18 => if n then (.nan false, invalidFl) else (.inf false, Fl.none)
    | 0x1B => (vInt (if n then -1 else 1), Fl.none)
    | _ => (.nan false, invalidFl)
  | .fin n m e st =>
    if m = 0 then
      match fn with
      | 0x12 | 0x13 => (.inf n, { dz := true })
      | 0x14 | 0x15 | 0x1A => (vInt 1, Fl.none)
      | 0x17 | 0x18 => (.inf true, { dz := true })
      | _ => (.fin n 0 0 false, Fl.none)
    else
      match fn with
      | 0x11 => vSqrt (.fin n m e st)
      | 0x12 => vDiv (vInt 1) (.fin n m e st)
      | 0x13 => if n then (.nan false, invalidFl) else (rsqrtFin m e, Fl.none)
      | 0x14 => (expFin n m e, Fl.none)
      | 0x15 => (exp2Fin n m e, Fl.none)
      | 0x16 => (expm1Fin n m e, Fl.none)
      | 0x17 => if n then (.nan false, invalidFl) else (lnFin m e, Fl.none)
      | 0x18 => if n then (.nan false, invalidFl) else (log2Fin m e, Fl.none)
      | 0x19 => (sinFin n m e, Fl.none)
      | 0x1A => (cosFin m e, Fl.none)
      | _ => (erfFin n m e, Fl.none)

end Sys2Proof.Machine
end

