-- ==== Sys2Proof/Machine/Access.lean ====
section
/-! DEFINITION. Who reaches and writes a register page (R611, R612, R641, R751 to R753). -/

namespace Sys2Proof.Machine

/-- The host reaches a function's BARs: the PCIe link is up, start-up is over, and the function is in D0 (R605, R606, R640). [DEDUCED, log 77] -/
def fnUp (s : State) (fn : Nat) : Bool :=
  s.hostIf.gen != 0 && !s.hostIf.crs && !s.hostIf.d3.contains fn && (fn == 0 || (s.hostIf.vfEnable && fn ≤ s.hostIf.numVfs))

/-- The register pages that the owner reaches in the present ownership state (Table 15.3). [DEDUCED, log 68] -/
def pfPages (s : State) (b : Block) : Bool :=
  match s.hostIf.own with
  | 1 => true
  | 2 => b == .host || b == .ledg || b == .mgmt
  | _ => b == .host

/-- A requester's write reaches a page (Table 20.1, Table 15.3, R641). [DEDUCED, log 68] -/
def writeReaches (s : State) (r : Requester) (b : Block) (i : Nat) : Bool :=
  !s.mgmt.por && i < blkCount b && (match r with
    | .mgmt => true
    | .pf => fnUp s 0 && pfPages s b && (!s.mgmt.lamb || b == .host || b == .mgmt || b == .ledg)
    | .vf t => fnUp s (t + 1) && b == .ten && i == t && !s.mgmt.lamb
    | .cfg _ => false)

/-- A requester's read reaches a page. -/
def readReaches (s : State) (r : Requester) (b : Block) (i : Nat) : Bool :=
  !s.mgmt.por && i < blkCount b && (match r with
    | .mgmt => true
    | .pf => fnUp s 0 && pfPages s b
    | .vf t => fnUp s (t + 1) && b == .ten && i == t && !s.mgmt.lamb
    | .cfg _ => false)

/-- The requester is a tenant's function. -/
def isVf : Requester → Bool
  | .vf _ => true
  | _ => false

/-- HOST.PERF2 counts BAR0 accesses. -/
def bar0Count (s : State) (r : Requester) : State :=
  match r with
  | .mgmt | .cfg _ => s
  | .pf => if fnUp s 0 then perfAdd s .host 0 2 1 else s
  | .vf t => if fnUp s (t + 1) then perfAdd s .host 0 2 1 else s

/-- The code of a requester in the lists of staged words and snapshots. -/
def reqCode : Requester → Nat
  | .pf => 0
  | .mgmt => 1
  | .vf t => t + 2
  | .cfg fn => fn + 514

/-- The state without the words that a requester has staged for the 64-bit register at `off` (R761). -/
def useStaged (s : State) (r : Requester) (b : Block) (i off : Nat) : State :=
  if (page s b i).staged.isEmpty then s
  else modPage s b i (fun p => { p with staged := p.staged.filter (fun x => x.req != reqCode r || x.off / 8 != off / 8) })

/-- A write of the register at `off` of a page: discarded where it does not reach the page; ignored with ERR_STATUS where the requester
may not write the field (`ok` false, R752); else `f`. What the requester had staged for the register is used up (R761). -/
def regAccess (s : State) (r : Requester) (b : Block) (i off : Nat) (ok : Bool) (f : State → State) : State :=
  let s := bar0Count s r
  if !writeReaches s r b i then s
  else if !ok then regError s b i off
  else f (useStaged s r b i off)

end Sys2Proof.Machine
end

