-- ==== Sys2Proof/Machine/Drake.lean ====
section
/-! DEFINITION. Drake: MOVE, CONVERT, GATHER_WIDEN, ZERO, PREFETCH (chapter 10). -/

namespace Sys2Proof.Machine

/-- The rounding mode of a rnd field for element `n` of an output (R94, R97, R98). -/
def rndOf (s : State) (t : Nat) (rnd sigma step tau n : Nat) : Rnd :=
  match rnd with
  | 0 => .rne
  | 1 => .sr (genDraw (ten s t).seed.toNat sigma step tau n)
  | _ => .rtz

/-! Fields of Table 10.2. -/

/-- The source descriptor. -/
def mvSrc (c : Cmd) : TDesc := cDesc c (cf c 4 0 42)
/-- The destination descriptor. -/
def mvDst (c : Cmd) : TDesc := cDesc c (cf c 5 0 42)
/-- The index descriptor of a GATHER_WIDEN. -/
def mvIdx (c : Cmd) : TDesc := cDesc c (cf c 6 0 42)
/-- The gathered dimension. -/
def mvGdim (c : Cmd) : Nat := cf c 6 48 3
/-- The signed origin in dimension `d`. -/
def mvOrg (c : Cmd) (d : Nat) : Int := sgn 20 (cf c (6 + d / 3) (20 * (d % 3)) 20)
/-- The group field of a Drake command. -/
def mvGroup (c : Cmd) : Nat := cf c 4 48 8

/-- A value that a group field may take (R407). -/
def groupOk (g : Nat) : Bool := g ≤ 2 || g == 0x40

/-- R414: the source index in one dimension: none outside the source. -/
def srcIndex (d : TDesc) (dim : Nat) (k : Int) : Option Nat :=
  let e := dExt d dim
  if bitAt d.wrap dim then some (k % (e : Int)).toNat
  else if 0 ≤ k ∧ k < e then some k.toNat else none

/-- A list of options, all present. -/
def allSome {α : Type} : List (Option α) → Option (List α)
  | [] => some []
  | none :: _ => none
  | some x :: xs => (allSome xs).map (x :: ·)

/-- The source element of destination indices in a MOVE or CONVERT (R414). -/
def winSource (c : Cmd) (idx : List Nat) : Option (List Nat) :=
  allSome ((List.range 6).map (fun d => srcIndex (mvSrc c) d (mvOrg c d + (idx.getD d 0 : Int))))

/-- The least and greatest source index that a window reads in one dimension. -/
def winBox (c : Cmd) (d : Nat) : Nat × Nat :=
  let e := dExt (mvSrc c) d
  let n := dExt (mvDst c) d
  if bitAt (mvSrc c).wrap d then
    let o := (mvOrg c d % (e : Int)).toNat
    if o + n ≤ e then (o, o + n - 1) else (0, e - 1)
  else ((mvOrg c d).toNat, (mvOrg c d).toNat + n - 1)

/-- The box of source elements that a MOVE or CONVERT reads. -/
def winBoxes (c : Cmd) : List (Nat × Nat) := (List.range 6).map (winBox c)

/-- R415: a window lies within its source where it does not wrap. -/
def winOk (c : Cmd) : Bool :=
  (List.range 6).all (fun d => bitAt (mvSrc c).wrap d
    || (0 ≤ mvOrg c d && mvOrg c d + (dExt (mvDst c) d : Int) ≤ dExt (mvSrc c) d))

/-- The box of source elements that a GATHER_WIDEN may read. -/
def gatherBoxes (c : Cmd) : List (Nat × Nat) :=
  (List.range 6).map (fun d =>
    if d = mvGdim c then (0, if cf c 6 0 42 = 0 then min (dExt (mvDst c) d) (dExt (mvSrc c) d) - 1 else dExt (mvSrc c) d - 1)
    else (0, dExt (mvDst c) d - 1))

/-- R421: the byte ranges of a command with a source box: mapped, the destination writable, no overlap. -/
def rangesOk (s : State) (t : Nat) (src dst : TDesc) (box : List (Nat × Nat)) (idx : Option TDesc) : Bool :=
  let db := fullBox dst
  let dspan := boxSpan dst db
  tensorMapped s t src 0 1 box false && tensorMapped s t dst 0 1 db true
    && (match idx with
      | some i => tensorMapped s t i 0 1 (fullBox i) false && !spansMeet dspan (boxSpan i (fullBox i))
      | none => true)
    && !spansMeet dspan (boxSpan src box)
    && !(dSfmt src != 0 && spansMeet dspan (scaleSpan src 0 1 box))
    && !(dSfmt dst != 0 && spansMeet dspan (scaleSpan dst 0 1 db))

/-- Bits that must be zero in every command of Table 10.2, and values in range. -/
def mvFieldsOk (c : Cmd) : Bool :=
  cZero c 4 42 6 && cZero c 4 58 6 && cZero c 5 42 6 && groupOk (mvGroup c) && cf c 4 56 2 != 3

/-- The origins' words carry no reserved bit. -/
def orgFieldsOk (c : Cmd) : Bool := cZero c 6 60 4 && cZero c 7 60 4

/-- R417, R421: a MOVE whose own fields are in order passes the checks on what it names. -/
def moveDescsOk (s : State) (t : Nat) (c : Cmd) : Bool :=
  descOk (mvSrc c) && descOk (mvDst c) && (mvSrc c).fmt == (mvDst c).fmt && dSfmt (mvSrc c) == 0 && dSfmt (mvDst c) == 0
    && winOk c && rangesOk s t (mvSrc c) (mvDst c) (winBoxes c) none

/-- The own fields of a MOVE (R416, R421). -/
def moveFieldsOk (c : Cmd) : Bool := mvFieldsOk c && orgFieldsOk c && cf c 4 56 2 == 0 && cf c 5 48 16 == 0

/-- The checks of a CONVERT on what it names (R421). -/
def convertDescsOk (s : State) (t : Nat) (c : Cmd) : Bool :=
  descOk (mvSrc c) && descOk (mvDst c) && winOk c && rangesOk s t (mvSrc c) (mvDst c) (winBoxes c) none

/-- The own fields of a CONVERT. -/
def convertFieldsOk (c : Cmd) : Bool := mvFieldsOk c && orgFieldsOk c

/-- The own fields of a GATHER_WIDEN. -/
def gatherFieldsOk (c : Cmd) : Bool :=
  mvFieldsOk c && cZero c 6 42 6 && cZero c 6 51 13 && cw c 7 == 0 && mvGdim c ≤ 5 && (cf c 6 0 42 != 0 || mvGdim c == 0)

/-- R420: the index tensor's form. -/
def indexOk (c : Cmd) : Bool :=
  let i := mvIdx c
  descOk i && (dFmt i == .int32 || dFmt i == .uint32) && dExt i 0 == dExt (mvDst c) (mvGdim c)
    && (List.range 5).all (fun d => dExt i (d + 1) == 1)

/-- The checks of a GATHER_WIDEN on what it names (R421). -/
def gatherDescsOk (s : State) (t : Nat) (c : Cmd) : Bool :=
  let hasIdx := cf c 6 0 42 != 0
  descOk (mvSrc c) && descOk (mvDst c) && dSfmt (mvDst c) == 0 && fmtBits (dFmt (mvSrc c)) ≤ fmtBits (dFmt (mvDst c))
    && (!hasIdx || indexOk c)
    && (List.range 6).all (fun d => d == mvGdim c || dExt (mvDst c) d ≤ dExt (mvSrc c) d)
    && rangesOk s t (mvSrc c) (mvDst c) (gatherBoxes c) (if hasIdx then some (mvIdx c) else none)

/-! What an engine reads for each element. -/

/-- What is read for one element: its bits, its exact value, the flags of reading it, whether it comes from a poisoned line, for a MOVE
which of its bits do, whether its index was out of range, and the span that could not be accessed, if any. -/
structure Read1 where
  bits : Nat := 0
  val : Val := .fin false 0 0 false
  fl : Fl := {}
  bad : Bool := false
  badBits : List Nat := []
  oob : Bool := false
  miss : Option (Nat × Nat) := none

/-- Everything the element needs could be accessed. -/
def Read1.reach (r : Read1) : Bool := r.miss.isNone

/-- The first of some spans that an engine of a die cannot read now. -/
def missing (s : State) (t : Nat) (die : Option Nat) (spans : List (Nat × Nat)) : Option (Nat × Nat) :=
  spans.find? (fun p => !usableOn s t die p.1 p.2 false)

/-- The spans of an element and of its scale. -/
def elemSpans (d : TDesc) (red free : Nat) (idx : List Nat) : List (Nat × Nat) :=
  (dAddr d idx, elemSpan (dFmt d)) :: (if dSfmt d = 0 then [] else [(scaleAddr d red free idx, 1)])

/-- An operand's element with its scale, as an engine of a die reads it for a command's reduction and free dimensions (R114). -/
def readOn (s : State) (t : Nat) (die : Option Nat) (d : TDesc) (red free : Nat) (idx : List Nat) : Read1 :=
  let v := dVal s t d red free idx
  { bits := dBits s t d idx, val := v.1, fl := v.2, bad := dPoisonS s t d red free idx,
    miss := missing s t die (elemSpans d red free idx) }

/-- The exact value of a source element, with its scale (R418 step 1). -/
def readElem (s : State) (t : Nat) (d : TDesc) (idx : List Nat) : Read1 := readOn s t none d 0 1 idx

/-- The first bits of the pieces of an element that lie in one byte each: its bytes, or every bit of a sub-byte element. -/
def pieceBits (f : Fmt) : List Nat := if fmtBits f < 8 then List.range (fmtBits f) else (List.range (fmtBits f / 8)).map (8 * ·)

/-- A source element as MOVE reads it, with the pieces that come from poisoned lines (R434). -/
def readMove (s : State) (t : Nat) (d : TDesc) (idx : List Nat) : Read1 :=
  let b0 := elemBit (dFmt d) (elemOff d.strides idx)
  let bb := (pieceBits (dFmt d)).filter (fun b => tPoison s t (dAddr d idx + (b0 + b) / 8) 1)
  { bits := dBits s t d idx, bad := !bb.isEmpty, badBits := bb, miss := missing s t none [(dAddr d idx, elemSpan (dFmt d))] }

/-- The source of a MOVE's or CONVERT's destination element, read by `rd`. -/
def readWindow (rd : TDesc → List Nat → Read1) (c : Cmd) (idx : List Nat) : Read1 :=
  match winSource c idx with
  | some k => rd (mvSrc c) k
  | none => {}

/-- The source of a GATHER_WIDEN's destination element (R420). -/
def readGather (s : State) (t : Nat) (c : Cmd) (idx : List Nat) : Read1 :=
  let g := mvGdim c
  let j := idx.getD g 0
  let hasIdx := cf c 6 0 42 != 0
  let ii := [j, 0, 0, 0, 0, 0]
  let k : Int := if hasIdx then iVal (fmtSigned (dFmt (mvIdx c))) 32 (dBits s t (mvIdx c) ii) else j
  let ibad := hasIdx && dPoison s t (mvIdx c) ii
  let imiss := if hasIdx then missing s t none [(dAddr (mvIdx c) ii, 4)] else none
  match srcIndex (mvSrc c) g k with
  | some kk => let r := readElem s t (mvSrc c) (idx.set g kk); { r with bad := r.bad || ibad, miss := imiss <|> r.miss }
  | none => { fl := { nv := true }, bad := ibad, oob := true, miss := imiss }

/-- The elements of an extent in the order of R98. -/
def extIdx (d : TDesc) : List (List Nat) := (List.range (extCount d.exts)).map (unlin d.exts)

/-- Elements read until the first that cannot be reached (R435). -/
def reachable (rs : List (List Nat × Read1)) : List (List Nat × Read1) := rs.takeWhile (fun r => r.2.reach)

/-- The largest magnitude over the finite elements of each block (R115). -/
def blockMax (dst : TDesc) (rs : List (List Nat × Read1)) : Tab Val :=
  rs.foldl (fun tb r =>
    match r.2.val with
    | .fin _ m e st =>
      let b := blockOf dst 0 1 r.1
      let v := Val.fin false m e st
      if vLt (tabGet vZero tb b) v then tabSet tb b v else tabSet tb b (tabGet vZero tb b)
    | _ => tabSet tb (blockOf dst 0 1 r.1) (tabGet vZero tb (blockOf dst 0 1 r.1))) []

/-- One converted element (R418, R803): an integer into an integer takes the integer rule. -/
def convert1 (src dst : TDesc) (rnd : Rnd) (wrap : Bool) (r : Read1) (e : Int) : Nat × Fl :=
  if r.oob then (0, r.fl)
  else
    let q := narrowFrom (!fmtFloat (dFmt src)) (dFmt dst) rnd wrap (vScale (-e) r.val)
    (q.1, flOr r.fl (flRec q.2))

/-- What a copy command did: the state, its flags, the destination lines written, TARGET_GONE, an index out of range, whether it stopped
at an element it could not write. -/
structure Copied where
  st : State
  fl : Fl
  lines : Nat
  gone : Bool
  oob : Bool
  cut : Bool := false

/-- One element on its way out: its bits in the destination, the flags of computing and narrowing it, its place in the source order, and
the scale byte of its block where the destination carries scales. -/
structure OutOne where
  el : OutElem
  fl : Fl
  rd : Read1
  sc : List OutElem

/-- The first span of an output element that an engine of a die cannot write now. -/
def outMiss (s : State) (t : Nat) (die : Option Nat) (o : OutOne) : Option (Nat × Nat) :=
  ((o.el :: o.sc).map (fun e => (e.addr, outSpan e))).find? (fun p => !usableOn s t die p.1 p.2 true)

/-- Elements written to a destination in the order of the elements, with the flags of the command (R418, R422, R434): the command stops
at the first that it cannot write. `conv` turns a source into bits, given the linear index and the block's scale exponent. A MOVE
poisons the lines that receive bytes of poisoned lines; every other command those that hold a poisoned element, and the whole block with
its scale where the destination carries scales (R115). [DEDUCED, log 12; DEDUCED, log 39] -/
def copyOut (s : State) (t : Nat) (die : Option Nat) (dst : TDesc) (rs : List (List Nat × Read1)) (short : Bool)
    (conv : List Nat → Read1 → Int → Nat × Fl) : Copied :=
  let sf := dSfmt dst
  let mx := if sf = 0 then [] else blockMax dst rs
  let blk := fun (idx : List Nat) => if sf = 0 then 0 else blockOf dst 0 1 idx
  let ex := fun idx => if sf = 0 then (0 : Int) else scaleExp sf (dSrule dst) (dFmt dst) (tabGet vZero mx (blk idx))
  let badBlocks := if sf = 0 then [] else (rs.filter (fun r => r.2.bad)).map (fun r => blk r.1)
  let all : List OutOne := rs.map (fun r =>
    let q := conv r.1 r.2 (ex r.1)
    let spoilt := sf != 0 && badBlocks.contains (blk r.1)
    { el := outElem dst r.1 q.1 (spoilt || (r.2.bad && r.2.badBits.isEmpty)), fl := q.2, rd := r.2,
      sc := if sf = 0 then [] else
        [{ addr := dSaddr dst + blk r.1, bit := 0, width := 8, val := scaleCode sf (ex r.1), bad := spoilt }] })
  let outs := all.takeWhile (fun o => (outMiss s t die o).isNone)
  let badAt := outs.flatMap (fun o => o.rd.badBits.map (fun b => o.el.addr + (o.el.bit + b) / 8))
  let w := writeOut s t (outs.map (·.el) ++ (outs.flatMap (·.sc)).dedup) badAt
  let st := match (all.drop outs.length).head?.bind (outMiss s t die) with
    | some p => missAt w.st t p.1 p.2 true
    | none => w.st
  { st := st, lines := w.lines, gone := short || w.gone || decide (outs.length < all.length), cut := decide (outs.length < all.length), oob := outs.any (fun o => o.rd.oob),
    fl := flOr (flAll (outs.map (·.fl))) { poison := !badAt.isEmpty || outs.any (fun o => o.el.bad) } }

/-- A read that stopped at an element, as its memory sees it. -/
def readMissed (s : State) (t : Nat) (rs : List Read1) : State :=
  match rs.findSome? (·.miss) with
  | some p => missAt s t p.1 p.2 false
  | none => s

/-- The tenant's spans that a copy reads. -/
def copySpans (src : TDesc) (box : List (Nat × Nat)) : List (Option (Nat × Nat)) := [boxSpan src box, scaleSpan src 0 1 box]

/-- A copy command of a group, by its opcode and its place among those the group serves: the first four run at once (R406). -/
def drakeJob (s : State) (g idx op : Nat) : Option Job :=
  if 4 ≤ idx then none
  else match (s.jobs.filter (fun j => decide (j.unit = .drake g) && j.result.isNone))[idx]? with
    | some j => if cOp j.cmd == op then some j else none
    | none => none

/-- A group runs work: it is READY, or FENCED or QUIESCING and finishing what it accepted (R436, R739). -/
def unitRuns (s : State) (b : Block) (i : Nat) : Bool :=
  let st := blkState s b i
  (st == 1 || st == 3 || st == 4) && !s.mgmt.lamb

/-- An event raised for each of `n` occurrences: one bit, and EVENT_COUNT counts each (R179, R651). -/
def raiseTimes (s : State) (b : Block) (i e n : Nat) : State := (List.range n).foldl (fun x _ => raiseEvent x b i e) s

/-- PERF0 of these pages counts the commands completed (Tables 6.7, 8.7 and 10.5). -/
def countsDone (b : Block) : Bool := b == .pony || b == .solv || b == .drake

/-- R170, R243, R436: every command that a unit holds unfinished completes TARGET_GONE, each with the block's `gone` event. -/
def failJobs (s : State) (u : EUnit) (b : Block) (i gone : Nat) : State :=
  let hit := fun (j : Job) => decide (j.unit = u) && j.result.isNone
  let n := (s.jobs.filter hit).length
  let s' := { s with jobs := s.jobs.map (fun j => if hit j then { j with result := some (failResult 0x22 {} 0) } else j) }
  raiseTimes (if countsDone b then perfAdd s' b i 0 n else s') b i gone n

/-- A copy command ends: events, counts, step ranges of withdrawn pages, its result (R423, R434, R435). [DEDUCED, log 29] -/
def drakeEnd (s0 : State) (g : Nat) (j : Job) (r : Copied) (spans : List (Option (Nat × Nat))) : State :=
  let s := perfAdd r.st .drake g 0 1
  let s := if r.fl.poison then raiseEvent s .drake g 0 else s
  let s := if r.gone then raiseEvent s .drake g 1 else s
  let s := if r.fl.sat then raiseEvent s .drake g 2 else s
  let s := if r.oob then raiseEvent s .drake g 3 else s
  let s := if r.fl.poison || r.gone then noteWithdrawn s j.tenant (cStep j.cmd) spans else s
  finishJob s0 s j (if r.gone then failResult 0x22 r.fl (satTo 32 r.lines) else ranResult r.fl (satTo 32 r.lines))

/-- What a copy command does: errors on what it reads, then its elements in order. Pages of shared sets that an uncorrectable error met are
withdrawn once it has read (R385). [DESIGN CHOICE, log 9] -/
def copyRun (s0 : State) (j : Job) (spans : List (Option (Nat × Nat))) (errs : List MemErr)
    (rd : State → List Nat → Read1) (conv : State → List Nat → Read1 → Int → Nat × Fl) : Copied :=
  let sE := addErrs s0 errs
  let s := readSpans sE j.tenant spans
  let dst := mvDst j.cmd
  let all := (extIdx dst).map (fun i => (i, rd s i))
  let rs := reachable all
  let w := copyOut s j.tenant none dst rs (decide (rs.length < all.length)) (conv s)
  { w with st := withdrawNew sE s (if w.cut then w.st else readMissed w.st j.tenant (all.map (·.2))) }

/-- The spans that a MOVE or CONVERT reads. -/
def winSpans (c : Cmd) : List (Option (Nat × Nat)) := copySpans (mvSrc c) (winBoxes c)

/-- The span of a copy command's destination. -/
def dstSpans (c : Cmd) : List (Option (Nat × Nat)) := [boxSpan (mvDst c) (fullBox (mvDst c))]

/-- R417: a MOVE copies the bits of each element. -/
def moveRun (s : State) (j : Job) (errs : List MemErr) : Copied :=
  copyRun s j (winSpans j.cmd) errs (fun x i => readWindow (readMove x j.tenant) j.cmd i) (fun _ _ r _ => (r.bits, Fl.none))

/-- R417: MOVE. -/
def doMove (s : State) (g idx : Nat) (errs : List MemErr) : State :=
  match drakeJob s g idx 0x40 with
  | some j =>
    if !unitRuns s .drake g then s else drakeEnd s g j (moveRun s j errs) (winSpans j.cmd ++ dstSpans j.cmd)
  | none => s

/-- The conversion of an element under a command's rnd, sigma and ovf (R418, R98). -/
def convCmd (c : Cmd) (t : Nat) (s : State) (idx : List Nat) (r : Read1) (e : Int) : Nat × Fl :=
  convert1 (mvSrc c) (mvDst c)
    (rndOf s t (cf c 4 56 2) (cf c 5 48 16) (cStep c) (mvDst c).tau (lin (mvDst c).exts idx)) (cOvf c) r e

/-- R418: what a CONVERT does. -/
def convertRun (s : State) (j : Job) (errs : List MemErr) : Copied :=
  copyRun s j (winSpans j.cmd) errs (fun x i => readWindow (readElem x j.tenant) j.cmd i) (convCmd j.cmd j.tenant)

/-- R418: CONVERT. -/
def doConvert (s : State) (g idx : Nat) (errs : List MemErr) : State :=
  match drakeJob s g idx 0x41 with
  | some j =>
    if !unitRuns s .drake g then s else drakeEnd s g j (convertRun s j errs) (winSpans j.cmd ++ dstSpans j.cmd)
  | none => s

/-- The spans that a GATHER_WIDEN reads. -/
def gatherSpans (c : Cmd) : List (Option (Nat × Nat)) :=
  copySpans (mvSrc c) (gatherBoxes c) ++ (if cf c 6 0 42 = 0 then [] else [boxSpan (mvIdx c) (fullBox (mvIdx c))])

/-- R420: what a GATHER_WIDEN does. -/
def gatherRun (s : State) (j : Job) (errs : List MemErr) : Copied :=
  copyRun s j (gatherSpans j.cmd) errs (fun x i => readGather x j.tenant j.cmd i) (convCmd j.cmd j.tenant)

/-- R420: GATHER_WIDEN. -/
def doGather (s : State) (g idx : Nat) (errs : List MemErr) : State :=
  match drakeJob s g idx 0x42 with
  | some j =>
    if !unitRuns s .drake g then s else drakeEnd s g j (gatherRun s j errs) (gatherSpans j.cmd ++ dstSpans j.cmd)
  | none => s

/-! ZERO (10.6). -/

/-- The destination descriptor of a ZERO with mode 0. -/
def zDst (c : Cmd) : TDesc := cDesc c (cf c 4 0 42)
/-- The mode of a ZERO. -/
def zMode (c : Cmd) : Nat := cf c 4 56 1
/-- The tenant address of the range of a ZERO with mode 1. -/
def zAddr (c : Cmd) : Nat := cf c 5 0 36 * 4096
/-- The pages of a ZERO with mode 1. -/
def zPages (c : Cmd) : Nat := cf c 6 0 32

/-- The own fields of a ZERO (R425, R426). -/
def zeroFieldsOk (c : Cmd) : Bool :=
  cZero c 4 42 6 && cZero c 4 57 7 && groupOk (mvGroup c) && cZero c 5 36 28 && cZero c 6 32 32 && cw c 7 == 0
    && (if zMode c = 0 then cf c 5 0 36 == 0 && zPages c == 0 else cf c 4 0 42 == 0)

/-- The memory that holds a local address: 0 LPDDR, 1 + die an upper tier, 3 another. -/
def memKind (a : Nat) : Nat := if inLpddr a then 0 else match spadOf a with
  | some (d, 0) => 1 + d
  | _ => 3

/-- The pages of a range lie in one memory (R426). -/
def oneMemory (s : State) (t va n : Nat) : Bool :=
  match (pagesOf va n).map (fun p => memKind (localOf s t (p * 4096))) with
  | [] => true
  | k :: ks => ks.all (· == k)

/-- The checks of a ZERO on what it names (R426). -/
def zeroDescsOk (s : State) (t : Nat) (c : Cmd) : Bool :=
  if zMode c = 0 then descOk (zDst c) && spanMapped s t true (boxSpan (zDst c) (fullBox (zDst c)))
  else mapped s t (zAddr c) (4096 * zPages c) true && oneMemory s t (zAddr c) (4096 * zPages c)

/-- One page of a ZERO with mode 1: zeroed by its memory's engine, unless it is no longer reachable or sealed. -/
def zeroPage (t : Nat) (w : Wrote) (vp : Nat) : Wrote :=
  if w.stopped then w
  else match xlateW w.st t (vp * 4096) with
    | none => { w with gone := true, stopped := true }
    | some a =>
      if !served w.st a then { w with st := goneHit w.st a, gone := true, stopped := true }
      else if isSealed w.st a then { w with st := sealHit w.st a, gone := true }
      else { w with st := zeroEngine w.st a 4096, lines := w.lines + 64 }

/-- R426: what a ZERO does. [DESIGN CHOICE, log 9] -/
def zeroRun (s : State) (j : Job) : Copied :=
  if zMode j.cmd = 0 then
    copyOut s j.tenant none { zDst j.cmd with scale := 0 } ((extIdx (zDst j.cmd)).map (fun i => (i, {}))) false (fun _ _ _ => (0, Fl.none))
  else
    let w := (pagesOf (zAddr j.cmd) (4096 * zPages j.cmd)).foldl (zeroPage j.tenant) { st := s }
    { st := w.st, fl := {}, lines := w.lines, gone := w.gone, oob := false }

/-- The span that a ZERO writes. -/
def zeroSpans (c : Cmd) : List (Option (Nat × Nat)) :=
  [if zMode c = 0 then boxSpan (zDst c) (fullBox (zDst c)) else some (zAddr c, 4096 * zPages c)]

/-- R426: ZERO. -/
def doZero (s : State) (g idx : Nat) : State :=
  match drakeJob s g idx 0x44 with
  | some j => if !unitRuns s .drake g then s else drakeEnd s g j (zeroRun s j) (zeroSpans j.cmd)
  | none => s

/-! PREFETCH (10.7). -/

/-- The tenant address of the schedule. -/
def pfSched (c : Cmd) : Nat := cf c 4 0 42 * 64
/-- Entries of the schedule. -/
def pfCount (c : Cmd) : Nat := cf c 5 0 16
/-- The run-ahead depth. -/
def pfAhead (c : Cmd) : Nat := cf c 4 56 4
/-- The release token, where enabled. -/
def pfRelTok (c : Cmd) : Nat := cf c 5 16 8
/-- The release token is enabled. -/
def pfRelEn (c : Cmd) : Bool := bitAt (cw c 5) 24
/-- The fill token. -/
def pfFillTok (c : Cmd) : Nat := cf c 5 32 8
/-- The fill token is enabled. -/
def pfFillEn (c : Cmd) : Bool := bitAt (cw c 5) 40

/-- Entry `i` of the schedule as Goose read it: 16 bytes. -/
def pfEntry (c : Cmd) (i : Nat) : Nat := bits (cRead c ((pfSched c + 16 * i) / 64)) (128 * (i % 4)) 128

/-- The own fields of a PREFETCH (R427, R428). -/
def prefetchFieldsOk (c : Cmd) : Bool :=
  cZero c 4 42 6 && groupOk (mvGroup c) && pfAhead c ≤ 8 && cZero c 4 60 4 && 1 ≤ pfCount c && pfCount c ≤ 4096
    && cZero c 5 25 7 && cZero c 5 41 7 && cZero c 5 56 8 && cZero c 6 32 32 && cw c 7 == 0
    && (!pfRelEn c || pfRelTok c ≤ 63) && (!pfFillEn c || pfFillTok c ≤ 63)

/-- A MOVE with all origins zero that stands for an entry of a schedule (R428, R429). -/
def pfMove (c : Cmd) (i : Nat) : Cmd :=
  { c with words := (c.words.take 4) ++ [bits (pfEntry c i) 0 42, bits (pfEntry c i) 64 42, 0, 0] }

/-- R428: one entry of a schedule passes its checks. -/
def pfEntryOk (s : State) (t : Nat) (c : Cmd) (i : Nat) : Bool :=
  let m := pfMove c i
  bits (pfEntry c i) 42 22 == 0 && bits (pfEntry c i) 106 22 == 0 && moveDescsOk s t m
    && spanIn s t inLpddr (boxSpan (mvSrc m) (fullBox (mvSrc m))) && spanIn s t inUpper (boxSpan (mvDst m) (fullBox (mvDst m)))
    && (mvSrc m).exts == (mvDst m).exts

/-- The checks of a PREFETCH on what it names (R428). -/
def prefetchDescsOk (s : State) (t : Nat) (c : Cmd) : Bool := (List.range (pfCount c)).all (pfEntryOk s t c)

/-- The Drake group of a number. -/
def drake (s : State) (g : Nat) : DrakeGrp := tabGet {} s.drakes g

/-- The state with a Drake group changed. -/
def modDrake (s : State) (g : Nat) (f : DrakeGrp → DrakeGrp) : State := { s with drakes := tabMod {} s.drakes g f }

/-- A run is that of a job. -/
def runIs (j : Job) (r : PfRun) : Bool := r.tenant == j.tenant && r.stream == j.stream && r.count == j.cmd.count && decide (r.iter = j.iter)

/-- The running PREFETCH of a job. -/
def pfRun (s : State) (g : Nat) (j : Job) : Option PfRun := (drake s g).runs.find? (runIs j)

/-- The state with a running PREFETCH changed. -/
def modRun (s : State) (g : Nat) (j : Job) (f : PfRun → PfRun) : State :=
  modDrake s g (fun d => { d with runs := d.runs.map (fun r => if runIs j r then f r else r) })

/-- R429: a PREFETCH starts to run. -/
def doPrefetch (s : State) (g idx : Nat) : State :=
  match drakeJob s g idx 0x43 with
  | some j =>
    if !unitRuns s .drake g || (pfRun s g j).isSome then s
    else modJob (modDrake s g (fun d => { d with runs := d.runs ++ [{ tenant := j.tenant, stream := j.stream, count := j.cmd.count, iter := j.iter }] }))
      j (fun k => { k with started := true })
  | none => s

/-- Staging blocks free in a group (R432). -/
def stageFree (d : DrakeGrp) : List Nat := (List.range 128).filter (fun b => !d.busy.contains b)

/-- Staging blocks a tenant holds in a group. -/
def stageHeld (d : DrakeGrp) (t : Nat) : Nat := (d.busy.filter (fun b => tabGet 512 d.owner b == t)).length

/-- The bytes of an entry's source data. -/
def pfBytes (d : TDesc) : Nat := ceilDiv (extCount d.exts * fmtBits (dFmt d)) 8

/-- R430, R432: an entry is read ahead of its commit into free staging blocks within the tenant's quota; a block of another tenant is
zeroed first. DRAKE.PERF4 counts the bytes. [DEDUCED, log 40] -/
def doRunahead (s : State) (g idx e : Nat) : State :=
  match drakeJob s g idx 0x43 with
  | some j =>
    match pfRun s g j with
    | some r =>
      let d := drake s g
      let m := pfMove j.cmd e
      let need := ceilDiv (pfBytes (mvSrc m)) 65536
      let blocks := (stageFree d).take need
      let s1 := readSpans s j.tenant (copySpans (mvSrc m) (fullBox (mvSrc m)))
      let rs := (extIdx (mvSrc m)).map (fun i => readMove s1 j.tenant (mvSrc m) i)
      if !unitRuns s .drake g || e < r.committed || r.committed + pfAhead j.cmd < e || pfCount j.cmd ≤ e || (tabFind r.staged e).isSome
          || blocks.length < need || (ten s j.tenant).qStage < stageHeld d j.tenant + need || !rs.all (·.reach) then s
      else
        let other := blocks.any (fun b => tabGet 512 d.owner b != 512 && tabGet 512 d.owner b != j.tenant)
        let s := if other then raiseEvent s1 .drake g 5 else s1
        let s := modDrake s g (fun d => { d with
          busy := d.busy ++ blocks, owner := blocks.foldl (fun o b => tabSet o b j.tenant) d.owner })
        let s := modRun s g j (fun r => { r with
          staged := tabSet r.staged e { vals := rs.map (·.bits), bad := rs.map (·.badBits), blocks := blocks } })
        perfAdd s .drake g 4 (pfBytes (mvSrc m))
    | none => s
  | none => s

/-- R429: the release of entry `i`. -/
def pfReleased (s : State) (t : Nat) (c : Cmd) (i : Nat) : Bool :=
  !pfRelEn c || reached s t (pfRelTok c) (BitVec.ofNat 32 (cf c 6 0 32 + i * cf c 5 48 8))

/-- The staged entries of a run are given up; DRAKE.PERF5 counts the bytes, EVENT.pf_cancel is raised where there were any (R433). -/
def dropStaged (s : State) (g : Nat) (r : PfRun) : State :=
  if r.staged.isEmpty then s
  else
    let held := r.staged.flatMap (fun e => e.2.blocks)
    let s := modDrake s g (fun d => { d with busy := d.busy.filter (fun b => !held.contains b) })
    perfAdd (raiseEvent s .drake g 4) .drake g 5 (held.length * 65536)

/-- R433: the entries that did not commit still signal fill_tok, with its error bit. [DEDUCED, log 39] -/
def fillRest (s : State) (t : Nat) (c : Cmd) (committed : Nat) : State :=
  if pfFillEn c && committed < pfCount c then tokenErr (tokenAdd s t (pfFillTok c) (pfCount c - committed)) t (pfFillTok c) else s

/-- A run is taken off its group. -/
def endRun (s : State) (g : Nat) (j : Job) : State := modDrake s g (fun d => { d with runs := d.runs.filter (fun r => !runIs j r) })

/-- What the commit of a run's next entry reads, and the state as the read leaves it: from staging where it was read ahead (R430). -/
def commitRead (s : State) (j : Job) (r : PfRun) : State × List (List Nat × Read1) :=
  let m := pfMove j.cmd r.committed
  match tabFind r.staged r.committed with
  | some e =>
    (s, ((extIdx (mvDst m)).zip (e.vals.zip e.bad)).map (fun x => (x.1, { bits := x.2.1, bad := !x.2.2.isEmpty, badBits := x.2.2 })))
  | none =>
    let s1 := readSpans s j.tenant (copySpans (mvSrc m) (fullBox (mvSrc m)))
    (s1, (extIdx (mvDst m)).map (fun k => (k, readMove s1 j.tenant (mvSrc m) k)))

/-- R429: what writing that entry's slot, as a MOVE, did. -/
def commitWrote (s : State) (j : Job) (r : PfRun) : Copied :=
  let rd := commitRead s j r
  let rs := reachable rd.2
  copyOut rd.1 j.tenant none (mvDst (pfMove j.cmd r.committed)) rs (decide (rs.length < rd.2.length)) (fun _ r _ => (r.bits, Fl.none))

/-- R429: the next entry commits: its slot is written as a MOVE, from staging where it was read ahead, fill_tok is signalled; the last
commit ends the command, and an entry that meets TARGET_GONE ends it with R433. [DEDUCED, log 40] -/
def doCommit (s : State) (g idx : Nat) : State :=
  match drakeJob s g idx 0x43 with
  | some j =>
    match pfRun s g j with
    | some r =>
      let i := r.committed
      if !unitRuns s .drake g || !pfReleased s j.tenant j.cmd i || pfCount j.cmd ≤ i then s
      else
        let rd := (commitRead s j r).2
        let w := commitWrote s j r
        let blocks := match tabFind r.staged i with
          | some e => e.blocks
          | none => []
        let s1 := modDrake (if w.cut then w.st else readMissed w.st j.tenant (rd.map (·.2))) g (fun d => { d with
          busy := d.busy.filter (fun b => !blocks.contains b) })
        let s1 := if w.fl.poison then raiseEvent s1 .drake g 0 else s1
        if w.gone then
          let s1 := dropStaged (raiseEvent s1 .drake g 1) g { r with staged := tabDel r.staged i }
          let s1 := endRun (fillRest s1 j.tenant j.cmd i) g j
          markReady (finishJob s s1 j (failResult 0x22 { poison := r.poison || w.fl.poison } 0)) j.tenant
        else
          let s1 := if pfFillEn j.cmd then tokenAdd s1 j.tenant (pfFillTok j.cmd) 1 else s1
          let bad := r.poison || w.fl.poison
          let s1 := if i + 1 = pfCount j.cmd then
              finishJob s (perfAdd (endRun s1 g j) .drake g 0 1) j (ranResult { poison := bad } 0)
            else modRun s1 g j (fun r => { r with committed := i + 1, staged := tabDel r.staged i, poison := bad })
          markReady s1 j.tenant
    | none => s
  | none => s

/-- R394: a command that waits only on the token a PREFETCH will signal promotes its remaining traffic, and is deferred with cause
bandwidth from now. DRAKE.PERF6 counts the entries promoted. -/
def doPromote (s : State) (g idx : Nat) : State :=
  match drakeJob s g idx 0x43 with
  | some j =>
    match pfRun s g j with
    | some r =>
      let waits := (List.range 8).filter (fun st =>
        let x := stream s j.tenant st
        frontLive s j.tenant st && x.skip == 0 && (match front x with
          | some (c, it) => !badAtFront s j.tenant c && cStep c == (ten s j.tenant).step.toNat
              && (tokenWaits s j.tenant c it).any (fun w => w.1 == pfFillTok j.cmd && !w.2)
              && (tokenWaits s j.tenant c it).all (fun w => w.1 == pfFillTok j.cmd || w.2)
              && !stopHolds (ten s j.tenant) st c && orderOk s j.tenant st c && loopBodyOk x c
          | none => false))
      if !pfFillEn j.cmd || waits.isEmpty then s
      else
        let s := if r.promoted then s else perfAdd (modRun s g j (fun r => { r with promoted := true })) .drake g 6 (pfCount j.cmd - r.committed)
        waits.foldl (fun x st => passOver x j.tenant st x.gclk 4 0) s
    | none => s
  | none => s

/-! The steps of this chapter. -/

/-- PREFETCH (R429). -/
def execPrefetch (group idx : Nat) (s : State) : Host.Outcome State Fault Refusal := .next (whenLive s (doPrefetch s group idx))

/-- PREFETCH_PROMOTE (R394). -/
def execPrefetchPromote (group idx : Nat) (s : State) : Host.Outcome State Fault Refusal := .next (whenLive s (doPromote s group idx))

end Sys2Proof.Machine
end

