-- ==== Sys2Proof/Machine/Ox.lean ====
section
/-! DEFINITION. Ox arrays: MM, MM_SPLIT, LOAD_STAT and Steer mode (chapters 4 and 5). -/

namespace Sys2Proof.Machine

/-- The array of a number. -/
def ox (s : State) (a : Nat) : OxArr := tabGet {} s.oxs a

/-- The state with an array changed. -/
def modOx (s : State) (a : Nat) (f : OxArr → OxArr) : State := { s with oxs := tabMod {} s.oxs a f }

/-! Fields of Tables 4.7, 4.8 and 5.1. -/

/-- A's descriptor. -/
def mmA (c : Cmd) : TDesc := cDesc c (cf c 4 0 42)
/-- B's descriptor. -/
def mmB (c : Cmd) : TDesc := cDesc c (cf c 5 0 42)
/-- C's descriptor. -/
def mmC (c : Cmd) : TDesc := cDesc c (cf c 6 0 42)
/-- The array field of MM, MM_SPLIT and LOAD_STAT. -/
def mmArray (c : Cmd) : Nat := cf c 4 48 8
/-- B comes from the tile held by LOAD_STAT. -/
def mmBsrc (c : Cmd) : Bool := bitAt (cw c 4) 58
/-- C is read as the initial accumulator. -/
def mmAccum (c : Cmd) : Bool := bitAt (cw c 4) 59
/-- The rounding field. -/
def mmRnd (c : Cmd) : Nat := cf c 4 60 2
/-- The slice count of an MM_SPLIT. -/
def mmSlices (c : Cmd) : Nat := cf c 7 0 4
/-- The product's K. -/
def mmK (c : Cmd) : Nat := dExt (mmA c) 0
/-- The product's M. -/
def mmM (c : Cmd) : Nat := dExt (mmA c) 1
/-- The product's N. -/
def mmN (c : Cmd) : Nat := dExt (mmB c) 0
/-- The b_desc of a LOAD_STAT. -/
def lsB (c : Cmd) : TDesc := cDesc c (cf c 4 0 42)
/-- Quad packing of a LOAD_STAT. -/
def lsQuad (c : Cmd) : Bool := bitAt (cw c 4) 56

/-- A value that a selector of 24 units and two dies may take (R162, R210). -/
def selOk (x : Nat) : Bool := x < 24 || x == 0x40 || x == 0x41

/-- The die that a selector value names. -/
def selDie (x : Nat) : Nat := if x < 24 then (if x < 12 then 0 else 1) else x - 0x40

/-- An FP4 or INT4 operand. -/
def isQuad (d : TDesc) : Bool := dFmt d == .e2m1 || dFmt d == .int4

/-- The fold of an MM (R144): the code of the detail field. -/
def mmFold (c : Cmd) : Nat :=
  let f := cf c 4 56 2
  if f != 0 then f else if mmM c ≤ 128 then 3 else if mmM c ≤ 512 then 2 else 1

/-- The own fields of an MM. -/
def mmFieldsOk (c : Cmd) : Bool :=
  cZero c 4 42 6 && selOk (mmArray c) && mmRnd c ≤ 2 && cZero c 4 62 2 && cZero c 5 42 6 && cZero c 6 42 22 && cw c 7 == 0
    && !(mmBsrc c && 24 ≤ mmArray c)

/-- The own fields of an MM_SPLIT (R189 to R191). -/
def splitFieldsOk (c : Cmd) : Bool :=
  cZero c 4 42 6 && selOk (mmArray c) && mmRnd c ≤ 2 && cZero c 4 62 2 && cZero c 5 42 6 && cZero c 6 42 22 && cZero c 7 4 60
    && 3 ≤ mmSlices c && mmSlices c ≤ 9 && !mmBsrc c

/-- The own fields of a LOAD_STAT. -/
def loadStatFieldsOk (c : Cmd) : Bool :=
  cZero c 4 42 6 && mmArray c < 24 && cZero c 4 57 7 && cw c 5 == 0 && cw c 6 == 0 && cw c 7 == 0

/-- R135: the extents of the three operands agree and lie between 1 and 65,536. -/
def mmExtsOk (c : Cmd) : Bool :=
  let flat := fun (d : TDesc) => (List.range 4).all (fun i => dExt d (i + 2) == 1)
  flat (mmA c) && flat (mmB c) && flat (mmC c) && dExt (mmB c) 1 == mmK c && dExt (mmC c) 0 == mmN c && dExt (mmC c) 1 == mmM c
    && mmM c ≤ 65536 && mmN c ≤ 65536 && mmK c ≤ 65536

/-- R164, R212: an operand's spans, elements and scales, lie in the scratchpad of a die. [DEDUCED, log 32] -/
def onDie (s : State) (t die : Nat) (d : TDesc) (red free : Nat) : Bool :=
  spanIn s t (fun a => spadOf a == some (die, 0)) (boxSpan d (fullBox d))
    && (dSfmt d == 0 || spanIn s t (fun a => spadOf a == some (die, 0)) (scaleSpan d red free (fullBox d)))

/-- R164: the accumulator type of an MM is INT32. -/
def mmInt (c : Cmd) : Bool :=
  !fmtFloat (dFmt (mmA c)) && !fmtFloat (dFmt (mmB c)) && dSfmt (mmA c) == 0 && dSfmt (mmB c) == 0

/-- R164: the mapping, placement and overlap of the three operands. -/
def mmRangesOk (s : State) (t : Nat) (c : Cmd) : Bool :=
  let a := mmA c
  let b := mmB c
  let d := mmC c
  let die := selDie (mmArray c)
  let cs := boxSpan d (fullBox d)
  tensorMapped s t a 0 1 (fullBox a) false && tensorMapped s t b 1 0 (fullBox b) false && tensorMapped s t d 0 1 (fullBox d) true
    && onDie s t die a 0 1 && onDie s t die b 1 0 && onDie s t die d 0 1
    && !spansMeet cs (boxSpan a (fullBox a)) && !spansMeet cs (boxSpan b (fullBox b))

/-- R164: the checks of an MM on what it names. -/
def mmDescsOk (s : State) (t : Nat) (c : Cmd) : Bool :=
  let a := mmA c
  let b := mmB c
  let d := mmC c
  descOk a && descOk b && descOk d && a.fmt ≤ 0x0A && b.fmt ≤ 0x0A && (d.fmt ≤ 0x0B || d.fmt == 0x0D)
    && !(dSfmt d != 0 && dDir d) && mmExtsOk c
    && (!mmAccum c || (dFmt d == (if mmInt c then .int32 else .fp32) && dSfmt d == 0))
    && mmRangesOk s t c

/-- R191: the checks of an MM_SPLIT on what it names. -/
def splitDescsOk (s : State) (t : Nat) (c : Cmd) : Bool :=
  let wide := fun (d : TDesc) => descOk d && (d.fmt == 0x0B || d.fmt == 0x0C) && dSfmt d == 0
  wide (mmA c) && wide (mmB c) && wide (mmC c) && (mmRnd c == 0 || (mmC c).fmt == 0x0B) && mmExtsOk c && mmRangesOk s t c

/-- R164: the checks of a LOAD_STAT on what it names. -/
def loadStatDescsOk (s : State) (t : Nat) (c : Cmd) : Bool :=
  let b := lsB c
  descOk b && b.fmt ≤ 0x0A && (List.range 4).all (fun i => dExt b (i + 2) == 1) && dExt b 0 ≤ 512
    && dExt b 1 ≤ (if lsQuad c then 256 else 128) && (!lsQuad c || isQuad b)
    && tensorMapped s t b 1 0 (fullBox b) false && onDie s t (selDie (mmArray c)) b 1 0

/-! Operands as a pass reads them. -/

/-- An operand's element as array `a` reads it: from the scratchpad of its die (R20). -/
def readScaled (s : State) (t a : Nat) (d : TDesc) (red free : Nat) (idx : List Nat) : Read1 := readOn s t (some (blkDie .ox a)) d red free idx

/-- An element of a held tile, as the load read it (R166). -/
def readHeld (h : HeldTile) (n k : Nat) : Read1 :=
  let d := tdesc h.desc
  let i := n + dExt d 0 * k
  let v := fmtDecode (dFmt d) (h.vals.getD i 0)
  let w := if dSfmt d = 0 then (v, Fl.none) else scaled v (scaleDecode (dSfmt d) (h.scales.getD i 0))
  { bits := h.vals.getD i 0, val := w.1, fl := w.2, bad := h.bad.getD i false }

/-- A column or row index of a product. -/
def ix2 (i j : Nat) : List Nat := [i, j, 0, 0, 0, 0]

/-- A tile of the output: its first column and row and its width and height (R137, R197). -/
structure MTile where
  n0 : Nat
  nw : Nat
  m0 : Nat
  mh : Nat

/-- The (N-tile, M-chunk) pairs in the order of the passes, with 512 columns and `chunk` rows. -/
def mmTiles (m n chunk : Nat) : List MTile :=
  (List.range (ceilDiv n 512)).flatMap (fun i => (List.range (ceilDiv m chunk)).map (fun j =>
    { n0 := 512 * i, nw := min 512 (n - 512 * i), m0 := chunk * j, mh := min chunk (m - chunk * j) }))

/-- The elements of a tile as (column, row). -/
def tileElems (x : MTile) : List (Nat × Nat) := (natsFrom x.m0 x.mh).flatMap (fun m => (natsFrom x.n0 x.nw).map (fun n => (n, m)))

/-- A pass of a product (R137): its tile and its place among the tile's passes. -/
structure MPass where
  x : MTile
  i : Nat

/-- The passes of a product in order, `per` to a tile. -/
def passesOf (tiles : List MTile) (per : Nat) : List MPass := tiles.flatMap (fun x => (List.range per).map (fun i => ⟨x, i⟩))

/-- The first span of what a pass reads of A and B over some `k`s, and of the old C where `old` is given, that cannot be accessed (R172). -/
def passMiss (ks : List Nat) (a b : Nat → Nat → Read1) (old : Option (Nat → Nat → Read1)) (x : MTile) : Option (Nat × Nat) :=
  (ks.findSome? (fun k => ((natsFrom x.m0 x.mh).findSome? (fun m => (a k m).miss)) <|> ((natsFrom x.n0 x.nw).findSome? (fun n => (b n k).miss))))
    <|> old.bind (fun c => (tileElems x).findSome? (fun e => (c e.1 e.2).miss))

/-- How many passes run before the first that cannot read, and the span that it misses. -/
def passRun (miss : MPass → Option (Nat × Nat)) (ps : List MPass) : Nat × Option (Nat × Nat) :=
  ((ps.takeWhile (fun p => (miss p).isNone)).length, ps.findSome? miss)

/-- The tiles that have begun after `np` passes of `per` each, with the passes of each that ran. -/
def tilesRun (tiles : List MTile) (per np : Nat) : List (MTile × Nat) :=
  ((tiles.zip (List.range tiles.length)).map (fun x => (x.1, min per (np - per * x.2)))).filter (fun x => x.2 != 0)

/-! The accumulators (R138 to R140). An accumulator value is held as 32 bits, FP32 or INT32. -/

/-- R138: a product brought into the accumulator type. -/
def accProd (int ovf : Bool) (a b : Read1) : Nat × Fl :=
  let p := vMul a.val b.val
  let q := if int then narrow .int32 .rne false p.1 else narrow .fp32 .rne ovf p.1
  (q.1, flOr (flOr a.fl b.fl) (flOr p.2 (flRec q.2)))

/-- R139: an addition in the accumulator type. -/
def accAdd (int ovf : Bool) (x y : Nat) : Nat × Fl :=
  if int then iAdd true ovf 32 x y
  else
    let r := vAdd false (fDecode .fp32 x) (fDecode .fp32 y)
    let q := narrow .fp32 .rne ovf r.1
    (q.1, flOr r.2 (flRec q.2))

/-- An accumulator that may not have started, with a value added to it (R140). -/
def accStep (int ovf : Bool) (acc : Option Nat × Fl) (v : Nat × Fl) : Option Nat × Fl :=
  match acc.1 with
  | none => (some v.1, flOr acc.2 v.2)
  | some x => let r := accAdd int ovf x v.1; (some r.1, flOr acc.2 (flOr v.2 r.2))

/-- R140: the accumulator value of one element of C: column sums of Kt rows, each added to the accumulator. -/
def mmElem (int ovf : Bool) (kt k : Nat) (old : Option (Nat × Fl)) (a b : Nat → Read1) : Nat × Fl :=
  let start : Option Nat × Fl := match old with
    | some o => (some o.1, o.2)
    | none => (none, Fl.none)
  let r := (List.range (ceilDiv k kt)).foldl (fun acc t =>
    let col := (natsFrom (t * kt) (min kt (k - t * kt))).foldl (fun x j => accStep int ovf x (accProd int ovf (a j) (b j))) (none, Fl.none)
    accStep int ovf acc (col.1.getD 0, col.2)) start
  (r.1.getD 0, r.2)

/-- R142: the value of an accumulator. -/
def accVal (int : Bool) (x : Nat) : Val := if int then vInt (sgn 32 x) else fDecode .fp32 x

/-- R141, R142: an accumulator narrowed into C, with the block's scale exponent. -/
def mmNarrow (int : Bool) (d : TDesc) (rnd : Rnd) (ovf : Bool) (x : Nat) (e : Int) : Nat × Fl :=
  let q := narrowFrom int (dFmt d) rnd ovf (vScale (-e) (accVal int x))
  (q.1, flRec q.2)

/-! The banks and the accumulator sets (4.1, 4.6, 5.6). -/

/-- What a bank holds for tile row `k` and column `n`: the tile's element, zero outside it (R158). -/
def bankEl (b : OxBank) (k n : Nat) : Nat := if k < b.depth && n < b.width then b.vals.getD (k * b.width + n) 0 else 0

/-- R130: what cell (r, n) of a bank holds: tile row r, or in the quad class tile rows 2r and 2r + 1. -/
def bankCell (b : OxBank) (r n : Nat) : List Nat := if b.quad then [bankEl b (2 * r) n, bankEl b (2 * r + 1) n] else [bankEl b r n]

/-- A bank as a load writes it, `el n k` being the tile's elements. -/
def bankOf (quad : Bool) (depth width : Nat) (el : Nat → Nat → Nat) : OxBank :=
  { quad := quad, depth := depth, width := width, vals := (List.range depth).flatMap (fun k => (List.range width).map (fun n => el n k)) }

/-- An array with a bank loaded. -/
def putBank (x : OxArr) (b : Nat) (v : OxBank) : OxArr := if b = 0 then { x with bank0 := v } else { x with bank1 := v }

/-- Rows of entries written into an accumulator set; entries past a row's end keep their values (R147, R148). -/
def putRows (set : Tab (List Nat)) (rows : List (List Nat)) : Tab (List Nat) :=
  (rows.zip (List.range rows.length)).foldl (fun t r => tabMod [] t r.2 (fun o => r.1 ++ o.drop r.1.length)) set

/-- An array with rows written into an accumulator set. -/
def putAcc (x : OxArr) (k : Nat) (rows : List (List Nat)) : OxArr :=
  if k = 0 then { x with acc0 := putRows x.acc0 rows } else { x with acc1 := putRows x.acc1 rows }

/-- An array with an accumulator set zeroed; 2 stands for the two integer sets and the recombination set of split mode (R206). -/
def zeroAcc (x : OxArr) (k : Nat) : OxArr :=
  match k with
  | 0 => { x with acc0 := [] }
  | 1 => { x with acc1 := [] }
  | _ => { x with acc0 := [], acc1 := [], recomb := [] }

/-- R167: an array's held tile after a command's passes: used (PERF4) or discarded (PERF5). [DEDUCED, log 30] -/
def dropHeld (s : State) (a : Nat) (used : Bool) : State :=
  match (ox s a).held with
  | some _ => perfAdd (modOx s a (fun x => { x with held := none })) .ox a (if used then 4 else 5) 1
  | none => s

/-- R173, R185: the banks and the accumulator and recombination sets zeroed (R209), the bank alternation at bank 0, no tile held. -/
def oxZero (s : State) (a : Nat) : State :=
  modOx (dropHeld s a false) a (fun x =>
    { x with bank := 0, bank0 := {}, bank1 := {}, acc0 := [], acc1 := [], accNext := 0, recomb := [], accUse := [], owing := [] })

/-- R175, R209: before a pass or a load for tenant `t`, an array zeroes both banks and the set that each other tenant whose reset still
owes it used last. A tile in a bank goes with the bank. [DESIGN CHOICE, log 31] -/
def oxOwed (s : State) (a t : Nat) : State :=
  let due := (ox s a).owing.filter (· != t)
  if due.isEmpty then s
  else modOx (dropHeld s a false) a (fun x =>
    due.foldl (fun y o => match tabFind y.accUse o with
      | some k => { zeroAcc y k with accUse := tabDel y.accUse o }
      | none => y) { x with bank0 := {}, bank1 := {}, owing := x.owing.filter (· == t) })

/-- R175: after a tenant reset, arrays discard tiles held for the tenant, and owe the zeroing of what it used. -/
def oxTenant (s : State) (t : Nat) : State :=
  (s.oxs.map (·.1)).foldl (fun y a =>
    let held := ((ox y a).held.map (·.tenant)) == some t
    let y := if held then dropHeld y a false else y
    if held || (tabFind (ox y a).accUse t).isSome then modOx y a (fun x => { x with owing := insNat t x.owing }) else y) s

/-- An array begins a load for a tenant: what it owes is zeroed, and a start from idle is counted (PERF7): no command waited when its last
one ended. [DESIGN CHOICE, log 31] -/
def oxStart (s : State) (a t : Nat) : State :=
  let s := oxOwed s a t
  if (ox s a).active then s else perfAdd s .ox a 7 1

/-- An array ends a command: it stays active where another waits. -/
def oxStop (s : State) (a : Nat) : State :=
  modOx s a (fun x => { x with active := s.jobs.any (fun j => decide (j.unit = .ox a) && j.result.isNone) })

/-! Ends of commands. -/

/-- The parity error of a pass logged and answered (R170): the log, the event, an error of class 4, FAULT. [DESIGN CHOICE, log 31] -/
def oxParity (s : State) (a : Nat) (p : BankParity) (tenant : Nat) : State :=
  let s := modOx s a (fun x => if x.logValid then x else { x with logCol := p.col, logRow := p.row, logBank := p.bank, logValid := true })
  enterFault (failJobs (raiseEvent s .ox a 0) (.ox a) .ox a 5) .ox a tenant

/-- What an MM or MM_SPLIT ran: the outcomes of the elements of its whole tiles, those of a tile that it stopped in, whether an operation
within the array overflowed, passes, rows streamed, rows narrowed by the edge stage, the span that a pass could not read, whether an
operand word was poisoned. -/
structure MmRun where
  rs : List (List Nat × Read1)
  part : List Read1 := []
  sat : Bool
  passes : Nat
  rows : Nat
  edge : Nat
  miss : Option (Nat × Nat)
  pin : Bool

/-- An MM or MM_SPLIT when its passes have run: the states before (`sE`) and after (`s1`) its reads and as the passes leave the array
(`s`), what it ran, `conv`, which narrows an element and gives the flags of the narrowing, a parity error that a pass met, the passes of
the whole product, and the spans that it reads. -/
structure MmWork where
  sE : State
  s1 : State
  s : State
  run : MmRun
  conv : List Nat → Read1 → Int → Nat × Fl
  met : Option BankParity
  total : Nat
  spans : List (Option (Nat × Nat))

/-- What writing C did: the elements of the whole tiles, in the order of the passes (R169, R172). -/
def mmWrote (k : MmWork) (a : Nat) (j : Job) : Copied :=
  copyOut k.s j.tenant (some (blkDie .ox a)) (mmC j.cmd) k.run.rs k.run.miss.isSome k.conv

/-- The flags of an MM or MM_SPLIT (R169). [DEDUCED, log 29] -/
def mmFl (k : MmWork) (a : Nat) (j : Job) : Fl :=
  flOr (mmWrote k a j).fl (flAll (k.run.rs.map (fun (x : List Nat × Read1) => x.2.fl) ++ k.run.part.map (·.fl)))

/-- The detail field of an MM or MM_SPLIT (R169): its pass count keeps its low 24 bits. [DEDUCED, log 25] -/
def mmDetail (k : MmWork) (j : Job) : Nat := mmFold j.cmd + 256 * k.total

/-- An MM or MM_SPLIT ends: C is written, events and counts are raised, the result is left (R169 to R172). [DEDUCED, log 29] -/
def mmEnd (s0 : State) (a : Nat) (j : Job) (k : MmWork) : State :=
  let r := k.run
  let w := mmWrote k a j
  let st := match r.miss with
    | some p => if w.cut then w.st else missAt w.st j.tenant p.1 p.2 false
    | none => w.st
  let s := withdrawNew k.sE k.s1 st
  let s := perfAdd (perfAdd (perfAdd s .ox a 0 r.passes) .ox a 1 r.rows) .pony a 5 r.edge
  let s := if w.fl.sat then raiseEvent s .pony a 6 else s
  let fl := mmFl k a j
  let s := if r.pin then raiseEvent s .ox a 1 else s
  let s := if fl.poison then perfAdd s .ox a 6 (b2n (!w.gone)) else s
  let s := if r.sat then raiseEvent s .ox a 2 else s
  let s := if w.gone then raiseEvent s .ox a 5 else s
  let s := if fl.poison || w.gone then noteWithdrawn s j.tenant (cStep j.cmd) (k.spans ++ [boxSpan (mmC j.cmd) (fullBox (mmC j.cmd))]) else s
  let s := oxStop (finishJob s0 s j (if w.gone then failResult 0x22 fl (mmDetail k j) else ranResult fl (mmDetail k j))) a
  match k.met with
  | some p => oxParity s a p j.tenant
  | none => s

/-- The command that an array serves next, where it has the given opcode and the array runs. -/
def oxJob (s : State) (a op : Nat) : Option Job :=
  match nextJob s (.ox a) with
  | some j => if cOp j.cmd == op && unitRuns s .ox a then some j else none
  | none => none

/-- The spans that an MM reads. -/
def mmSpans (c : Cmd) (b : Bool) : List (Option (Nat × Nat)) :=
  let two := fun (d : TDesc) red free => [boxSpan d (fullBox d), scaleSpan d red free (fullBox d)]
  two (mmA c) 0 1 ++ (if b then two (mmB c) 1 0 else []) ++ (if mmAccum c then [boxSpan (mmC c) (fullBox (mmC c))] else [])

/-- R134: the depth of a K-tile. -/
def mmKt (c : Cmd) : Nat := if isQuad (mmA c) && isQuad (mmB c) then 256 else 128

/-- The passes of an MM (R137). -/
def mmPasses (c : Cmd) : Nat := ceilDiv (mmN c) 512 * ceilDiv (mmM c) 512 * ceilDiv (mmK c) (mmKt c)

/-- R167: the held tile that an MM with bsrc uses. [DEDUCED, log 30] -/
def heldFor (s : State) (a : Nat) (j : Job) : Option HeldTile :=
  match (ox s a).held with
  | some h =>
    if mmBsrc j.cmd && h.tenant == j.tenant && h.bdesc == cf j.cmd 5 0 42 && h.quad == (mmKt j.cmd == 256) && mmPasses j.cmd == 1 then some h
    else none
  | none => none

/-- A parity error that a pass meets (R170): the pass runs, and its multiply-accumulates read the cell. `bank` is the bank of pass 0 of an
MM; in split mode both are read and the error names one (R204). [DESIGN CHOICE, log 31] -/
def parityMet (par : Option BankParity) (c : Cmd) (np : Nat) (bank : Option Nat) (tiles : List MTile) (kt per : Nat) : Option BankParity :=
  match par with
  | none => none
  | some p =>
    let p := match bank with
      | some b => { p with bank := (b + p.pass) % 2 }
      | none => { p with bank := p.bank % 2 }
    let i := p.pass % per % ceilDiv (mmK c) kt
    let depth := min kt (mmK c - kt * i)
    let row := if bank.isNone then 2 * p.row + p.bank else if kt = 256 then 2 * p.row else p.row
    match tiles[p.pass / per]? with
    | some x => if p.pass < np && row < depth && p.col < x.nw then some p else none
    | none => none

/-- A parity error's pass and column hit an element (R170); `per` passes serve one output tile. -/
def parityHits (par : Option BankParity) (tiles : List MTile) (per : Nat) (n m : Nat) : Bool :=
  match par with
  | some p => match tiles[p.pass / per]? with
    | some x => n == x.n0 + p.col && x.m0 ≤ m && m < x.m0 + x.mh
    | none => false
  | none => false

/-- The array after the passes of an MM: the banks of the last two, the accumulator sets of the tiles that began, and the next pass's
bank and set (R154, R155, R158). -/
def mmArr (x : OxArr) (t kt k np : Nat) (quad : Bool) (ps : List MPass) (b : Nat → Nat → Read1) (accs : List (List (List Nat))) : OxArr :=
  let ran := (ps.take np).zip (List.range np)
  let x := (ran.drop (np - 2)).foldl (fun y p =>
    putBank y ((x.bank + p.2) % 2) (bankOf quad (min kt (k - kt * p.1.i)) p.1.x.nw (fun n i => (b (p.1.x.n0 + n) (kt * p.1.i + i)).bits))) x
  let y := (accs.zip (List.range accs.length)).foldl (fun y r => putAcc y ((x.accNext + r.2) % 2) r.1) x
  if np = 0 then x
  else { y with bank := (x.bank + np) % 2, accNext := (x.accNext + accs.length) % 2, accUse := tabSet x.accUse t ((x.accNext + accs.length - 1) % 2) }

/-- R140: the passes of an MM, up to the first that cannot read (R172). [DESIGN CHOICE, log 9] -/
def mmWork (s0 : State) (a : Nat) (par : Option BankParity) (errs : List MemErr) (j : Job) : MmWork :=
  let c := j.cmd
  let t := j.tenant
  let held := heldFor s0 a j
  let spans := mmSpans c held.isNone
  let sE := addErrs s0 errs
  let s := readSpans sE t spans
  let int := mmInt c
  let ovf := cOvf c
  let ra := fun k m => readScaled s t a (mmA c) 0 1 (ix2 k m)
  let rb := fun n k => match held with
    | some h => readHeld h n k
    | none => readScaled s t a (mmB c) 1 0 (ix2 n k)
  let rc := fun n m => readScaled s t a (mmC c) 0 1 (ix2 n m)
  let kt := mmKt c
  let per := ceilDiv (mmK c) kt
  let tiles := mmTiles (mmM c) (mmN c) 512
  let ps := passesOf tiles per
  let ran := passRun (fun p => passMiss (natsFrom (kt * p.i) (min kt (mmK c - kt * p.i))) ra rb (if mmAccum c && p.i == 0 then some rc else none) p.x) ps
  let met := parityMet par c ran.1 (some (ox s0 a).bank) tiles kt per
  let badIn := fun kEnd n m => (List.range kEnd).any (fun k => (ra k m).bad || (rb n k).bad) || (mmAccum c && (rc n m).bad)
  let elem := fun kEnd n m =>
    let old := if mmAccum c then some ((rc n m).bits, (rc n m).fl) else none
    let v := mmElem int ovf kt kEnd old (fun k => ra k m) (fun k => rb n k)
    ({ bits := v.1, val := accVal int v.1, fl := v.2, bad := badIn kEnd n m || parityHits met tiles per n m, oob := badIn kEnd n m } : Read1)
  let outs := (tilesRun tiles per ran.1).map (fun x => (x, (tileElems x.1).map (fun e => (ix2 e.1 e.2, elem (min (mmK c) (kt * x.2)) e.1 e.2))))
  let full := outs.filter (fun x => x.1.2 == per)
  let every := outs.flatMap (fun x => x.2.map (·.2))
  let s1 := if ran.1 = 0 then s else dropHeld (oxStart s a t) a held.isSome
  let s1 := modOx s1 a (fun x => mmArr x t kt (mmK c) ran.1 (kt == 256) ps rb
    (outs.map (fun o => piecesOf o.1.1.nw o.1.1.mh (o.2.map (·.2.bits)))))
  { sE := sE, s1 := s, s := s1, met := met, total := mmPasses c, spans := spans
    run := {
      rs := full.flatMap (·.2), part := (outs.filter (fun x => x.1.2 != per)).flatMap (fun x => x.2.map (·.2)),
      sat := every.any (fun r => r.fl.sat), passes := ran.1, rows := sumOf ((ps.take ran.1).map (·.x.mh)),
      edge := sumOf (full.map (fun x => x.1.1.mh)), miss := ran.2, pin := every.any (·.oob) }
    conv := fun idx r e =>
      mmNarrow int (mmC c) (rndOf s t (mmRnd c) (cf c 5 48 16) (cStep c) (mmC c).tau (lin (mmC c).exts idx)) ovf r.bits e }

/-- R140: MM. -/
def doMm (s0 : State) (a : Nat) (par : Option BankParity) (errs : List MemErr) : State :=
  match oxJob s0 a 0x10 with
  | none => s0
  | some j => mmEnd s0 a j (mmWork s0 a par errs j)

/-- The spans that a LOAD_STAT reads. -/
def lsSpans (c : Cmd) : List (Option (Nat × Nat)) := [boxSpan (lsB c) (fullBox (lsB c)), scaleSpan (lsB c) 1 0 (fullBox (lsB c))]

/-- The elements of a LOAD_STAT's tile, rows in order. -/
def lsIdx (c : Cmd) : List (List Nat) := (List.range (dExt (lsB c) 1)).flatMap (fun k => (List.range (dExt (lsB c) 0)).map (fun n => ix2 n k))

/-- The tile that a LOAD_STAT holds, as `s` reads it (R166). -/
def lsTile (s : State) (a : Nat) (j : Job) : HeldTile :=
  let c := j.cmd
  let b := lsB c
  let rs := (lsIdx c).map (readScaled s j.tenant a b 1 0)
  { tenant := j.tenant, bdesc := cf c 4 0 42, desc := cRead c (cf c 4 0 42), quad := lsQuad c, vals := rs.map (·.bits),
    scales := if dSfmt b = 0 then [] else (lsIdx c).map (fun i => (tByte s j.tenant (scaleAddr b 1 0 i)).toNat), bad := rs.map (·.bad) }

/-- R166: LOAD_STAT loads a tile into the bank of the next pass and holds it. [DEDUCED, log 30] -/
def doLoadStat (s0 : State) (a : Nat) : State :=
  match oxJob s0 a 0x12 with
  | none => s0
  | some j =>
    let c := j.cmd
    let b := lsB c
    let spans := lsSpans c
    let s := readSpans s0 j.tenant spans
    match (lsIdx c).findSome? (fun i => (readScaled s j.tenant a b 1 0 i).miss) with
    | none =>
      let s1 := modOx (dropHeld (oxStart s a j.tenant) a false) a (fun x => { putBank x x.bank (bankOf (lsQuad c) (dExt b 1) (dExt b 0)
          (fun n k => (readScaled s j.tenant a b 1 0 (ix2 n k)).bits)) with
        held := some (lsTile s a j) })
      oxStop (finishJob s0 (withdrawNew s0 s s1) j { status := 0 }) a
    | some p =>
      let s1 := withdrawNew s0 s (missAt (dropHeld s a false) j.tenant p.1 p.2 false)
      oxStop (finishJob s0 (noteWithdrawn (raiseEvent s1 .ox a 5) j.tenant (cStep c) spans) j (failResult 0x22 {} 0)) a

/-! MM_SPLIT (chapter 5). -/

/-- The integer part, toward zero, of a finite value times 2^k; zero for the rest. -/
def truncAt (k : Int) : Val → Int
  | .fin n m e _ =>
    let q : Nat := if 0 ≤ e + k then m <<< (e + k).toNat else m >>> (-(e + k)).toNat
    if n then -(q : Int) else q
  | _ => 0

/-- R192: the exponent of a row or column. -/
def splitExp (vs : List Read1) : Int :=
  let mx := vs.foldl (fun (acc : Val) r => match r.val with
    | .fin _ m e st => if r.bad then acc else if vLt acc (.fin false m e st) then .fin false m e st else acc
    | _ => acc) vZero
  if vIsZero mx then 0 else vLog2 mx + 1

/-- R193: slice `i` of a value scaled by 2^-ex; zero for what is not finite or is poisoned (R194). -/
def splitSlice (ex : Int) (r : Read1) (i : Nat) : Int :=
  if r.bad then 0 else truncAt (7 * i - ex) r.val - 128 * truncAt (7 * (i - 1 : Nat) - ex) r.val

/-- A row or column ready for its products: its exponent, whether it holds a NaN or an infinity, its slices 1 to s. -/
structure SplitVec where
  ex : Int
  special : Bool
  slices : List (List Int)
  bad : Bool

/-- R192 to R194 for a row or column. -/
def splitVec (sl : Nat) (vs : List Read1) : SplitVec :=
  let ex := splitExp vs
  { ex := ex, special := vs.any (fun r => !r.bad && (vIsNaN r.val || vIsInf r.val)), bad := vs.any (·.bad),
    slices := (List.range sl).map (fun i => vs.map (fun r => splitSlice ex r (i + 1))) }

/-- R198: the exact sum of a pair's products over the first `kEnd` of K. -/
def splitSum (x y : SplitVec) (kEnd i j : Nat) : Int :=
  (((x.slices.getD (i - 1) []).zip (y.slices.getD (j - 1) [])).take kEnd).foldl (fun acc p => acc + p.1 * p.2) 0

/-- R196: the pairs in pair order. -/
def splitPairs (sl : Nat) : List (Nat × Nat) :=
  (List.range sl).flatMap (fun d => (List.range (sl - d)).map (fun i => (i + 1, sl - d - i)))

/-- R199: the recombination of some pairs' sums. -/
def splitRecomb (k : Nat) (x y : SplitVec) (ps : List (Nat × Nat)) : Option Val :=
  ps.foldl (fun (acc : Option Val) p =>
    let t := vScale (-(7 * (p.1 + p.2 : Nat) : Int)) (vInt (splitSum x y k p.1 p.2))
    match acc with
    | none => some t
    | some v => some (fDecode .fp64 (narrow .fp64 .rne true (vAdd false v t).1).1)) none

/-- R199: one element before its narrowing: the recombination, scaled back, with C added under accum. -/
def splitElem (sl k : Nat) (x y : SplitVec) (old : Option Val) : Val × Fl :=
  let v := vScale (x.ex + y.ex) ((splitRecomb k x y (splitPairs sl)).getD vZero)
  match old with
  | none => (v, Fl.none)
  | some o => let q := vAdd false v o; (q.1, { nan := vIsNaN o })

/-- The pairs of s slices. -/
def splitP (sl : Nat) : Nat := sl * (sl + 1) / 2

/-- The passes of an MM_SPLIT (R197). -/
def splitPasses (c : Cmd) : Nat := ceilDiv (mmN c) 512 * ceilDiv (mmM c) 256 * splitP (mmSlices c) * ceilDiv (mmK c) 256

/-- A tile of an MM_SPLIT ready for its passes: the rows of A and the columns of B with their exponents and slices (R192, R208), and the
passes of it that ran. -/
structure SplitTile where
  x : MTile
  n : Nat
  rows : List (Nat × SplitVec)
  cols : List (Nat × SplitVec)

/-- The pairs of a tile that `n` passes began, `nk` passes to a pair, each with its place and the K that has entered its sums (R197). -/
def splitBegun (sl nk k n : Nat) : List (Nat × (Nat × Nat) × Nat) :=
  ((List.range (ceilDiv n nk)).zip (splitPairs sl)).map (fun p => (p.1, p.2, min k (256 * (n - nk * p.1))))

/-- The array after the passes of a tile of an MM_SPLIT: the integer sets of the last two pairs, the recombination of the pairs that
ended, and both banks as the last pass's load left them (R204 to R206). -/
def splitArr (sl nk k : Nat) (y : OxArr) (q : SplitTile) : OxArr :=
  let begun := splitBegun sl nk k q.n
  let grid := fun (f : SplitVec → SplitVec → Nat) => q.rows.map (fun r => q.cols.map (fun c => f r.2 c.2))
  let y := (begun.drop (begun.length - 2)).foldl (fun y p =>
    putAcc y (p.1 % 2) (grid (fun r c => unsgn 48 (splitSum r c p.2.2 p.2.1.1 p.2.1.2)))) y
  let ended := (begun.filter (fun p => p.2.2 == k)).map (fun p => p.2.1)
  let y := { y with recomb := putRows y.recomb (grid (fun r c => (narrow .fp64 .rne true ((splitRecomb k r c ended).getD vZero)).1)) }
  let kt := (q.n - 1) % nk
  let depth := min 256 (k - 256 * kt)
  let j := ((splitPairs sl).getD ((q.n - 1) / nk) (1, 1)).2
  let el := fun (half n r : Nat) => unsgn 8 ((((q.cols.map (fun c => c.2.slices.getD (j - 1) [])).getD n []).getD (256 * kt + 2 * r + half) 0))
  { y with bank0 := bankOf false (ceilDiv depth 2) q.x.nw (el 0), bank1 := bankOf false (depth / 2) q.x.nw (el 1) }

/-- R199: the passes of an MM_SPLIT, up to the first that cannot read: the scan of a tile reads its rows of A and columns of B before the
tile's first pass (R208), and its old C is read with its last. [DESIGN CHOICE, log 9] -/
def splitWork (s0 : State) (a : Nat) (par : Option BankParity) (errs : List MemErr) (j : Job) : MmWork :=
  let c := j.cmd
  let t := j.tenant
  let spans := mmSpans c true
  let sE := addErrs s0 errs
  let s := readSpans sE t spans
  let sl := mmSlices c
  let k := mmK c
  let ra := fun k m => readScaled s t a (mmA c) 0 1 (ix2 k m)
  let rb := fun n k => readScaled s t a (mmB c) 1 0 (ix2 n k)
  let rc := fun n m => readScaled s t a (mmC c) 0 1 (ix2 n m)
  let nk := ceilDiv k 256
  let per := splitP sl * nk
  let tiles := mmTiles (mmM c) (mmN c) 256
  let ps := passesOf tiles per
  let ran := passRun (fun p => passMiss (if p.i = 0 then List.range k else []) ra rb (if mmAccum c && p.i + 1 == per then some rc else none) p.x) ps
  let met := parityMet par c ran.1 none tiles 256 per
  let f := dFmt (mmC c)
  let begun : List SplitTile := (tilesRun tiles per ran.1).map (fun x => {
    x := x.1, n := x.2,
    rows := (natsFrom x.1.m0 x.1.mh).map (fun m => (m, splitVec sl ((List.range k).map (fun i => ra i m)))),
    cols := (natsFrom x.1.n0 x.1.nw).map (fun n => (n, splitVec sl ((List.range k).map (fun i => rb n i)))) })
  let full := begun.filter (fun q => q.n == per)
  let rs := full.flatMap (fun x => x.rows.flatMap (fun r => x.cols.map (fun q =>
      let o := rc q.1 r.1
      let v : Val × Fl := if r.2.special || q.2.special then (.nan false, { nv := true, nan := true })
        else splitElem sl k r.2 q.2 (if mmAccum c then some o.val else none)
      let pin := r.2.bad || q.2.bad || (mmAccum c && o.bad)
      (ix2 q.1 r.1, ({ val := v.1, fl := v.2, bad := pin || parityHits met tiles per q.1 r.1, oob := pin } : Read1)))))
  let s1 := if ran.1 = 0 then s else dropHeld (oxStart s a t) a false
  let s1 := modOx s1 a (fun x => if ran.1 = 0 then x else { begun.foldl (splitArr sl nk k) x with bank := 0, accUse := tabSet x.accUse t 2 })
  { sE := sE, s1 := s, s := s1, met := met, total := splitPasses c, spans := spans
    run := {
      rs := rs, sat := false, passes := ran.1, rows := sumOf ((ps.take ran.1).map (·.x.mh)),
      edge := sumOf (full.map (·.x.mh)), miss := ran.2,
      pin := rs.any (fun r => r.2.oob) || begun.any (fun q => (q.rows ++ q.cols).any (·.2.bad)) }
    conv := fun idx r _ =>
      let q := narrow f (rndOf s t (mmRnd c) (cf c 5 48 16) (cStep c) (mmC c).tau (lin (mmC c).exts idx)) (cOvf c) r.val
      (q.1, { sat := q.2.sat }) }

/-- R199: MM_SPLIT. -/
def doMmSplit (s0 : State) (a : Nat) (par : Option BankParity) (errs : List MemErr) : State :=
  match oxJob s0 a 0x11 with
  | none => s0
  | some j => mmEnd s0 a j (splitWork s0 a par errs j)

/-! Steer mode (4.10). -/

/-- R181, R753: the STEER registers take writes of the management controller only; another's sets ERR_STATUS (R752). -/
def steerBy (r : Requester) (s : State) (a off : Nat) (f : State → State) : State := regAccess s r .ox a off (decide (r = .mgmt)) f

/-- R181: an array that is OFF or FAULT enters Steer mode. [DESIGN CHOICE, log 31] -/
def doSteerEnter (s : State) (r : Requester) (a : Nat) : State :=
  steerBy r s a 0x118 (fun s =>
    let st := blkState s .ox a
    if a < 24 && (st == 0 || st == 6) && !(ox s a).steer then
      modOx s a (fun x => { x with steer := true, steerFrom := st, busy := false, ended := false, lastFail := false })
    else s)

/-- The STATE in which an array leaves Steer mode (R185): as the last test that ended says, READY only where it was not in FAULT, which
AVAIL action 3 alone leaves; where no test ended, that of its entry. An array that was fenced meanwhile stays FENCED (R739).
[DESIGN CHOICE, log 31] -/
def steerTo (x : OxArr) (st : Nat) : Nat := if st = 4 then 4 else if x.ended && x.lastFail then 6 else if x.ended && x.steerFrom != 6 then 1 else x.steerFrom

/-- R185: an array leaves Steer mode. [DESIGN CHOICE, log 31] -/
def doSteerLeave (s : State) (r : Requester) (a : Nat) : State :=
  steerBy r s a 0x118 (fun s =>
    let x := ox s a
    if a < 24 && x.steer then
      let s := setBlkState (modOx (oxZero s a) a (fun y => { y with steer := false, busy := false })) .ox a (steerTo x (blkState s .ox a))
      if x.ended && x.lastFail then raiseEvent s .mgmt 0 2 else s
    else s)

/-- The seed of a Steer test. -/
def steerSeed (s : State) (a : Nat) : Nat := regWord2 s .ox a 0x128 0

/-- The vectors of a Steer test. -/
def steerCount (s : State) (a : Nat) : Nat := bits (regWord s .ox a 0x120 0) 0 24

/-- R183: the column that the signature takes alone, as STEER_CTRL has it. -/
def steerCol (s : State) (a : Nat) : Option Nat :=
  let ctl := regWord s .ox a 0x118 0
  if bitAt ctl 2 then some (bits ctl 8 9) else none

/-- R182, R184: a Steer test starts with the seed, the count and the column as they stand, or sets ERR_STATUS with a seed or count of
zero. STEER_STAT then shows neither the end nor the outcome of the test before. [DESIGN CHOICE, log 31] -/
def doSteerGo (s : State) (r : Requester) (a : Nat) : State :=
  steerBy r s a 0x118 (fun s =>
    if steerSeed s a = 0 || steerCount s a = 0 then regError s .ox a 0x118
    else if a < 24 && (ox s a).steer && !(ox s a).busy then
      modOx s a (fun x => { x with busy := true, done := false, fail := false, tSeed := steerSeed s a, tCount := steerCount s a, tCol := steerCol s a })
    else s)

/-- R182: the next state of the pattern generator. -/
def xorshift (x : Nat) : Nat :=
  let x := Nat.xor x ((x <<< 13) % 2 ^ 64)
  let x := Nat.xor x (x >>> 7)
  Nat.xor x ((x <<< 17) % 2 ^ 64)

/-- R182: the INT8 values of `n` generator states after `x`, and the last state. -/
def steerBytes : Nat → Nat → List Int × Nat
  | 0, x => ([], x)
  | n + 1, x =>
    let y := xorshift x
    let q := steerBytes n y
    ((List.range 8).map (fun i => sgn 8 (y >>> (8 * i))) ++ q.1, q.2)

/-- R182: the columns' sums for one vector: the bank's rows of 512, and the vector. -/
def steerSums (rows : List (List Int)) (x : List Int) : List Int :=
  (rows.zip x).foldl (fun acc p => (acc.zip p.1).map (fun q => q.1 + p.2 * q.2)) (List.replicate 512 0)

/-- R182, R183: the signature after the vectors that are left. -/
def steerRun (rows : List (List Int)) (col : Option Nat) : Nat → Nat → Nat → Nat
  | 0, _, sig => sig
  | v + 1, st, sig =>
    let q := steerBytes 16 st
    let y := steerSums rows q.1
    let fed := match col with
      | some k => [y.getD k 0]
      | none => y
    steerRun rows col v q.2 ((fed.flatMap (fun i => leBytes 4 (unsgn 32 i))).foldl (crcByte 64 0x42F0E1EBA9EA3693) sig)

/-- R182, R183: the signature of a Steer test. -/
def steerSig (seed count : Nat) (col : Option Nat) : Nat :=
  let q := steerBytes 8192 seed
  steerRun (piecesOf 512 128 q.1) col count q.2 0

/-- R183: what the end of a Steer test with a signature leaves: STEER_STAT, STEER_SIG, the events. -/
def steerEnded (s : State) (a sg : Nat) : State :=
  let bad := sg != regWord2 s .ox a 0x138 0
  let s := modOx s a (fun x => { x with busy := false, done := true, fail := bad, ended := true, lastFail := bad, sig := BitVec.ofNat 64 sg })
  let s := raiseEvent s .ox a 3
  if bad then raiseEvent s .ox a 4 else s

/-- R183: a Steer test ends. -/
def doSteerTestEnd (s : State) (a : Nat) : State :=
  if !(ox s a).busy then s else steerEnded s a (steerSig (ox s a).tSeed (ox s a).tCount (ox s a).tCol)

/-- A 64-bit register written by the management firmware. -/
def setReg64 (s : State) (b : Block) (i off v : Nat) : State := setRegWord (setRegWord s b i off (v % 2 ^ 32)) b i (off + 4) (v / 2 ^ 32 % 2 ^ 32)

/-- R177, R170: the Steer test as the start-up check of an array, with the firmware's seed, count and expected signature, which is that of
R182. An array that fails gives another signature, a free value. It leaves Steer mode with banks and accumulators zeroed (R185).
[DESIGN CHOICE, log 31] -/
def steerCheck (s : State) (a : Nat) (pass : Bool) : State :=
  let seed := Config.steerTest.1 % (2 ^ 64 - 1) + 1
  let count := Config.steerTest.2 % (2 ^ 24 - 1) + 1
  let want := steerSig seed count none
  let s := setReg64 (setRegWord (setReg64 s .ox a 0x128 seed) .ox a 0x120 count) .ox a 0x138 want
  let s := setRegWord s .ox a 0x118 0
  let s := modOx s a (fun x => { x with tSeed := seed, tCount := count, tCol := none })
  let s := if pass then steerEnded s a want
    else
      let v := (Config.freeWord s.freeCount).toNat
      steerEnded { s with freeCount := s.freeCount + 1 } a (if v = want then (v + 1) % 2 ^ 64 else v)
  modOx (oxZero s a) a (fun x => { x with steer := false })

/-- R174: the Pony slice beside an array resets, and the MM or MM_SPLIT that the array runs misses it from its first row: the command
completes TARGET_GONE, and the array stays READY. [DESIGN CHOICE, log 9] -/
def edgeLost (s : State) (a : Nat) : State :=
  match nextJob s (.ox a) with
  | some j =>
    let n := if cOp j.cmd = 0x10 then mmPasses j.cmd else splitPasses j.cmd
    if unitRuns s .ox a && (cOp j.cmd = 0x10 || cOp j.cmd = 0x11) then
      finishJob s (raiseEvent s .ox a 5) j (failResult 0x22 {} (mmFold j.cmd + 256 * n))
    else s
  | none => s

/-! The steps of this chapter. -/

/-- STEER_ENTER (R181). -/
def execSteerEnter (r : Requester) (array : Nat) (s : State) : Host.Outcome State Fault Refusal := .next (whenLive s (doSteerEnter s r array))

/-- STEER_LEAVE (R185). -/
def execSteerLeave (r : Requester) (array : Nat) (s : State) : Host.Outcome State Fault Refusal := .next (whenLive s (doSteerLeave s r array))

/-- STEER_GO (R182, R184). -/
def execSteerGo (r : Requester) (array : Nat) (s : State) : Host.Outcome State Fault Refusal := .next (whenLive s (doSteerGo s r array))

/-- STEER_TEST_END (R183). -/
def execSteerTestEnd (array : Nat) (s : State) : Host.Outcome State Fault Refusal := .next (whenLive s (doSteerTestEnd s array))

end Sys2Proof.Machine
end

