-- ==== Sys2Proof/Machine/Pony.lean ====
section
/-! DEFINITION. Pony slices: VOP, VRED, VSUM, VGEN (chapter 6). -/

namespace Sys2Proof.Machine

/-- The slice of a number. -/
def pony (s : State) (n : Nat) : PonySl := tabGet {} s.ponys n

/-- The state with a slice changed. -/
def modPony (s : State) (n : Nat) (f : PonySl → PonySl) : State := { s with ponys := tabMod {} s.ponys n f }

/-! Fields of Table 6.1. -/

/-- The slice field of every Pony command. -/
def pnSlice (c : Cmd) : Nat := cf c 4 48 8
/-- The function of a VOP, or the kind of a reduction. -/
def pnFn (c : Cmd) : Nat := cf c 4 56 8
/-- The compute type of a VOP. -/
def voCtype (c : Cmd) : Nat := cf c 6 50 2
/-- z is a mask. -/
def voZmask (c : Cmd) : Bool := bitAt (cw c 6) 52
/-- Input x of a VOP or a reduction. -/
def pnX (c : Cmd) : TDesc := cDesc c (cf c 4 0 42)
/-- Input y of a VOP, or the mask of a reduction. -/
def pnY (c : Cmd) : TDesc := cDesc c (cf c 5 0 42)
/-- Input z of a VOP, or the output of a VRED. -/
def pnZ (c : Cmd) : TDesc := cDesc c (cf c 6 0 42)
/-- The output of a VOP. -/
def voD (c : Cmd) : TDesc := cDesc c (cf c 7 0 42)
/-- A descriptor field names a tensor. -/
def named (c : Cmd) (i : Nat) : Bool := cf c i 0 42 != 0

/-- The function uses y. -/
def usesY (fn : Nat) : Bool := [0x01, 0x02, 0x03, 0x04, 0x05, 0x06, 0x0B, 0x0C, 0x0D, 0x0E, 0x10, 0x20, 0x21, 0x22, 0x23, 0x24, 0x25, 0x26, 0x27].contains fn

/-- The function uses z as an input. -/
def usesZ (fn : Nat) : Bool := fn == 0x04 || fn == 0x0B

/-- The function is available under ctype 0 and 1. -/
def fnFloat (fn : Nat) : Bool := fn ≤ 0x0E || (0x10 ≤ fn && fn ≤ 0x1F)

/-- The function is available under ctype 2. -/
def fnInt (fn : Nat) : Bool := (fn ≤ 0x0E && fn != 0x04) || (0x20 ≤ fn && fn ≤ 0x27)

/-- The own fields of a VOP (R217, R224). -/
def vopFieldsOk (c : Cmd) : Bool :=
  cZero c 4 42 6 && selOk (pnSlice c) && cZero c 5 42 6 && cZero c 6 42 6 && cf c 6 48 2 != 3 && cZero c 6 53 11 && cZero c 7 42 6
    && (if voCtype c ≤ 1 then fnFloat (pnFn c) else voCtype c == 2 && fnInt (pnFn c))
    && named c 4 && named c 7 && named c 5 == usesY (pnFn c) && named c 6 == (usesZ (pnFn c) || voZmask c)
    && !(voZmask c && usesZ (pnFn c))

/-- R212: a tensor of a Pony command is mapped on the die of the slice. -/
def pnOn (s : State) (t : Nat) (c : Cmd) (d : TDesc) (w : Bool) : Bool :=
  tensorMapped s t d 0 1 (fullBox d) w && onDie s t (selDie (pnSlice c)) d 0 1

/-- R221: an input's extents are the output's, or 1. -/
def broadcastOk (d x : TDesc) : Bool := (List.range 6).all (fun i => dExt x i == dExt d i || dExt x i == 1)

/-- R222: a mask's form. Its bytes are read as they stand: a scale of the mask has no part in them. [DEDUCED, log 32] -/
def maskOk (d m : TDesc) : Bool := descOk m && dFmt m == .uint8 && m.exts == d.exts

/-- R223: an input whose byte range (R412) does not overlap d's, or d itself. -/
def apart (d x : TDesc) : Bool := decide (d = x) || !spansMeet (boxSpan d (fullBox d)) (boxSpan x (fullBox x))

/-- The checks of a VOP on what it names (R224). [DEDUCED, log 32] -/
def vopDescsOk (s : State) (t : Nat) (c : Cmd) : Bool :=
  let d := voD c
  let int := voCtype c == 2
  let inOk := fun (x : TDesc) => descOk x && (!int || (!fmtFloat (dFmt x) && dSfmt x == 0)) && pnOn s t c x false && apart d x
  descOk d && pnOn s t c d true && inOk (pnX c) && (pnX c).exts == d.exts
    && (!usesY (pnFn c) || (inOk (pnY c) && broadcastOk d (pnY c)))
    && (!usesZ (pnFn c) || (inOk (pnZ c) && broadcastOk d (pnZ c)))
    && (!voZmask c || (maskOk d (pnZ c) && (!int || dSfmt (pnZ c) == 0) && pnOn s t c (pnZ c) false && apart d (pnZ c)))

/-! Reading and computing (6.2, 6.3). A compute-type value is a value of `Val` that the compute type holds. -/

/-- The float compute type of a ctype. -/
def ctFmt (ct : Nat) : Fmt := if ct = 1 then .bf16 else .fp32

/-- R214: a float result in the compute type. -/
def ctRound (f : Fmt) (ovf : Bool) (r : Val × Fl) : Val × Fl :=
  let q := narrow f .rne ovf r.1
  (fDecode f q.1, flOr r.2 (flRec q.2))

/-- R213: an input element in the compute type. A NaN input by itself raises only NV where it signals (R89). -/
def ctRead (f : Fmt) (ovf : Bool) (r : Read1) : Val × Fl :=
  if vIsNaN r.val then (.nan false, flOr r.fl { nv := vIsSNaN r.val })
  else let q := narrow f .rne ovf r.val; (fDecode f q.1, flOr r.fl (flRec q.2))

/-- R213: an integer input in INT32, with its scale: SAT alone where it lies outside the range. -/
def itRead (ovf : Bool) (r : Read1) : Nat × Fl :=
  let q := narrowFrom true .int32 .rne ovf r.val
  (q.1, flOr r.fl (flRec q.2))

/-- Two operations in sequence: the second on the first's value, flags gathered. -/
def thenOp (x : Val × Fl) (g : Val → Val × Fl) : Val × Fl := let r := g x.1; (r.1, flOr x.2 r.2)

/-- A NaN result sets NAN (R92). -/
def nanOut (r : Val × Fl) : Val × Fl := if vIsNaN r.1 then (r.1, { r.2 with nan := true }) else r

/-- One of the functions 0x01 to 0x1B, rounded (R214). [DEDUCED, log 28] -/
def vopPrim (f : Fmt) (ovf : Bool) (fn : Nat) (k x y z : Val) : Val × Fl :=
  let rd := fun r => ctRound f ovf (nanOut r)
  match fn with
  | 0x01 => rd (vAdd false x y)
  | 0x02 => rd (vAdd false x (vFlip y))
  | 0x03 => rd (vMul x y)
  | 0x04 => rd (vFma false x y z)
  | 0x05 => nanOut (vMin x y)
  | 0x06 => nanOut (vMax x y)
  | 0x07 => nanOut (vAbs x, Fl.none)
  | 0x08 => nanOut (vFlip x, Fl.none)
  | 0x09 => rd (vAdd false x k)
  | 0x0A => rd (vMul x k)
  | 0x0B => (if vIsNaN z || vIsZero z then y else x, Fl.none)
  | 0x0C => (vInt (b2n (!vIsNaN x && !vIsNaN y && vCmp x y == .lt)), Fl.none)
  | 0x0D => (vInt (b2n (!vIsNaN x && !vIsNaN y && vCmp x y != .gt)), Fl.none)
  | 0x0E => (vInt (b2n (!vIsNaN x && !vIsNaN y && vCmp x y == .eq)), Fl.none)
  | 0x10 => rd (vDiv x y)
  | fn => rd (prim1 fn x)

/-- The composite functions of R220, as sequences of rounded operations. -/
def vopFloat (f : Fmt) (ovf : Bool) (fn : Nat) (k x y z : Val) : Val × Fl :=
  let op := fun fn x y => vopPrim f ovf fn vZero x y vZero
  let sigmoid := thenOp (thenOp (op 0x14 (vFlip x) vZero) (fun e => op 0x01 (vInt 1) e)) (fun v => op 0x12 v vZero)
  match fn with
  | 0x1C =>
    let e := thenOp (op 0x03 (vInt (-2)) (vAbs x)) (fun v => op 0x16 v vZero)
    let r := thenOp e (fun v => thenOp (op 0x01 v (vInt 2)) (fun w => op 0x10 (vFlip v) w))
    (if vIsNaN r.1 then r.1 else vWithSign (vNeg x) r.1, r.2)
  | 0x1D => sigmoid
  | 0x1E => thenOp sigmoid (fun v => op 0x03 x v)
  | 0x1F =>
    let c := ctRound f ovf (fDecode .fp32 0x3F3504F3, Fl.none)
    let a := op 0x03 (.fin false 1 (-1) false) x
    let b := thenOp (thenOp (op 0x03 x c.1) (fun v => op 0x1B v vZero)) (fun v => op 0x01 (vInt 1) v)
    thenOp (a.1, flOr a.2 b.2) (fun v => op 0x03 v b.1)
  | fn => vopPrim f ovf fn k x y z

/-- The functions of ctype 2 on 32-bit words. -/
def vopInt (ovf : Bool) (fn k x y z : Nat) : Nat × Fl :=
  let lt := fun (a b : Nat) => decide (sgn 32 a < sgn 32 b)
  match fn with
  | 0x01 => iAdd true ovf 32 x y
  | 0x02 => iSub true ovf 32 x y
  | 0x03 => iMul true ovf 32 x y
  | 0x05 => (if lt y x then y else x, Fl.none)
  | 0x06 => (if lt x y then y else x, Fl.none)
  | 0x07 => iAbs true ovf 32 x
  | 0x08 => iNeg true ovf 32 x
  | 0x09 => iAdd true ovf 32 x k
  | 0x0A => iMul true ovf 32 x k
  | 0x0B => (if z % 2 ^ 32 = 0 then y else x, Fl.none)
  | 0x0C => (b2n (lt x y), Fl.none)
  | 0x0D => (b2n (!lt y x), Fl.none)
  | 0x0E => (b2n (x == y), Fl.none)
  | 0x20 => iShl true ovf 32 x y
  | 0x21 => iShr 32 x y
  | 0x22 => iSar 32 x y
  | 0x23 => iQuo true ovf 32 x y
  | 0x24 => iRem true 32 x y
  | 0x25 => (x &&& y, Fl.none)
  | 0x26 => (x ||| y, Fl.none)
  | 0x27 => (Nat.xor x y, Fl.none)
  | _ => (x, Fl.none)

/-- The indices of an input element that is broadcast (R221). -/
def bcast (x : TDesc) (idx : List Nat) : List Nat := (idx.zip x.exts).map (fun p => if p.2 = 1 then 0 else p.1)

/-- What a VOP has computed for an element: the value, an integer's 32 bits, the flags, poison, reach, and whether it is active. -/
structure VElem where
  val : Val := vZero
  word : Nat := 0
  fl : Fl := {}
  bad : Bool := false
  miss : Option (Nat × Nat) := none
  act : Bool := true

/-- An element as slice `n` reads it: from the scratchpad of its die (R20). -/
def pnRead (s : State) (t n : Nat) (d : TDesc) (idx : List Nat) : Read1 := readOn s t (some (blkDie .pony n)) d 0 1 idx

/-- The byte of a mask, where a slice cannot read it now. -/
def maskMiss (s : State) (t n : Nat) (m : TDesc) (idx : List Nat) : Option (Nat × Nat) := missing s t (some (blkDie .pony n)) [(dAddr m idx, 1)]

/-- R213 to R222: one element of a VOP before the output conversion. -/
def vopElem (s : State) (t n : Nat) (c : Cmd) (idx : List Nat) : VElem :=
  let m := pnZ c
  let mz := voZmask c
  let mmiss := if mz then maskMiss s t n m idx else none
  let mbad := mz && dPoison s t m idx
  if mmiss.isSome then { miss := mmiss }
  else if mz && (mbad || dBits s t m idx == 0) then { act := false, bad := mbad }
  else
    let fn := pnFn c
    let rx := pnRead s t n (pnX c) idx
    let ry := if usesY fn then pnRead s t n (pnY c) (bcast (pnY c) idx) else {}
    let rz := if usesZ fn then pnRead s t n (pnZ c) (bcast (pnZ c) idx) else {}
    let bad := rx.bad || ry.bad || rz.bad
    let miss := rx.miss <|> ry.miss <|> rz.miss
    if fn = 0 then { val := rx.val, word := rx.bits, fl := rx.fl, bad := bad, miss := miss }
    else if voCtype c = 2 then
      let x := itRead (cOvf c) rx
      let y := if usesY fn then itRead (cOvf c) ry else (0, Fl.none)
      let z := if usesZ fn then itRead (cOvf c) rz else (0, Fl.none)
      let r := vopInt (cOvf c) fn (unsgn 32 (sgn 16 (cf c 7 48 16))) x.1 y.1 z.1
      { val := vInt (sgn 32 r.1), word := r.1, fl := flAll [x.2, y.2, z.2, r.2], bad := bad, miss := miss }
    else
      let f := ctFmt (voCtype c)
      let x := ctRead f (cOvf c) rx
      let y := if usesY fn then ctRead f (cOvf c) ry else (vZero, Fl.none)
      let z := if usesZ fn then ctRead f (cOvf c) rz else (vZero, Fl.none)
      let r := vopFloat f (cOvf c) fn (fDecode .bf16 (cf c 7 48 16)) x.1 y.1 z.1
      { val := r.1, fl := flAll [x.2, y.2, z.2, r.2], bad := bad, miss := miss }

/-- R215: an output element narrowed into its format; an integer into an integer format raises SAT alone out of range, as R803 says
without a scale and as this model takes it with one. [DESIGN CHOICE, log 99] -/
def pnOut (d : TDesc) (rnd : Rnd) (ovf int : Bool) (v : Val) (e : Int) : Nat × Fl :=
  let q := narrowFrom int (dFmt d) rnd ovf (vScale (-e) v)
  (q.1, flRec q.2)

/-- The job a slice serves next, where it has the opcode and the slice runs. -/
def ponyJob (s : State) (n op : Nat) : Option Job :=
  match nextJob s (.pony n) with
  | some j => if cOp j.cmd == op && unitRuns s .pony n then some j else none
  | none => none

/-- What a Pony command did: the memory and its summary as it leaves them, its flags, whether an input word was poisoned, whether an access
was not served or a write discarded, the elements that it took, and the spans that it touches. -/
structure PonyRun where
  st : State
  fl : Fl
  pin : Bool
  gone : Bool
  elems : Nat
  spans : List (Option (Nat × Nat))

/-- A Pony command ends (R242, R247). [DEDUCED, log 29] -/
def ponyEnd (s0 : State) (n : Nat) (j : Job) (r : PonyRun) : State :=
  let f := r.fl
  let s := perfAdd (perfAdd r.st .pony n 0 1) .pony n 1 r.elems
  let s := if f.sat then raiseEvent s .pony n 0 else s
  let s := if f.nan then raiseEvent s .pony n 1 else s
  let s := if f.dz then raiseEvent s .pony n 2 else s
  let s := if r.pin then raiseEvent s .pony n 3 else s
  let s := if f.poison then perfAdd s .pony n 7 (b2n (!r.gone)) else s
  let s := if r.gone then raiseEvent s .pony n 5 else s
  let s := if f.poison || r.gone then noteWithdrawn s j.tenant (cStep j.cmd) r.spans else s
  finishJob s0 s j (if r.gone then failResult 0x22 f 0 else ranResult f 0)

/-- R243: a function-table parity error puts the slice into FAULT. [DEDUCED, log 32] -/
def ponyParity (s : State) (n tenant : Nat) : State :=
  enterFault (failJobs (raiseEvent s .pony n 4) (.pony n) .pony n 5) .pony n tenant

/-- R243: the functions that read the tables. -/
def readsTable (c : Cmd) : Bool :=
  match cOp c with
  | 0x20 => 0x10 ≤ pnFn c && pnFn c ≤ 0x1F
  | 0x23 => cf c 4 56 2 == 2
  | _ => false

/-- A tensor's spans, elements and scales. -/
def twoSpans (d : TDesc) : List (Option (Nat × Nat)) := [boxSpan d (fullBox d), scaleSpan d 0 1 (fullBox d)]

/-- The memory's side of a Pony command: the access that stopped it, and the pages that its reads withdrew (R385). -/
def ponyRead (sE s1 s : State) (t : Nat) (miss : Option (Nat × Nat)) : State :=
  withdrawNew sE s1 (match miss with
    | some p => missAt s t p.1 p.2 false
    | none => s)

/-- A function-table parity error that a command meets: one that reads the tables (R243). -/
def tableMet (c : Cmd) (badTable : List Nat) : Bool := readsTable c && !badTable.isEmpty

/-- R218: what a VOP does. `badTable` lists the linear elements whose computation met a table parity error (R243). [DESIGN CHOICE, log 9] -/
def vopRun (s0 : State) (n : Nat) (badTable : List Nat) (errs : List MemErr) (j : Job) : PonyRun :=
  let c := j.cmd
  let d := voD c
  let spans := twoSpans (pnX c) ++ (if named c 5 then twoSpans (pnY c) else []) ++ (if named c 6 then twoSpans (pnZ c) else [])
  let sE := addErrs s0 errs
  let s := readSpans sE j.tenant spans
  let par := tableMet c badTable
  let all := (extIdx d).map (fun i => (i, vopElem s j.tenant n c i))
  let ok := all.takeWhile (fun p => p.2.miss.isNone)
  let hit := fun i => par && badTable.contains (lin d.exts i)
  let int := if pnFn c = 0 then !fmtFloat (dFmt (pnX c)) else voCtype c == 2
  let rs : List (List Nat × Read1) := ok.map (fun p =>
    (p.1, { bits := p.2.word, val := if p.2.act then p.2.val else vZero, fl := p.2.fl, bad := p.2.bad || (p.2.act && hit p.1),
            oob := !p.2.act }))
  let w := copyOut s j.tenant (some (blkDie .pony n)) d rs (decide (ok.length < all.length)) (fun idx r e =>
    if r.oob then (0, Fl.none)
    else
      let q := pnOut d (rndOf s j.tenant (cf c 6 48 2) (cf c 5 48 16) (cStep c) d.tau (lin d.exts idx)) (cOvf c) int r.val e
      (q.1, flOr r.fl q.2))
  { st := ponyRead sE s w.st j.tenant (if w.cut then none else all.findSome? (·.2.miss)), fl := { w.fl with poison := w.fl.poison || par }
    pin := ok.any (fun p => p.2.bad), gone := w.gone, elems := ok.length, spans := spans ++ twoSpans d }

/-- R218, R243: VOP. -/
def doVop (s0 : State) (n : Nat) (badTable : List Nat) (errs : List MemErr) : State :=
  match ponyJob s0 n 0x20 with
  | none => s0
  | some j =>
    let s := ponyEnd s0 n j (vopRun s0 n badTable errs j)
    if tableMet j.cmd badTable then ponyParity s n j.tenant else s

/-! Reductions (6.5). -/

/-- The slot of a reduction. -/
def redSlot (c : Cmd) : Nat := cf c 5 48 4
/-- The summary slot is written. -/
def redSlotEn (c : Cmd) : Bool := bitAt (cw c 5) 52
/-- The threshold's bits. -/
def redThr (c : Cmd) : Val := fDecode .fp32 (cf c 7 0 32)

/-- The own fields of a VRED (R227, R228). -/
def vredFieldsOk (c : Cmd) : Bool :=
  cZero c 4 42 6 && selOk (pnSlice c) && pnFn c ≤ 7 && cZero c 5 42 6 && cZero c 5 53 11 && !(redSlotEn c && redSlot c == 15)
    && cZero c 6 42 6 && cf c 6 48 2 != 3 && cZero c 6 50 14 && cZero c 7 48 16 && named c 4 && named c 6

/-- The own fields of a VSUM. -/
def vsumFieldsOk (c : Cmd) : Bool :=
  cZero c 4 42 6 && selOk (pnSlice c) && pnFn c ≤ 8 && cZero c 5 42 6 && cZero c 5 53 11 && redSlotEn c && redSlot c != 15
    && cw c 6 == 0 && cZero c 7 48 16 && named c 4

/-- The input and mask of a reduction. -/
def redInOk (s : State) (t : Nat) (c : Cmd) : Bool :=
  descOk (pnX c) && pnOn s t c (pnX c) false && (!named c 5 || (maskOk (pnX c) (pnY c) && pnOn s t c (pnY c) false))

/-- The checks of a VRED on what it names. -/
def vredDescsOk (s : State) (t : Nat) (c : Cmd) : Bool :=
  redInOk s t c && descOk (pnZ c) && pnOn s t c (pnZ c) true && (pnZ c).exts == (pnX c).exts.set 0 1

/-- The checks of a VSUM on what it names. -/
def vsumDescsOk (s : State) (t : Nat) (c : Cmd) : Bool := redInOk s t c

/-- An element as a reduction takes it. -/
structure RElem where
  val : Val := vZero      -- in the compute type
  raw : Val := vZero      -- exact, with its scale
  bits : Nat := 0
  fl : Fl := {}
  bad : Bool := false
  act : Bool := true
  miss : Option (Nat × Nat) := none

/-- The reduction runs on integers. -/
def redInt (c : Cmd) : Bool := !fmtFloat (dFmt (pnX c))

/-- A kind that compares with the threshold reads thr as a float operand: a signalling NaN there sets NV (R89). -/
def thrFl (c : Cmd) : Fl := { nv := (pnFn c == 7 || pnFn c == 8) && vIsSNaN (redThr c) }

/-- An element of a reduction's input: exact with its scale, and in the compute type (R213, R229, R234). -/
def redElem (s : State) (t n : Nat) (c : Cmd) (idx : List Nat) : RElem :=
  let m := pnY c
  let mz := named c 5
  let mmiss := if mz then maskMiss s t n m idx else none
  if mmiss.isSome then { miss := mmiss }
  else if mz && dPoison s t m idx then { act := false, bad := true }
  else if mz && dBits s t m idx == 0 then { act := false }
  else
    let r := pnRead s t n (pnX c) idx
    let v := if redInt c then let q := itRead (cOvf c) r; (vInt (sgn 32 q.1), q.2) else ctRead .fp32 (cOvf c) r
    { val := v.1, raw := r.val, bits := r.bits, fl := flOr v.2 (thrFl c), bad := r.bad, miss := r.miss }

/-- The integer of a value that is one. -/
def valInt : Val → Int
  | .fin n m e _ => let q : Nat := if 0 ≤ e then m <<< e.toNat else m >>> (-e).toNat; if n then -(q : Int) else q
  | _ => 0

/-- The combining operation of a kind (R229). -/
def redComb (int ovf : Bool) (kind : Nat) (x y : Val × Fl) : Val × Fl :=
  let fl := flOr x.2 y.2
  match kind with
  | 3 | 5 => if int then ((if vLt x.1 y.1 then y.1 else x.1), fl) else let r := nanOut (vMax x.1 y.1); (r.1, flOr fl r.2)
  | 4 => if int then ((if vLt y.1 x.1 then y.1 else x.1), fl) else let r := nanOut (vMin x.1 y.1); (r.1, flOr fl r.2)
  | _ =>
    if int then let q := iAdd true ovf 32 (unsgn 32 (valInt x.1)) (unsgn 32 (valInt y.1)); (vInt (sgn 32 q.1), flOr fl q.2)
    else let r := ctRound .fp32 ovf (nanOut (vAdd false x.1 y.1)); (r.1, flOr fl r.2)

/-- What stands for an element in its lane: itself, its rounded square, its magnitude. -/
def redItem (int ovf : Bool) (kind : Nat) (e : RElem) : Val × Fl :=
  match kind with
  | 1 | 2 =>
    if int then let w := unsgn 32 (valInt e.val); let q := iMul true ovf 32 w w; (vInt (sgn 32 q.1), flOr e.fl q.2)
    else let r := ctRound .fp32 ovf (nanOut (vMul e.val e.val)); (r.1, flOr e.fl r.2)
  | 5 =>
    if int then let q := iAbs true ovf 32 (unsgn 32 (valInt e.val)); (vInt (sgn 32 q.1), flOr e.fl q.2) else (vAbs e.val, e.fl)
  | _ => (e.val, e.fl)

/-- Two rows of lanes combined; lanes that only one has stay. -/
def laneComb (f : Val × Fl → Val × Fl → Val × Fl) : List (Val × Fl) → List (Val × Fl) → List (Val × Fl)
  | x :: xs, y :: ys => f x y :: laneComb f xs ys
  | xs, [] => xs
  | [], ys => ys

/-- One level of the tree. -/
def treeLevel (f : Val × Fl → Val × Fl → Val × Fl) : List (Val × Fl) → List (Val × Fl)
  | x :: y :: t => f x y :: treeLevel f t
  | l => l

/-- R229: a sequence reduced over 512 lanes and the tree; none of an empty one. -/
def redSeq (f : Val × Fl → Val × Fl → Val × Fl) (xs : List (Val × Fl)) : Option (Val × Fl) :=
  let lanes := (piecesOf 512 (xs.length / 512 + 1) xs).foldl (laneComb f) []
  ((List.range 9).foldl (fun l _ => treeLevel f l) lanes).head?

/-- The value of an empty set (Table 6.5). -/
def redEmpty (int : Bool) (kind : Nat) : Val :=
  match kind with
  | 3 => if int then vInt (-(2 ^ 31)) else .inf true
  | 4 => if int then vInt (2 ^ 31 - 1) else .inf false
  | _ => vZero

/-- The magnitude exceeds the threshold (COUNT_GT, FLAGS). -/
def overThr (c : Cmd) (v : Val) : Bool := !vIsNaN v && !vIsNaN (redThr c) && vLt (redThr c) (vAbs v)

/-- R233: an element is subnormal in its own format, or after its scale is applied. -/
def redSubnormal (f : Fmt) (e : RElem) : Bool :=
  fmtFloat f && ((bits e.bits (fmtT f) (fmtE f) == 0 && bits e.bits 0 (fmtT f) != 0)
    || (match e.raw with
      | .fin _ m x _ => m != 0 && (Nat.log2 m : Int) + x < 1 - (fmtBias f : Int)
      | _ => false))

/-- R233: the FLAGS word: subnormals by the element's own format, the rest by the values that R213 converts. [DEDUCED, log 28] -/
def redFlags (c : Cmd) (es : List RElem) : Nat :=
  let f := dFmt (pnX c)
  b2n (es.any (fun e => vIsNaN e.raw)) + 2 * b2n (es.any (fun e => e.val == .inf false)) + 4 * b2n (es.any (fun e => e.val == .inf true))
    + 8 * b2n (es.any (redSubnormal f)) + 16 * b2n (es.any (fun e => !vIsNaN e.raw && vNeg e.val)) + 32 * b2n (es.any (fun e => overThr c e.val))

/-- R229: the result of one sequence of active elements. [DEDUCED, log 28] -/
def redResult (c : Cmd) (es : List RElem) : Val × Fl :=
  let int := redInt c
  let k := pnFn c
  let fl := flAll (es.map (·.fl))
  match k with
  | 6 => (vInt ((es.filter (fun e => vIsNaN e.val || !vIsZero e.val)).length : Nat), fl)
  | 7 => (vInt ((es.filter (fun e => overThr c e.val)).length : Nat), fl)
  | 8 => (vInt (redFlags c es : Nat), fl)
  | _ =>
    let r := (redSeq (redComb int (cOvf c) k) (es.map (redItem int (cOvf c) k))).getD (redEmpty int k, Fl.none)
    if k = 2 then let q := ctRound .fp32 (cOvf c) (nanOut (vSqrt r.1)); (q.1, flOr r.2 q.2) else nanOut r

/-- R231: row results combined in ascending order for the summary. -/
def redRows (c : Cmd) (rs : List (Val × Fl)) : Val × Fl :=
  match rs with
  | [] => (vZero, Fl.none)
  | r :: t =>
    t.foldl (fun acc x =>
      match pnFn c with
      | 6 | 7 => (vInt (valInt acc.1 + valInt x.1), flOr acc.2 x.2)
      | 2 => redComb false (cOvf c) 3 acc x
      | k => redComb (redInt c) (cOvf c) k acc x) r

/-- The summary is an FP64 value (Table 6.5). -/
def redSumFloat (c : Cmd) : Bool := pnFn c == 2 || (pnFn c < 6 && !redInt c)

/-- R232, R234: the summary word. -/
def redWord (c : Cmd) (v : Val) (bad : Bool) : Nat :=
  if redSumFloat c then (if bad then 0x7FF8000000000000 else (narrow .fp64 .rne true v).1)
  else if bad then 2 ^ 64 - 1 else unsgn 64 (valInt v)

/-- A summary written by a slice (R51, R232): the tenant's slot, LAST_SUM, PONY.PERF6. -/
def ponySum (s : State) (n : Nat) (j : Job) (slot v : Nat) : State :=
  perfAdd (modPony (jobSum s j slot v) n (fun x =>
    { x with lastSum := BitVec.ofNat 64 v, lastSlot := slot, lastTenant := j.tenant })) .pony n 6 1

/-- The spans that a reduction reads. -/
def redSpans (c : Cmd) : List (Option (Nat × Nat)) := twoSpans (pnX c) ++ (if named c 5 then twoSpans (pnY c) else [])

/-- R229, R234: what a VSUM does. Where an element cannot be read it stops there, with the flags of those before it (R119).
[DESIGN CHOICE, log 9] -/
def vsumRun (s0 : State) (n : Nat) (errs : List MemErr) (j : Job) : PonyRun :=
  let c := j.cmd
  let sE := addErrs s0 errs
  let s := readSpans sE j.tenant (redSpans c)
  let all := (extIdx (pnX c)).map (redElem s j.tenant n c)
  let es := all.takeWhile (·.miss.isNone)
  let st := ponyRead sE s s j.tenant (all.findSome? (·.miss))
  let bad := es.any (·.bad)
  let r := redResult c (es.filter (·.act))
  let whole := decide (es.length = all.length)
  { st := if whole then ponySum st n j (redSlot c) (redWord c r.1 bad) else st, fl := { r.2 with poison := bad }, pin := bad
    gone := !whole, elems := es.length, spans := redSpans c }

/-- R229: VSUM. -/
def doVsum (s0 : State) (n : Nat) (errs : List MemErr) : State :=
  match ponyJob s0 n 0x22 with
  | none => s0
  | some j => ponyEnd s0 n j (vsumRun s0 n errs j)

/-- R231, R234: what a VRED does. [DESIGN CHOICE, log 9] -/
def vredRun (s0 : State) (n : Nat) (errs : List MemErr) (j : Job) : PonyRun :=
  let c := j.cmd
  let d := pnZ c
  let sE := addErrs s0 errs
  let s := readSpans sE j.tenant (redSpans c)
  let rows := (extIdx d).map (fun q => (q, (List.range (dExt (pnX c) 0)).map (fun i => redElem s j.tenant n c (q.set 0 i))))
  let ok := rows.takeWhile (fun r => r.2.all (·.miss.isNone))
  let res := ok.map (fun r => (r.1, redResult c (r.2.filter (·.act)), r.2.any (·.bad)))
  let int := pnFn c == 6 || pnFn c == 7 || (redInt c && pnFn c != 2)
  let cut := ((rows.drop ok.length).head?.map (fun r => r.2.takeWhile (·.miss.isNone))).getD []
  let rs : List (List Nat × Read1) := res.map (fun r =>
    (r.1, { bits := unsgn 64 (valInt r.2.1.1), val := r.2.1.1, fl := r.2.1.2, bad := r.2.2 }))
  let w := copyOut s j.tenant (some (blkDie .pony n)) d rs (decide (ok.length < rows.length)) (fun idx r e =>
    let q := pnOut d (rndOf s j.tenant (cf c 6 48 2) (cf c 7 32 16) (cStep c) d.tau (lin d.exts idx)) (cOvf c) int r.val e
    (q.1, flOr r.fl q.2))
  let st := ponyRead sE s w.st j.tenant (if w.cut then none else rows.findSome? (fun r => r.2.findSome? (·.miss)))
  let sum := redRows c (res.map (fun r => r.2.1))
  let bad := res.any (fun r => r.2.2)
  { st := if redSlotEn c && !w.gone then ponySum st n j (redSlot c) (redWord c sum.1 bad) else st
    fl := flOr (if redSlotEn c then flOr w.fl sum.2 else w.fl) (redResult c (cut.filter (·.act))).2
    pin := bad, gone := w.gone, elems := ok.length * dExt (pnX c) 0 + cut.length, spans := redSpans c ++ twoSpans d }

/-- R231: VRED. -/
def doVred (s0 : State) (n : Nat) (errs : List MemErr) : State :=
  match ponyJob s0 n 0x21 with
  | none => s0
  | some j => ponyEnd s0 n j (vredRun s0 n errs j)

/-! VGEN (6.6). -/

/-- The output of a VGEN. -/
def vgD (c : Cmd) : TDesc := cDesc c (cf c 4 0 42)
/-- The distribution. -/
def vgDist (c : Cmd) : Nat := cf c 4 56 2

/-- The own fields of a VGEN (R235). -/
def vgenFieldsOk (c : Cmd) : Bool :=
  cZero c 4 42 6 && selOk (pnSlice c) && cZero c 4 58 6 && cZero c 5 18 46 && (cf c 5 16 2 == 0 || cf c 5 16 2 == 2) && cw c 7 == 0 && named c 4

/-- The checks of a VGEN on what it names. -/
def vgenDescsOk (s : State) (t : Nat) (c : Cmd) : Bool :=
  let d := vgD c
  descOk d && pnOn s t c d true && (vgDist c != 0 || dFmt d == .int32 || dFmt d == .uint32)

/-- R236: the value of element `n` before its output conversion, with the raw word of BITS. -/
def vgElem (seed : Nat) (c : Cmd) (n : Nat) : Val × Nat × Fl :=
  let r := fun j => genDraw seed (cf c 5 0 16) (cStep c) (vgD c).tau j
  let ovf := cOvf c
  let a := fDecode .fp32 (cf c 6 0 32)
  let b := fDecode .fp32 (cf c 6 32 32)
  let op := fun fn x y z => vopPrim .fp32 ovf fn vZero x y z
  let u24 := fun (x : Nat) => Val.fin false x (-24) false
  match vgDist c with
  | 0 => (vInt ((r n : Nat) : Int), r n, Fl.none)
  | 1 => let v := op 0x04 (u24 (r n / 256)) b a; (v.1, 0, flOr v.2 { nv := vIsSNaN a || vIsSNaN b })
  | 2 =>
    let u1 := u24 (r (2 * n) / 256 + 1)
    let u2 := u24 (r (2 * n + 1) / 256)
    let l := thenOp (thenOp (op 0x17 u1 vZero vZero) (fun v => op 0x03 (vInt (-2)) v vZero)) (fun v => op 0x11 v vZero vZero)
    let k := thenOp (op 0x03 u2 (fDecode .fp32 0x40C90FDB) vZero) (fun v => op 0x1A v vZero vZero)
    let z := op 0x03 l.1 k.1 vZero
    let v := op 0x04 z.1 b a
    (v.1, 0, flAll [l.2, k.2, z.2, v.2])
  | _ => (vInt (b2n (decide (r n < cf c 6 0 32))), 0, Fl.none)

/-- R236: what a VGEN does. [DESIGN CHOICE, log 9] -/
def vgenRun (s0 : State) (n : Nat) (badTable : List Nat) (j : Job) : PonyRun :=
  let c := j.cmd
  let d := vgD c
  let s := fillSpans s0 j.tenant (twoSpans d)
  let par := tableMet c badTable
  let seed := (ten s j.tenant).seed.toNat
  let rs : List (List Nat × Read1) := (extIdx d).map (fun i =>
    let k := lin d.exts i
    let v := vgElem seed c k
    (i, { bits := v.2.1, val := v.1, fl := v.2.2, bad := par && badTable.contains k }))
  let w := copyOut s j.tenant (some (blkDie .pony n)) d rs false (fun _ r e =>
    if vgDist c = 0 then (r.bits, Fl.none)
    else
      let q := pnOut d (if cf c 5 16 2 = 2 then .rtz else .rne) (cOvf c) (vgDist c == 3) r.val e
      (q.1, flOr r.fl q.2))
  { st := w.st, fl := { w.fl with poison := w.fl.poison || par }, pin := false, gone := w.gone, elems := rs.length, spans := twoSpans d }

/-- R236, R243: VGEN. -/
def doVgen (s0 : State) (n : Nat) (badTable : List Nat) : State :=
  match ponyJob s0 n 0x23 with
  | none => s0
  | some j =>
    let s := ponyEnd s0 n j (vgenRun s0 n badTable j)
    if tableMet j.cmd badTable then ponyParity s n j.tenant else s

/-! The steps of this chapter. -/

end Sys2Proof.Machine
end

