-- ==== Sys2Proof/Machine/Mule.lean ====
section
/-! DEFINITION. Mule: cores and registers, the load check, MULE_RUN and its end, barriers, stops and save records (chapter 7). -/

namespace Sys2Proof.Machine

/-- The core of a number. -/
def mcore (s : State) (n : Nat) : MCore := tabGet {} s.mule.cores n

/-- The state with a core set. -/
def setCore (s : State) (n : Nat) (c : MCore) : State := { s with mule := { s.mule with cores := tabSet s.mule.cores n c } }

/-! Registers (7.2). -/

/-- An integer register; i0 reads zero (R253). -/
def iReg (c : MCore) (n : Nat) : Nat := if n = 0 then 0 else (tabGet 0 c.i n).toNat

/-- An integer register written; a write to i0 is discarded. -/
def setI (c : MCore) (n v : Nat) : MCore := if n = 0 then c else { c with i := tabSet c.i n (BitVec.ofNat 64 v) }

/-- A vector register. -/
def vReg (c : MCore) (n : Nat) : Nat := (tabGet 0 c.v n).toNat

/-- A vector register written. -/
def setV (c : MCore) (n v : Nat) : MCore := { c with v := tabSet c.v n (BitVec.ofNat 4096 v) }

/-- R252: fN is bits [63:0] of vN. -/
def fReg (c : MCore) (n : Nat) : Nat := bits (vReg c n) 0 64

/-- R252: a scalar write leaves the rest of vN. -/
def setF (c : MCore) (n v : Nat) : MCore := setV c n (setBits (vReg c n) 0 64 v)

/-- A mask register; k0 reads all ones (R253). -/
def kReg (c : MCore) (n : Nat) : Nat := if n = 0 then 2 ^ 256 - 1 else (tabGet 0 c.k n).toNat

/-- A mask register written; a write to k0 is discarded. -/
def setK (c : MCore) (n v : Nat) : MCore := if n = 0 then c else { c with k := tabSet c.k n (BitVec.ofNat 256 v) }

/-- R254: element `e` of width `w` of a register's value. -/
def vElem (x w e : Nat) : Nat := bits x (w * e) w

/-- The flags of fsr: NV in bit 6 down to NAN in bit 0 (Table 7.1). [DEDUCED, log 28] -/
def fsrBits (f : Fl) : Nat :=
  64 * b2n f.nv + 32 * b2n f.dz + 16 * b2n f.ofl + 8 * b2n f.ufl + 4 * b2n f.nx + 2 * b2n f.sat + b2n f.nan

/-- R270: an instruction's flags ORed into fsr and the run flags. -/
def orFlags (c : MCore) (f : Fl) : MCore :=
  let b := BitVec.ofNat 7 (fsrBits f)
  { c with fsr := c.fsr ||| b, flags := c.flags ||| b }

/-- The record flags of run flags (R120). -/
def flOfRun (b : BitVec 7) : Fl := { nv := b.getLsbD 6, dz := b.getLsbD 5, sat := b.getLsbD 1, nan := b.getLsbD 0 }

/-! Instruction fields (Table 7.2). -/

/-- The major opcode. -/
def mOp (w : Nat) : Nat := bits w 26 6
/-- Field d. -/
def mD (w : Nat) : Nat := bits w 21 5
/-- Field a of formats R, F and I; field b of format B. -/
def mA (w : Nat) : Nat := bits w 16 5
/-- Field b of formats R and F. -/
def mB (w : Nat) : Nat := bits w 11 5
/-- Field fn of format R, c of format F. -/
def mFn (w : Nat) : Nat := bits w 6 5
/-- Field rm. -/
def mRm (w : Nat) : Nat := bits w 4 2
/-- Field ovf of format R. -/
def mOvf (w : Nat) : Bool := bitAt w 3
/-- Field msk of format R. -/
def mMsk (w : Nat) : Nat := bits w 1 2
/-- Field imm, and off of format B, signed. -/
def mImm (w : Nat) : Int := sgn 16 (bits w 0 16)
/-- Field off of format J. -/
def mOff (w : Nat) : Int := sgn 26 (bits w 0 26)

/-! The load check (R258, R290). -/

/-- A field of an instruction is zero, unless it is used. -/
def zeroUnless (used : Bool) (x : Nat) : Bool := used || x == 0

/-- Which fields a format R instruction uses: d, a, b, rm, ovf, msk. -/
structure Uses where
  d : Bool := true
  a : Bool := true
  b : Bool := true
  rm : Bool := false
  ovf : Bool := false
  msk : Bool := false

/-- R258 for format R: every field that is not used is zero. -/
def usesOk (w : Nat) (u : Uses) : Bool :=
  zeroUnless u.d (mD w) && zeroUnless u.a (mA w) && zeroUnless u.b (mB w) && zeroUnless u.rm (mRm w) && zeroUnless u.ovf (bits w 3 1)
    && zeroUnless u.msk (mMsk w) && !bitAt w 0

/-- The unary FP64 functions of Table 7.7. -/
def fpUnary (fn : Nat) : Bool := fn == 4 || fn == 7 || fn == 8 || fn == 10

/-- A k-register field names one of four (R258). -/
def kField (x : Nat) : Bool := x < 4

/-- The form of a SYS instruction (Table 7.6). -/
def sysOk (w : Nat) : Bool :=
  match mFn w with
  | 0 | 1 | 2 | 3 => usesOk w { d := false, a := false, b := false }
  | 4 | 5 | 7 => usesOk w { d := false, b := false }
  | 6 => usesOk w { a := false, b := false }
  | 8 => usesOk w {} && mB w ≤ 2
  | _ => false

/-- The form of an IOP instruction (Table 7.5). -/
def iopOk (w : Nat) : Bool :=
  let fn := mFn w
  fn ≤ 25 && usesOk w { b := !(fn == 19 || fn == 20),
                        ovf := [0, 1, 2, 5, 6, 7, 8, 12, 19, 20, 21, 22, 23].contains fn }

/-- The form of an FP64 instruction of Table 7.7. -/
def fopOk (w : Nat) (msk : Bool) : Bool :=
  mFn w ≤ 10 && usesOk w { b := !fpUnary (mFn w), rm := mFn w ≤ 4, msk := msk }

/-- The form of a conversion (Table 7.8). -/
def fcvtOk (w : Nat) (msk : Bool) : Bool :=
  let fn := mFn w
  fn ≤ 8 && usesOk w { b := false, rm := [0, 3, 4, 5, 8].contains fn, ovf := [3, 4, 5].contains fn, msk := msk }

/-- The form of an integer vector instruction of Table 7.9. -/
def viOk (w : Nat) : Bool :=
  let fn := mFn w
  fn ≤ 22 && !(mOp w == 0x2A && (fn == 18 || fn == 19)) && (!(20 ≤ fn) || kField (mD w))
    && usesOk w { b := !([14, 15, 19].contains fn), rm := [3, 4, 5, 18].contains fn,
                  ovf := [0, 1, 2, 3, 6, 14, 15, 16, 17, 18].contains fn, msk := true }

/-- The form of a VMISC instruction (Table 7.10). -/
def vmiscOk (w : Nat) : Bool :=
  match mFn w with
  | 0 | 1 | 2 | 3 => usesOk w { b := false, msk := true }
  | 4 => usesOk w { b := false }
  | 5 => usesOk w { a := false, b := false, msk := true }
  | 6 | 7 | 8 => usesOk w {} && kField (mD w) && kField (mA w) && kField (mB w)
  | 9 => usesOk w { b := false } && kField (mD w) && kField (mA w)
  | 10 | 11 => usesOk w { b := false } && kField (mA w)
  | 12 | 13 => usesOk w {}
  | _ => false

/-- A target lies within the image. -/
def targetOk (n : Nat) (p : Nat) (off : Int) : Bool := 0 ≤ (p : Int) + off && (p : Int) + off < n

/-- R290: instruction `p` of an image of `n` words passes the load check. -/
def instrOk (img : List Nat) (n p w : Nat) : Bool :=
  match mOp w with
  | 0x00 => sysOk w
  | 0x01 => iopOk w
  | 0x02 | 0x03 | 0x05 | 0x06 | 0x07 | 0x08 | 0x09 | 0x0A | 0x0B => true
  | 0x04 =>
    let k := bits w 0 9
    mD w == 0 && bits w 9 7 == 0 && 1 ≤ k && k ≤ 256 && p + k < n && (natsFrom (p + 1) k).all (fun q => mOp (img.getD q 0) == 0x3E)
  | 0x10 => fopOk w false
  | 0x11 => bits w 0 2 == 0
  | 0x12 => mFn w ≤ 4 && usesOk w { b := mFn w != 4 }
  | 0x13 => fcvtOk w false
  | 0x20 | 0x21 => fopOk w true
  | 0x22 | 0x23 => true
  | 0x24 => mFn w ≤ 3 && kField (mD w) && usesOk w { msk := true }
  | 0x25 => mFn w ≤ 3 && usesOk w { b := false, rm := mFn w == 0, msk := true }
  | 0x26 => fcvtOk w true
  | 0x28 | 0x29 | 0x2A => viOk w
  | 0x2C => vmiscOk w
  | 0x30 | 0x31 | 0x32 | 0x33 | 0x34 | 0x35 => mFn w ≤ 2 && usesOk w { b := mFn w != 0, msk := true }
  | 0x38 | 0x39 | 0x3A | 0x3B | 0x3C | 0x3D => targetOk n p (mImm w)
  | 0x3E | 0x3F => targetOk n p (mOff w)
  | _ => false

/-- R290: every word of an image passes. -/
def imageOk (img : List Nat) : Bool := (List.range img.length).all (fun p => instrOk img img.length p (img.getD p 0))

/-! MULE_RUN (7.8). -/

/-- The tenant address of the code image. -/
def mrCode (c : Cmd) : Nat := cf c 4 0 36 * 4096
/-- Instructions of the image. -/
def mrNinst (c : Cmd) : Nat := cf c 4 36 14 + 1
/-- The run resumes. -/
def mrResume (c : Cmd) : Bool := bitAt (cw c 4) 50
/-- The tenant address of the argument block, 0 for none. -/
def mrArgs (c : Cmd) : Nat := cf c 5 0 42 * 64
/-- The cores of the run. -/
def mrCores (c : Cmd) : Nat := cf c 5 48 7 + 1
/-- The summary slot. -/
def mrSlot (c : Cmd) : Nat := cf c 5 56 4
/-- The slot is written. -/
def mrSlotEn (c : Cmd) : Bool := bitAt (cw c 5) 60
/-- The combination of the summaries. -/
def mrComb (c : Cmd) : Nat := cf c 5 61 3
/-- The instruction cap. -/
def mrIcap (c : Cmd) : Nat := cf c 6 0 48
/-- The tenant address of the save area. -/
def mrSave (c : Cmd) : Nat := cf c 7 0 42 * 64
/-- The bytes of a save record. -/
def saveBytes : Nat := 17408

/-- The own fields of a MULE_RUN (R287, R288). -/
def muleFieldsOk (c : Cmd) : Bool :=
  cZero c 4 51 13 && cZero c 5 42 6 && cZero c 5 55 1 && cZero c 6 48 16 && cZero c 7 42 22 && mrIcap c != 0 && mrSave c != 0
    && !(mrArgs c != 0 && mrResume c) && !(mrSlot c == 15 && mrSlotEn c)

/-- A range wholly mapped in LPDDR. -/
def lpddrMapped (s : State) (t a n : Nat) (w : Bool) : Bool := mapped s t a n w && spanIn s t inLpddr (some (a, n))

/-- R288: the checks of a MULE_RUN on what it names. -/
def muleDescsOk (s : State) (t : Nat) (c : Cmd) : Bool :=
  let sv := (mrSave c, mrCores c * saveBytes)
  lpddrMapped s t (mrCode c) (4 * mrNinst c) false && (mrArgs c == 0 || lpddrMapped s t (mrArgs c) 64 false)
    && lpddrMapped s t sv.1 sv.2 true && !rangesMeet sv.1 sv.2 (mrCode c) (4 * mrNinst c)
    && !(mrArgs c != 0 && rangesMeet sv.1 sv.2 (mrArgs c) 64)

/-- A run is that of a job. -/
def runOf (j : Job) (r : MuleRun) : Bool :=
  r.tenant == j.tenant && r.stream == j.stream && r.count == j.cmd.count && decide (r.iter = j.iter) && r.gen == j.gen

/-- The run that occupies a core, with its job. -/
def coreRun (s : State) (n : Nat) : Option (MuleRun × Job) :=
  let c := mcore s n
  match s.mule.runs.find? (fun r => c.run != 0 && r.id == c.run) with
  | some r => (s.jobs.find? (fun j => decide (j.unit = .mule) && j.result.isNone && runOf j r)).map (fun j => (r, j))
  | none => none

/-- A core given back: no value survives (R291); a core in FAULT stays so. -/
def freeCore (s : State) (n : Nat) : State :=
  setCore s n (if (mcore s n).st = 6 then { st := 6 } else if blkState s .mule (n / 8) = 3 || blkState s .mule (n / 8) = 0 then {} else { st := 1 })

/-- What a run sees of a core that serves it. -/
def endOf (n : Nat) (c : MCore) : MEnd :=
  { core := n, lcore := c.lcore, cause := c.cause, flags := c.flags, retired := c.retired, sr := c.sr, halted := c.st == 4, waits := c.st == 3,
    reach := c.passed.toNat + b2n (c.st == 3), recBad := c.recBad }

/-- The cores of a run in logical order: as they stand, or as they stood when the run lost them. -/
def runView (s : State) (r : MuleRun) : List MEnd :=
  (r.cores.zip (List.range r.cores.length)).map (fun p => (r.lost.find? (fun e => e.lcore == p.2)).getD (endOf p.1 (mcore s p.1)))

/-- The cores that still serve a run. -/
def runCores (r : MuleRun) : List Nat :=
  ((r.cores.zip (List.range r.cores.length)).filter (fun p => !r.lost.any (fun e => e.lcore == p.2))).map (·.1)

/-- The state with a run changed. -/
def modRunM (s : State) (id : Nat) (f : MuleRun → MuleRun) : State :=
  { s with mule := { s.mule with runs := s.mule.runs.map (fun r => if r.id == id then f r else r) } }

/-- A core taken from its run, of which the run keeps `e`; its registers are zeroed (R304, R308). -/
def loseCore (s : State) (n st : Nat) (e : MEnd) : State :=
  setCore (modRunM s (mcore s n).run (fun r => { r with lost := r.lost ++ [e] })) n { st := st }

/-- A run ends: its cores are free, what its L2 lines hold has reached LPDDR (R284), its job has a result. MULE.PERF0 counts runs
completed. -/
def endRunMule (s0 s : State) (r : MuleRun) (j : Job) (res : Result) : State :=
  let cl := r.cores.getD 0 0 / 8
  let s := if res.status = 0x22 then raiseEvent s .mule cl 5 else s
  let s := (runCores r).foldl freeCore s
  let s := { s with mule := { s.mule with
    runs := s.mule.runs.filter (fun x => x.id != r.id), dirty := s.mule.dirty.filter (fun d => d.run != r.id) } }
  finishJob s0 (perfAdd s .mule cl 0 1) j res

/-- The first word of a save record at an address, with valid cleared (R301). -/
def clearValid (s : State) (t a : Nat) : State × Bool := tStore s t a (leBytes 8 (setBits (tNat s t a 8) 8 1 0))

/-- The address of entry `k` of the save area. -/
def saveAt (c : Cmd) (k : Nat) : Nat := mrSave c + k * saveBytes

/-- R301: valid cleared in each record of a run: true where some could not be written. -/
def clearRecords (s : State) (t : Nat) (c : Cmd) : State × Bool :=
  (List.range (mrCores c)).foldl (fun p k => let q := clearValid p.1 t (saveAt c k); (q.1, p.2 || q.2)) (s, false)

/-- R302: a save record allows the command to resume from it. -/
def recordOk (s : State) (t : Nat) (c : Cmd) (a : Nat) : Bool :=
  let w := fun o => tNat s t (a + o) 8
  bits (w 0) 0 8 == 1 && bitAt (w 0) 8 && bits (w 0) 19 12 == t && bits (w 8) 0 48 == mrCode c && bits (w 8) 48 14 == mrNinst c - 1
    && !bitAt (w 0) 31 && bits (w 0) 46 18 == 0 && bits (w 8) 62 2 == 0
    && bits (w 0x10) 9 7 == 0 && bits (w 0x10) 25 7 == 0 && bits (w 0x10) 37 3 == 0 && bits (w 0x10) 47 17 == 0
    && bits (w 0x18) 7 25 == 0 && w 0x30 == 0 && w 0x38 == 0 && tNat s t (a + 0x4200) 512 == 0

/-- A table of `n` words of `k` bytes from a tenant address, zero words left out. -/
def readTab {w : Nat} (s : State) (t a k n : Nat) : Tab (BitVec w) :=
  ((List.range n).map (fun i => (i, BitVec.ofNat w (tNat s t (a + k * i) k)))).filter (fun e => e.2 != 0)

/-- The registers of a table that are not the hard-wired first one. -/
def dropZeroth {w : Nat} (t : Tab (BitVec w)) : Tab (BitVec w) := t.filter (fun e => e.1 != 0)

/-- R302: a core as its record holds it. [DEDUCED, log 45] -/
def readRecord (s : State) (t a : Nat) (c : MCore) : MCore :=
  let w := fun o => tNat s t (a + o) 8
  let depth := bits (w 0x10) 32 5
  { c with
    st := if bitAt (w 0) 9 then 4 else if bitAt (w 0) 10 then 3 else 2
    pc := bits (w 0) 32 14, vl := bits (w 0x10) 0 9, vresume := bits (w 0x10) 16 9, fsr := BitVec.ofNat 7 (bits (w 0x10) 40 7)
    flags := BitVec.ofNat 7 (bits (w 0x18) 0 7), passed := BitVec.ofNat 32 (bits (w 0x18) 32 32), sr := BitVec.ofNat 64 (w 0x20)
    ret := (((List.range 16).take depth).map (fun k => bits (tNat s t (a + 0x40 + 4 * k) 4) 0 14)).reverse
    k := dropZeroth (readTab s t (a + 0x80) 32 4), i := dropZeroth (readTab s t (a + 0x100) 8 32), v := readTab s t (a + 0x200) 512 32 }

/-- R291: a core at the start of a run that is not a resume. -/
def startCore (args : List Nat) (n lc : Nat) (c : MCore) : MCore :=
  let c := (args.zip (natsFrom 1 8)).foldl (fun x e => setI x e.2 e.1) c
  { setI (setI c 9 lc) 10 n with st := 2 }

/-- The bytes of a register file. -/
def regFile (bytes n : Nat) (f : Nat → Nat) : List Byte := (List.range n).flatMap (fun i => leBytes bytes (f i))

/-- R301: a core's save record; with valid 0 it holds zero registers. [DEDUCED, log 45] -/
def saveRecord (c : MCore) (cmd : Cmd) (cause : Nat) : List Byte :=
  let valid := cause != 4
  let z := fun x => if valid then x else 0
  leBytes 8 (1 + 256 * b2n valid + 512 * b2n (c.st == 4) + 1024 * b2n (c.st == 3) + cause * 2 ^ 11 + c.tenant * 2 ^ 19 + z (c.pc % 2 ^ 14 * 2 ^ 32))
    ++ leBytes 8 (mrCode cmd + (mrNinst cmd - 1) * 2 ^ 48)
    ++ leBytes 8 (z (c.vl + c.vresume * 2 ^ 16 + c.ret.length * 2 ^ 32 + c.fsr.toNat * 2 ^ 40))
    ++ leBytes 8 (z (c.flags.toNat + c.passed.toNat * 2 ^ 32)) ++ leBytes 8 (z c.sr.toNat) ++ leBytes 8 (z c.retired.toNat)
    ++ List.replicate 16 0
    ++ regFile 4 16 (fun k => z (c.ret.reverse.getD k 0)) ++ regFile 32 4 (fun k => z (kReg c k)) ++ regFile 8 32 (fun k => z (iReg c k))
    ++ regFile 512 32 (fun k => z (vReg c k)) ++ List.replicate 512 0

/-- A core's save record written to its entry; the core notes where it could not be (R300). -/
def writeRecord (s : State) (n : Nat) (cmd : Cmd) : State :=
  let c := mcore s n
  let a := saveAt cmd c.lcore
  let s := fillTlb s c.tenant a saveBytes
  let w := tStore s c.tenant a (saveRecord c cmd c.cause)
  setCore w.1 n { mcore w.1 n with recBad := c.recBad || w.2 }

/-- R308: a core in FAULT; a cluster none of whose cores is left enters FAULT (R310). [DEDUCED, log 45] -/
def coreFault (s : State) (n : Nat) : State :=
  let s := loseCore s n 6 { endOf n (mcore s n) with reach := (mcore s n).passed.toNat }
  if (natsFrom (n / 8 * 8) 8).all (fun m => (mcore s m).st == 6) then raiseEvent (setBlkState s .mule (n / 8) 6) .mgmt 0 2 else s

/-- R297: a core stops for a cause: its record is written and EVENT.stop raised; with cause 4 the core enters FAULT (R308). [DEDUCED, log 45] -/
def stopCore (s : State) (n cause : Nat) : State :=
  let s := setCore s n { mcore s n with st := 5, cause := cause }
  let s := raiseEvent s .mule (n / 8) 0
  let s := if cause = 2 then raiseEvent s .mule (n / 8) 2 else s
  match coreRun s n with
  | some (_, j) => let s := writeRecord s n j.cmd; if cause = 4 then coreFault s n else s
  | none => s

/-- R294, R264: a core after an instruction, at a new pc: it halts at the end of the image, stops at the cap, or goes on. -/
def afterInstr (s : State) (n : Nat) : State :=
  let c := mcore s n
  if c.st != 2 then s
  else if c.code.length ≤ c.pc then setCore s n { c with st := 4 }
  else match coreRun s n with
    | some (_, j) => if mrIcap j.cmd ≤ c.retired.toNat then stopCore s n 3 else s
    | none => s

/-- R289: the cores of a run as it takes them: occupied, not yet loaded. -/
def takeCores (s : State) (j : Job) (cores : List Nat) : State :=
  let id := s.mule.nextRun
  let r : MuleRun := { id := id, tenant := j.tenant, stream := j.stream, count := j.cmd.count, iter := j.iter, gen := j.gen, cores := cores }
  let s := { s with mule := { s.mule with runs := s.mule.runs ++ [r], nextRun := id + 1 } }
  (cores.zip (List.range cores.length)).foldl (fun x e => setCore x e.1 {
    st := 2, run := id, lcore := e.2, tenant := j.tenant, step := BitVec.ofNat 64 (cStep j.cmd) }) s

/-- R290, R291, R302: the run of a core is loaded, checked and started or resumed. -/
def doMuleRun (s0 : State) (n : Nat) : State :=
  match coreRun s0 n with
  | none => s0
  | some (r, j) =>
    if r.started || s0.mgmt.lamb then s0
    else
      let c := j.cmd
      let t := j.tenant
      let code := (mrCode c, 4 * mrNinst c)
      let args := (mrArgs c, if mrArgs c = 0 then 0 else 64)
      let save := (mrSave c, mrCores c * saveBytes)
      let s := readSpans s0 t [some code, some args, some save]
      let cl := r.cores.getD 0 0 / 8
      let ends := fun (s : State) (st : Nat) (f : Fl) => endRunMule s0 s r j (failResult st f 0)
      if !usable s t code.1 code.2 false || !usable s t args.1 args.2 false || !usable s t save.1 save.2 true then ends s 0x22 {}
      else if tPoison s t code.1 code.2 || tPoison s t args.1 args.2 || (mrResume c && tPoison s t save.1 save.2) then
        ends s 0x20 { poison := true }
      else if mrResume c && !(List.range (mrCores c)).all (fun k => recordOk s t c (saveAt c k)) then ends (raiseEvent s .mule cl 4) 0x14 {}
      else
        let img := (List.range (mrNinst c)).map (fun p => tNat s t (code.1 + 4 * p) 4)
        let av := (List.range 8).map (fun p => if mrArgs c = 0 then 0 else tNat s t (args.1 + 8 * p) 8)
        let w := clearRecords s t c
        if w.2 then ends w.1 0x22 {}
        else if !imageOk img then ends (raiseEvent w.1 .mule cl 4) 0x14 {}
        else
          let start := fun (m : MCore) => if mrResume c then readRecord s t (saveAt c m.lcore) m else startCore av r.cores.length m.lcore m
          let x := (runCores r).foldl (fun x p => setCore x p (start { mcore x p with code := img.map (BitVec.ofNat 32) })) w.1
          -- a core that the run lost before it was loaded stops at its first boundary, with its record (R299, R304)
          let q := r.lost.foldl (fun (p : State × List MEnd) e =>
            let m := start { lcore := e.lcore, tenant := t }
            let k := tStore p.1 t (saveAt c e.lcore) (saveRecord m c 5)
            (k.1, p.2 ++ [{ endOf e.core m with cause := 5, recBad := k.2 }])) (x, [])
          (runCores r).foldl afterInstr (modRunM q.1 r.id (fun y => { y with started := true, lost := q.2 }))

/-! Barriers (R292). -/

/-- A core has reached barrier `b` or halted. -/
def reachedBar (e : MEnd) (b : Nat) : Bool := e.halted || b ≤ e.reach

/-- The barrier at which a core waits can be released. -/
def barReady (s : State) (r : MuleRun) (n : Nat) : Bool :=
  (runView s r).all (fun e => reachedBar e ((mcore s n).passed.toNat + 1))

/-- R292: the cores that wait at a core's barrier continue. -/
def doBarrierRelease (s : State) (n : Nat) : State :=
  match coreRun s n with
  | none => s
  | some (r, _) =>
    let c := mcore s n
    if c.st != 3 || !barReady s r n || s.mgmt.lamb then s
    else
      let go := (runCores r).filter (fun m => (mcore s m).st == 3 && (mcore s m).passed == c.passed)
      let s := go.foldl (fun x m => let k := mcore x m; setCore x m { k with st := 2, passed := k.passed + 1 }) s
      go.foldl afterInstr s

/-! The end of a run (R295, R296, R300). -/

/-- A run has ended: each core has halted, stopped, or waits at a barrier that cannot be released. -/
def runDone (s : State) (r : MuleRun) : Bool :=
  r.started && (runView s r).all (fun e => e.halted || e.cause != 0 || (e.waits && !barReady s r e.core))

/-- The run that MULE_RUN_END at a core ends: one that has lost all its cores, this one among them, or the one that the core serves. -/
def endingRun (s : State) (n : Nat) : Option (MuleRun × Job) :=
  match s.mule.runs.find? (fun r => r.cores.contains n && (runCores r).isEmpty) with
  | some r => (s.jobs.find? (fun j => decide (j.unit = .mule) && j.result.isNone && runOf j r)).map (fun j => (r, j))
  | none => coreRun s n

/-- R295: two summary values combined. -/
def combSum (comb : Nat) (ovf : Bool) (x y : Nat) : Nat × Fl :=
  let fp := fun (q : Val × Fl) => let w := narrow .fp64 .rne true q.1; (w.1, flOr q.2 w.2)
  match comb with
  | 0 => (x, Fl.none)
  | 1 => fp (vMax (fDecode .fp64 x) (fDecode .fp64 y))
  | 2 => fp (vMin (fDecode .fp64 x) (fDecode .fp64 y))
  | 3 => fp (vAdd false (fDecode .fp64 x) (fDecode .fp64 y))
  | 4 => (if sgn 64 x < sgn 64 y then y else x, Fl.none)
  | 5 => (if sgn 64 y < sgn 64 x then y else x, Fl.none)
  | 6 => iAdd true ovf 64 x y
  | _ => (x ||| y, Fl.none)

/-- R295: the summaries of a run's cores combined in logical order. -/
def sumsOf (c : Cmd) (cs : List MEnd) : Nat × Fl :=
  match cs with
  | [] => (0, Fl.none)
  | x :: xs => xs.foldl (fun a (y : MEnd) => let q := combSum (mrComb c) (cOvf c) a.1 y.sr.toNat; (q.1, flOr a.2 q.2)) (x.sr.toNat, Fl.none)

/-- R296: the result of a run none of whose cores stopped: their flags, those of the summary where it is written, and the instructions
that they retired. -/
def runResult (c : Cmd) (cs : List MEnd) : Result :=
  let fl := flAll (cs.map (fun x => flOfRun x.flags))
  ranResult (flRec (if mrSlotEn c then flOr fl (sumsOf c cs).2 else fl)) ((cs.map (fun x => x.retired.toNat)).foldl (· + ·) 0 % 2 ^ 32)

/-- The status of a stop cause (Table 7.14). -/
def causeStatus (cause : Nat) : Nat :=
  match cause with
  | 2 | 4 => 0x20
  | 3 => 0x24
  | _ => 0x22

/-- R296: a run ends: the summary and the result are formed. -/
def doMuleRunEnd (s0 : State) (n : Nat) : State :=
  match endingRun s0 n with
  | none => s0
  | some (r, j) =>
    if !runDone s0 r || s0.mgmt.lamb then s0
    else
      let c := j.cmd
      let cs := runView s0 r
      let fl := flAll (cs.map (fun x => flOfRun x.flags))
      match cs.find? (fun x => x.cause != 0) with
      | none =>
        let s := if mrSlotEn c then jobSum s0 j (mrSlot c) (sumsOf c cs).1 else s0
        endRunMule s0 s r j (runResult c cs)
      | some x =>
        -- cores that halted or wait write their records now (R299)
        let s := ((runCores r).filter (fun m => (mcore s0 m).cause == 0)).foldl (fun y m => writeRecord y m c) s0
        let bad := (runView s r).any (·.recBad)
        let det := x.cause + x.lcore * 256 + (cs.filter (fun y => y.cause != 0)).length * 2 ^ 16 + b2n bad * 2 ^ 24
        let word := if 1 ≤ mrComb c && mrComb c ≤ 3 then 0x7FF8000000000000 else 2 ^ 64 - 1
        let s := if mrSlotEn c then jobSum s j (mrSlot c) word else s
        let st := causeStatus x.cause
        endRunMule s0 s r j { failResult st { flRec fl with poison := st == 0x20 } det with cap := x.cause == 3 }

/-! The steps of this part. -/

/-- MULE_RUN_END (R296). -/
def execMuleRunEnd (core : Nat) (s : State) : Host.Outcome State Fault Refusal := .next (whenLive s (doMuleRunEnd s core))

/-- BARRIER_RELEASE (R292). -/
def execBarrierRelease (core : Nat) (s : State) : Host.Outcome State Fault Refusal := .next (whenLive s (doBarrierRelease s core))

end Sys2Proof.Machine
end

