-- ==== Sys2Proof/Machine/Solver.lean ====
section
/-! DEFINITION. Solver units: SOLVE_SETUP, SOLVE_UPD, SOLVE (chapter 8). -/

namespace Sys2Proof.Machine

/-! FP64 operations (R333). Vectors are lists of FP64 bits. -/

/-- What a run of FP64 operations has raised: flags, and operations with each FMA counted as two (SOLV.PERF2). -/
structure Cnt where
  fl : Fl := {}
  ops : Nat := 0
deriving DecidableEq, Repr

/-- A run of FP64 operations. -/
abbrev FpM := StateM Cnt

/-- One operation of weight `w`, rounded to nearest even. -/
def fpOp (w : Nat) (r : Val × Fl) : FpM Nat := fun c =>
  let q := narrow .fp64 .rne true r.1
  (q.1, { fl := flOr c.fl (flOr r.2 (flRec q.2)), ops := c.ops + w })

/-- x + y. -/
def fpAdd (x y : Nat) : FpM Nat := fpOp 1 (vAdd false (fDecode .fp64 x) (fDecode .fp64 y))
/-- x × y. -/
def fpMul (x y : Nat) : FpM Nat := fpOp 1 (vMul (fDecode .fp64 x) (fDecode .fp64 y))
/-- x × y + z. -/
def fpFma (x y z : Nat) : FpM Nat := fpOp 2 (vFma false (fDecode .fp64 x) (fDecode .fp64 y) (fDecode .fp64 z))
/-- x / y. -/
def fpDiv (x y : Nat) : FpM Nat := fpOp 1 (vDiv (fDecode .fp64 x) (fDecode .fp64 y))
/-- The root of x. -/
def fpSqrt (x : Nat) : FpM Nat := fpOp 1 (vSqrt (fDecode .fp64 x))
/-- -x. -/
def fpNeg (x : Nat) : Nat := Nat.xor x (2 ^ 63)
/-- x is NaN. -/
def fpNaN (x : Nat) : Bool := vIsNaN (fDecode .fp64 x)
/-- x is a zero. -/
def fpZero (x : Nat) : Bool := vIsZero (fDecode .fp64 x)
/-- x < y, false beside a NaN. -/
def fpLt (x y : Nat) : Bool := !fpNaN x && !fpNaN y && vCmp (fDecode .fp64 x) (fDecode .fp64 y) == .lt
/-- x ≤ y, false beside a NaN. -/
def fpLe (x y : Nat) : Bool := !fpNaN x && !fpNaN y && vCmp (fDecode .fp64 x) (fDecode .fp64 y) != .gt
/-- The FP64 value 1. -/
def fpOne : Nat := 0x3FF0000000000000
/-- The canonical FP64 NaN. -/
def fpCanon : Nat := 0x7FF8000000000000

/-- Two lists combined element by element. -/
def zipF (f : Nat → Nat → FpM Nat) (x y : List Nat) : FpM (List Nat) := (x.zip y).mapM (fun p => f p.1 p.2)

/-- One level of a reduction tree; none with v gives v. -/
def sumLevel : List (Option Nat) → FpM (List (Option Nat))
  | some a :: some b :: t => do
    let c ← fpAdd a b
    let r ← sumLevel t
    pure (some c :: r)
  | a :: b :: t => do
    let r ← sumLevel t
    pure ((if a.isSome then a else b) :: r)
  | l => pure l

/-- `n` levels of a reduction tree. -/
def sumLevels : Nat → List (Option Nat) → FpM (List (Option Nat))
  | 0, l => pure l
  | n + 1, l => do sumLevels n (← sumLevel l)

/-- R333: dot, over 32 partial sums. -/
def fpDot (u v : List Nat) : FpM Nat := do
  let p ← ((u.zip v).zip (List.range u.length)).foldlM (fun (p : List (Option Nat)) e =>
    match p.getD (e.2 % 32) none with
    | none => do pure (listSet p (e.2 % 32) (some (← fpMul e.1.1 e.1.2)))
    | some a => do pure (listSet p (e.2 % 32) (some (← fpFma e.1.1 e.1.2 a)))) (List.replicate 32 none)
  pure (((← sumLevels 5 p).getD 0 none).getD 0)

/-- R333: nrm2. -/
def fpNrm2 (u : List Nat) : FpM Nat := do fpSqrt (← fpDot u u)

/-- The stored entries of row `i` of a system: column and value, ascending column. -/
def sysRow (y : SolSys) (i : Nat) : List (Nat × Nat) :=
  let a := y.rowptr.getD i 0
  let n := y.rowptr.getD (i + 1) 0 - a
  ((y.colidx.drop a).take n).zip ((y.vals.drop a).take n)

/-- R333: spmv. -/
def fpSpmv (y : SolSys) (x : List Nat) : FpM (List Nat) :=
  (List.range y.n).mapM (fun i => do
    let r ← (sysRow y i).foldlM (fun (acc : Option Nat) e => match acc with
      | none => do pure (some (← fpMul e.2 (x.getD e.1 0)))
      | some v => do pure (some (← fpFma e.2 (x.getD e.1 0) v))) none
    pure (r.getD 0))

/-- R333: res. -/
def fpRes (b : List Nat) (y : SolSys) (x : List Nat) : FpM (List Nat) :=
  (List.range y.n).mapM (fun i => (sysRow y i).foldlM (fun r e => fpFma (fpNeg e.2) (x.getD e.1 0) r) (b.getD i 0))

/-- R333: axpy. -/
def fpAxpy (a : Nat) (x y : List Nat) : FpM (List Nat) := zipF (fun p q => fpFma a p q) x y

/-! Symbolic analysis (R322, R323). -/

/-- The first and the last column of supernode `j`. -/
def snFirst (sn : List Nat) (j : Nat) : Nat := sn.getD j 0
/-- The last column of supernode `j`. -/
def snLast (sn : List Nat) (j : Nat) : Nat := sn.getD (j + 1) 0 - 1
/-- The columns of supernode `j`. -/
def snCols (sn : List Nat) (j : Nat) : List Nat := natsFrom (snFirst sn j) (snLast sn j + 1 - snFirst sn j)
/-- The supernodes of a list of boundaries. -/
def snNum (sn : List Nat) : Nat := sn.length - 1
/-- The supernode that holds column `i`. -/
def snOf (sn : List Nat) (i : Nat) : Nat := ((List.range (snNum sn)).find? (fun j => snFirst sn j ≤ i && i ≤ snLast sn j)).getD 0

/-- The inverse of a permutation. -/
def permInv (perm : List Nat) : List Nat := (List.range perm.length).map (fun i => perm.findIdx (· == i))

/-- The stored positions of a CSR pattern as (row, column). -/
def csrEntries (rowptr colidx : List Nat) : List (Nat × Nat) :=
  (List.range (rowptr.length - 1)).flatMap (fun i =>
    ((colidx.drop (rowptr.getD i 0)).take (rowptr.getD (i + 1) 0 - rowptr.getD i 0)).map (fun c => (i, c)))

/-- Ā below the diagonal, by column: the permuted pattern, symmetrised for LU (R322). -/
def patBelow (chol : Bool) (rowptr colidx perm : List Nat) : List (Nat × Nat) :=
  let inv := permInv perm
  let e := (csrEntries rowptr colidx).map (fun p => (inv.getD p.1 0, inv.getD p.2 0))
  if chol then e else e ++ e.map (fun p => (p.2, p.1))

/-- A row set with its parent in the elimination forest. -/
structure RowSet where
  rows : List Nat := []
  parent : Option Nat := none
deriving DecidableEq, Repr

/-- R322: the row set of supernode `j` after those before it. -/
def rowSet (sn : List Nat) (pat : List (Nat × Nat)) (done : List RowSet) (j : Nat) : RowSet :=
  let f := snFirst sn j
  let l := snLast sn j
  let own := (pat.filter (fun p => l < p.1 && f ≤ p.2 && p.2 ≤ l)).map (·.1)
  let kids := (done.filter (fun c => c.parent == some j)).flatMap (fun c => c.rows.filter (fun i => l < i))
  let met := (List.range (snNum sn)).filter (fun k => (own ++ kids).any (fun i => snFirst sn k ≤ i && i ≤ snLast sn k))
  { rows := met.flatMap (snCols sn), parent := met.head? }

/-- R322: every row set, in ascending order of supernode. -/
def rowSets (sn : List Nat) (pat : List (Nat × Nat)) : List RowSet :=
  (List.range (snNum sn)).foldl (fun done j => done ++ [rowSet sn pat done j]) []

/-- R323: the columns of each supernode with the height h_J. -/
def snShape (sn : List Nat) (rows : List (List Nat)) : List (Nat × Nat) :=
  (List.range (snNum sn)).map (fun j => let w := (snCols sn j).length; (w, w + (rows.getD j []).length))

/-- R323: the diagonals missing from a pattern. [DEDUCED, log 50] -/
def addedDiags (rowptr colidx : List Nat) : Nat :=
  (rowptr.length - 1) - ((csrEntries rowptr colidx).filter (fun p => p.1 == p.2)).length

/-! Operand fields. -/

/-- The unit that a solver command names. -/
def svUnit (c : Cmd) : Nat := cf c 4 48 2
/-- The system that it names. -/
def svSys (c : Cmd) : Nat := cf c 4 52 4
/-- The tenant address in bytes 32 to 39: setup descriptor, pair list or parameter block. -/
def svAddr (c : Cmd) : Nat := cf c 4 0 42 * 64
/-- The op of a SOLVE_SETUP. -/
def suOp (c : Cmd) : Nat := cf c 4 56 2
/-- Cholesky. -/
def suChol (c : Cmd) : Bool := bitAt (cw c 4) 58
/-- The factor area. -/
def suFactor (c : Cmd) : Nat := cf c 5 0 36 * 4096
/-- The pivot log. -/
def suLog (c : Cmd) : Nat := cf c 6 0 42 * 64
/-- The entries of the pivot log. -/
def suLogcap (c : Cmd) : Nat := cf c 6 42 16
/-- The setup record. -/
def suRec (c : Cmd) : Nat := cf c 7 0 42 * 64
/-- SOLVE_UPD adds. -/
def upAdd (c : Cmd) : Bool := bitAt (cw c 4) 56
/-- The pairs of a SOLVE_UPD. -/
def upCount (c : Cmd) : Nat := cf c 5 0 24
/-- The method of a SOLVE. -/
def soMethod (c : Cmd) : Nat := cf c 4 56 3
/-- fact. -/
def soFact (c : Cmd) : Bool := bitAt (cw c 4) 59
/-- x0. -/
def soX0 (c : Cmd) : Bool := bitAt (cw c 4) 60
/-- prec. -/
def soPrec (c : Cmd) : Bool := bitAt (cw c 4) 61
/-- maxit. -/
def soMaxit (c : Cmd) : Nat := cf c 5 0 16
/-- The summary slot. -/
def soSlot (c : Cmd) : Nat := cf c 5 16 4
/-- The slot is written. -/
def soSlotEn (c : Cmd) : Bool := bitAt (cw c 5) 20

/-- The own fields of a SOLVE_SETUP (R319). -/
def setupFieldsOk (c : Cmd) : Bool :=
  cZero c 4 42 6 && cZero c 4 50 2 && cZero c 4 59 5 && cZero c 5 36 28 && cZero c 6 58 6 && cZero c 7 42 22 && suOp c != 3
    && (suOp c != 1 || (cf c 4 0 42 == 0 && !suChol c && cw c 5 == 0 && cw c 6 == 0 && cw c 7 == 0))
    && (suOp c != 2 || (cw c 5 == 0 && cw c 6 == 0))

/-- The own fields of a SOLVE_UPD (R329). -/
def updFieldsOk (c : Cmd) : Bool :=
  cZero c 4 42 6 && cZero c 4 50 2 && cZero c 4 57 7 && upCount c != 0 && cZero c 5 24 40 && cw c 6 == 0 && cw c 7 == 0

/-- The own fields of a SOLVE (R338). -/
def solveFieldsOk (c : Cmd) : Bool :=
  cZero c 4 42 6 && cZero c 4 50 2 && cZero c 4 62 2 && soMethod c ≤ 4 && cZero c 5 21 43 && cw c 6 == 0 && cw c 7 == 0
    && !(soSlot c == 15 && soSlotEn c)

/-! Systems and their units. -/

/-- The systems of a unit. -/
def solvSystems (s : State) (u : Nat) : Tab SolSys := tabGet [] s.solvs u

/-- The system of a number on a unit. -/
def sysAt (s : State) (u k : Nat) : Option SolSys := tabFind (solvSystems s u) k

/-- The state with the systems of a unit changed. -/
def modSolv (s : State) (u : Nat) (f : Tab SolSys → Tab SolSys) : State := { s with solvs := tabMod [] s.solvs u f }

/-- A system put in its place. -/
def putSys (s : State) (u k : Nat) (y : SolSys) : State := modSolv s u (fun t => tabSet t k y)

/-- R315: the system that a command names, absent where it is another tenant's. -/
def cmdSys (s : State) (j : Job) : Option SolSys :=
  match sysAt s (svUnit j.cmd) (svSys j.cmd) with
  | some y => if y.tenant == j.tenant then some y else none
  | none => none

/-- The granules that the systems of a unit hold. -/
def granulesUsed (s : State) (u : Nat) : Nat := sumOf ((solvSystems s u).map (fun e => e.2.granules))

/-- The granules that a tenant holds on all units (Table 15.5). -/
def granulesOf (s : State) (t : Nat) : Nat :=
  sumOf ((List.range 4).map (fun u => sumOf (((solvSystems s u).filter (fun e => e.2.tenant == t)).map (fun e => e.2.granules))))

/-- R328, R350: the systems of a tenant released on every unit. -/
def releaseSystems (s : State) (t : Nat) : State :=
  { s with solvs := tabMap s.solvs (fun _ y => y.filter (fun e => e.2.tenant != t)) }

/-- The command that a unit serves next, where it is of the given opcode and the unit runs. -/
def solvJob (s : State) (u op : Nat) : Option Job :=
  match nextJob s (.solv u) with
  | some j => if cOp j.cmd == op && unitRuns s .solv u && svUnit j.cmd == u then some j else none
  | none => none

/-- A tenant range translated wholly into LPDDR. -/
def lpddrXlated (s : State) (t a n : Nat) (w : Bool) : Bool :=
  a + n ≤ 2 ^ 48 && (pagesOf a n).all (fun p =>
    match xlate s t (p * 4096) with
    | some (la, wr) => (!w || (wr && !inShared s la)) && inLpddr la
    | none => false)

/-- `n` little-endian words of `k` bytes from a tenant address. -/
def tWords (s : State) (t a k n : Nat) : List Nat := (List.range n).map (fun i => tNat s t (a + k * i) k)

/-- A solver command ends with a result; SOLV.PERF0 counts it. -/
def solvEnd (s0 s : State) (u : Nat) (j : Job) (r : Result) : State :=
  let s := perfAdd s .solv u 0 1
  let s := if r.status == 0x22 then raiseEvent s .solv u 5 else s
  let s := if r.status == 0x14 || r.status == 0x11 then raiseEvent s .solv u 4 else s
  let s := if r.status == 0x26 then raiseEvent s .solv u 1 else s
  finishJob s0 s j r

/-- An execution refusal of Table 8.3, with the index of the offending element (R321). -/
def solvRefuse (s0 s : State) (u : Nat) (j : Job) (code idx : Nat) : State :=
  solvEnd s0 s u j (failResult 0x14 {} (code + min idx 0xFFFFFF * 256))

/-- A command that reads poison before it starts (R799) or names a failed system (R348). -/
def solvPoisoned (s0 s : State) (u : Nat) (j : Job) : State := solvEnd s0 s u j (failResult 0x20 { poison := true } 0)

/-- A command that stops at an access that is not served (R346). -/
def solvGone (s0 s : State) (u : Nat) (j : Job) : State := solvEnd s0 s u j (failResult 0x22 {} 0)

/-- The state after the first of some reads that is not served, where one is not (R404). -/
def spansMissed (s : State) (t : Nat) (spans : List (Nat × Nat)) : State :=
  match missing s t none spans with
  | some (a, n) => missAt s t a n false
  | none => s

/-- R348: single-bit errors of the structure memory that a command met: corrected, and each counted. -/
def structFixed (s : State) (u : Nat) (e : StructErr) : State := raiseTimes s .solv u 2 e.corrected

/-- The operation reads these FP64 values as float operands: a signalling NaN among them sets NV (R89). -/
def fpReads (xs : List Nat) : FpM Unit := fun c => ((), { c with fl := flOr c.fl { nv := xs.any (fun x => vIsSNaN (fDecode .fp64 x)) } })

/-! SOLVE_SETUP (8.2). -/

/-- A setup descriptor (Table 8.2). -/
structure Setup where
  n : Nat
  ns : Nat
  nnz : Nat
  rowptr : Nat
  colidx : Nat
  values : Nat
  perm : Nat
  snode : Nat
  ok : Bool
deriving DecidableEq, Repr

/-- The setup descriptor that 64 bytes hold; `ok` says that its version and reserved bits are right. -/
def setupOf (d : Nat) : Setup :=
  { n := bits d 64 24, ns := bits d 96 24, nnz := bits d 128 32, rowptr := bits d 192 48, colidx := bits d 256 48, values := bits d 320 48,
    perm := bits d 384 48, snode := bits d 448 48,
    ok := bits d 0 64 == 1 && bits d 88 8 == 0 && bits d 120 8 == 0 && bits d 160 32 == 0
      && [192, 256, 320, 384, 448].all (fun o => bits d (o + 48) 16 == 0) }

/-- The arrays of a setup descriptor as (address, bytes, element size). -/
def setupArrays (d : Setup) : List (Nat × Nat × Nat) :=
  [(d.rowptr, 4 * (d.n + 1), 4), (d.colidx, 4 * d.nnz, 4), (d.values, 8 * d.nnz, 8), (d.perm, 4 * d.n, 4), (d.snode, 4 * (d.ns + 1), 4)]

/-- The arrays as read. -/
structure SetupData where
  rowptr : List Nat
  colidx : List Nat
  vals : List Nat
  perm : List Nat
  snode : List Nat

/-- The arrays of a descriptor read in a tenant's translation. [DEDUCED, log 48] -/
def readSetup (s : State) (t : Nat) (d : Setup) : SetupData :=
  { rowptr := tWords s t d.rowptr 4 (d.n + 1), colidx := tWords s t d.colidx 4 d.nnz, vals := tWords s t d.values 8 d.nnz,
    perm := tWords s t d.perm 4 d.n, snode := tWords s t d.snode 4 (d.ns + 1) }

/-- The first index at which a check fails. -/
def firstBad (n : Nat) (p : Nat → Bool) : Option Nat := (List.range n).find? (fun i => !p i)

/-- The row that holds stored entry `e`. -/
def rowOfEntry (rowptr : List Nat) (e : Nat) : Nat := ((List.range (rowptr.length - 1)).find? (fun i => e < rowptr.getD (i + 1) 0)).getD 0

/-- R321: the first check of the arrays that fails, as its code and the index of the offending element. [DEDUCED, log 48] -/
def setupCheck (chol : Bool) (n nnz ns : Nat) (x : SetupData) : Option (Nat × Nat) :=
  let rp := fun i => x.rowptr.getD i 0
  let ci := fun i => x.colidx.getD i 0
  let sn := fun i => x.snode.getD i 0
  match firstBad (n + 1) (fun i => (i != 0 || rp 0 == 0) && (i == 0 || rp (i - 1) ≤ rp i) && (i != n || rp n == nnz)) with
  | some i => some (0x03, i)
  | none =>
    match firstBad nnz (fun e => decide (ci e < n) && (e == rp (rowOfEntry x.rowptr e) || ci (e - 1) < ci e)) with
    | some i => some (0x04, i)
    | none =>
      match firstBad n (fun i => decide (x.perm.getD i 0 < n) && !(x.perm.take i).contains (x.perm.getD i 0)) with
      | some i => some (0x05, i)
      | none =>
        match (firstBad (ns + 1) (fun i => (i != 0 || sn 0 == 0) && (i == 0 || sn (i - 1) < sn i) && (i != ns || sn ns == n))).or
            (firstBad (ns + 1) (fun i => i == 0 || sn i ≤ sn (i - 1) + 256)) with
        | some i => some (0x06, i)
        | none =>
          let es := csrEntries x.rowptr x.colidx
          if chol then (firstBad nnz (fun e => let p := es.getD e (0, 0); es.contains (p.2, p.1))).map (fun i => (0x07, i)) else none

/-- R322, R323: the system that a create builds from checked arrays. -/
def buildSys (c : Cmd) (t : Nat) (d : Setup) (x : SetupData) : SolSys :=
  let rows := (rowSets x.snode (patBelow (suChol c) x.rowptr x.colidx x.perm)).map (·.rows)
  let sh := snShape x.snode rows
  let nnzp := d.nnz + addedDiags x.rowptr x.colidx
  let nidx := sumOf (sh.map (·.2))
  let fv := sumOf (sh.map (fun p => if suChol c then p.1 * p.2 else 2 * p.1 * p.2 - p.1 * p.1))
  { tenant := t, chol := suChol c, n := d.n, rowptr := x.rowptr, colidx := x.colidx, vals := x.vals, perm := x.perm, snode := x.snode,
    rows := rows, farea := suFactor c, log := suLog c, logcap := suLogcap c,
    granules := ceilDiv (4096 + 16 * (d.n + 1) + 12 * nnzp + 16 * d.ns + 4 * nidx) 65536, nnzp := nnzp, nidx := nidx, fvals := fv,
    fpages := ceilDiv (8 * fv) 4096 }

/-- R324: a setup record. -/
def setupRecord (y : SolSys) : List Byte :=
  leBytes 4 y.granules ++ leBytes 4 y.nnzp ++ leBytes 8 y.nidx ++ leBytes 8 y.fvals ++ leBytes 8 y.fpages

/-- What the checks of create and measure find (R320, R321, R799, R346): nothing to do, an end, or the system described. -/
inductive SetupEnd where
  | gone
  | poisoned
  | refused (code idx : Nat)
  | built (y : SolSys)

/-- R320, R321: what the descriptor alone settles, before its arrays are read. -/
def setupHead (s : State) (t : Nat) (c : Cmd) : Option SetupEnd :=
  if !usable s t (svAddr c) 64 false then some .gone
  else if tPoison s t (svAddr c) 64 then some .poisoned
  else
    let d := setupOf (tNat s t (svAddr c) 64)
    if !d.ok || d.n == 0 || d.nnz == 0 then some (.refused 0x01 0)
    else if !(setupArrays d).all (fun a => a.1 % a.2.2 == 0) then some (.refused 0x02 0)
    else if d.ns == 0 || d.n < d.ns then some (.refused 0x06 0)
    else if !(setupArrays d).all (fun a => lpddrXlated s t a.1 a.2.1 false) || !lpddrXlated s t (suRec c) 32 true then some (.refused 0x02 0)
    else if !(setupArrays d).all (fun a => usable s t a.1 a.2.1 false) then some .gone
    else none

/-- R320, R321: the descriptor and its arrays read and checked. -/
def setupRead (s : State) (t : Nat) (c : Cmd) : SetupEnd :=
  match setupHead s t c with
  | some e => e
  | none =>
    let d := setupOf (tNat s t (svAddr c) 64)
    if (setupArrays d).any (fun a => tPoison s t a.1 a.2.1) then .poisoned
    else
      let x := readSetup s t d
      match setupCheck (suChol c) d.n d.nnz d.ns x with
      | some e => .refused e.1 e.2
      | none => .built (buildSys c t d x)

/-- The spans of a setup's arrays. -/
def setupSpans (d : Setup) : List (Nat × Nat) := (setupArrays d).map (fun a => (a.1, a.2.1))

/-- The state as a setup's reads leave it: translations cached, and errors met in its descriptor, then in its arrays where they are read
(R378, R381). [DEDUCED, log 48] -/
def setupFill (s : State) (t : Nat) (c : Cmd) : State :=
  let s := readSpans s t [some (svAddr c, 64)]
  let d := setupOf (tNat s t (svAddr c) 64)
  let s := fillSpans s t ((setupSpans d ++ [(suRec c, 32)]).map some)
  if (setupHead s t c).isNone then readSpans s t ((setupSpans d).map some) else s

/-- The state after a setup that meets a page that is not served. -/
def setupMissed (s : State) (t : Nat) (c : Cmd) : State :=
  spansMissed s t ((svAddr c, 64) :: setupSpans (setupOf (tNat s t (svAddr c) 64)))

/-- R327: the factor area and the log are mapped writable in LPDDR and overlap neither each other nor rec. -/
def areasOk (s : State) (t : Nat) (c : Cmd) (y : SolSys) : Bool :=
  let f := (y.farea, 4096 * y.fpages)
  let l := (y.log, 32 * y.logcap)
  let r := (suRec c, 32)
  lpddrXlated s t f.1 f.2 true && lpddrXlated s t l.1 l.2 true && !rangesMeet f.1 f.2 l.1 l.2 && !rangesMeet f.1 f.2 r.1 r.2
    && !rangesMeet l.1 l.2 r.1 r.2

/-- R326: granules over the tenant's quota, or over what the unit has free; the granules of an existing system count as free (R325). -/
def quotaHit (s : State) (u t k need : Nat) : Option Nat :=
  let old := match sysAt s u k with
    | some y => if y.tenant == t then y.granules else 0
    | none => 0
  if (ten s t).qSmem < granulesOf s t - old + need then some 0
  else if 1024 < granulesUsed s u - old + need then some 1
  else none

/-- R324: the setup record written; the command completes with the granules in its detail. -/
def setupDone (s0 s : State) (u : Nat) (j : Job) (y : SolSys) : State :=
  let w := tStore s j.tenant (suRec j.cmd) (setupRecord y)
  if w.2 then solvGone s0 w.1 u j else solvEnd s0 w.1 u j { detail := y.granules }

/-- R348: the command names a failed system of its tenant. -/
def onFailed (s : State) (j : Job) : Bool := match cmdSys s j with
  | some y => y.failed
  | none => false

/-- R321 to R327: create. One that names a failed system completes POISONED, as every command on it but release does (R348). -/
def doSetupCreate (s0 : State) (u : Nat) : State :=
  match solvJob s0 u 0x33 with
  | none => s0
  | some j =>
    if suOp j.cmd != 0 then s0
    else if onFailed s0 j then solvPoisoned s0 s0 u j
    else
      let c := j.cmd
      let s := setupFill s0 j.tenant c
      match setupRead s j.tenant c with
      | .gone => solvGone s0 (setupMissed s j.tenant c) u j
      | .poisoned => solvPoisoned s0 s u j
      | .refused code idx => solvRefuse s0 s u j code idx
      | .built y =>
        let s := fillTlb (fillTlb s j.tenant y.farea (4096 * y.fpages)) j.tenant y.log (32 * y.logcap)
        if !areasOk s j.tenant c y then solvRefuse s0 s u j 0x02 0
        else match sysAt s u (svSys c) with
          | some old =>
            -- R315: a number that another tenant holds cannot be built upon
            if old.tenant != j.tenant then solvGone s0 s u j
            else match quotaHit s u j.tenant (svSys c) y.granules with
              | some b => solvEnd s0 s u j (failResult 0x11 {} (b + satTo 16 y.granules * 65536))
              | none => setupDone s0 (putSys s u (svSys c) y) u j y
          | none => match quotaHit s u j.tenant (svSys c) y.granules with
            | some b => solvEnd s0 s u j (failResult 0x11 {} (b + satTo 16 y.granules * 65536))
            | none => setupDone s0 (putSys s u (svSys c) y) u j y

/-- R324: measure writes the setup record and no other thing. One that names a failed system completes POISONED (R348). [DEDUCED, log 50] -/
def doSetupMeasure (s0 : State) (u : Nat) : State :=
  match solvJob s0 u 0x33 with
  | none => s0
  | some j =>
    if suOp j.cmd != 2 then s0
    else if onFailed s0 j then solvPoisoned s0 s0 u j
    else
      let s := setupFill s0 j.tenant j.cmd
      match setupRead s j.tenant j.cmd with
      | .gone => solvGone s0 (setupMissed s j.tenant j.cmd) u j
      | .poisoned => solvPoisoned s0 s u j
      | .refused code idx => solvRefuse s0 s u j code idx
      | .built y => setupDone s0 s u j y

/-- R328: release. -/
def doSetupRelease (s0 : State) (u : Nat) : State :=
  match solvJob s0 u 0x33 with
  | none => s0
  | some j =>
    if suOp j.cmd != 1 then s0
    else match cmdSys s0 j with
      | none => solvGone s0 s0 u j
      | some y => solvEnd s0 (modSolv s0 u (fun t => tabDel t (svSys j.cmd))) u j { detail := y.granules }

/-! SOLVE_UPD (8.3). -/

/-- R348: an uncorrectable structure-memory error met by a command marks its system failed. [DEDUCED, log 50] -/
def failSys (s : State) (u k tenant : Nat) : State :=
  blkError (raiseEvent (modSolv s u (fun t => tabMap t (fun n y => if n = k then { y with failed := true } else y))) .solv u 3) .solv u 3 0 0 tenant

/-- R331: one pair applied to the values; a signalling NaN stored as the canonical one sets NV as well (R89). -/
def updPair (add : Bool) (vals : List Nat) (p : Nat × Nat) : FpM (List Nat) :=
  if add then do pure (listSet vals p.1 (← fpAdd (vals.getD p.1 0) p.2))
  else if fpNaN p.2 then fun c => (listSet vals p.1 fpCanon, { c with fl := flOr c.fl (nanFl [fDecode .fp64 p.2]) })
  else pure (listSet vals p.1 p.2)

/-- R329 to R331: SOLVE_UPD. -/
def doSolveUpd (s0 : State) (u : Nat) (se : StructErr) : State :=
  match solvJob s0 u 0x32 with
  | none => s0
  | some j =>
    let c := j.cmd
    let t := j.tenant
    match cmdSys s0 j with
    | none => solvGone s0 s0 u j
    | some y =>
      if y.failed then solvPoisoned s0 s0 u j
      else if se.ue then solvPoisoned s0 (failSys (structFixed s0 u se) u (svSys c) t) u j
      else
        let bytes := 16 * upCount c
        let s := readSpans (structFixed s0 u se) t [some (svAddr c, bytes)]
        if !lpddrXlated s t (svAddr c) bytes false || !usable s t (svAddr c) bytes false then
          solvGone s0 (spansMissed s t [(svAddr c, bytes)]) u j
        else if tPoison s t (svAddr c) bytes then solvPoisoned s0 s u j
        else
          let ps := (List.range (upCount c)).map (fun i => (tNat s t (svAddr c + 16 * i) 8, tNat s t (svAddr c + 16 * i + 8) 8))
          match firstBad ps.length (fun i => decide ((ps.getD i (0, 0)).1 < y.vals.length)) with
          | some i => solvRefuse s0 s u j 0x08 i
          | none =>
            let r := (ps.foldlM (updPair (upAdd c)) y.vals) {}
            let s := perfAdd (perfAdd (putSys s u (svSys c) { y with vals := r.1, stale := true }) .solv u 5 (upCount c)) .solv u 2 r.2.ops
            solvEnd s0 s u j (ranResult r.2.fl (upCount c))

/-! Factorisation (R334 to R337). -/

/-- The L rows of permuted column `j`, from j down (R322). -/
def lRows (y : SolSys) (j : Nat) : List Nat :=
  let n := snOf y.snode j
  natsFrom j (snLast y.snode n + 1 - j) ++ y.rows.getD n []

/-- The upper set U(j) (R322). -/
def uCols (y : SolSys) (j : Nat) : List Nat :=
  let n := snOf y.snode j
  ((List.range n).filter (fun k => (y.rows.getD k []).contains j)).flatMap (snCols y.snode)
    ++ natsFrom (snFirst y.snode n) (j - snFirst y.snode n)

/-- The element of A at an original row and column; +0 where none is stored. -/
def aVal (y : SolSys) (i k : Nat) : Nat := (((sysRow y i).find? (fun e => e.1 == k)).map (·.2)).getD 0

/-- R336: the pivot used for v, and whether it replaces v. -/
def pivotOf (chol : Bool) (pivtol preg v : Nat) : Nat × Bool :=
  if fpZero v || fpNaN v then (preg, true)
  else if chol then (if fpLt v pivtol then (preg, true) else (v, false))
  else if fpLt (v % 2 ^ 63) pivtol then (if bitAt v 63 then fpNeg preg else preg, true)
  else (v, false)

/-- A replaced pivot as R337 logs it: the column, v, the value used. -/
structure Replaced where
  col : Nat
  v : Nat
  used : Nat
deriving DecidableEq, Repr

/-- A factorisation under way. -/
structure Facting where
  cols : List FCol := []
  rowAt : List Nat
  repl : List Replaced := []

/-- The element l[i][k] of a factor. -/
def lAt (cols : List FCol) (i k : Nat) : Nat := tabGet 0 (cols.getD k {}).l i

/-- w[i] = fma(-l, x, w[i]) where w has row `i`. -/
def colSub (cols : List FCol) (k x : Nat) (w : Tab Nat) (i : Nat) : FpM (Tab Nat) :=
  match tabFind w i with
  | none => pure w
  | some v => do pure (tabSet w i (← fpFma (fpNeg (lAt cols i k)) x v))

/-- R334: one column of a Cholesky factor. The pivot's comparison reads it as a float operand (R89). [DEDUCED, log 50] -/
def cholCol (y : SolSys) (pivtol preg : Nat) (f : Facting) (j : Nat) : FpM Facting := do
  let w0 : Tab Nat := (lRows y j).map (fun i => (i, aVal y (y.perm.getD i 0) (y.perm.getD j 0)))
  let w ← (uCols y j).foldlM (fun w k =>
    ((lRows y k).filter (fun i => j ≤ i)).foldlM (colSub f.cols k (lAt f.cols j k)) w) w0
  let v := tabGet 0 w j
  fpReads [v]
  let p := pivotOf true pivtol preg v
  let d ← fpSqrt p.1
  let l ← (w.filter (fun e => j < e.1)).mapM (fun e => do pure (e.1, ← fpDiv e.2 d))
  pure { f with cols := f.cols ++ [{ l := l, d := d }], repl := if p.2 then f.repl ++ [⟨j, v, p.1⟩] else f.repl }

/-- Two entries of a table exchanged where it holds either. -/
def tabSwap (t : Tab Nat) (a b : Nat) : Tab Nat :=
  if a = b then t
  else match tabFind t a, tabFind t b with
    | none, none => t
    | x, z => tabSet (tabSet t a (z.getD 0)) b (x.getD 0)

/-- The order of pivot candidates: NaN ranks above every magnitude (R334). -/
def pivotRank (x : Nat) : Nat := if fpNaN x then 2 ^ 63 else x % 2 ^ 63

/-- R334: one column of an LU factor. The choice of the pivot reads every candidate as a float operand (R89). [DEDUCED, log 50] -/
def luCol (y : SolSys) (pivtol preg : Nat) (f : Facting) (j : Nat) : FpM Facting := do
  let us := uCols y j
  let w0 : Tab Nat := (us ++ lRows y j).foldl (fun t i =>
    tabSet t i (aVal y (y.perm.getD (f.rowAt.getD i 0) 0) (y.perm.getD j 0))) []
  let w ← us.foldlM (fun w k =>
    ((lRows y k).filter (fun i => k < i)).foldlM (colSub f.cols k (tabGet 0 w k)) w) w0
  let cand := natsFrom j (snLast y.snode (snOf y.snode j) + 1 - j)
  fpReads (cand.map (tabGet 0 w))
  let q := cand.foldl (fun b i => if pivotRank (tabGet 0 w b) < pivotRank (tabGet 0 w i) then i else b) j
  let u := us.map (fun k => (k, tabGet 0 w k))
  let w := tabSwap w j q
  let cols := f.cols.map (fun c => { c with l := tabSwap c.l j q })
  let rowAt := listSet (listSet f.rowAt j (f.rowAt.getD q 0)) q (f.rowAt.getD j 0)
  let v := tabGet 0 w j
  let p := pivotOf false pivtol preg v
  let l ← ((lRows y j).filter (fun i => j < i)).mapM (fun i => do pure (i, ← fpDiv (tabGet 0 w i) p.1))
  pure { cols := cols ++ [{ l := l, d := p.1, u := u }], rowAt := rowAt, repl := if p.2 then f.repl ++ [⟨j, v, p.1⟩] else f.repl }

/-- R334: a factorisation of a system. A replacement sets REG (R336). -/
def factorise (y : SolSys) (pivtol preg : Nat) : FpM (Factor × List Replaced) := do
  let f ← (List.range y.n).foldlM (if y.chol then cholCol y pivtol preg else luCol y pivtol preg) { rowAt := List.range y.n }
  fun c => (({ cols := f.cols, rowAt := f.rowAt }, f.repl), { c with fl := flOr c.fl { reg := !f.repl.isEmpty } })

/-- R335: the preconditioning solve m(r). -/
def precSolve (y : SolSys) (f : Factor) (r : List Nat) : FpM (List Nat) := do
  let col := fun j => f.cols.getD j {}
  let y0 := (List.range y.n).map (fun i => r.getD (y.perm.getD (if y.chol then i else f.rowAt.getD i 0) 0) 0)
  let fw ← (List.range y.n).foldlM (fun (v : List Nat) j => do
    let v ← if y.chol then do pure (listSet v j (← fpDiv (v.getD j 0) (col j).d)) else pure v
    (col j).l.foldlM (fun (v : List Nat) e => do pure (listSet v e.1 (← fpFma (fpNeg e.2) (v.getD j 0) (v.getD e.1 0)))) v) y0
  let bw ← (List.range y.n).reverse.foldlM (fun (v : List Nat) j => do
    if y.chol then
      let v ← (col j).l.foldlM (fun (v : List Nat) e => do pure (listSet v j (← fpFma (fpNeg e.2) (v.getD e.1 0) (v.getD j 0)))) v
      pure (listSet v j (← fpDiv (v.getD j 0) (col j).d))
    else
      let v := listSet v j (← fpDiv (v.getD j 0) (col j).d)
      (col j).u.foldlM (fun (v : List Nat) e => do pure (listSet v e.1 (← fpFma (fpNeg e.2) (v.getD j 0) (v.getD e.1 0)))) v) fw
  pure (((List.range y.n).zip bw).foldl (fun z e => listSet z (y.perm.getD e.1 0) e.2) (List.replicate y.n 0))

/-! Methods (R339 to R345). -/

/-- A parameter block (R339). -/
structure SolPar where
  b : Nat
  x : Nat
  rtol : Nat
  atol : Nat
  pivtol : Nat
  preg : Nat
  ok : Bool
deriving DecidableEq, Repr

/-- The parameter block that 64 bytes hold. -/
def solParOf (d : Nat) : SolPar :=
  { b := bits d 64 48, x := bits d 128 48, rtol := bits d 192 64, atol := bits d 256 64, pivtol := bits d 320 64, preg := bits d 384 64,
    ok := bits d 0 64 == 1 && bits d 112 16 == 0 && bits d 176 16 == 0 && bits d 448 64 == 0 }

/-- A finite FP64 value that is not negative. -/
def fpNonNeg (x : Nat) : Bool := bits x 52 11 != 0x7FF && (!bitAt x 63 || fpZero x)

/-- R339: the values of a parameter block are in range. -/
def parRanges (p : SolPar) : Bool :=
  fpNonNeg p.rtol && fpNonNeg p.atol && fpNonNeg p.pivtol && !bitAt p.preg 63 && bits p.preg 52 11 != 0 && bits p.preg 52 11 != 0x7FF

/-- What a method leaves: x, the k reached, the stop reason (0 for converged), and t of the last test. -/
structure Iterated where
  x : List Nat
  k : Nat := 0
  stop : Nat := 0
  t : Nat := 0

/-- What a method uses: the system, m, b, thr, maxit. -/
structure Method where
  y : SolSys
  m : List Nat → FpM (List Nat)
  b : List Nat
  thr : Nat
  maxit : Nat

/-- The test that each iteration begins with (R342): some reason or done to stop with, or none to go on. -/
def iterTest (h : Method) (k t : Nat) : Option Nat :=
  if fpNaN t then some 6 else if fpLe t h.thr then some 0 else if k = h.maxit then some 1 else none

/-- R342: refine; `fuel` bounds the iterations. -/
def refineFrom (h : Method) : Nat → Nat → List Nat → FpM Iterated
  | 0, k, x => pure { x := x, k := k, stop := 1 }
  | fuel + 1, k, x => do
    let r ← fpRes h.b h.y x
    let t ← fpNrm2 r
    match iterTest h k t with
    | some c => pure { x := x, k := k, stop := c, t := t }
    | none =>
      let d ← h.m r
      refineFrom h fuel (k + 1) (← zipF fpAdd x d)

/-- R342: cg. -/
def cgFrom (h : Method) : Nat → Nat → List Nat → List Nat → List Nat → Nat → FpM Iterated
  | 0, k, x, _, _, _ => pure { x := x, k := k, stop := 1 }
  | fuel + 1, k, x, r, p, rho => do
    let t ← fpNrm2 r
    match iterTest h k t with
    | some c => pure { x := x, k := k, stop := c, t := t }
    | none =>
      let q ← fpSpmv h.y p
      let g ← fpDot p q
      if !fpLt 0 g then pure { x := x, k := k, stop := 2, t := t }
      else
        let al ← fpDiv rho g
        let x ← fpAxpy al p x
        let r ← fpAxpy (fpNeg al) q r
        let z ← h.m r
        let rho1 ← fpDot r z
        let be ← fpDiv rho1 rho
        cgFrom h fuel (k + 1) x r (← zipF (fun p z => fpFma be p z) p z) rho1

/-- The vectors and scalars that bicgstab carries from one iteration to the next. -/
structure Bicg where
  x : List Nat
  r : List Nat
  p : List Nat
  v : List Nat
  rho : Nat
  al : Nat
  om : Nat

/-- R342: bicgstab; `rh` is the first residual. -/
def bicgFrom (h : Method) (rh : List Nat) : Nat → Nat → Bicg → FpM Iterated
  | 0, k, q => pure { x := q.x, k := k, stop := 1 }
  | fuel + 1, k, q => do
    let t ← fpNrm2 q.r
    match iterTest h k t with
    | some c => pure { x := q.x, k := k, stop := c, t := t }
    | none =>
      let rho1 ← fpDot rh q.r
      if fpZero rho1 then pure { x := q.x, k := k, stop := 3, t := t }
      else
        let p ← if k = 0 then pure q.r else do
          let be ← fpMul (← fpDiv rho1 q.rho) (← fpDiv q.al q.om)
          zipF (fun (e : Nat) (r : Nat) => do fpFma be e r) (← zipF (fun v p => fpFma (fpNeg q.om) v p) q.v q.p) q.r
        let ph ← h.m p
        let v ← fpSpmv h.y ph
        let g ← fpDot rh v
        if fpZero g then pure { x := q.x, k := k, stop := 4, t := t }
        else
          let al ← fpDiv rho1 g
          let sv ← zipF (fun v r => fpFma (fpNeg al) v r) v q.r
          let sh ← h.m sv
          let tv ← fpSpmv h.y sh
          let tt ← fpDot tv tv
          if fpZero tt then
            let x ← fpAxpy al ph q.x
            let n ← fpNrm2 sv
            if fpLe n h.thr then pure { x := x, k := k + 1, stop := 0, t := n } else pure { x := x, k := k, stop := 5, t := n }
          else
            let om ← fpDiv (← fpDot tv sv) tt
            let x1 ← zipF (fun p x => fpFma al p x) ph q.x
            let x ← zipF (fun s x => fpFma om s x) sh x1
            let r ← zipF (fun t s => fpFma (fpNeg om) t s) tv sv
            bicgFrom h rh fuel (k + 1) { x := x, r := r, p := p, v := v, rho := rho1, al := al, om := om }

/-- R342: the method of an iterative SOLVE from its start. -/
def iterate (method : Nat) (h : Method) (x0 : List Nat) : FpM Iterated := do
  if method = 2 then refineFrom h (h.maxit + 1) 0 (← h.m h.b)
  else
    let r ← fpRes h.b h.y x0
    if method = 3 then
      let z ← h.m r
      let rho ← fpDot r z
      cgFrom h (h.maxit + 1) 0 x0 r z rho
    else
      let zs := List.replicate h.y.n 0
      bicgFrom h r (h.maxit + 1) 0 { x := x0, r := r, p := zs, v := zs, rho := fpOne, al := fpOne, om := fpOne }

/-- R341: the command factors before it goes on. -/
def mustFactor (c : Cmd) (y : SolSys) : Bool :=
  soMethod c == 0 || ((soMethod c ≤ 2 || soPrec c) && (y.factor.isNone || (y.stale && !soFact c)))

/-- R337: a log entry. -/
def logEntry (y : SolSys) (c : Cmd) (e : Replaced) : List Byte :=
  leBytes 4 e.col ++ leBytes 4 (y.perm.getD e.col 0) ++ leBytes 8 e.v ++ leBytes 8 e.used ++ leBytes 8 (cStep c)

/-- `n` bytes that the spec does not state, from the state's count of free values. [DESIGN CHOICE, log 7; DESIGN CHOICE, log 49] -/
def freeBytes (s : State) (n : Nat) : List Byte := (natsFrom s.freeCount n).map Config.freeByte

/-- The replacements of a factorisation logged up to the log's capacity (R337): true where a write was discarded. -/
def writeLog (s : State) (t : Nat) (y : SolSys) (c : Cmd) (es : List Replaced) : State × Bool :=
  ((es.take y.logcap).zip (List.range es.length)).foldl (fun (p : State × Bool) e =>
    if p.2 then p else tStore p.1 t (y.log + 32 * e.2) (logEntry y c e.1)) (s, false)

/-- What a factorisation leaves: the state, the system, its count of replacements, and whether it stopped at a write. -/
structure Factored where
  st : State
  y : SolSys
  count : Nat := 0
  gone : Bool := false
  fl : Fl := {}

/-- R334, R337, R341: the factorisation of a command: the log and the factor area are written, the marks set. The bytes of the factor
area are internal to the unit (R318): free values. SOLV.PERF1, PERF2 and PERF4 count. [DESIGN CHOICE, log 49] -/
def runFactor (s : State) (u : Nat) (t : Nat) (c : Cmd) (y : SolSys) (p : SolPar) : Factored :=
  let r := (factorise y p.pivtol p.preg) {}
  let es := r.1.2
  let w := writeLog s t y c es
  let fw := if w.2 then w else
    let q := tStore w.1 t y.farea (freeBytes w.1 (4096 * y.fpages))
    ({ q.1 with freeCount := q.1.freeCount + 4096 * y.fpages }, q.2)
  let y' := { y with factor := if fw.2 then none else some r.1.1, stale := false, replaced := satTo 32 es.length }
  let s := perfAdd (perfAdd (perfAdd (putSys fw.1 u (svSys c) y') .solv u 1 1) .solv u 4 es.length) .solv u 2 r.2.ops
  { st := if es.isEmpty then s else raiseEvent s .solv u 0, y := y', count := es.length, gone := fw.2, fl := r.2.fl }

/-- The poison of a range read after the solve started: x is written as poison (R347). [DEDUCED, log 50] -/
def poisonX (s : State) (t a n : Nat) : State × Bool :=
  (linesOf a n).foldl (fun (p : State × Bool) l => if p.2 then p else tStorePoison p.1 t (l * 64)) (s, false)

/-- The summary of a SOLVE (R345). [DEDUCED, log 50] -/
def solveSum (s : State) (j : Job) (v : Nat) : State := if soSlotEn j.cmd then jobSum s j (soSlot j.cmd) v else s

/-- The detail of a SOLVE (R344). -/
def solveDetail (k stop count : Nat) : Nat := k % 2 ^ 16 + stop % 16 * 2 ^ 16 + satTo 12 count * 2 ^ 20

/-- The method solves with the factor (R341). -/
def solveUses (c : Cmd) : Bool := soMethod c ≤ 2 || soPrec c

/-- The method starts from the x in memory (R342). -/
def solveFromX (c : Cmd) : Bool := soX0 c && 3 ≤ soMethod c

/-- What a SOLVE reads after its factorisation besides x: b, and the factor area where the method uses the factor. -/
def solveIn (c : Cmd) (p : SolPar) (y : SolSys) : List (Nat × Nat) :=
  (p.b, 8 * y.n) :: (if solveUses c then [(y.farea, 4096 * y.fpages)] else [])

/-- The state as those reads leave it. -/
def solveReads (s : State) (j : Job) (p : SolPar) (y : SolSys) : State :=
  readSpans s j.tenant ((solveIn j.cmd p y ++ (if solveFromX j.cmd then [(p.x, 8 * y.n)] else [])).map some)

/-- b, x and the factor area can be accessed (R346). -/
def solveServed (s : State) (j : Job) (p : SolPar) (y : SolSys) : Bool :=
  (solveIn j.cmd p y).all (fun e => usable s j.tenant e.1 e.2 false) && usable s j.tenant p.x (8 * y.n) true

/-- Something that the method reads is poisoned (R347). -/
def solveSpoilt (s : State) (j : Job) (p : SolPar) (y : SolSys) : Bool :=
  (solveIn j.cmd p y).any (fun e => tPoison s j.tenant e.1 e.2) || (solveFromX j.cmd && tPoison s j.tenant p.x (8 * y.n))

/-- R340 to R345: the method's run, from the values that `s` holds, with the flags of the factorisation: what it leaves, the summary word,
and the operations and flags counted. -/
def solveRun (s : State) (j : Job) (p : SolPar) (f : Factored) : (Iterated × Nat) × Cnt :=
  let c := j.cmd
  let t := j.tenant
  let n := f.y.n
  let m := soMethod c
  let b := tWords s t p.b 8 n
  let pm := fun r => match f.y.factor with
    | some g => if solveUses c then precSolve f.y g r else pure r
    | none => pure r
  let run : FpM (Iterated × Nat) :=
    if m = 1 then do pure ({ x := ← pm b }, f.count)
    else do
      let nb ← fpNrm2 b
      let thr ← fpAdd (← fpMul p.rtol nb) p.atol
      let r ← iterate m { y := f.y, m := pm, b := b, thr := thr, maxit := soMaxit c } (if solveFromX c then tWords s t p.x 8 n else List.replicate n 0)
      if !soSlotEn c then pure (r, 0)
      else if r.stop = 6 then pure (r, fpCanon)
      else if fpZero nb then pure (r, r.t)
      else do pure (r, ← fpDiv r.t nb)
  run { fl := f.fl }

/-- R344, R346: the result of a method that ran, `gone` where a write of x was discarded. -/
def solveResult (f : Factored) (r : (Iterated × Nat) × Cnt) (gone : Bool) : Result :=
  let it := r.1.1
  let det := solveDetail it.k it.stop f.count
  if gone then failResult 0x22 (flRec r.2.fl) det
  else if it.stop != 0 then failResult 0x26 (flRec r.2.fl) det
  else ranResult (flRec r.2.fl) det

/-- The part of a SOLVE after its factorisation: x is computed and written, the result left (R340 to R347). [DEDUCED, log 50] -/
def solveRest (s0 : State) (u : Nat) (j : Job) (p : SolPar) (f : Factored) : State :=
  let t := j.tenant
  let n := f.y.n
  let m := soMethod j.cmd
  let s := solveReads f.st j p f.y
  if !solveServed s j p f.y then
    let s := match missing s t none (solveIn j.cmd p f.y) with
      | some (a, k) => missAt s t a k false
      | none => missAt s t p.x (8 * n) true
    solvEnd s0 s u j (failResult 0x22 (flRec f.fl) (solveDetail 0 0 f.count))
  else if solveSpoilt s j p f.y then
    -- R347; the k reached, the reason and the ratio are not stated: free values
    let w := poisonX s t p.x (8 * n)
    let fr := (Config.freeWord w.1.freeCount).toNat
    let sm := (Config.freeWord (w.1.freeCount + 1)).toNat
    let s := { w.1 with freeCount := w.1.freeCount + 2 }
    let s := solveSum s j (if m = 1 then f.count else sm)
    let det := if m = 1 then solveDetail 0 0 f.count else solveDetail (bits fr 0 16) (bits fr 16 4) f.count
    solvEnd s0 s u j (failResult (if w.2 then 0x22 else 0x20) { flRec f.fl with poison := true } det)
  else
    let r := solveRun s j p f
    let w := tStore s t p.x (r.1.1.x.flatMap (leBytes 8))
    let s := perfAdd (perfAdd w.1 .solv u 2 r.2.ops) .solv u 3 r.1.1.k
    solvEnd s0 (solveSum s j r.1.2) u j (solveResult f r w.2)

/-- R339, R340: what refuses a SOLVE at execution, as its code. -/
def solveRefusal (s : State) (t : Nat) (c : Cmd) (y : SolSys) (p : SolPar) : Option Nat :=
  let n := 8 * y.n
  if !p.ok then some 0x01
  else if p.b % 8 != 0 || p.x % 8 != 0 || !lpddrXlated s t p.b n false || !lpddrXlated s t p.x n true || rangesMeet p.x n p.b n
      || rangesMeet p.x n y.farea (4096 * y.fpages) || rangesMeet p.x n y.log (32 * y.logcap) then some 0x02
  else if !parRanges p || (soMethod c ≤ 1 && soMaxit c != 0) then some 0x09
  else if soMethod c == 3 && soPrec c && !y.chol then some 0x0A
  else none

/-- R338 to R348: a SOLVE of the given method. [DESIGN CHOICE, log 9] -/
def doSolve (s0 : State) (u : Nat) (se : StructErr) (method : Nat) : State :=
  match solvJob s0 u 0x31 with
  | none => s0
  | some j =>
    let c := j.cmd
    let t := j.tenant
    if soMethod c != method then s0
    else match cmdSys s0 j with
      | none => solvGone s0 s0 u j
      | some y =>
        if y.failed then solvPoisoned s0 s0 u j
        else
          let s := readSpans s0 t [some (svAddr c, 64)]
          if !usable s t (svAddr c) 64 false then solvGone s0 (spansMissed s t [(svAddr c, 64)]) u j
          else if tPoison s t (svAddr c) 64 then solvPoisoned s0 s u j
          else
            let p := solParOf (tNat s t (svAddr c) 64)
            let s := [(p.b, 8 * y.n), (p.x, 8 * y.n), (y.farea, 4096 * y.fpages), (y.log, 32 * y.logcap)].foldl (fun x e => fillTlb x t e.1 e.2) s
            match solveRefusal s t c y p with
            | some code => solvRefuse s0 s u j code 0
            | none =>
              let s := structFixed s u se
              if se.ue then solvPoisoned s0 (failSys s u (svSys c) t) u j
              else
                let f : Factored := if mustFactor c y then runFactor s u t c y p else { st := s, y := y }
                if f.gone then solvEnd s0 f.st u j (failResult 0x22 (flRec f.fl) (solveDetail 0 0 f.count))
                else if method = 0 then
                  solvEnd s0 (solveSum f.st j f.count) u j (ranResult (flRec f.fl) (solveDetail 0 0 f.count))
                else solveRest s0 u j p f

/-! Reset (R349). -/

/-- R349: a unit that is reset: its commands complete TARGET_GONE, its structure memory is zero. -/
def solvReset (s : State) (u : Nat) : State := modSolv (failJobs s (.solv u) .solv u 5) u (fun _ => [])

/-! The steps of this part. -/

/-- SOLVE_SETUP_RELEASE (R328). -/
def execSolveSetupRelease (u : Nat) (s : State) : Host.Outcome State Fault Refusal := .next (whenLive s (doSetupRelease s u))

end Sys2Proof.Machine
end

