-- ==== Sys2Proof/Machine/Coll.lean ====
section
/-! DEFINITION. ALLREDUCE and the collective unit (chapter 13). -/

namespace Sys2Proof.Machine

/-! Operand fields (Table 13.1). -/

/-- Input x. -/
def arX (c : Cmd) : TDesc := cDesc c (cf c 4 0 42)
/-- Output y. -/
def arY (c : Cmd) : TDesc := cDesc c (cf c 5 0 42)
/-- Arrival order. -/
def arArr (c : Cmd) : Bool := bitAt (cw c 4) 48
/-- The in-switch path is allowed. -/
def arIsw (c : Cmd) : Bool := bitAt (cw c 4) 49
/-- clog. -/
def arClog (c : Cmd) : Nat := cf c 4 50 3
/-- The summary slot. -/
def arSlot (c : Cmd) : Nat := cf c 4 56 4
/-- The slot is written. -/
def arSlotEn (c : Cmd) : Bool := bitAt (cw c 4) 60
/-- The tenant address of the plan descriptor. -/
def arPlan (c : Cmd) : Nat := cf c 6 0 42 * 64
/-- opid. -/
def arOpid (c : Cmd) : Nat := cf c 6 48 16
/-- The tenant address of the staging area. -/
def arStage (c : Cmd) : Nat := cf c 7 0 36 * 4096
/-- Pieces of the staging area. -/
def arSchunks (c : Cmd) : Nat := cf c 7 36 8
/-- Bytes of a piece. -/
def arPiece (c : Cmd) : Nat := 2 ^ (arClog c + 12)

/-- R527: the accumulation type. -/
def arAcc (f : Fmt) : Fmt := match f with
  | .bf16 | .fp16 | .fp32 => .fp32
  | f => f

/-- The formats of R526. -/
def arFmtOk (f : Fmt) : Bool := f == .fp64 || f == .fp32 || f == .bf16 || f == .fp16 || f == .int32 || f == .int64

/-- R527: elements of a piece. -/
def arElems (c : Cmd) : Nat := arPiece c / (fmtBits (arAcc (dFmt (arX c))) / 8)

/-- Pieces of an operation. -/
def arPieces (c : Cmd) : Nat := ceilDiv (extCount (arX c).exts) (arElems c)

/-- The elements of piece `p` by linear number. -/
def arRange (c : Cmd) (p : Nat) : List Nat := natsFrom (p * arElems c) (min (arElems c) (extCount (arX c).exts - p * arElems c))

/-- The own fields of an ALLREDUCE (R528). -/
def arFieldsOk (c : Cmd) : Bool :=
  cZero c 4 42 6 && cZero c 4 53 3 && cZero c 4 61 3 && cZero c 5 42 22 && cZero c 6 42 6 && cZero c 7 44 20 && arClog c ≤ 6
    && arStage c != 0 && arSchunks c != 0 && !(arSlot c == 15 && arSlotEn c)

/-- The members that a plan descriptor's header counts. -/
def planN (s : State) (t : Nat) (c : Cmd) : Nat := bits (tNat s t (arPlan c) 8) 32 16

/-- R528: the checks of an ALLREDUCE on what it names. -/
def arDescsOk (s : State) (t : Nat) (c : Cmd) : Bool :=
  let x := arX c
  let y := arY c
  let sp := fun (d : TDesc) => boxSpan d (fullBox d)
  let st := some (arStage c, arSchunks c * arPiece c)
  descOk x && descOk y && arFmtOk (dFmt x) && x.fmt == y.fmt && dSfmt x == 0 && dSfmt y == 0 && extCount x.exts == extCount y.exts
    && (!arSlotEn c || extCount x.exts == 1)
    && spanMapped s t false (sp x) && spanMapped s t true (sp y) && mapped s t (arPlan c) 64 false
    && mapped s t (arPlan c) (64 + 8 * planN s t c) false && spanMapped s t true st && spanIn s t inUpper st
    && (decide (x = y) || !spansMeet (sp x) (sp y)) && !spansMeet st (sp x) && !spansMeet st (sp y)

/-! Plans (13.2). -/

/-- A member entry (Table 13.3). -/
def memberOf (e : Nat) : Member :=
  { node := bits e 0 20, tenant := bits e 20 12, parent := bits e 32 15, root := bitAt e 47, rsv := bits e 48 16 != 0 }

/-- The children of a rank, ascending. -/
def childrenOf (ms : List Member) (v : Nat) : List Nat :=
  (List.range ms.length).filter (fun r => match ms[r]? with
    | some m => !m.root && m.parent == v
    | none => false)

/-- The rank reached from `v` by at most `n` parent links is the root. -/
def reachesRoot (ms : List Member) : Nat → Nat → Bool
  | 0, _ => false
  | n + 1, v => match ms[v]? with
    | some m => m.root || reachesRoot ms n m.parent
    | none => false

/-- R532: the code of the first check of a plan that fails; 0 when it passes. -/
def planCheck (s : State) (t : Nat) (c : Cmd) (h : Nat) (ms : List Member) : Nat :=
  let rank := bits h 64 15
  if bits h 0 8 != 1 || bits h 8 8 != 0 || bits h 48 16 != 0 || bits h 79 17 != 0 || bits h 128 384 != 0 || ms.any (·.rsv) then 1
  else if ms.length = 0 || 32768 < ms.length || ms.length ≤ rank then 2
  else if !(match ms[rank]? with
    | some m => m.node == nodeNum s && m.tenant == t
    | none => false) then 3
  else if (ms.filter (·.root)).length != 1 || ms.any (fun m => m.root && m.parent != 0)
      || !(List.range ms.length).all (reachesRoot ms ms.length) then 4
  else if (List.range ms.length).any (fun v => 63 < (childrenOf ms v).length) then 5
  else if arSchunks c < (childrenOf ms rank).length + 2 then 6
  else 0

/-- R533: the first 8 bytes of the digest of a member table. -/
def planDigest (bs : List Byte) : Nat := leNat ((sha256 bs).take 8)

/-! Operations in the unit. -/

/-- The operation in a slot. -/
def collOp (s : State) (k : Nat) : Option CollOpn := tabFind s.coll.ops k

/-- The state with the operation of a slot replaced. -/
def putOp (s : State) (k : Nat) (o : CollOpn) : State := { s with coll := { s.coll with ops := tabSet s.coll.ops k o } }

/-- A slot emptied. -/
def dropOp (s : State) (k : Nat) : State := { s with coll := { s.coll with ops := tabDel s.coll.ops k } }

/-- The slot given back; what a reset tenant's operation held is zeroed then (R554). [DEDUCED, log 51] -/
def freeOp (s : State) (k : Nat) : State :=
  match collOp s k with
  | some o => dropOp (o.zero.foldl (fun x (z : Nat × Nat) => (tStore x o.tenant z.1 (List.replicate z.2 0)).1) s) k
  | none => dropOp s k

/-- The slot of a running operation with a key (R546). -/
def opSlot (s : State) (key : CollKey) : Option Nat := (s.coll.ops.find? (fun e => e.2.key == key && e.2.phase != 3)).map (·.1)

/-- The job of an operation. -/
def opJob (s : State) (o : CollOpn) : Option Job :=
  s.jobs.find? (fun j => decide (j.unit = .coll) && j.result.isNone && j.tenant == o.tenant && j.stream == o.stream
    && j.cmd.count == o.count && decide (j.iter = o.iter) && j.gen == o.gen)

/-- This member's entry. -/
def opSelf (o : CollOpn) : Member := o.members.getD o.rank { node := 0, tenant := 0, parent := 0, root := true, rsv := false }

/-- The children of this rank. -/
def opKids (o : CollOpn) : List Nat := childrenOf o.members o.rank

/-- The neighbours of this rank: parent and children. -/
def opNeighbours (o : CollOpn) : List Nat := (if (opSelf o).root then [] else [(opSelf o).parent]) ++ opKids o

/-- Piece `p` of an operation. -/
def opPiece (o : CollOpn) (p : Nat) : CollPiece := o.pieces.getD p {}

/-- The operation with a piece replaced. -/
def setPiece (o : CollOpn) (p : Nat) (x : CollPiece) : CollOpn := { o with pieces := listSet o.pieces p x }

/-- A piece still holds its place (R541, R542): a leaf's until the parent's acknowledgement, another rank's until it is done. -/
def holdsPlace (o : CollOpn) (x : CollPiece) : Bool :=
  x.placed && !x.done && !(o.phase == 3) && !((opKids o).isEmpty && !(opSelf o).root && x.upAck)

/-- Segments that an operation holds. -/
def opSegs (o : CollOpn) : Nat := (o.pieces.filter (fun x => holdsPlace o x && x.stage.isNone)).length

/-- Free segments of the 128 (COLL_STAT.segs_free). -/
def segsFree (s : State) : Nat := 128 - sumOf (s.coll.ops.map (fun e => opSegs e.2))

/-- R541, R543: the format in which a message carries elements: a result in y's, a partial sum in the accumulation type. -/
def carried (op : CollOp) (fmt : Nat) : Fmt :=
  let f := (fmtOf fmt).getD .fp32
  if op = .result then f else arAcc f

/-- A message to the member of a rank (R543, R546): message `m.part` of a piece takes the flow plan_id XOR (part AND 1). [DEDUCED, log 51] -/
def collSend (s : State) (o : CollOpn) (rank vc : Nat) (op : CollOp) (m : CollMsg) : State :=
  match o.members[rank]? with
  | none => s
  | some d =>
    let bytes := m.vals.length * (fmtBits (carried op m.fmt) / 8)
    let mine := fun (j : Job) => j.tenant == o.tenant && j.stream == o.stream && j.cmd.count == o.count && decide (j.iter = o.iter) && j.gen == o.gen
    holdJobs s (sendMsg (perfAdd s .coll 0 5 bytes) { dst := d.node, vc := vc, flow := Nat.xor o.key.plan (m.part % 2), msg := .coll op { m with
      key := { o.key with tenant := d.tenant }, rank := o.rank } }) mine

/-- A message with nothing in it. -/
def collBlank (o : CollOpn) : CollMsg :=
  { key := o.key, rank := o.rank, tag := 0, piece := 0, part := 0, vals := [], bad := [], flags := 0, digest := 0, fmt := 0, count := 0, clog := 0,
    arr := false, cause := 0, origin := 0, ctag := 0 }

/-- R543: the elements of a data message of up to 4 KiB. -/
def msgElems (f : Fmt) : Nat := 4096 / (fmtBits f / 8)

/-- R543: the data messages of a piece of `n` elements. -/
def msgCount (f : Fmt) (n : Nat) : Nat := max 1 (ceilDiv n (msgElems f))

/-- R543: a piece sent in data messages of up to 4 KiB, in order. -/
def collData (s : State) (o : CollOpn) (rank vc : Nat) (op : CollOp) (m : CollMsg) : State :=
  let e := msgElems (carried op m.fmt)
  (List.range (msgCount (carried op m.fmt) m.vals.length)).foldl (fun y i => collSend y o rank vc op { m with
    part := i, vals := (m.vals.drop (e * i)).take e, bad := m.bad.filter (fun b => e * i ≤ b && b < e * i + e) }) s

/-- The messages of a piece put together, in the order of their numbers. -/
def joinParts (ps : List (Nat × PieceVal)) : PieceVal :=
  let at_ := fun i => (ps.find? (fun e => e.1 == i)).map (·.2)
  let vs := (List.range ps.length).filterMap at_
  { vals := vs.flatMap (·.vals), bad := vs.flatMap (·.bad), flags := vs.foldl (fun a v => a ||| v.flags) 0 }

/-- A data message of a piece that consists of `count` of them: the piece's state, and the whole value once every message has come. -/
def takePart (x : CollPiece) (m : CollMsg) (count : Nat) : CollPiece × Option PieceVal :=
  let ps := x.partIn ++ [(m.rank, m.part, { vals := m.vals, bad := m.bad, flags := m.flags })]
  let mine := (ps.filter (fun e => e.1 == m.rank)).map (·.2)
  if mine.length = count then ({ x with partIn := ps.filter (fun e => e.1 != m.rank) }, some (joinParts mine))
  else ({ x with partIn := ps }, none)

/-- A data message that cannot be one of the `count` of its piece, or has come before. -/
def partBad (x : CollPiece) (m : CollMsg) (count : Nat) : Bool := count ≤ m.part || x.partIn.any (fun e => e.1 == m.rank && e.2.1 == m.part)

/-- R546: a message that matches nothing is discarded; COLL.PERF7 counts it. [DEDUCED, log 86] -/
def collLate (s : State) : State := perfAdd (raiseEvent s .coll 0 6) .coll 0 7 1

/-- R530: the summary of an ALLREDUCE that completes with another status than DONE or DONE_FLAGS. -/
def arFailSum (s : State) (j : Job) : State :=
  if arSlotEn j.cmd then jobSum s j (arSlot j.cmd) (if fmtFloat (dFmt (arX j.cmd)) then fpCanon else 2 ^ 64 - 1) else s

/-- A command of the unit ends with a status other than DONE. -/
def arFail (s0 s : State) (j : Job) (status : Nat) (f : Fl) (detail : Nat) : State :=
  let s := if status = 0x22 then raiseEvent s .coll 0 5 else s
  finishJob s0 (perfAdd (arFailSum s j) .coll 0 0 1) j (failResult status f detail)

/-- R549: ABORT sent to neighbours; the operation aborts and waits for their acknowledgements; its command completes. `status` and
`detail` are those of its completion. -/
def abortOp (s0 s : State) (k : Nat) (o : CollOpn) (cause origin : Nat) (sender : Option Nat) (status detail : Nat) : State :=
  let nbs := (opNeighbours o).filter (fun r => some r != sender)
  let c := s.coll
  let s := { s with coll := if c.logValid then c else { c with logCause := cause, logRank := origin, logValid := true } }
  let o' := { o with phase := 3, abort := some (cause, origin), awaiting := nbs }
  let s := if nbs.isEmpty then freeOp (putOp s k o') k else putOp s k o'
  let s := nbs.foldl (fun x r => collSend x o r 0 .abort { collBlank o with cause := cause, origin := origin }) s
  match opJob s o with
  | some j => arFail s0 s j status {} detail
  | none => s

/-- R549: this rank raises an abort. -/
def raiseAbort (s0 s : State) (k : Nat) (o : CollOpn) (cause : Nat) : State :=
  abortOp s0 (raiseEvent s .coll 0 0) k o cause o.rank none 0x23 (cause + o.rank * 256)

/-! ALLREDUCE (R532). -/

/-- The oldest ALLREDUCE that the unit has not begun. -/
def arJob (s : State) : Option Job :=
  if !unitRuns s .coll 0 then none
  else s.jobs.find? (fun j => decide (j.unit = .coll) && j.result.isNone && !j.started && cOp j.cmd == 0x50)

/-- The first free slot of the 64 (R556). [DESIGN CHOICE, log 7] -/
def freeSlot (s : State) : Option Nat := (List.range 64).find? (fun k => (collOp s k).isNone)

/-- ALLREDUCE begins: the plan is read and checked, a held ABORT ends it, and it takes a slot (R532, R550, R556, R799). -/
def doAllreduce (s0 : State) : State :=
  match arJob s0, freeSlot s0 with
  | some j, some k =>
    let c := j.cmd
    let t := j.tenant
    let s1 := readSpans s0 t [some (arPlan c, 64)]
    let n := planN s1 t c
    let plan := [some (arPlan c, 64 + 8 * n)]
    let r := readSpans s1 t plan
    let s := withdrawNew s0 r r
    if !usable r t (arPlan c) (64 + 8 * n) false then
      arFail s0 (noteWithdrawn (missAt r t (arPlan c) (64 + 8 * n) false) t (cStep c) plan) j 0x22 {} 0
    else if tPoison r t (arPlan c) (64 + 8 * n) then arFail s0 (noteWithdrawn s t (cStep c) plan) j 0x20 { poison := true } 0
    else
      let h := tNat r t (arPlan c) 64
      let ms := (List.range n).map (fun i => memberOf (tNat r t (arPlan c + 64 + 8 * i) 8))
      let key : CollKey := { tenant := t, plan := bits h 16 16, step := cStep c, opid := arOpid c }
      match s.coll.held.find? (fun a => a.key == key) with
      | some a =>
        let s := { s with coll := { s.coll with held := s.coll.held.filter (fun b => b.key != key) } }
        arFail s0 s j 0x23 {} (a.cause + a.origin * 256)
      | none =>
        let code := planCheck r t c h ms
        if code != 0 then arFail s0 s j 0x14 {} code
        else
          let o : CollOpn := {
            tenant := t, stream := j.stream, count := c.count, iter := j.iter, gen := j.gen, key := key, rank := bits h 64 15,
            members := ms, digest := planDigest (tBytes r t (arPlan c + 64) (8 * n)), tag := s.coll.nextTag,
            pieces := List.replicate (arPieces c) {} }
          let s := { s with coll := { s.coll with nextTag := (s.coll.nextTag + 1) % 65536 } }
          putOp (modJob s j (fun x => { x with started := true })) k o
  | _, _ => s0

/-! Grants, sums and results (13.4). -/

/-- R540: the place that a rank takes for a piece: a segment, a staging slot, or none. -/
def takePlace (s : State) (c : Cmd) (o : CollOpn) : Option (Option Nat) :=
  let mx := bits (regWord s .coll 0 0x104 4) 0 5
  if arIsw c && opSegs o < mx && 0 < segsFree s then some none
  else
    let used := (o.pieces.filter (holdsPlace o)).filterMap (·.stage)
    ((List.range (arSchunks c)).find? (fun i => !used.contains i)).map some

/-- R539: a place is reserved for a piece and the children are granted it. -/
def doGrantSend (s : State) (k p : Nat) : State :=
  match collOp s k with
  | none => s
  | some o =>
    match opJob s o, o.pieces[p]? with
    | some j, some x =>
      if x.placed || o.phase == 3 || !unitRuns s .coll 0 then s
      else match takePlace s j.cmd o with
        | none => s
        | some pl =>
          let s := putOp s k (setPiece o p { x with placed := true, stage := pl })
          let s := if arIsw j.cmd && pl.isSome then perfAdd s .coll 0 3 1 else s
          (opKids o).foldl (fun y r => collSend y o r 0 .grant { collBlank o with
            tag := o.tag, piece := p, digest := o.digest, fmt := (arX j.cmd).fmt, count := extCount (arX j.cmd).exts, clog := arClog j.cmd,
            arr := arArr j.cmd }) s
    | _, _ => s

/-- R547: a grant received. [DEDUCED, log 51; DESIGN CHOICE, log 85] -/
def doGrant (s : State) (m : CollMsg) : State :=
  match opSlot s m.key with
  | none => collLate s
  | some k => match collOp s k with
    | none => collLate s
    | some o =>
      match opJob s o, o.pieces[m.piece]? with
      | some j, some x =>
        if (opSelf o).root || m.rank != (opSelf o).parent || x.granted || (match o.parentTag with
            | some g => g != m.tag
            | none => false) then collLate s
        else if o.parentTag.isNone && m.digest != o.digest then raiseAbort s (raiseEvent s .coll 0 3) k o 2
        else if o.parentTag.isNone && (m.fmt != (arX j.cmd).fmt || m.count != extCount (arX j.cmd).exts || m.clog != arClog j.cmd
            || m.arr != arArr j.cmd) then raiseAbort s (raiseEvent s .coll 0 3) k o 3
        else putOp s k (setPiece { o with parentTag := some m.tag } m.piece { x with granted := true })
      | _, _ => collLate s

/-- R541, R543: a data message of a child's partial sum received; the sum is acknowledged once it is whole. -/
def doPartialSum (s : State) (m : CollMsg) : State :=
  match opSlot s m.key with
  | none => collLate s
  | some k => match collOp s k with
    | none => collLate s
    | some o =>
      match opJob s o, o.pieces[m.piece]? with
      | some j, some x =>
        let count := msgCount (arAcc (dFmt (arX j.cmd))) (arRange j.cmd m.piece).length
        if m.tag != o.tag || !(opKids o).contains m.rank || !x.placed || x.sums.any (fun e => e.1 == m.rank) || partBad x m count then collLate s
        else
          let o := { o with childTags := if (tabFind o.childTags m.rank).isSome then o.childTags else tabSet o.childTags m.rank m.ctag }
          match takePart x m count with
          | (x, none) => putOp s k (setPiece o m.piece x)
          | (x, some v) =>
            let o := setPiece o m.piece { x with sums := x.sums ++ [(m.rank, v)] }
            collSend (putOp s k o) o m.rank 0 .ack { collBlank o with tag := tabGet 0 o.childTags m.rank, piece := m.piece }
      | _, _ => collLate s

/-- The addition of R535 and R536 in an accumulation type. -/
def arAdd (f : Fmt) (ovf : Bool) (a b : Nat) : Nat × Fl :=
  if fmtFloat f then
    let r := vAdd false (fDecode f a) (fDecode f b)
    let q := narrow f .rne ovf r.1
    (q.1, flOr r.2 (flRec q.2))
  else iAdd (fmtSigned f) ovf (fmtBits f) a b

/-- R535: an input element widened, exactly. A NaN becomes the canonical NaN of the accumulation type and sets NAN, a signalling one NV
as well, so that an operation of one member, which adds nothing, writes no other NaN either (R87, R89, R119). [DEDUCED, log 51] -/
def arWiden (f : Fmt) (x : Nat) : Nat × Fl :=
  if fmtFloat f then let q := narrow (arAcc f) .rne true (fDecode f x); (q.1, flRec q.2) else (x, Fl.none)

/-- R535: the narrowing at the root. -/
def arNarrow (f : Fmt) (ovf : Bool) (x : Nat) : Nat × Fl :=
  if arAcc f = f then (x, Fl.none)
  else let q := narrow f .rne ovf (fDecode (arAcc f) x); (q.1, flRec q.2)

/-- R535, R545: the value of this rank over element `i` of a piece, the children's sums in the order given. -/
def arValue (f : Fmt) (ovf : Bool) (own : Nat) (kids : List PieceVal) (i : Nat) : Nat × Fl :=
  kids.foldl (fun a v => let r := arAdd (arAcc f) ovf a.1 (v.vals.getD i 0); (r.1, flOr a.2 r.2)) (arWiden f own)

/-- The spans of this rank's own elements of a piece. -/
def arSpans (j : Job) (p : Nat) : List (Nat × Nat) :=
  (arRange j.cmd p).map (fun e => (dAddr (arX j.cmd) (unlin (arX j.cmd).exts e), elemSpan (dFmt (arX j.cmd))))

/-- The state as the reads of a piece leave it (R378, R381). -/
def arRead (s : State) (j : Job) (p : Nat) : State :=
  let s := fillSpans s j.tenant [boxSpan (arX j.cmd) (fullBox (arX j.cmd)), some (arStage j.cmd, arSchunks j.cmd * arPiece j.cmd)]
  meetErrs s (spansHave s j.tenant ((arSpans j p).map some))

/-- The first own element of a piece that cannot be read. -/
def arMiss (s : State) (j : Job) (p : Nat) : Option (Nat × Nat) := missing s j.tenant none (arSpans j p)

/-- A piece at a rank combined (R541): the values in the accumulation type, with the children's sums ascending, or as they came
(R545). `struck` are the elements that an uncorrectable error of the reduction memory or the staging has poisoned (R552). -/
def arCombine (s : State) (j : Job) (o : CollOpn) (x : CollPiece) (p : Nat) (struck : List Nat) : PieceVal :=
  let c := j.cmd
  let d := arX c
  let kids := if arArr c then x.sums.map (·.2) else (opKids o).filterMap (fun r => (x.sums.find? (fun e => e.1 == r)).map (·.2))
  let el := arRange c p
  let own := el.map (fun e => dBits s j.tenant d (unlin d.exts e))
  let badOwn := (List.range el.length).filter (fun i => dPoison s j.tenant d (unlin d.exts (el.getD i 0)))
  let bad := (List.range el.length).filter (fun i => badOwn.contains i || struck.contains i || kids.any (fun v => v.bad.contains i))
  let rs := (List.range el.length).map (fun i => arValue (dFmt d) (cOvf c) (own.getD i 0) kids i)
  let fl := flAll (((List.range el.length).zip rs).filterMap (fun e => if bad.contains e.1 then none else some e.2.2))
  { vals := rs.map (·.1), bad := bad, flags := kids.foldl (fun a v => a ||| v.flags) (flBits fl) }

/-- The elements of a piece written to y: true where some was discarded (R551, cause 5). -/
def arWrite (s : State) (j : Job) (p : Nat) (v : PieceVal) : State × Bool :=
  let d := arY j.cmd
  let sp := boxSpan d (fullBox d)
  let s := match sp with
    | some (a, n) => fillTlb s j.tenant a n
    | none => s
  let el := arRange j.cmd p
  let es := (List.range el.length).map (fun i => outElem d (unlin d.exts (el.getD i 0)) (v.vals.getD i 0) (v.bad.contains i))
  let w := writeOut s j.tenant es []
  (w.st, w.gone || w.stopped)

/-- A result sent to the children, ascending (R542). -/
def sendResult (s : State) (o : CollOpn) (p fmt : Nat) (x : CollPiece) (v : PieceVal) : State :=
  (opKids o).foldl (fun y r => collData y o r (if x.stage.isNone then 5 else 6) .result { collBlank o with
    tag := tabGet 0 o.childTags r, piece := p, vals := v.vals, bad := v.bad, flags := v.flags, fmt := fmt }) s

/-- R530: the single result element as the summary. [DEDUCED, log 51] -/
def arSum (f : Fmt) (x : Nat) : Nat :=
  if fmtFloat f then (narrow .fp64 .rne true (fDecode f x)).1 else unsgn 64 (iVal (fmtSigned f) (fmtBits f) x)

/-- R537, R552: an operation whose pieces are all done completes. -/
def opDone (s0 s : State) (k : Nat) : State :=
  match collOp s k with
  | none => s
  | some o =>
    if !o.pieces.all (·.done) then s
    else match opJob s o with
      | none => freeOp s k
      | some j =>
        let s := freeOp s k
        if bitAt o.flags 4 then
          arFail s0 (noteWithdrawn (raiseEvent s .coll 0 4) j.tenant (cStep j.cmd) [boxSpan (arX j.cmd) (fullBox (arX j.cmd))]) j 0x20
            (flOfBits o.flags) 0
        else
          let s := if arSlotEn j.cmd then jobSum s j (arSlot j.cmd) o.sum else s
          finishJob s0 (perfAdd s .coll 0 0 1) j (ranResult (flOfBits o.flags) o.pieces.length)

/-- A piece is done when its result is in y, every child has acknowledged it and the parent has the partial sum. [DEDUCED, log 51] -/
def settle (o : CollOpn) (p : Nat) : CollOpn :=
  let x := opPiece o p
  let d := x.result.isSome && (opKids o).all (fun r => x.acks.contains r) && ((opSelf o).root || x.upAck)
  setPiece o p { x with done := x.done || d }

/-- R541: a piece is combined: sent up, or narrowed, written and sent down at the root. What combining leaves in a staging slot is not
stated: free bytes. -/
def doPieceCombine (s0 : State) (k p : Nat) (struck : List Nat) : State :=
  match collOp s0 k with
  | none => s0
  | some o =>
    match opJob s0 o, o.pieces[p]? with
    | some j, some x =>
      let c := j.cmd
      let root := (opSelf o).root
      if !x.placed || x.up || x.result.isSome || o.phase == 3 || !(root || x.granted) || x.sums.length < (opKids o).length
          || !unitRuns s0 .coll 0 then s0
      else
        let r := arRead s0 j p
        let s := withdrawNew s0 r r
        match arMiss r j p with
        | some (va, n) => raiseAbort s0 (missAt s j.tenant va n false) k o 5
        | none =>
          let v := arCombine r j o x p struck
          let st := match x.stage with
            | some i =>
              let w := tStore s j.tenant (arStage c + i * arPiece c) (freeBytes s (arPiece c))
              ({ w.1 with freeCount := w.1.freeCount + arPiece c }, w.2)
            | none => (s, false)
          if st.2 then raiseAbort s0 st.1 k o 5
          else
            let s := perfAdd st.1 .coll 0 (if x.stage.isNone then 1 else 2) 1
            if root then
              let nv := v.vals.map (arNarrow (dFmt (arX c)) (cOvf c))
              let fl := flAll (((List.range nv.length).zip nv).filterMap (fun e => if v.bad.contains e.1 then none else some e.2.2))
              let r : PieceVal := { vals := nv.map (·.1), bad := v.bad, flags := v.flags ||| flBits fl ||| (if v.bad.isEmpty then 0 else 16) }
              let w := arWrite s j p r
              if w.2 then raiseAbort s0 w.1 k o 5
              else
                let o := settle (setPiece { o with flags := o.flags ||| r.flags, phase := 2, sum := arSum (dFmt (arX c)) (r.vals.getD 0 0) } p
                  { x with result := some r }) p
                opDone s0 (sendResult (putOp w.1 k o) o p (arX c).fmt x r) k
            else
              let s := putOp s k (setPiece o p { x with up := true })
              collData s o (opSelf o).parent (if x.stage.isNone then 5 else 6) .partialSum { collBlank o with
                tag := o.parentTag.getD 0, ctag := o.tag, piece := p, vals := v.vals, bad := v.bad, flags := v.flags, fmt := (arX c).fmt }
    | _, _ => s0

/-- R542, R543: a data message of a result received; once the result is whole it is written to y, acknowledged and forwarded. -/
def doResultPiece (s0 : State) (m : CollMsg) : State :=
  match opSlot s0 m.key with
  | none => collLate s0
  | some k => match collOp s0 k with
    | none => collLate s0
    | some o =>
      match opJob s0 o, o.pieces[m.piece]? with
      | some j, some x =>
        let count := msgCount (dFmt (arX j.cmd)) (arRange j.cmd m.piece).length
        if m.tag != o.tag || (opSelf o).root || m.rank != (opSelf o).parent || !x.up || x.result.isSome || partBad x m count then collLate s0
        else match takePart x m count with
        | (x, none) => putOp s0 k (setPiece o m.piece x)
        | (x, some r) =>
          let w := arWrite s0 j m.piece r
          if w.2 then raiseAbort s0 w.1 k o 5
          else
            let f := dFmt (arX j.cmd)
            let o := settle (setPiece { o with flags := o.flags ||| r.flags, phase := 2, sum := arSum f (r.vals.getD 0 0) } m.piece
              { x with result := some r }) m.piece
            let s := collSend (putOp w.1 k o) o (opSelf o).parent 0 .ack { collBlank o with tag := o.parentTag.getD 0, piece := m.piece }
            opDone s0 (sendResult s o m.piece (arX j.cmd).fmt x r) k
      | _, _ => collLate s0

/-- R541, R542, R549: an acknowledgement received, of a piece or of an ABORT. -/
def doAck (s : State) (m : CollMsg) : State :=
  if m.cause != 0 then
    match s.coll.ops.find? (fun e => e.2.key == m.key && e.2.phase == 3) with
    | none => collLate s
    | some (k, o) =>
      let left := o.awaiting.filter (· != m.rank)
      if left.isEmpty then freeOp s k else putOp s k { o with awaiting := left }
  else match opSlot s m.key with
    | none => collLate s
    | some k => match collOp s k with
      | none => collLate s
      | some o =>
        match o.pieces[m.piece]? with
        | some x =>
          if m.tag != o.tag then collLate s
          else if !(opSelf o).root && m.rank == (opSelf o).parent && x.up then
            opDone s (putOp s k (settle (setPiece o m.piece { x with upAck := true }) m.piece)) k
          else if (opKids o).contains m.rank && x.result.isSome then
            opDone s (putOp s k (settle (setPiece o m.piece { x with acks := m.rank :: x.acks }) m.piece)) k
          else collLate s
        | none => collLate s

/-! Aborts (13.6). -/

/-- R549, R550: an ABORT received. [DEDUCED, log 51] -/
def doAbort (s : State) (m : CollMsg) : State :=
  let s := raiseEvent s .coll 0 1
  match s.coll.ops.find? (fun e => e.2.key == m.key) with
  | some (k, o) =>
    let s := collSend s o m.rank 0 .ack { collBlank o with cause := m.cause, origin := m.origin }
    if o.phase == 3 then s
    else abortOp s s k o m.cause m.origin (some m.rank) 0x23 (m.cause + m.origin * 256)
  | none =>
    if s.coll.held.any (fun a => a.key == m.key) then s
    else { s with coll := { s.coll with held := s.coll.held ++ [{ key := m.key, cause := m.cause, origin := m.origin }] } }

/-- R548: a wait of the operation in a slot has exceeded its limit; one that only awaits acknowledgements of its ABORT is freed. -/
def doCollTimeout (s : State) (k : Nat) : State :=
  match collOp s k with
  | none => s
  | some o => if o.phase == 3 then freeOp s k else raiseAbort s (raiseEvent s .coll 0 2) k o 1

/-- R550: a held ABORT expires. -/
def doAbortExpire (s : State) (key : CollKey) : State :=
  { s with coll := { s.coll with held := s.coll.held.filter (fun a => a.key != key) } }

/-! Resets (13.8). -/

/-- R553: the unit is reset: every running operation aborts with cause 4 and completes TARGET_GONE, as does every command it holds. [DEDUCED, log 86] -/
def collReset (s : State) : State :=
  let s := s.coll.ops.foldl (fun x e => if e.2.phase == 3 then x else abortOp x (raiseEvent x .coll 0 0) e.1 e.2 4 e.2.rank none 0x22 0) s
  let s := failJobs s .coll .coll 0 5
  { s with coll := { s.coll with ops := [], held := [] } }

/-- The staging slots that an operation holds, to be zeroed when its part of the reset ends (R554). [DEDUCED, log 51] -/
def slotsHeld (s : State) (o : CollOpn) : List (Nat × Nat) :=
  match opJob s o with
  | none => []
  | some j => (o.pieces.filter (holdsPlace o)).filterMap (fun p => p.stage.map (fun i => (arStage j.cmd + i * arPiece j.cmd, arPiece j.cmd)))

/-- R554: a tenant reset: the tenant's operations abort with cause 4 and complete with `status`. [DEDUCED, log 86] -/
def collTenant (s : State) (t status : Nat) : State :=
  let s := s.coll.ops.foldl (fun x e =>
    if e.2.phase == 3 || e.2.tenant != t then x
    else abortOp x (raiseEvent x .coll 0 0) e.1 { e.2 with zero := slotsHeld x e.2 } 4 e.2.rank none status (if status = 0x23 then 4 + e.2.rank * 256 else 0)) s
  { s with coll := { s.coll with held := s.coll.held.filter (fun a => a.key.tenant != t) } }

/-- The collective part of a tenant's reset is over (R554). -/
def collClear (s : State) (t : Nat) : Bool := !s.coll.ops.any (fun e => e.2.tenant == t)

/-- R556: in Lamb mode every running operation aborts with cause 6. -/
def collLamb (s : State) : State :=
  s.coll.ops.foldl (fun x e => if e.2.phase == 3 then x else raiseAbort x x e.1 e.2 6) s

/-! The steps of this part. -/

/-- ALLREDUCE (R532). -/
def execAllreduce (s : State) : Host.Outcome State Fault Refusal := .next (whenLive s (doAllreduce s))

/-- GRANT_SEND (R539). -/
def execGrantSend (slot piece : Nat) (s : State) : Host.Outcome State Fault Refusal := .next (whenLive s (doGrantSend s slot piece))

/-- GRANT (R547). -/
def execGrant (m : CollMsg) (s : State) : Host.Outcome State Fault Refusal := .next (whenLive s (doGrant s m))

/-- PARTIAL_SUM (R541). -/
def execPartialSum (m : CollMsg) (s : State) : Host.Outcome State Fault Refusal := .next (whenLive s (doPartialSum s m))

/-- ACKNOWLEDGEMENT (R541). -/
def execAcknowledgement (m : CollMsg) (s : State) : Host.Outcome State Fault Refusal := .next (whenLive s (doAck s m))

/-- ABORT (R549). -/
def execAbortMsg (m : CollMsg) (s : State) : Host.Outcome State Fault Refusal := .next (whenLive s (doAbort s m))

/-- COLLECTIVE_WAIT_TIMEOUT (R548). -/
def execCollectiveWaitTimeout (slot : Nat) (s : State) : Host.Outcome State Fault Refusal := .next (whenLive s (doCollTimeout s slot))

/-- ABORT_HOLD_EXPIRE (R550). -/
def execAbortHoldExpire (key : CollKey) (s : State) : Host.Outcome State Fault Refusal := .next (whenLive s (doAbortExpire s key))

end Sys2Proof.Machine
end

