-- ==== Sys2Proof/Machine/MuleExec.lean ====
section
/-! DEFINITION. The Mule instructions (7.4 to 7.7). -/

namespace Sys2Proof.Machine

/-- What an instruction does: it completes, with the vector beats and FP64 operations that PERF2 and PERF3 count, or the core stops at
it for a cause of Table 7.14. -/
inductive MRes where
  | ok (s : State) (c : MCore) (beats ops : Nat)
  | stop (s : State) (c : MCore) (cause : Nat)

/-- The core at the next instruction. -/
def nextPc (c : MCore) : MCore := { c with pc := c.pc + 1 }

/-- R308: a register-file parity error. -/
def muleParity (s : State) (n file reg : Nat) : State :=
  let k := n / 8
  let log := tabGet {} s.mule.logs k
  let s := if log.valid then s else { s with mule := { s.mule with
    logs := tabSet s.mule.logs k { valid := true, core := n % 8, reg := reg, file := file } } }
  stopCore (blkError (raiseEvent s .mule k 1) .mule k 4 0 0 (mcore s n).tenant) n 4

/-- R307: the cache errors that an instruction meets: one corrected; one in a line that the cluster's L2 holds dirty, which is written
back to LPDDR as poison. No counter of MULE's PERF list counts corrections. [DEDUCED, log 46] -/
def muleEvent (s : State) (n : Nat) (ev : MuleEv) : State :=
  match ev with
  | .eccCorr => raiseEvent s .mule (n / 8) 3
  | .l2Dirty l => if s.mule.dirty.any (fun d => d.cluster == n / 8 && d.line == l) then (storePoison s (l * 64)).1 else s
  | _ => s

/-- The next instruction of a core runs where it has the given major opcode and function: its effect, then the cap and the end of the
image (R264, R294). -/
def mRun (s : State) (n op : Nat) (fn : Option Nat) (ev : MuleEv) (body : State → MCore → Nat → MRes) : State :=
  match coreRun s n with
  | none => s
  | some (r, _) =>
    let c := mcore s n
    match c.code[c.pc]? with
    | none => s
    | some w =>
      let w := w.toNat
      if c.st != 2 || !r.started || !unitRuns s .mule (n / 8) || mOp w != op || (fn.isSome && fn != some (mFn w)) then s
      else match ev with
        | .parity file reg => muleParity s n file reg
        | ev =>
          match body (muleEvent s n ev) c w with
          | .ok s c beats ops =>
            let s := setCore s n { c with retired := c.retired + 1 }
            let s := perfAdd (perfAdd (perfAdd s .mule (n / 8) 1 1) .mule (n / 8) 2 beats) .mule (n / 8) 3 ops
            afterInstr s n
          | .stop s c cause => stopCore (setCore s n c) n cause

/-! Integer and control instructions (7.4). -/

/-- R259: an IOP function. -/
def iopFn (fn : Nat) (ovf : Bool) (a b : Nat) : Nat × Fl :=
  match fn with
  | 0 => iAdd true ovf 64 a b
  | 1 => iSub true ovf 64 a b
  | 2 => iMul true ovf 64 a b
  | 3 => (unsgn 64 (sgn 64 a * sgn 64 b / 2 ^ 64), Fl.none)
  | 4 => (a * b / 2 ^ 64, Fl.none)
  | 5 => iQuo true ovf 64 a b
  | 6 => iRem true 64 a b
  | 7 => iQuo false ovf 64 a b
  | 8 => iRem false 64 a b
  | 9 => (a &&& b, Fl.none)
  | 10 => (a ||| b, Fl.none)
  | 11 => (Nat.xor a b, Fl.none)
  | 12 => iShl true ovf 64 a b
  | 13 => iShr 64 a b
  | 14 => iSar 64 a b
  | 15 => (if sgn 64 b < sgn 64 a then b else a, Fl.none)
  | 16 => (if sgn 64 a < sgn 64 b then b else a, Fl.none)
  | 17 => (min a b, Fl.none)
  | 18 => (max a b, Fl.none)
  | 19 => iNeg true ovf 64 a
  | 20 => iAbs true ovf 64 a
  | 21 => iAdd false ovf 64 a b
  | 22 => iSub false ovf 64 a b
  | 23 => iMul false ovf 64 a b
  | 24 => (b2n (sgn 64 a < sgn 64 b), Fl.none)
  | _ => (b2n (a < b), Fl.none)

/-- An integer result with its flags. -/
def putI (s : State) (c : MCore) (d : Nat) (r : Nat × Fl) : MRes := .ok s (nextPc (orFlags (setI c d r.1) r.2)) 0 0

/-- An FP64 result with its flags. -/
def putF (s : State) (c : MCore) (d : Nat) (r : Nat × Fl) (ops : Nat) : MRes := .ok s (nextPc (orFlags (setF c d r.1) r.2)) 0 ops

/-- R261: the branch conditions, by major opcode. -/
def branchCond (op a b : Nat) : Bool :=
  match op with
  | 0x38 => a == b
  | 0x39 => a != b
  | 0x3A => sgn 64 a < sgn 64 b
  | 0x3B => sgn 64 b ≤ sgn 64 a
  | 0x3C => a < b
  | _ => b ≤ a

/-- The core at index p + off. -/
def jumpBy (c : MCore) (off : Int) : MCore := { c with pc := ((c.pc : Int) + off).toNat }

/-- R261: a conditional branch; format B holds a in [25:21] and b in [20:16]. -/
def doBranch (s : State) (n op : Nat) (ev : MuleEv) : State :=
  mRun s n op none ev (fun s c w =>
    .ok s (if branchCond op (iReg c (mD w)) (iReg c (mA w)) then jumpBy c (mImm w) else nextPc c) 0 0)

/-! FP64 (7.5). -/

/-- Table 7.4 for FP64 instructions. -/
def fpRnd (rm : Nat) : Rnd :=
  match rm with
  | 0 => .rne
  | 1 => .rtz
  | 2 => .up
  | _ => .down

/-- A value rounded to FP64 with every IEEE flag (R122 to R125). -/
def fpRound (rm : Nat) (r : Val × Fl) : Nat × Fl := let q := narrow .fp64 (fpRnd rm) true r.1; (q.1, flOr r.2 q.2)

/-- R126: a sign operation on a NaN gives the canonical NaN. -/
def fpSigned (a : Nat) (extra : Bool) (r : Nat) : Nat × Fl :=
  let x := fDecode .fp64 a
  if vIsNaN x then (fmtCanon .fp64, { nan := true, nv := vIsSNaN x || extra }) else (r, { nv := extra })

/-- R266: a function of Table 7.7 on 64-bit patterns. FSGNJ takes the sign of a NaN b as positive (R88). [DEDUCED, log 28] -/
def fpFn (fn rm a b : Nat) : Nat × Fl :=
  let x := fDecode .fp64 a
  let y := fDecode .fp64 b
  match fn with
  | 0 => fpRound rm (vAdd (rm == 3) x y)
  | 1 => fpRound rm (vAdd (rm == 3) x (vFlip y))
  | 2 => fpRound rm (vMul x y)
  | 3 => fpRound rm (vDiv x y)
  | 4 => fpRound rm (vSqrt x)
  | 5 => fpRound 0 (vMin x y)
  | 6 => fpRound 0 (vMax x y)
  | 7 => fpSigned a false (Nat.xor a (2 ^ 63))
  | 8 => fpSigned a false (a % 2 ^ 63)
  | 9 => fpSigned a (vIsSNaN y) (a % 2 ^ 63 + 2 ^ 63 * b2n (vNeg y))
  | _ => (a, Fl.none)

/-- R257, R267: ±(a × b) ± c; bit 1 of `neg` negates the product, bit 0 the addend. -/
def mFma (rm neg a b c : Nat) : Nat × Fl :=
  let x := fDecode .fp64 a
  let z := fDecode .fp64 c
  fpRound rm (vFma (rm == 3) (if bitAt neg 1 then vFlip x else x) (fDecode .fp64 b) (if bitAt neg 0 then vFlip z else z))

/-- R268: a comparison. -/
def fpCmp (fn a b : Nat) : Nat × Fl :=
  let x := fDecode .fp64 a
  let y := fDecode .fp64 b
  let un := vIsNaN x || vIsNaN y
  let sn : Fl := { nv := vIsSNaN x || vIsSNaN y }
  match fn with
  | 0 => (b2n (!un && vCmp x y == .eq), sn)
  | 1 => (b2n (un || vCmp x y != .eq), sn)
  | 2 => (b2n (!un && vCmp x y == .lt), { nv := un })
  | _ => (b2n (!un && vCmp x y != .gt), { nv := un })

/-- R268: CLASS. -/
def fpClass (a : Nat) : Nat :=
  let neg := bitAt a 63
  let e := bits a 52 11
  let m := bits a 0 52
  if e = 2047 then (if m = 0 then (if neg then 1 else 128) else if bitAt a 51 then 512 else 256)
  else if e = 0 then (if m = 0 then (if neg then 8 else 16) else if neg then 4 else 32)
  else if neg then 2 else 64

/-- R269: RINT. -/
def fpRint (rm a : Nat) : Nat × Fl :=
  match fDecode .fp64 a with
  | .nan s => (fmtCanon .fp64, { nan := true, nv := s })
  | .inf _ => (a, Fl.none)
  | .fin n m e st =>
    let q := roundAt 0 (fpRnd rm) n m e st
    if 0 ≤ e then (a, Fl.none) else (fEncode .fp64 n q.1 0, { nx := q.2 })

/-- R269: a conversion of Table 7.8 on 64-bit patterns. -/
def fpCvt (fn rm : Nat) (ovf : Bool) (a : Nat) : Nat × Fl :=
  let x := fDecode .fp64 a
  match fn with
  | 0 => fpRound rm (vInt (sgn 64 a), Fl.none)
  | 1 => fpRound 0 (vInt (sgn 32 a), Fl.none)
  | 2 => fpRound 0 (vInt ((a % 2 ^ 32 : Nat) : Int), Fl.none)
  | 3 => narrow .int64 (fpRnd rm) ovf x
  | 4 => let q := narrow .int32 (fpRnd rm) ovf x; (unsgn 64 (sgn 32 q.1), q.2)
  | 5 => narrow .uint32 (fpRnd rm) ovf x
  | 8 => fpRint rm a
  | _ => (a, Fl.none)

/-! Vectors (7.6). -/

/-- R271: the elements an instruction of width `w` processes. -/
def vecN (c : MCore) (w : Nat) : Nat := min c.vl (4096 / w)

/-- R273: its beats. -/
def beatsOf (n w : Nat) : Nat := max 1 (ceilDiv (n * w) 1024)

/-- R271: element `e` is active. -/
def vecAct (c : MCore) (msk n e : Nat) : Bool := decide (e < n) && bitAt (kReg c msk) e

/-- A register value of elements of width `w`, element 0 lowest. -/
def vecJoin (w : Nat) (l : List Nat) : Nat := l.foldr (fun x acc => x % 2 ^ w + 2 ^ w * acc) 0

/-- R272: the results of the active elements, zero for the rest. -/
def vecMap (c : MCore) (w msk : Nat) (f : Nat → Nat × Fl) : List (Nat × Fl) :=
  (List.range (vecN c w)).map (fun e => if vecAct c msk (vecN c w) e then f e else (0, Fl.none))

/-- The active elements of an instruction. -/
def vecActive (c : MCore) (w msk : Nat) : Nat := ((List.range (vecN c w)).filter (vecAct c msk (vecN c w))).length

/-- A vector result written: destination elements of width `dw`. -/
def putV (s : State) (c : MCore) (d dw : Nat) (r : List (Nat × Fl)) (beats ops : Nat) : MRes :=
  .ok s (nextPc (orFlags (setV c d (vecJoin dw (r.map (·.1)))) (flAll (r.map (·.2))))) beats ops

/-- A mask result written: bit `e` for element `e`. -/
def putK (s : State) (c : MCore) (d : Nat) (r : List (Nat × Fl)) (beats ops : Nat) : MRes :=
  .ok s (nextPc (orFlags (setK c d (vecJoin 1 (r.map (·.1)))) (flAll (r.map (·.2))))) beats ops

/-- R257, R278: the exact rational x / 2^k rounded under the integer column of Table 7.4. -/
def rndInt (rm : Nat) (x : Int) (k : Nat) : Int :=
  let k := min k 160
  let q := x / 2 ^ k
  let r := x % 2 ^ k
  match rm with
  | 0 => if 2 * r > 2 ^ k || (2 * r == 2 ^ k && 0 < k && q % 2 == 1) then q + 1 else q
  | 1 => if 2 * r ≥ 2 ^ k && 0 < k then q + 1 else q
  | 2 => q
  | _ => if x < 0 && r != 0 then q + 1 else q

/-- R277, R278: a function of Table 7.9 on one element. -/
def viFn (fn rm : Nat) (ovf : Bool) (w a b : Nat) : Nat × Fl :=
  let x := sgn w a
  let y := sgn w b
  match fn with
  | 0 => iAdd true ovf w a b
  | 1 => iSub true ovf w a b
  | 2 => iMul true ovf w a b
  | 3 => iFit true ovf w (rndInt rm (x * y) (w - 1))
  | 4 => (unsgn w (rndInt rm (x + y) 1), Fl.none)
  | 5 => (unsgn w (rndInt rm x b), Fl.none)
  | 6 => iShl true ovf w a b
  | 7 => iShr w a b
  | 8 => iSar w a b
  | 9 => (if y < x then b else a, Fl.none)
  | 10 => (if x < y then b else a, Fl.none)
  | 11 => (a &&& b, Fl.none)
  | 12 => (a ||| b, Fl.none)
  | 13 => (Nat.xor a b, Fl.none)
  | 14 => iNeg true ovf w a
  | 15 => iAbs true ovf w a
  | 16 => iAdd false ovf w a b
  | 17 => iSub false ovf w a b
  | 18 => iFit true ovf (w / 2) (rndInt rm x b)
  | 20 => (b2n (a == b), Fl.none)
  | 21 => (b2n (x < y), Fl.none)
  | 22 => (b2n (a < b), Fl.none)
  | _ => (a, Fl.none)

/-- R277: VI64, VI32, VI16. -/
def doVi (s : State) (n op w : Nat) (ev : MuleEv) : State :=
  mRun s n op none ev (fun s c i =>
    let va := vReg c (mA i)
    let vb := vReg c (mB i)
    let fn := mFn i
    let r := vecMap c w (mMsk i) (fun e =>
      if fn = 19 then (unsgn w (sgn (w / 2) (vElem va (w / 2) e)), Fl.none)
      else viFn fn (mRm i) (mOvf i) w (vElem va w e) (vElem vb w e))
    let bt := beatsOf (vecN c w) w
    if 20 ≤ fn then putK s c (mD i) r bt 0 else putV s c (mD i) (if fn = 18 then w / 2 else w) r bt 0)

/-- One level of a reduction tree with absent entries (R276). -/
def redLevel (f : Nat × Fl → Nat × Fl → Nat × Fl) : List (Option (Nat × Fl)) → List (Option (Nat × Fl))
  | some x :: some y :: t => some (f x y) :: redLevel f t
  | some x :: none :: t => some x :: redLevel f t
  | none :: y :: t => y :: redLevel f t
  | l => l

/-- R276: VFRED over 64 places. -/
def vfRed (fn rm : Nat) (xs : List (Option Nat)) : Nat × Fl :=
  let item := fun (x : Nat) => if fn = 3 then (x % 2 ^ 63, ({ nv := vIsSNaN (fDecode .fp64 x) } : Fl)) else (x, { nv := vIsSNaN (fDecode .fp64 x) })
  let f := fun (x y : Nat × Fl) =>
    let r := match fn with
      | 0 => fpFn 0 rm x.1 y.1
      | 2 => fpFn 5 0 x.1 y.1
      | _ => fpFn 6 0 x.1 y.1
    (r.1, flOr (flOr x.2 y.2) r.2)
  match ((List.range 6).foldl (fun l _ => redLevel f l) (xs.map (fun o => o.map item))).head? with
  | some (some r) => if vIsNaN (fDecode .fp64 r.1) then (fmtCanon .fp64, { r.2 with nan := true }) else r
  | _ => (0, Fl.none)

/-- R279: the width of the elements of a VMISC function. -/
def vmWidth (fn : Nat) : Nat := if fn = 2 then 32 else if fn = 3 then 16 else 64

/-- R279: VMISC. -/
def vmiscBody (s : State) (c : MCore) (i : Nat) : MRes :=
  let d := mD i
  let a := mA i
  let b := mB i
  let fn := mFn i
  let w := vmWidth fn
  let bt := beatsOf (vecN c w) w
  let vl := c.vl
  match fn with
  | 0 => putV s c d 64 (vecMap c 64 (mMsk i) (fun _ => (iReg c a, Fl.none))) bt 0
  | 1 => putV s c d 64 (vecMap c 64 (mMsk i) (fun _ => (fReg c a, Fl.none))) bt 0
  | 2 | 3 => putV s c d w (vecMap c w (mMsk i) (fun _ => (iReg c a % 2 ^ w, Fl.none))) bt 0
  | 4 => .ok s (nextPc (setV c d (vReg c a))) bt 0
  | 5 => putV s c d 64 (vecMap c 64 (mMsk i) (fun e => (e, Fl.none))) bt 0
  | 6 => .ok s (nextPc (setK c d (kReg c a &&& kReg c b))) 0 0
  | 7 => .ok s (nextPc (setK c d (kReg c a ||| kReg c b))) 0 0
  | 8 => .ok s (nextPc (setK c d (Nat.xor (kReg c a) (kReg c b)))) 0 0
  | 9 => .ok s (nextPc (setK c d (Nat.xor (kReg c a) (2 ^ 256 - 1)))) 0 0
  | 10 => .ok s (nextPc (setI c d (popCount vl (kReg c a)))) 0 0
  | 11 => .ok s (nextPc (setI c d (((bitsOf vl (kReg c a)).head?).getD vl))) 0 0
  | 12 => .ok s (nextPc (setI c d (if iReg c b < 64 then vElem (vReg c a) 64 (iReg c b) else 0))) 0 0
  | _ => .ok s (nextPc (if iReg c b < 64 then setV c d (setBits (vReg c d) (64 * iReg c b) 64 (iReg c a)) else c)) 0 0

/-! Memory access (7.7). -/

/-- R280, R297: why an access of `n` bytes at `a` stops the core, 0 if it does not. [DEDUCED, log 45] -/
def accCause (s : State) (t a n : Nat) (w : Bool) : Nat :=
  if 2 ^ 48 < a + n then 1
  else if !(pagesOf a n).all (fun p => match xlate s t (p * 4096) with
      | some (la, wr) => inLpddr la && (!w || (wr && !isSealed s la))
      | none => false) then 1
  else if !(pagesOf a n).all (fun p => served s (localOf s t (p * 4096))) then 6
  else if !w && tPoison s t a n then 2
  else 0

/-- The state as an access finds it: its pages translated, and the errors that a load meets (R378, R381). -/
def accState (s : State) (t a n : Nat) (w : Bool) (ev : MuleEv) : State :=
  let s := if a + n ≤ 2 ^ 48 then fillTlb s t a n else s
  let here := spansHave s t [some (a, n)]
  let s := match ev with
    | .ue l => if !w && here l then addErrs s [{ line := l, bad := [0, 1] }] else s
    | _ => s
  if w then s else meetErrs s here

/-- R285: the lines of a store are dirty in the L2 of the core's cluster, for its run. [DEDUCED, log 46] -/
def markDirty (s : State) (k t a n : Nat) : State :=
  let lines := (linesOf a n).map (fun l => localOf s t (l * 64) / 64)
  let run := (mcore s k).run
  { s with mule := { s.mule with
    dirty := s.mule.dirty.filter (fun d => !lines.contains d.line) ++ lines.map (fun l => { cluster := k / 8, line := l, run := run }) } }

/-- R392: a store that meets a sealed granule raises the event of the block that owns it. [DEDUCED, log 45] -/
def accSeal (s : State) (t a n : Nat) : State :=
  ((pagesOf a n).filterMap (fun p => (xlate s t (p * 4096)).map (·.1))).foldl (fun x la => if isSealed x la then sealHit x la else x) s

/-- The event says that this element's path is gone. -/
def evGone (ev : MuleEv) (e : Nat) : Bool :=
  match ev with
  | .gone k => k == e
  | _ => false

/-- One load: the state, the cause for which the core stops (0 for none), the value. [DEDUCED, log 46] -/
def mLoad (s : State) (t a n e : Nat) (ev : MuleEv) : State × Nat × Nat :=
  let s := accState s t a n false ev
  let k := if evGone ev e then 6 else accCause s t a n false
  (if k = 6 && !evGone ev e then missAt s t a n false else s, k, if k = 0 then tNat s t a n else 0)

/-- One store of core `p`: the state and the cause. [DEDUCED, log 46] -/
def mStore (s : State) (p t a n v e : Nat) (ev : MuleEv) : State × Nat :=
  let s := accState s t a n true ev
  let k := if evGone ev e then 6 else accCause s t a n true
  if k = 0 then (markDirty (tStore s t a (leBytes n v)).1 p t a n, 0)
  else (if k = 6 && !evGone ev e then missAt s t a n true else accSeal s t a n, k)

/-- The address of a scalar access: i[a] + imm. -/
def memAddr (c : MCore) (w : Nat) : Nat := unsgn 64 ((iReg c (mA w) : Int) + mImm w)

/-- R281: a scalar load of `n` bytes, put by `put`. -/
def doLoad (s : State) (k op n : Nat) (ev : MuleEv) (put : MCore → Nat → Nat → MCore) : State :=
  mRun s k op none ev (fun s c w =>
    let r := mLoad s c.tenant (memAddr c w) n 0 ev
    if r.2.1 = 0 then .ok r.1 (nextPc (put c (mD w) r.2.2)) 0 0 else .stop r.1 c r.2.1)

/-- R281: a scalar store of `n` bytes, got by `get`. -/
def doStore (s : State) (k op n : Nat) (ev : MuleEv) (get : MCore → Nat → Nat) : State :=
  mRun s k op none ev (fun s c w =>
    let r := mStore s k c.tenant (memAddr c w) n (get c (mD w)) 0 ev
    if r.2 = 0 then .ok r.1 (nextPc c) 0 0 else .stop r.1 c r.2)

/-- R282: the address of element `e`. -/
def vecAddr (c : MCore) (i w e : Nat) : Nat :=
  let a : Int := iReg c (mA i)
  match mFn i with
  | 0 => unsgn 64 (a + (e * (w / 8) : Nat))
  | 1 => unsgn 64 (a + (e : Int) * sgn 64 (iReg c (mB i)))
  | _ =>
    let x := vElem (vReg c (mB i)) w e
    unsgn 64 (a + (if w = 64 then sgn 64 x else (x : Int)))

/-- A vector access under way: the state, the core, the element and cause at which it stopped. -/
structure VMem where
  st : State
  core : MCore
  stop : Option (Nat × Nat) := none

/-- R298: one element of a vector load. -/
def vldElem (i w n : Nat) (ev : MuleEv) (m : VMem) (e : Nat) : VMem :=
  if m.stop.isSome then m
  else if !vecAct m.core (mMsk i) n e then { m with core := setV m.core (mD i) (setBits (vReg m.core (mD i)) (w * e) w 0) }
  else
    let r := mLoad m.st m.core.tenant (vecAddr m.core i w e) (w / 8) e ev
    if r.2.1 = 0 then { m with st := r.1, core := setV m.core (mD i) (setBits (vReg m.core (mD i)) (w * e) w r.2.2) }
    else { m with st := r.1, stop := some (e, r.2.1) }

/-- R298: one element of a vector store. -/
def vstElem (p i w n : Nat) (ev : MuleEv) (m : VMem) (e : Nat) : VMem :=
  if m.stop.isSome || !vecAct m.core (mMsk i) n e then m
  else
    let r := mStore m.st p m.core.tenant (vecAddr m.core i w e) (w / 8) (vElem (vReg m.core (mD i)) w e) e ev
    if r.2 = 0 then { m with st := r.1 } else { m with st := r.1, stop := some (e, r.2) }

/-- R282, R298: a vector load or store, from element vresume on. -/
def doVmem (s : State) (k op w : Nat) (load : Bool) (ev : MuleEv) : State :=
  mRun s k op none ev (fun s c i =>
    let n := vecN c w
    let m := (natsFrom c.vresume (n - c.vresume)).foldl (if load then vldElem i w n ev else vstElem k i w n ev) { st := s, core := c }
    match m.stop with
    | some (e, cause) => .stop m.st { m.core with vresume := e } cause
    | none =>
      let c := if load then setV m.core (mD i) (bits (vReg m.core (mD i)) 0 (w * n)) else m.core
      .ok m.st (nextPc { c with vresume := 0 }) (beatsOf n w) 0)

/-- An FP64 vector instruction. -/
def doVfp (s : State) (n op : Nat) (ev : MuleEv) (ops : Nat → Nat) (f : MCore → Nat → Nat → Nat × Fl) : State :=
  mRun s n op none ev (fun s c i =>
    putV s c (mD i) 64 (vecMap c 64 (mMsk i) (f c i)) (beatsOf (vecN c 64) 64) (ops i * vecActive c 64 (mMsk i)))

/-- The FP64 operations that a function of Table 7.7 counts: its arithmetic, minimum and maximum, not its sign and copy functions. [DEDUCED, log 45] -/
def fpOps (i : Nat) : Nat := if mFn i ≤ 6 then 1 else 0

/-- The FP64 operations that a conversion of Table 7.8 counts: all but its moves. [DEDUCED, log 45] -/
def cvtOps (i : Nat) : Nat := if mFn i ≤ 5 || mFn i == 8 then 1 else 0

/-- Format F: the mask field lies in [1:0]. -/
def doVfma (s : State) (n op : Nat) (ev : MuleEv) (scalar : Bool) : State :=
  mRun s n op none ev (fun s c i =>
    let msk := bits i 0 2
    let r := vecMap c 64 msk (fun e =>
      mFma (mRm i) (bits i 2 2) (vElem (vReg c (mA i)) 64 e) (if scalar then fReg c (mB i) else vElem (vReg c (mB i)) 64 e)
        (vElem (vReg c (mFn i)) 64 e))
    putV s c (mD i) 64 r (beatsOf (vecN c 64) 64) (2 * vecActive c 64 msk))

/-! The steps of this chapter. -/

/-- SYS_NOP (R265). -/
def execSysNop (core : Nat) (ev : MuleEv) (s : State) : Host.Outcome State Fault Refusal :=
  .next (whenLive s (mRun s core 0x00 (some 0) ev (fun s c _ => .ok s (nextPc c) 0 0)))

/-- SYS_HALT (R265). -/
def execSysHalt (core : Nat) (ev : MuleEv) (s : State) : Host.Outcome State Fault Refusal :=
  .next (whenLive s (mRun s core 0x00 (some 1) ev (fun s c _ => .ok s { nextPc c with st := 4 } 0 0)))

/-- SYS_BAR (R292). -/
def execSysBar (core : Nat) (ev : MuleEv) (s : State) : Host.Outcome State Fault Refusal :=
  .next (whenLive s (mRun s core 0x00 (some 2) ev (fun s c _ => .ok s { nextPc c with st := 3 } 0 0)))

/-- SYS_RET (R262). -/
def execSysRet (core : Nat) (ev : MuleEv) (s : State) : Host.Outcome State Fault Refusal :=
  .next (whenLive s (mRun s core 0x00 (some 3) ev (fun s c _ =>
    match c.ret with
    | [] => .ok s { nextPc c with st := 4 } 0 0
    | p :: t => .ok s { c with pc := p, ret := t } 0 0)))

/-- SYS_SUMI (R265). -/
def execSysSumi (core : Nat) (ev : MuleEv) (s : State) : Host.Outcome State Fault Refusal :=
  .next (whenLive s (mRun s core 0x00 (some 4) ev (fun s c w => .ok s { nextPc c with sr := BitVec.ofNat 64 (iReg c (mA w)) } 0 0)))

/-- SYS_SUMF (R265). -/
def execSysSumf (core : Nat) (ev : MuleEv) (s : State) : Host.Outcome State Fault Refusal :=
  .next (whenLive s (mRun s core 0x00 (some 5) ev (fun s c w => .ok s { nextPc c with sr := BitVec.ofNat 64 (fReg c (mA w)) } 0 0)))

/-- SYS_FSRR (R265). -/
def execSysFsrr (core : Nat) (ev : MuleEv) (s : State) : Host.Outcome State Fault Refusal :=
  .next (whenLive s (mRun s core 0x00 (some 6) ev (fun s c w => .ok s (nextPc (setI c (mD w) c.fsr.toNat)) 0 0)))

/-- SYS_FSRC (R265). -/
def execSysFsrc (core : Nat) (ev : MuleEv) (s : State) : Host.Outcome State Fault Refusal :=
  .next (whenLive s (mRun s core 0x00 (some 7) ev (fun s c w => .ok s { nextPc c with fsr := c.fsr &&& ~~~(BitVec.ofNat 7 (iReg c (mA w))) } 0 0)))

/-- SYS_SETVL (R265). -/
def execSysSetvl (core : Nat) (ev : MuleEv) (s : State) : Host.Outcome State Fault Refusal :=
  .next (whenLive s (mRun s core 0x00 (some 8) ev (fun s c w =>
    let n := min (iReg c (mA w)) (64 * 2 ^ mB w)
    .ok s (nextPc (setI { c with vl := n } (mD w) n)) 0 0)))

/-- IOP (R259). -/
def execIop (core : Nat) (ev : MuleEv) (s : State) : Host.Outcome State Fault Refusal :=
  .next (whenLive s (mRun s core 0x01 none ev (fun s c w => putI s c (mD w) (iopFn (mFn w) (mOvf w) (iReg c (mA w)) (iReg c (mB w))))))

/-- ADDI (R260). -/
def execAddi (core : Nat) (ev : MuleEv) (s : State) : Host.Outcome State Fault Refusal :=
  .next (whenLive s (mRun s core 0x02 none ev (fun s c w => putI s c (mD w) (iAdd true true 64 (iReg c (mA w)) (unsgn 64 (mImm w))))))

/-- LIS (R260). -/
def execLis (core : Nat) (ev : MuleEv) (s : State) : Host.Outcome State Fault Refusal :=
  .next (whenLive s (mRun s core 0x03 none ev (fun s c w => putI s c (mD w) ((iReg c (mA w) <<< 16) ||| bits w 0 16, Fl.none))))

/-- JT (R263). -/
def execJt (core : Nat) (ev : MuleEv) (s : State) : Host.Outcome State Fault Refusal :=
  .next (whenLive s (mRun s core 0x04 none ev (fun s c w =>
    let n := bits w 0 9
    let x := iReg c (mA w)
    if x < n then
      let p := c.pc + 1 + x
      .ok s (jumpBy { c with pc := p } (mOff (c.code.getD p 0).toNat)) 0 0
    else .ok s { c with pc := c.pc + n + 1 } 0 0)))

/-- FOP (R266). -/
def execFop (core : Nat) (ev : MuleEv) (s : State) : Host.Outcome State Fault Refusal :=
  .next (whenLive s (mRun s core 0x10 none ev (fun s c w =>
    putF s c (mD w) (fpFn (mFn w) (mRm w) (fReg c (mA w)) (fReg c (mB w))) (fpOps w))))

/-- FMA (R267). -/
def execFma (core : Nat) (ev : MuleEv) (s : State) : Host.Outcome State Fault Refusal :=
  .next (whenLive s (mRun s core 0x11 none ev (fun s c w =>
    putF s c (mD w) (mFma (mRm w) (bits w 2 2) (fReg c (mA w)) (fReg c (mB w)) (fReg c (mFn w))) 2)))

/-- FCMP (R268). CLASS raises no flag, of a signalling NaN neither. [DESIGN CHOICE, log 99] -/
def execFcmp (core : Nat) (ev : MuleEv) (s : State) : Host.Outcome State Fault Refusal :=
  .next (whenLive s (mRun s core 0x12 none ev (fun s c w =>
    let r := if mFn w = 4 then (fpClass (fReg c (mA w)), Fl.none) else fpCmp (mFn w) (fReg c (mA w)) (fReg c (mB w))
    .ok s (nextPc (orFlags (setI c (mD w) r.1) r.2)) 0 1)))

/-- FCVT (R269). -/
def execFcvt (core : Nat) (ev : MuleEv) (s : State) : Host.Outcome State Fault Refusal :=
  .next (whenLive s (mRun s core 0x13 none ev (fun s c w =>
    let fn := mFn w
    let toF := fn ≤ 2 || fn == 7 || fn == 8
    let r := fpCvt fn (mRm w) (mOvf w) (if fn ≤ 2 || fn = 7 then iReg c (mA w) else fReg c (mA w))
    .ok s (nextPc (orFlags (if toF then setF c (mD w) r.1 else setI c (mD w) r.1) r.2)) 0 (cvtOps w))))

/-- VFOP (R274). -/
def execVfop (core : Nat) (ev : MuleEv) (s : State) : Host.Outcome State Fault Refusal :=
  .next (whenLive s (doVfp s core 0x20 ev fpOps (fun c i e => fpFn (mFn i) (mRm i) (vElem (vReg c (mA i)) 64 e) (vElem (vReg c (mB i)) 64 e))))

/-- VFOPS (R274). -/
def execVfops (core : Nat) (ev : MuleEv) (s : State) : Host.Outcome State Fault Refusal :=
  .next (whenLive s (doVfp s core 0x21 ev fpOps (fun c i e => fpFn (mFn i) (mRm i) (vElem (vReg c (mA i)) 64 e) (fReg c (mB i)))))

/-- VFMA (R274). -/
def execVfma (core : Nat) (ev : MuleEv) (s : State) : Host.Outcome State Fault Refusal := .next (whenLive s (doVfma s core 0x22 ev false))

/-- VFMAS (R274). -/
def execVfmas (core : Nat) (ev : MuleEv) (s : State) : Host.Outcome State Fault Refusal := .next (whenLive s (doVfma s core 0x23 ev true))

/-- VFCMP (R275). -/
def execVfcmp (core : Nat) (ev : MuleEv) (s : State) : Host.Outcome State Fault Refusal :=
  .next (whenLive s (mRun s core 0x24 none ev (fun s c i =>
    putK s c (mD i) (vecMap c 64 (mMsk i) (fun e => fpCmp (mFn i) (vElem (vReg c (mA i)) 64 e) (vElem (vReg c (mB i)) 64 e)))
      (beatsOf (vecN c 64) 64) (vecActive c 64 (mMsk i)))))

/-- VFRED (R276). -/
def execVfred (core : Nat) (ev : MuleEv) (s : State) : Host.Outcome State Fault Refusal :=
  .next (whenLive s (mRun s core 0x25 none ev (fun s c i =>
    let n := vecN c 64
    let r := vfRed (mFn i) (mRm i) ((List.range 64).map (fun e => if vecAct c (mMsk i) n e then some (vElem (vReg c (mA i)) 64 e) else none))
    .ok s (nextPc (orFlags (setF c (mD i) r.1) r.2)) (beatsOf n 64) (vecActive c 64 (mMsk i) - 1))))

/-- VFCVT (R274). -/
def execVfcvt (core : Nat) (ev : MuleEv) (s : State) : Host.Outcome State Fault Refusal :=
  .next (whenLive s (doVfp s core 0x26 ev cvtOps (fun c i e => fpCvt (mFn i) (mRm i) (mOvf i) (vElem (vReg c (mA i)) 64 e))))

/-- VI64 (R277). -/
def execVi64 (core : Nat) (ev : MuleEv) (s : State) : Host.Outcome State Fault Refusal := .next (whenLive s (doVi s core 0x28 64 ev))

/-- VI32 (R277). -/
def execVi32 (core : Nat) (ev : MuleEv) (s : State) : Host.Outcome State Fault Refusal := .next (whenLive s (doVi s core 0x29 32 ev))

/-- VI16 (R277). -/
def execVi16 (core : Nat) (ev : MuleEv) (s : State) : Host.Outcome State Fault Refusal := .next (whenLive s (doVi s core 0x2A 16 ev))

/-- VMISC (R279). -/
def execVmisc (core : Nat) (ev : MuleEv) (s : State) : Host.Outcome State Fault Refusal := .next (whenLive s (mRun s core 0x2C none ev vmiscBody))

/-- BEQ (R261). -/
def execBeq (core : Nat) (ev : MuleEv) (s : State) : Host.Outcome State Fault Refusal := .next (whenLive s (doBranch s core 0x38 ev))

/-- BNE (R261). -/
def execBne (core : Nat) (ev : MuleEv) (s : State) : Host.Outcome State Fault Refusal := .next (whenLive s (doBranch s core 0x39 ev))

/-- BLT (R261). -/
def execBlt (core : Nat) (ev : MuleEv) (s : State) : Host.Outcome State Fault Refusal := .next (whenLive s (doBranch s core 0x3A ev))

/-- BGE (R261). -/
def execBge (core : Nat) (ev : MuleEv) (s : State) : Host.Outcome State Fault Refusal := .next (whenLive s (doBranch s core 0x3B ev))

/-- BLTU (R261). -/
def execBltu (core : Nat) (ev : MuleEv) (s : State) : Host.Outcome State Fault Refusal := .next (whenLive s (doBranch s core 0x3C ev))

/-- BGEU (R261). -/
def execBgeu (core : Nat) (ev : MuleEv) (s : State) : Host.Outcome State Fault Refusal := .next (whenLive s (doBranch s core 0x3D ev))

/-- J (R261). -/
def execJ (core : Nat) (ev : MuleEv) (s : State) : Host.Outcome State Fault Refusal :=
  .next (whenLive s (mRun s core 0x3E none ev (fun s c w => .ok s (jumpBy c (mOff w)) 0 0)))

/-- CALL (R262). -/
def execCall (core : Nat) (ev : MuleEv) (s : State) : Host.Outcome State Fault Refusal :=
  .next (whenLive s (mRun s core 0x3F none ev (fun s c w => .ok s (jumpBy { c with ret := ((c.pc + 1) :: c.ret).take 16 } (mOff w)) 0 0)))

end Sys2Proof.Machine
end

