-- ==== Sys2Proof/Machine/Herd.lean ====
section
/-! DEFINITION. Herd coherence at the home: directory, snoops, recalls for local accesses (14.6). -/

namespace Sys2Proof.Machine

/-! The herd (R579). -/

/-- The HERD register. -/
def herdWord (s : State) : Nat := regWord s .xag 0 0x128 0
/-- The herd is in force. -/
def herdOn (s : State) : Bool := bitAt (herdWord s) 7
/-- This node's member index. -/
def herdSelf (s : State) : Nat := bits (herdWord s) 0 3

/-- The node of a member. -/
def herdNode (s : State) (m : Nat) : Option Nat :=
  let w := regWord s .xag 0 (0x12C + 4 * m) 0
  if herdOn s && m < bits (herdWord s) 3 4 && m < 8 && bitAt w 20 then some (bits w 0 20) else none

/-- The member index of a node. -/
def herdIndex (s : State) (node : Nat) : Option Nat := (List.range 8).find? (fun m => herdNode s m == some node)

/-- R588: the member is split from this node: neither link of the local pair offers the herd feature. -/
def isSplit (s : State) (m : Nat) : Bool :=
  m != herdSelf s && (match herdNode s m with
    | some v => v / 32 != nodeNum s / 32 || (pairLink s (routeLinks s) (fun n => bitAt (lnk s n).feat 0) false (v % 32) 0).isNone
    | none => false)

/-- R579, R588: requests can pass between this node and a node in herd space. -/
def herdReach (s : State) (node : Nat) : Bool :=
  match herdIndex s node with
  | some m => (herdIndex s (nodeNum s)).isSome && (m == herdSelf s || !isSplit s m)
  | none => false

/-! Regions (R561). -/

/-- The region of a tenant and space that covers a range of offsets. -/
def regionOf (s : State) (t : Nat) (herd : Bool) (off len : Nat) : Option Region :=
  s.xag.regions.find? (fun r => r.tenant == t && r.herd == herd && r.obase ≤ off && off + len ≤ r.obase + r.size)

/-- The tenant address of an offset of a region. -/
def regionVa (r : Region) (off : Nat) : Nat := r.tbase + (off - r.obase)

/-! The directory (R580). -/

/-- The key of a line of a tenant's herd space. -/
def dirKey (t line : Nat) : Nat := t * 2 ^ 36 + line

/-- The entry of a line at this home. -/
def dirLine (s : State) (k : Nat) : DirLine := tabGet {} s.xag.dir k

/-- The state with a directory entry changed. -/
def modDir (s : State) (k : Nat) (f : DirLine → DirLine) : State := { s with xag := { s.xag with dir := tabMod {} s.xag.dir k f } }

/-- The local address of a line of this home's herd space. -/
def dirLocal (s : State) (k : Nat) : Option Nat :=
  let t := k / 2 ^ 36
  let off := (k % 2 ^ 36) * 64
  match regionOf s t true off 64 with
  | some r => (xlate s t (regionVa r off)).map (·.1)
  | none => none

/-- The virtual channel of a herd message (Table 14.7). -/
def herdVc : HerdOp → Nat
  | .gets | .getm | .snps | .snpi => 3
  | _ => 4

/-- A herd message sent to a node (R581). -/
def sendHerd (s : State) (node : Nat) (op : HerdOp) (m : HerdMsg) : State :=
  sendMsg s { dst := node, vc := herdVc op, flow := m.line.line % 65536,
              msg := .herd op { m with member := herdSelf s, epoch := (page s .xag 0).epoch.toNat } }

/-- A herd message about a line, with nothing in it. -/
def herdBlank (l : HerdLine) (tag : Nat) : HerdMsg :=
  { line := l, member := 0, tag := tag, data := [], poison := false, present := false, wbif := false, srcTenant := 0, gen := 0, job := 0,
    xtag := 0, epoch := 0 }

/-- The line of a directory key, at this home. -/
def homeLine (s : State) (k : Nat) : HerdLine := { node := nodeNum s, tenant := k / 2 ^ 36, line := k % 2 ^ 36 }

/-- A message to a member about a line of this home. -/
def sendMember (s : State) (member k : Nat) (op : HerdOp) (f : HerdMsg → HerdMsg) : State :=
  match herdNode s member with
  | some v => sendHerd s v op (f (herdBlank (homeLine s k) (dirLine s k).tag))
  | none => s

/-- A line of memory at the home, as data and poison. -/
def lineData (s : State) (k : Nat) : List Byte × Bool :=
  match dirLocal s k with
  | some a => (memBytes s a 64, linePoison s (a / 64) || !served s a)
  | none => (List.replicate 64 0, true)

/-- The home reads a line: errors met (R378, R381). Herd lines lie in LPDDR only (R561). -/
def readHome (s : State) (k : Nat) : State :=
  match dirLocal s k with
  | some a => meetErrs s (· == a / 64)
  | none => s

/-- A line's data written to memory at the home. -/
def writeLineData (s : State) (k : Nat) (d : List Byte) (poison : Bool) : State :=
  match dirLocal s k with
  | some a => if poison then (storePoison s a).1 else (store s a d).1
  | none => s

/-- R583: DATA_S to a member. -/
def sendDataS (s : State) (k member : Nat) : State :=
  let s := readHome s k
  let d := lineData s k
  sendMember s member k .dataS (fun m => { m with data := d.1, poison := d.2, present := true })

/-- R582, R583: DATA_M to a member with a new grant tag. -/
def sendDataM (s : State) (k member : Nat) : State :=
  let s := modDir s k (fun e => { e with st := 2, owner := member, sharers := [], tag := (e.tag + 1) % 65536 })
  let s := readHome s k
  let d := lineData s k
  sendMember s member k .dataM (fun m => { m with data := d.1, poison := d.2, present := true })

/-- Snoops to members; XAG.PERF5 counts them. -/
def snoop (s : State) (k : Nat) (op : HerdOp) (ms : List Nat) : State :=
  ms.foldl (fun x m => sendMember x m k op id) (perfAdd s .xag 0 5 ms.length)

/-- A transaction opened on a line: the members of `ms` are snooped and awaited. -/
def openTrans (s : State) (k : Nat) (req : Option (HerdOp × HerdMsg)) (op : HerdOp) (ms : List Nat) : State :=
  snoop (modDir s k (fun e => { e with trans := some { req := req, wait := ms } })) k op ms

/-- R583: the home serves a request on a line with no transaction under way. -/
def serveHerd (s : State) (k : Nat) (op : HerdOp) (m : HerdMsg) : State :=
  let e := dirLine s k
  let others := e.sharers.filter (· != m.member)
  if op = .gets then
    if e.st = 2 then openTrans s k (some (op, m)) .snps [e.owner]
    else sendDataS (modDir s k (fun e => { e with st := 1, sharers := insNat m.member e.sharers })) k m.member
  else if e.st = 2 then openTrans s k (some (op, m)) .snpi [e.owner]
  else if e.st = 1 && !others.isEmpty then openTrans s k (some (op, m)) .snpi others
  else sendDataM s k m.member

/-- R582: the oldest request that waits on a line is served. -/
def serveNext (s : State) (k : Nat) : State :=
  match (dirLine s k).queue with
  | [] => s
  | (op, m) :: t => serveHerd (modDir s k (fun e => { e with queue := t })) k op m

/-- R583, R587: the transaction of a line is complete: its requester is answered, or the local access may go on. -/
def endTrans (s : State) (k : Nat) (t : HerdTrans) : State :=
  let s := modDir s k (fun e => { e with trans := none })
  let kept := t.keep.toList
  let s := match t.req with
    | some (.gets, m) => sendDataS (modDir s k (fun e => { e with st := 1, sharers := kept.foldl (fun l x => insNat x l) [m.member] })) k m.member
    | some (_, m) => sendDataM s k m.member
    | none => modDir s k (fun e => { e with st := if kept.isEmpty then 0 else 1, sharers := kept })
  serveNext s k

/-- The transaction of a line goes on after its state changed: it ends when no member is awaited. -/
def stepTrans (s : State) (k : Nat) (t : HerdTrans) : State :=
  if t.wait.isEmpty then endTrans s k t else modDir s k (fun e => { e with trans := some t })

/-- R585: a writeback is taken as the snoop's data. XAG.PERF6 counts it. -/
def takeWb (s : State) (k : Nat) (t : HerdTrans) (m : HerdMsg) : State :=
  let s := perfAdd (writeLineData s k m.data m.poison) .xag 0 6 1
  let s := sendMember s m.member k .wbAck (fun x => { x with tag := m.tag })
  stepTrans s k { t with wait := t.wait.filter (· != m.member), owed := none, wb := none }

/-- R585, R586: a snoop answer at the home. -/
def doSrsp (s : State) (m : HerdMsg) : State :=
  let k := dirKey m.line.tenant m.line.line
  match (dirLine s k).trans with
  | none => s
  | some t =>
    if !t.wait.contains m.member then s
    else if m.present then
      let snps : Bool := match t.req with
        | some (op, _) => op == .gets
        | none => t.data.isSome
      stepTrans (writeLineData s k m.data m.poison) k
        { t with wait := t.wait.filter (· != m.member), keep := if snps then some m.member else none }
    else if m.wbif then
      match t.wb with
      | some w => if w.member == m.member && w.tag == m.tag then takeWb s k t w
        else modDir s k (fun e => { e with trans := some { t with owed := some (m.member, m.tag) } })
      | none => modDir s k (fun e => { e with trans := some { t with owed := some (m.member, m.tag) } })
    else stepTrans s k { t with wait := t.wait.filter (· != m.member) }

/-- R584, R585: a writeback at the home. -/
def doWb (s : State) (m : HerdMsg) : State :=
  let k := dirKey m.line.tenant m.line.line
  let e := dirLine s k
  let ack := fun (x : State) => sendMember x m.member k .wbAck (fun y => { y with tag := m.tag })
  match e.trans with
  | some t =>
    if t.owed == some (m.member, m.tag) then takeWb s k t m
    else if t.wait.contains m.member then modDir s k (fun e => { e with trans := some { t with wb := some m } })
    else ack s
  | none =>
    if e.st = 2 && e.owner == m.member && e.tag == m.tag then
      ack (modDir (writeLineData s k m.data m.poison) k (fun e => { e with st := 0, sharers := [] }))
    else ack s

/-- R584, R586: an eviction notice at the home. -/
def doEvc (s : State) (m : HerdMsg) : State :=
  let k := dirKey m.line.tenant m.line.line
  let e := dirLine s k
  let s := if e.st = 1 && e.sharers.contains m.member then
      let left := e.sharers.filter (· != m.member)
      modDir s k (fun e => { e with sharers := left, st := if left.isEmpty then 0 else 1 })
    else s
  sendMember s m.member k .wbAck (fun y => { y with tag := m.tag })

/-! Local accesses at the home (R587). -/

/-- A local access must wait for this line: a transaction is under way on it, or a copy is held that the access recalls. [DEDUCED, log 54] -/
def mustRecall (e : DirLine) (w : Bool) : Bool := e.st = 2 || (w && e.st = 1) || (e.trans.isSome && (w || e.st != 0))

/-- The lines of this home's directory within a local range that an access must recall. -/
def recalls (s : State) (a n : Nat) (w : Bool) : List Nat :=
  (s.xag.dir.filter (fun e => mustRecall e.2 w && (match dirLocal s e.1 with
    | some la => rangesMeet la 64 a n
    | none => false))).map (·.1)

/-- R587: a recall begun: SNPS for a read, SNPI for a write; one under way is waited for. `data` marks a read's recall. [DEDUCED, log 54] -/
def startRecall (s : State) (w : Bool) (k : Nat) : State :=
  let e := dirLine s k
  if e.trans.isSome then s
  else if e.st = 2 then
    modDir (openTrans s k none (if w then .snpi else .snps) [e.owner]) k
      (fun e => { e with trans := e.trans.map (fun t => { t with data := if w then none else some ([], false) }) })
  else openTrans s k none .snpi e.sharers

/-- R587: the local accesses of tenant spans pass the directory filter: none when nothing need be recalled, else the state with the
recalls begun, in which the access waits. [DEDUCED, log 54] -/
def herdGate (s : State) (t : Nat) (reads writes : List (Nat × Nat)) : Option State :=
  if s.xag.dir.isEmpty then none
  else
    let look := fun w (sp : Nat × Nat) => (pagesOf sp.1 sp.2).flatMap (fun p => match xlate s t (p * 4096) with
      | some (la, _) =>
        let lo := max sp.1 (p * 4096)
        let hi := min (sp.1 + sp.2) (p * 4096 + 4096)
        recalls s (la + (lo - p * 4096)) (hi - lo) w
      | none => [])
    let rs := reads.flatMap (look false)
    let ws := writes.flatMap (look true)
    if rs.isEmpty && ws.isEmpty then none
    else some (rs.foldl (fun x k => startRecall x false k) (ws.foldl (fun x k => startRecall x true k) s))

/-! Members that leave (R588, R597). -/

/-- R597: a member leaves: lines that it owned are poisoned, lines that it shared drop it, and no answer of it is awaited. [DEDUCED, log 96] -/
def memberLeaves (s : State) (m : Nat) : State :=
  s.xag.dir.foldl (fun x e =>
    let k := e.1
    let d := dirLine x k
    let x := if d.st = 2 && d.owner == m then
        raiseEvent (writeLineData (modDir x k (fun e => { e with st := 0, sharers := [] })) k [] true) .xag 0 3
      else modDir x k (fun e => { e with sharers := e.sharers.filter (· != m),
                                         st := if e.st = 1 && (e.sharers.filter (· != m)).isEmpty then 0 else e.st })
    let x := modDir x k (fun e => { e with queue := e.queue.filter (fun q => q.2.member != m) })
    match (dirLine x k).trans with
    | none => x
    | some t => match t.req with
      | some (_, r) =>
        if r.member == m then
          (if t.wait.all (· == m) then serveNext (modDir x k (fun e => { e with trans := none })) k
           else modDir x k (fun e => { e with trans := some { t with req := none, wait := t.wait.filter (· != m) } }))
        else stepTrans x k { t with wait := t.wait.filter (· != m) }
      | none => stepTrans x k { t with wait := t.wait.filter (· != m) }) s

/-- R588: members that have become split from this node, after the links changed: XAG.EVENT.herd_split, and each is treated as failed. [DEDUCED, log 96] -/
def checkSplits (s : State) : State :=
  let now := (List.range 8).filter (fun m => (herdNode s m).isSome && isSplit s m)
  let new := now.filter (fun m => !s.xag.split.contains m)
  let s := { s with xag := { s.xag with split := now } }
  new.foldl (fun x m => memberLeaves (raiseEvent x .xag 0 4) m) s

end Sys2Proof.Machine
end

