-- ==== Sys2Proof/Machine/Xag.lean ====
section
/-! DEFINITION. The fabric agent: remote commands, requests, the remote cache, herd members, locks, regions (chapter 14). -/

namespace Sys2Proof.Machine

/-! Operand fields (Tables 14.1, 14.4, 14.5, R589). -/

/-- m: multicast. -/
def xaMulti (c : Cmd) : Bool := bitAt (cw c 4) 63
/-- The node, or multicast group. -/
def xaNode (c : Cmd) : Nat := cf c 4 43 20
/-- Herd space. -/
def xaHerd (c : Cmd) : Bool := bitAt (cw c 4) 42
/-- The offset. -/
def xaOff (c : Cmd) : Nat := cf c 4 0 42
/-- The target tenant. -/
def xaTen (c : Cmd) : Nat := cf c 5 42 12
/-- Ordered. -/
def xaOrd (c : Cmd) : Bool := bitAt (cw c 5) 54
/-- nocache of an XLOAD; `all` of an XINVAL stands at the bit of ord. -/
def xaNocache (c : Cmd) : Bool := bitAt (cw c 5) 55
/-- The target's token. -/
def xaTok (c : Cmd) : Nat := cf c 5 56 6
/-- The target's token is signalled. -/
def xaSig (c : Cmd) : Bool := bitAt (cw c 5) 62
/-- The flow. -/
def xaFlow (c : Cmd) : Nat := cf c 6 0 16
/-- The local tensor. -/
def xaDesc (c : Cmd) : TDesc := cDesc c (cf c 5 0 42)

/-- A tenant's fabric registers. -/
def xten (s : State) (t : Nat) : XTen := tabGet {} s.xag.tens t

/-- The own fields of a remote command (R567, R577, R589). -/
def xFieldsOk (s : State) (t : Nat) (c : Cmd) : Bool :=
  let data := bitAt (cw c 5) 63 == false && cZero c 6 16 48 && cw c 7 == 0
  let uni := !xaMulti c && xaNode c < 32768
  match cOp c with
  | 0x51 => data && uni && !xaSig c && (!xaNocache c || !xaHerd c)
  | 0x52 => data && uni && !xaNocache c
  | 0x53 => data && xaMulti c && xaNode c < (xten s t).groups && !xaHerd c && xaTen c == 0 && !xaNocache c
  | 0x54 => data && uni && !xaNocache c
  | 0x55 => uni && !xaHerd c && cZero c 5 55 9 && cw c 6 == 0 && cw c 7 == 0
  | _ => uni && cZero c 4 0 6 && cZero c 5 0 42 && cZero c 5 54 10 && cZero c 6 16 48 && cw c 7 == 0

/-- The element width in bytes for R567: 1 for sub-byte formats. -/
def xaUnit (f : Fmt) : Nat := match f with
  | .e2m1 | .int4 | .e2m3 | .e3m2 => 1
  | f => fmtBits f / 8

/-- The checks of a remote command on what it names (R567). -/
def xDescsOk (s : State) (t : Nat) (c : Cmd) : Bool :=
  let d := xaDesc c
  if cOp c = 0x55 || cOp c = 0x56 || cOp c = 0x57 then true
  else descOk d && spanMapped s t (cOp c == 0x51) (boxSpan d (fullBox d)) && xaOff c % xaUnit (dFmt d) == 0
    && (cOp c != 0x54 || ((dFmt d == .fp64 || dFmt d == .fp32 || dFmt d == .int32 || dFmt d == .int64) && dSfmt d == 0))

/-! The packed range (R566). -/

/-- Bytes of a tensor's elements packed densely (R455, R85). -/
def packedBytes (d : TDesc) : Nat :=
  let n := extCount d.exts
  match dFmt d with
  | .e2m1 | .int4 => ceilDiv n 2
  | .e2m3 | .e3m2 => 3 * ceilDiv n 4
  | f => n * (fmtBits f / 8)

/-- The bits of the elements, in the order of R98, as one number. -/
def packNat (w : Nat) : List Nat → Nat
  | [] => 0
  | x :: xs => x % 2 ^ w + 2 ^ w * packNat w xs

/-- The packed bytes of a local tensor. -/
def packTensor (s : State) (t : Nat) (d : TDesc) : List Byte :=
  leBytes (packedBytes d) (packNat (fmtBits (dFmt d)) ((extIdx d).map (dBits s t d)))

/-- The packed bytes that hold element `n` of width `w`: first byte and count. -/
def packSpan (w n : Nat) : Nat × Nat := (n * w / 8, (n * w + w - 1) / 8 - n * w / 8 + 1)

/-- The offsets of packed bytes that come from poisoned lines. -/
def packBad (s : State) (t : Nat) (d : TDesc) : List Nat :=
  ((List.range (extCount d.exts)).filter (fun n => dPoison s t d (unlin d.exts n))).flatMap (fun n =>
    let p := packSpan (fmtBits (dFmt d)) n
    natsFrom p.1 p.2)

/-! Epochs and generations (R594). -/

/-- A node's XAG.EPOCH is an ended one. -/
def epochOld (s : State) (node e : Nat) : Bool :=
  let k := if node = nodeNum s then (page s .xag 0).epoch else tabGet (BitVec.ofNat 32 e) s.xag.peerEpoch node
  if node = nodeNum s then k.toNat != e else (BitVec.ofNat 32 e - k).msb

/-- A requesting tenant's generation is an ended one. -/
def genOld (s : State) (node tenant g : Nat) : Bool :=
  if node = nodeNum s then (ten s tenant).gen != g
  else (BitVec.ofNat 16 g - BitVec.ofNat 16 (tabGet g s.xag.peerGen (node * 4096 + tenant))).msb

/-- The newest epoch and generation seen of a requester noted. -/
def notePeer (s : State) (node e tenant g : Nat) : State :=
  if node = nodeNum s then s
  else
    let s := if epochOld s node e then s else { s with xag := { s.xag with peerEpoch := tabSet s.xag.peerEpoch node (BitVec.ofNat 32 e) } }
    if genOld s node tenant g then s else { s with xag := { s.xag with peerGen := tabSet s.xag.peerGen (node * 4096 + tenant) g } }

/-! Running commands at the source. -/

/-- The remote commands that the agent has accepted and not begun, oldest first. -/
def xFresh (s : State) : List Job := s.jobs.filter (fun j => decide (j.unit = .xag) && j.result.isNone && !j.started)

/-- The oldest remote command of an opcode that the agent may begin: one of a stream begins after the earlier ones of that stream (R49). -/
def xJob (s : State) (op : Nat) : Option Job :=
  if !unitRuns s .xag 0 then none
  else (xFresh s).find? (fun j => cOp j.cmd == op
    && (xFresh s).find? (fun k => k.tenant == j.tenant && k.stream == j.stream) == some j)

/-- The job of a running remote command. -/
def xRunJob (s : State) (r : XRun) : Option Job :=
  s.jobs.find? (fun j => decide (j.unit = .xag) && j.result.isNone && j.tenant == r.tenant && j.stream == r.stream
    && j.cmd.count == r.count && decide (j.iter = r.iter) && j.gen == r.gen)

/-- The running command of a job, with its parts. -/
def xRunOf (j : Job) (parts : List XPart) : XRun :=
  { tenant := j.tenant, stream := j.stream, count := j.cmd.count, iter := j.iter, gen := j.gen, parts := parts }

/-- The kind of request that a command sends. -/
def xKind (c : Cmd) : FabKind := match cOp c with
  | 0x51 => .load
  | 0x52 => .store
  | 0x53 => .mcast
  | 0x54 => .add
  | 0x56 => .lock
  | _ => .unlock

/-- The virtual channel of a request (R569, R589). -/
def reqVc (k : FabKind) (ord : Bool) : Nat := if ord || k = .lock || k = .unlock then 0 else 1

/-- The request message of a part (R568). -/
def xRequest (s : State) (j : Job) (p : XPart) : FabReq :=
  let c := j.cmd
  let k := xKind c
  let lk := k = .lock || k = .unlock
  { kind := k, srcNode := nodeNum s, srcTenant := j.tenant, gen := j.gen, epoch := (page s .xag 0).epoch.toNat, tag := p.tag,
    job := (xten s j.tenant).job.toNat, node := p.node, tenant := p.tenant, herd := xaHerd c, offset := p.offset, len := p.len,
    data := if k = .load then [] else p.data, bad := p.bad, fmt := if lk then 0 else (xaDesc c).fmt, ovf := cOvf c,
    ord := lk || xaOrd c, flow := xaFlow c, rsig := p.sig, rtok := xaTok c }

/-- The next transaction tag. -/
def nextTag (s : State) : State × Nat := ({ s with xag := { s.xag with nextTag := (s.xag.nextTag + 1) % 65536 } }, s.xag.nextTag)

/-- A part's request sent; XAG.PERF0 counts it. -/
def sendPart (s : State) (j : Job) (p : XPart) : State × XPart :=
  let q := nextTag s
  let p := { p with tag := q.2, st := 1 }
  (holdJobs s (sendMsg (perfAdd q.1 .xag 0 0 1) {
    dst := p.node, vc := reqVc (xKind j.cmd) (xaOrd j.cmd), flow := xaFlow j.cmd, msg := .req (xRequest q.1 j p) }) (sameJob j), p)

/-- The parts whose requests go out at once, sent in order. -/
def sendParts (s : State) (j : Job) : List XPart → State × List XPart
  | [] => (s, [])
  | p :: ps =>
    if p.st != 0 || (p.sig && p.len == 0) then (let q := sendParts s j ps; (q.1, p :: q.2))
    else
      let r := sendPart s j p
      let q := sendParts r.1 j ps
      (q.1, r.2 :: q.2)

/-- A range cut into requests of up to 4 KiB in ascending order (R568); `fuel` bounds them. [DEDUCED, log 52] -/
def cutRange : Nat → Nat → Nat → List (Nat × Nat)
  | 0, _, _ => []
  | fuel + 1, off, n => if n = 0 then [] else (off, min n 4096) :: cutRange fuel (off + min n 4096) (n - min n 4096)

/-- A range cut into the pieces of 64-byte lines. -/
def cutLines : Nat → Nat → Nat → List (Nat × Nat)
  | 0, _, _ => []
  | fuel + 1, off, n =>
    let k := min n (64 - off % 64)
    if n = 0 then [] else (off, k) :: cutLines fuel (off + k) (n - k)

/-- A part over a range of the packed bytes, which start at offset `base`. -/
def dataPart (node tenant member base : Nat) (bytes : List Byte) (bad : List Nat) (r : Nat × Nat) : XPart :=
  { node := node, tenant := tenant, offset := r.1, len := r.2, member := member, data := (bytes.drop (r.1 - base)).take r.2,
    bad := (bad.filter (fun b => r.1 - base ≤ b && b < r.1 - base + r.2)).map (fun b => b - (r.1 - base)) }

/-- R571: the parts of one target: a single request carries the signal, otherwise a closing part of no bytes does. -/
def signalled (sig : Bool) (node tenant member off : Nat) (ps : List XPart) : List XPart :=
  if !sig then ps
  else match ps with
    | [p] => [{ p with sig := true }]
    | _ => ps ++ [{ node := node, tenant := tenant, offset := off, len := 0, member := member, sig := true }]

/-! The remote cache (14.5). -/

/-- The open-space line of a requesting tenant. -/
def openLine (s : State) (t node rt line : Nat) : Option CacheLine :=
  s.xag.cache.find? (fun e => e.st == .opened && e.tenant == t && e.node == node && e.rtenant == rt && e.line == line)

/-- The state with the remote cache changed. -/
def modCache (s : State) (f : List CacheLine → List CacheLine) : State := { s with xag := { s.xag with cache := f s.xag.cache } }

/-- R576: a whole clean line put into the cache; the oldest open line makes room in a full cache of 262,144 lines. [DEDUCED, log 52] -/
def fillOpen (s : State) (e : CacheLine) : State :=
  if (openLine s e.tenant e.node e.rtenant e.line).isSome then s
  else modCache s (fun l =>
    let l := if 262144 ≤ l.length then l.eraseIdx (l.findIdx (fun x => x.st == .opened)) else l
    if 262144 ≤ l.length then l else l ++ [e])

/-- Bytes put into a line's data. -/
def mergeLine (d : List Byte) (o : Nat) (bs : List Byte) : List Byte := d.take o ++ bs ++ d.drop (o + bs.length)

/-- R576: the writer's own copies of open lines updated by a store that succeeded; a copy that would hold poison is dropped. [DEDUCED, log 52] -/
def updateOpen (s : State) (t node rt off : Nat) (data : List Byte) (bad : List Nat) : State :=
  (cutLines (data.length / 64 + 2) off data.length).foldl (fun x r =>
    let o := r.1 - off
    let dirty := bad.any (fun b => o ≤ b && b < o + r.2)
    modCache x (fun l => (l.map (fun e =>
      if e.st == .opened && e.tenant == t && e.node == node && e.rtenant == rt && e.line == r.1 / 64
      then { e with data := mergeLine e.data (r.1 % 64) ((data.drop o).take r.2), poison := dirty } else e)).filter
        (fun e => !(e.st == .opened && e.poison)))) s

/-- The parts of an XLOAD of open space: the lines present in the cache are answered from it, the others are requested, neighbours
together up to 4 KiB (R568, R576). XAG.PERF2 and PERF3 count hits and misses. -/
def cachedParts (s : State) (t node rt : Nat) (off n : Nat) : List XPart :=
  let lines := cutLines (n / 64 + 2) off n
  let look := fun (r : Nat × Nat) => openLine s t node rt (r.1 / 64)
  (lines.foldl (fun (acc : List XPart) r =>
    match look r with
    | some e => acc ++ [{ node := node, tenant := rt, offset := r.1, len := r.2, st := 2, data := (e.data.drop (r.1 % 64)).take r.2 }]
    | none => match acc.getLast? with
      | some p =>
        if p.st = 0 && p.len + r.2 ≤ 4096 then acc.dropLast ++ [{ p with len := p.len + r.2 }]
        else acc ++ [{ node := node, tenant := rt, offset := r.1, len := r.2 }]
      | none => acc ++ [{ node := node, tenant := rt, offset := r.1, len := r.2 }]) [])

/-! Completion at the source (R564). -/

/-- What an XLOAD writes: the elements all of whose packed bytes came back (R570, R422). -/
def xloadOut (d : TDesc) (base : Nat) (ps : List XPart) : List OutElem :=
  let bytes : Tab Nat := ps.flatMap (fun p =>
    if p.cause = 0 then ((natsFrom (p.offset - base) p.len).zip p.data).map (fun e => (e.1, e.2.toNat)) else [])
  let bad := ps.flatMap (fun p => p.bad.map (fun b => p.offset - base + b))
  let w := fmtBits (dFmt d)
  (List.range (extCount d.exts)).filterMap (fun n =>
    let sp := packSpan w n
    match allSome ((natsFrom sp.1 sp.2).map (tabFind bytes)) with
    | some v => some (outElem d (unlin d.exts n) (bits (packNat 8 v) (n * w % 8) w) ((natsFrom sp.1 sp.2).any bad.contains))
    | none => none)

/-- A remote command ends with its result, its events and its count. -/
def xEnd (s0 s : State) (j : Job) (r : Result) (spans : List (Option (Nat × Nat))) : State :=
  let s := if r.status = 0x22 then raiseEvent s .xag 0 0 else if r.status = 0x24 then raiseEvent s .xag 0 1 else s
  let s := if bitAt r.flags 4 && cOp j.cmd = 0x51 then raiseEvent s .xag 0 6 else s
  let s := if r.status = 0x20 || r.status = 0x22 then noteWithdrawn s j.tenant (cStep j.cmd) spans else s
  finishJob s0 s j r

/-- All parts of a remote command are answered: its outputs, its lock, its result (R564, R570, R571, R573, R590, R591, R593). -/
def xFinish (s0 s : State) (j : Job) (ps : List XPart) : State :=
  let c := j.cmd
  let d := xaDesc c
  let sp := [boxSpan d (fullBox d)]
  let fl := ps.foldl (fun a p => a ||| p.flags ||| (if p.bad.isEmpty then 0 else 16)) 0
  let w := if cOp c = 0x51 then writeOut s j.tenant (xloadOut d (xaOff c) ps) [] else { st := s : Wrote }
  let s := w.st
  match ps.find? (fun p => p.cause != 0) with
  | some p =>
    xEnd s0 s j (failResult (if p.cause = 100 then 0x24 else 0x22) (flOfBits fl) ((if p.cause = 100 then 0 else p.cause) + p.node * 256)) sp
  | none =>
    if w.gone then xEnd s0 s j (failResult 0x22 (flOfBits fl) 0) sp
    else
      let val := maxOf (ps.map (·.val))
      let key := (xaNode c, xaTen c, xaOff c + 2 ^ 42 * b2n (xaHerd c), j.tenant)
      if cOp c = 0x56 then
        let s := { s with xag := { s.xag with mine := s.xag.mine ++ [key] } }
        xEnd s0 s j (if val = 1 then failResult 0x25 {} 0 else {}) []
      else if cOp c = 0x57 then
        (if val = 1 then xEnd s0 s j { status := 1, flags := flBits { nv := true }, detail := 1 } []
         else xEnd s0 { s with xag := { s.xag with mine := s.xag.mine.filter (· != key) } } j {} [])
      else xEnd s0 s j (ranResult (flOfBits fl) 0) sp

/-- Every part of the command is answered. -/
def partsDone (ps : List XPart) : Bool := ps.all (fun p => p.st == 2)

/-- R571: the closing signals of targets whose writes have all been answered: sent where all succeeded, dropped otherwise. [DEDUCED, log 52] -/
def closeSignals (s : State) (j : Job) (all : List XPart) : List XPart → State × List XPart
  | [] => (s, [])
  | p :: ps =>
    let mine := all.filter (fun q => q.member == p.member && !(q.sig && q.len == 0))
    if p.st = 0 && p.sig && p.len == 0 && partsDone mine then
      (if mine.all (fun q => q.cause == 0) then
        let r := sendPart s j p
        let q := closeSignals r.1 j all ps
        (q.1, r.2 :: q.2)
       else (let q := closeSignals s j all ps; (q.1, { p with st := 2 } :: q.2)))
    else (let q := closeSignals s j all ps; (q.1, p :: q.2))

/-- R587: the local writes of an XLOAD pass the directory filter, or begin the recalls that they wait for. -/
def xGate (s : State) (j : Job) : Option State :=
  if cOp j.cmd = 0x51 then herdGate s j.tenant [] ([boxSpan (xaDesc j.cmd) (fullBox (xaDesc j.cmd))].filterMap id) else none

/-- The running command goes on after its parts changed: signals, then its end, which waits for the recalls of its local writes. -/
def xStep (s0 s : State) (r : XRun) (ps : List XPart) : State :=
  match xRunJob s r with
  | none => { s with xag := { s.xag with runs := s.xag.runs.filter (fun x => x != r) } }
  | some j =>
    let q := closeSignals s j ps ps
    let keep := fun (x : State) => { x with xag := { x.xag with runs := x.xag.runs.map (fun y => if y = r then { r with parts := q.2 } else y) } }
    if partsDone q.2 then match xGate q.1 j with
      | some x => keep x
      | none => xFinish s0 { q.1 with xag := { q.1.xag with runs := q.1.xag.runs.filter (fun x => x != r) } } j q.2
    else keep q.1

/-- The commands that waited for a recall alone end (R587). -/
def xResume (s : State) : State := s.xag.runs.foldl (fun x r => if partsDone r.parts then xStep x x r r.parts else x) s

/-! The herd at a caching member (14.6). -/

/-- The herd line of a part. -/
def partLine (p : XPart) : HerdLine := { node := p.node, tenant := p.tenant, line := p.offset / 64 }

/-- The cache entry of a herd line. -/
def herdLine (s : State) (l : HerdLine) : Option CacheLine :=
  s.xag.cache.find? (fun e => e.st != .opened && e.node == l.node && e.rtenant == l.tenant && e.line == l.line)

/-- The state with the cache entry of a herd line changed. -/
def modHerdLine (s : State) (l : HerdLine) (f : CacheLine → CacheLine) : State :=
  modCache s (fun c => c.map (fun e => if e.st != .opened && e.node == l.node && e.rtenant == l.tenant && e.line == l.line then f e else e))

/-- The state with the cache entry of a herd line dropped. -/
def dropHerdLine (s : State) (l : HerdLine) : State :=
  modCache s (fun c => c.filter (fun e => !(e.st != .opened && e.node == l.node && e.rtenant == l.tenant && e.line == l.line)))

/-- R584: a member evicts a line: WB and MI for an owned one, EVC for a read-only one. -/
def evictHerd (s : State) (l : HerdLine) : State :=
  match herdLine s l with
  | some e =>
    if e.st = .m then
      sendHerd (modHerdLine s l (fun e => { e with st := .mi })) l.node .wb
        { herdBlank l e.tag with data := e.data, poison := e.poison, present := true }
    else if e.st = .s then sendHerd (dropHerdLine s l) l.node .evc (herdBlank l e.tag)
    else s
  | none => s

/-- A request for a herd line sent to its home, tagged for a failure (R563). -/
def askHome (s : State) (l : HerdLine) (op : HerdOp) (t gen : Nat) (st : LineSt) : State × Nat :=
  let q := nextTag (perfAdd (perfAdd s .xag 0 0 1) .xag 0 3 1)
  let s := match herdLine q.1 l with
    | some _ => modHerdLine q.1 l (fun e => { e with st := st, xtag := q.2 })
    | none => modCache q.1 (fun c => c ++ [{ tenant := t, node := l.node, rtenant := l.tenant, herd := true, line := l.line, st := st, xtag := q.2 }])
  (sendHerd s l.node op { herdBlank l 0 with srcTenant := t, gen := gen, job := (xten s t).job.toNat, xtag := q.2 }, q.2)

/-- One herd part of a running command advances: served from a line held, else its line is asked for (R570, R571, R583). -/
def pumpPart (s : State) (j : Job) (p : XPart) : State × XPart :=
  let l := partLine p
  let w := cOp j.cmd = 0x52
  if p.st = 2 || p.sig then (s, p)
  else match herdLine s l with
    | none =>
      let q := askHome s l (if w then .getm else .gets) j.tenant j.gen (if w then .im else .is)
      (holdJobs s q.1 (sameJob j), { p with st := 1, tag := q.2 })
    | some e =>
      if e.tenant != j.tenant then (evictHerd s l, p)
      else if w then
        (if e.st = .m then
          (perfAdd (modHerdLine s l (fun e => { e with
            data := mergeLine e.data (p.offset % 64) p.data, poison := (e.poison && p.len != 64) || !p.bad.isEmpty })) .xag 0 2 1,
            { p with st := 2 })
         else if e.st = .s then let q := askHome s l .getm j.tenant j.gen .sm; (holdJobs s q.1 (sameJob j), { p with st := 1, tag := q.2 })
         else (s, p))
      else if e.st = .s || e.st = .m || e.st = .sm then
        (perfAdd s .xag 0 2 1, { p with st := 2, data := (e.data.drop (p.offset % 64)).take p.len, bad := if e.poison then natsFrom 0 p.len else [] })
      else (s, p)

/-- The herd parts of one running command advance. -/
def pumpParts (s : State) (j : Job) : List XPart → State × List XPart
  | [] => (s, [])
  | p :: ps =>
    let r := pumpPart s j p
    let q := pumpParts r.1 j ps
    (q.1, r.2 :: q.2)

/-- A command whose parts are herd lines. -/
def byLines (c : Cmd) : Bool := xaHerd c && (cOp c == 0x51 || cOp c == 0x52)

/-- Every running command that uses herd lines advances. -/
def xPump (s0 s : State) : State :=
  s.xag.runs.foldl (fun x r => match xRunJob x r with
    | some j => if byLines j.cmd then (let q := pumpParts x j r.parts; xStep s0 q.1 r q.2) else x
    | none => x) s

/-! The commands (14.2 to 14.5). -/

/-- A remote command begins: its requests sent, or its herd lines asked for, and its parts put in the agent. -/
def xSent (s : State) (j : Job) (ps : List XPart) : State × List XPart :=
  let s := modJob s j (fun k => { k with started := true })
  let q := if byLines j.cmd then pumpParts s j ps else sendParts s j ps
  ({ q.1 with xag := { q.1.xag with runs := q.1.xag.runs ++ [xRunOf j q.2] } }, q.2)

/-- A remote command begins, and goes on as its parts allow. -/
def xBegin (s0 s : State) (j : Job) (ps : List XPart) : State :=
  let q := xSent s j ps
  xStep s0 q.1 (xRunOf j q.2) q.2

/-- The command's herd-space target cannot be reached (R579, R588): cause 8. -/
def herdCut (s : State) (j : Job) : Bool := xaHerd j.cmd && !herdReach s (xaNode j.cmd)

/-- The parts of a command that sends data to one target. -/
def storeParts (c : Cmd) (node tenant member : Nat) (bytes : List Byte) (bad : List Nat) : List XPart :=
  let n := bytes.length
  let cuts := if byLines c then cutLines (n / 64 + 2) (xaOff c) n else cutRange (n / 4096 + 1) (xaOff c) n
  let ps := cuts.map (dataPart node tenant member (xaOff c) bytes bad)
  if byLines c && xaSig c then ps ++ [{ node := node, tenant := tenant, offset := xaOff c, len := 0, member := member, sig := true }]
  else signalled (xaSig c) node tenant member (xaOff c) ps

/-- A command that reads its local tensor (R566), once that can be read: lines recalled (R587), errors met, poison carried. [DEDUCED, log 53] -/
def xReadLocal (s0 : State) (j : Job) (f : State → List Byte → List Nat → State) : State :=
  let d := xaDesc j.cmd
  let sp := [boxSpan d (fullBox d)]
  match herdGate s0 j.tenant (sp.filterMap id) [] with
  | some s' => s'
  | none =>
  let r := readSpans s0 j.tenant sp
  let s := withdrawNew s0 r r
  if herdCut s j then xEnd s0 s j (failResult 0x22 {} (8 + xaNode j.cmd * 256)) []
  else match missing r j.tenant none ((extIdx d).map (fun i => (dAddr d i, elemSpan (dFmt d)))) with
    | some (va, n) => xEnd s0 (missAt s j.tenant va n false) j (failResult 0x22 {} 0) sp
    | none => f s (packTensor r j.tenant d) (packBad r j.tenant d)

/-- R570, R576: the parts of an XLOAD, and the state with its cache hits and misses counted. -/
def xloadParts (s : State) (j : Job) : State × List XPart :=
  let c := j.cmd
  let n := packedBytes (xaDesc c)
  let lines := cutLines (n / 64 + 2) (xaOff c) n
  let blank := fun (r : Nat × Nat) => ({ node := xaNode c, tenant := xaTen c, offset := r.1, len := r.2 } : XPart)
  if byLines c then (s, lines.map blank)
  else if xaNocache c then (s, (cutRange (n / 4096 + 1) (xaOff c) n).map blank)
  else
    let ps := cachedParts s j.tenant (xaNode c) (xaTen c) (xaOff c) n
    let hits := (ps.filter (fun p => p.st == 2)).length
    (perfAdd (perfAdd s .xag 0 2 hits) .xag 0 3 (lines.length - hits), ps)

/-- R570: XLOAD. -/
def doXload (s0 : State) : State :=
  match xJob s0 0x51 with
  | none => s0
  | some j =>
    let c := j.cmd
    let d := xaDesc c
    let s := fillSpans s0 j.tenant [boxSpan d (fullBox d)]
    if herdCut s j then xEnd s0 s j (failResult 0x22 {} (8 + xaNode c * 256)) []
    else let p := xloadParts s j; xBegin s0 p.1 j p.2

/-- R571: XSTORE. -/
def doXstore (s0 : State) : State :=
  match xJob s0 0x52 with
  | none => s0
  | some j => xReadLocal s0 j (fun s bytes bad =>
      xBegin s0 s j (storeParts j.cmd (xaNode j.cmd) (xaTen j.cmd) 0 bytes bad))

/-- R572: the members of a multicast group, as (node, tenant). [DEDUCED, log 52] -/
def groupMembers (s : State) (t g : Nat) : List (Nat × Nat) :=
  let a := (xten s t).groupBase + 256 * g
  (List.range (memNat s a 8 % 32)).map (fun j => (bits (memNat s (a + 8 + 8 * j) 8) 0 20, bits (memNat s (a + 8 + 8 * j) 8) 20 12))

/-- R572: XMCAST, whose read of the group table may meet errors (R378). A group table that is not served or is poisoned leaves no
target: TARGET_GONE. -/
def doXmcast (s0 : State) : State :=
  match xJob s0 0x53 with
  | none => s0
  | some j => xReadLocal s0 j (fun s bytes bad =>
      let a := (xten s j.tenant).groupBase + 256 * xaNode j.cmd
      let s := readNow s (fun l => rangesMeet (l * 64) 64 a 256)
      if !servedRange s a 256 || anyPoison s a 256 then xEnd s0 s j (failResult 0x22 {} 0) []
      else
        let ms := groupMembers s j.tenant (xaNode j.cmd)
        xBegin s0 s j (((List.range ms.length).zip ms).flatMap (fun m => storeParts j.cmd m.2.1 m.2.2 m.1 bytes bad)))

/-- R573: XADD. -/
def doXadd (s0 : State) : State :=
  match xJob s0 0x54 with
  | none => s0
  | some j => xReadLocal s0 j (fun s bytes bad =>
      xBegin s0 s j (storeParts j.cmd (xaNode j.cmd) (xaTen j.cmd) 0 bytes bad))

/-- R577: XINVAL. -/
def doXinval (s0 : State) : State :=
  match xJob s0 0x55 with
  | none => s0
  | some j =>
    let c := j.cmd
    let hit := fun (e : CacheLine) => e.st == .opened && e.tenant == j.tenant
      && (xaOrd c || (e.node == xaNode c && e.rtenant == xaTen c && rangesMeet (e.line * 64) 64 (xaOff c) (cf c 5 0 42)))
    xEnd s0 (modCache s0 (fun l => l.filter (fun e => !hit e))) j { detail := satTo 32 ((s0.xag.cache.filter hit).length) } []

/-- R590, R591: LOCK and UNLOCK send one request. -/
def doLockCmd (s0 : State) (op : Nat) : State :=
  match xJob s0 op with
  | none => s0
  | some j =>
    if herdCut s0 j then xEnd s0 s0 j (failResult 0x22 {} (8 + xaNode j.cmd * 256)) []
    else xBegin s0 s0 j [{ node := xaNode j.cmd, tenant := xaTen j.cmd, offset := xaOff j.cmd, len := 64 }]

/-! Responses (R564). -/

/-- The part of a running command with an outstanding tag. -/
def tagPart (s : State) (tag : Nat) : Option (XRun × XPart) :=
  s.xag.runs.findSome? (fun r => (r.parts.find? (fun p => p.st == 1 && p.tag == tag)).map (fun p => (r, p)))

/-- A line of the herd whose request failed: absent again, or read-only again (R580). -/
def herdRefused (s : State) (p : XPart) : State :=
  match herdLine s (partLine p) with
  | some e =>
    if e.xtag != p.tag then s
    else if e.st = .is || e.st = .im then dropHerdLine s (partLine p)
    else if e.st = .sm then modHerdLine s (partLine p) (fun e => { e with st := .s })
    else s
  | none => s

/-- What a response leaves in the remote cache (R576). -/
def cacheResponse (s : State) (j : Job) (p : XPart) (m : FabResp) : State :=
  if m.cause != 0 || xaHerd j.cmd then s
  else if cOp j.cmd = 0x51 && !xaNocache j.cmd then
    (cutLines (p.len / 64 + 2) p.offset p.len).foldl (fun x r =>
      let o := r.1 - p.offset
      if r.2 = 64 && !m.bad.any (fun b => o ≤ b && b < o + 64) then
        fillOpen x {
          tenant := j.tenant, node := p.node, rtenant := p.tenant, herd := false, line := r.1 / 64, st := .opened,
          data := (m.data.drop o).take 64 }
      else x) s
  else if cOp j.cmd = 0x52 || cOp j.cmd = 0x53 then updateOpen s j.tenant p.node p.tenant p.offset p.data p.bad
  else s

/-- R725: a reply without an open request of this epoch is discarded. MGMT.PERF4 counts. -/
def discardReply (s : State) : State := perfAdd s .mgmt 0 4 1

/-- R564, R594: a response arrives. -/
def doResponse (s0 : State) (m : FabResp) : State :=
  if epochOld s0 m.node m.epoch || (ten s0 m.tenant).gen != m.gen then discardReply s0
  else
    let s := notePeer s0 m.node m.epoch 0 (tabGet 0 s0.xag.peerGen (m.node * 4096))
    match tagPart s m.tag with
    | none => discardReply s
    | some (r, p) =>
      if r.tenant != m.tenant || p.node != m.node then discardReply s
      else match xRunJob s r with
        | none => xStep s0 s r r.parts
        | some j =>
          let load := cOp j.cmd = 0x51
          let p' := { p with st := 2, cause := m.cause, flags := m.flags, val := m.val,
                             data := if load then m.data else p.data, bad := if load then m.bad else p.bad }
          let s := if byLines j.cmd && m.cause != 0 then herdRefused s p else cacheResponse s j p m
          let s := xStep s0 s r (r.parts.map (fun x => if x = p then p' else x))
          if byLines j.cmd then xPump s0 s else s

/-! Requests at the target (R563). -/

/-- A response to a request (R568, VC 2). -/
def respond (s : State) (q : FabReq) (cause flags val : Nat) (data : List Byte) (bad : List Nat) : State :=
  sendMsg s { dst := q.srcNode, vc := 2, flow := q.flow, msg := .resp {
    node := nodeNum s, epoch := (page s .xag 0).epoch.toNat, tenant := q.srcTenant, gen := q.gen, tag := q.tag, cause := cause,
    data := data, bad := bad, flags := flags, val := val } }

/-- The request writes. -/
def reqWrites (k : FabKind) : Bool := k == .store || k == .mcast || k == .add

/-- The region's right that a request needs (Table 14.2). -/
def hasRight (r : Region) (k : FabKind) : Bool := match k with
  | .load => true
  | .store | .mcast => r.wr
  | .add => r.add
  | .lock | .unlock => r.lk

/-- R563: the cause of the first check that fails over a range, 0 when all pass. -/
def rangeCause (s : State) (t : Nat) (herd : Bool) (off len job : Nat) (right : Region → Bool) (w : Bool) : Nat :=
  match regionOf s t herd off len with
  | none => 1
  | some r =>
    let va := regionVa r off
    if r.job != job then 2
    else if !right r then 3
    else if !usable s t va len w then 4
    else if w && (linesOf va len).any (fun l => isSealed s (localOf s t (l * 64))) then 5
    else 0

/-- R563: the cause of the first check that a request fails. [DEDUCED, log 53] -/
def reqCause (s : State) (q : FabReq) : Nat :=
  if !blkReady s .xag 0 then 7
  else if (ten s q.tenant).resetting || genOld s q.srcNode q.srcTenant q.gen || epochOld s q.srcNode q.epoch then 6
  else if q.herd && !(herdReach s q.srcNode) then 8
  else rangeCause s q.tenant q.herd q.offset q.len q.job (fun r => hasRight r q.kind) (reqWrites q.kind)

/-- What a refused request leaves at the memory that it named: the event of an access that is not served (cause 4), or seal_wr where its
write would reach a sealed granule (cause 5, R392). -/
def refused (s : State) (t va len : Nat) (w : Bool) (cause : Nat) : State :=
  if cause = 4 then missAt s t va len w
  else if cause = 5 then match (linesOf va len).find? (fun l => isSealed s (localOf s t (l * 64))) with
    | some l => sealHit s (localOf s t (l * 64))
    | none => s
  else s

/-- The tenant address of a request's range. -/
def reqVa (s : State) (q : FabReq) : Nat := match regionOf s q.tenant q.herd q.offset q.len with
  | some r => regionVa r q.offset
  | none => 2 ^ 48

/-- R569: an earlier ordered request of the same source, tenant and flow is still being served. -/
def behind (s : State) (q : FabReq) : Bool :=
  let same := fun (w : FabReq) => w.ord && w.srcNode == q.srcNode && w.srcTenant == q.srcTenant && w.flow == q.flow
  q.ord && (s.xag.waiting.any same || s.xag.rmw.any (fun r => same r.req))

/-! Locks (14.7). -/

/-- The key of a request's lock: its offset with the space. [DEDUCED, log 53] -/
def lockKey (q : FabReq) : Nat := q.offset + 2 ^ 42 * b2n q.herd

/-- A lock's entry. -/
def lockOf (s : State) (t k : Nat) : Option Lock := s.xag.locks.find? (fun l => l.tenant == t && l.offset == k)

/-- The state with a lock's entry changed; an entry with nothing to keep is freed. -/
def putLock (s : State) (l : Lock) : State :=
  let rest := s.xag.locks.filter (fun x => !(x.tenant == l.tenant && x.offset == l.offset))
  { s with xag := { s.xag with locks := if l.owner.isNone && !l.broken && l.waiters.isEmpty then rest else rest ++ [l] } }

/-- A requester takes a lock and is answered; a broken mark is told and cleared (R593). -/
def giveLock (s : State) (l : Lock) (q : FabReq) : State :=
  respond (putLock s { l with owner := some (q.srcNode, q.srcTenant, q.gen), broken := false }) q 0 0 (b2n l.broken) [] []

/-- R590: a LOCK at the target: it takes a free lock, waits for a held one, or waits for an entry. -/
def serveLock (s : State) (q : FabReq) : State :=
  match lockOf s q.tenant (lockKey q) with
  | some l => if l.owner.isNone then giveLock s l q else putLock s { l with waiters := l.waiters ++ [q] }
  | none =>
    if 4096 ≤ s.xag.locks.length then { s with xag := { s.xag with lockWait := s.xag.lockWait ++ [q] } }
    else giveLock s { tenant := q.tenant, offset := lockKey q } q

/-- LOCKs that wait for an entry are served while there is one. -/
def lockEntries : Nat → State → State
  | 0, s => s
  | fuel + 1, s =>
    match s.xag.lockWait with
    | [] => s
    | q :: t => if 4096 ≤ s.xag.locks.length then s else lockEntries fuel (serveLock { s with xag := { s.xag with lockWait := t } } q)

/-- A lock without an owner passes to its oldest waiter, or is free. -/
def passLock (s : State) (l : Lock) : State :=
  match l.waiters with
  | q :: t => giveLock s { l with waiters := t } q
  | [] => lockEntries (s.xag.lockWait.length) (putLock s l)

/-- R591: an UNLOCK at the target. -/
def serveUnlock (s : State) (q : FabReq) : State :=
  match lockOf s q.tenant (lockKey q) with
  | some l =>
    if l.owner == some (q.srcNode, q.srcTenant, q.gen) then passLock (respond s q 0 0 0 [] []) { l with owner := none }
    else respond s q 0 0 1 [] []
  | none => respond s q 0 0 1 [] []

/-- R592: a lock is broken: released with its mark, its event raised, and its oldest waiter takes it. -/
def breakLock (s : State) (l : Lock) : State := passLock (raiseEvent s .xag 0 2) { l with owner := none, broken := true }

/-! Read-modify-write units (R575). -/

/-- R575: the unit of a line at local address a. -/
def rmwUnit (a : Nat) : Nat := (List.range 11).foldl (fun u i => Nat.xor u ((a >>> 6) >>> (4 * i) % 16)) 0

/-- The lines of a job that no queue holds yet. -/
def unqueuedLines (s : State) (r : RmwJob) : List Nat :=
  r.left.filter (fun l => !(s.xag.queues.any (fun q => q.2.contains (r.id, l))))

/-- Line operations fed to their units in order until one finds its queue of 64 full; false then. -/
def feedLines (s : State) (r : RmwJob) : List Nat → State × Bool
  | [] => (s, true)
  | l :: t =>
    let u := rmwUnit (localOf s r.req.tenant (l * 64))
    if 64 ≤ (tabGet [] s.xag.queues u).length then (s, false)
    else feedLines { s with xag := { s.xag with queues := tabMod [] s.xag.queues u (· ++ [(r.id, l)]) } } r t

/-- R575: requests fed to the units in arrival order. -/
def feedUnits : List RmwJob → State → State
  | [], s => s
  | r :: t, s =>
    let q := feedLines s r (unqueuedLines s r)
    if q.2 then feedUnits t q.1 else q.1

/-- R575: while a unit's queue is full, the command of this node whose request waits sees DEFERRED with cause bandwidth. No message tells
a requester on another node. [DESIGN CHOICE, log 10] -/
def addHeld (s : State) (r : RmwJob) : State :=
  if r.req.srcNode != nodeNum s || (unqueuedLines s r).isEmpty then s
  else jobsHeld s (fun j => s.xag.runs.any (fun x => xRunJob s x == some j && x.parts.any (fun p => p.st == 1 && p.tag == r.req.tag)))

/-- R571: the signal of a store at its target, after its writes; Table 14.4 gives it to an XADD as well. [DEDUCED, log 52] -/
def remoteSignal (s : State) (q : FabReq) : State := if q.rsig then markReady (tokenAdd s q.tenant q.rtok 1) q.tenant else s

/-- An XADD put before the units; one of no bytes, which closes a command with its signal, is answered at once. -/
def serveAdd (s : State) (q : FabReq) : State :=
  if q.len = 0 then respond (remoteSignal s q) q 0 0 0 [] [] else
  let r : RmwJob := { id := s.xag.nextRmw, req := q, left := linesOf (reqVa s q) q.len }
  let s := { s with xag := { s.xag with rmw := s.xag.rmw ++ [r], nextRmw := s.xag.nextRmw + 1 } }
  addHeld (feedUnits s.xag.rmw s) r

/-! Serving requests. -/

/-- The span of a request at the target, for the directory filter (R587). -/
def reqGate (s : State) (q : FabReq) (va : Nat) : Option State :=
  match q.kind with
  | .load => herdGate s q.tenant [(va, q.len)] []
  | .store | .mcast => herdGate s q.tenant [] [(va, q.len)]
  | _ => none

/-- A request that has passed its checks is served, or waits for a recall (R587). XAG.PERF1 counts requests served. [DESIGN CHOICE, log 85] -/
def serveReq (s : State) (q : FabReq) : State :=
  let va := reqVa s q
  match reqGate s q va with
  | some s' => { s' with xag := { s'.xag with waiting := s'.xag.waiting ++ [q] } }
  | none =>
    let s := perfAdd s .xag 0 1 1
    match q.kind with
    | .load =>
      let r := readSpans s q.tenant [some (va, q.len)]
      let bad := (natsFrom 0 q.len).filter (fun i => linePoison r (localOf r q.tenant (va + i) / 64))
      respond (withdrawNew s r r) q 0 (if bad.isEmpty then 0 else 16) 0 (tBytes r q.tenant va q.len) bad
    | .store | .mcast =>
      let es := ((List.range q.len).zip q.data).map (fun e =>
        ({ addr := va + e.1, bit := 0, width := 8, val := e.2.toNat, bad := q.bad.contains e.1 } : OutElem))
      let w := writeOut s q.tenant es []
      if w.gone then respond w.st q 4 0 0 [] [] else respond (remoteSignal w.st q) q 0 0 0 [] []
    | .add => serveAdd s q
    | .lock => serveLock s q
    | .unlock => serveUnlock s q

/-- R563: a request is checked and served or failed; it waits behind earlier ordered requests (R569). [DEDUCED, log 53] -/
def takeReq (s : State) (q : FabReq) : State :=
  if behind s q then { s with xag := { s.xag with waiting := s.xag.waiting ++ [q] } }
  else
    let cause := reqCause s q
    let s := notePeer s q.srcNode q.epoch q.srcTenant q.gen
    if cause != 0 then respond (refused s q.tenant (reqVa s q) q.len (reqWrites q.kind) cause) q cause 0 0 [] [] else serveReq s q

/-- The requests that wait are taken again, in order. -/
def retryWaiting (s : State) : State :=
  if s.xag.syncBusy then s else s.xag.waiting.foldl takeReq { s with xag := { s.xag with waiting := [] } }

/-- R561, R563: a request arrives; while the region table is read it waits. In Lamb mode nothing is accepted (R598). -/
def doRequest (s : State) (q : FabReq) : State :=
  if s.mgmt.lamb || q.node != nodeNum s then s
  else if s.xag.syncBusy then { s with xag := { s.xag with waiting := s.xag.waiting ++ [q] } }
  else takeReq s q

/-- The value of one element of a line added (R573): poison makes poison. -/
def addElem (f : Fmt) (ovf : Bool) (line : Nat) (q : FabReq) (va : Nat) (acc : Nat × Fl × Bool) (n : Nat) : Nat × Fl × Bool :=
  let w := fmtBits f
  let a := va + n * (w / 8)
  if a / 64 != line then acc
  else
    let lo := (a % 64) * 8
    let x := leNat ((q.data.drop (n * (w / 8))).take (w / 8))
    let bad := (natsFrom (n * (w / 8)) (w / 8)).any q.bad.contains
    let r := arAdd f ovf (bits acc.1 lo w) x
    (setBits acc.1 lo w r.1, if bad then acc.2.1 else flOr acc.2.1 r.2, acc.2.2 || bad)

/-- R573, R574: a unit serves one line of a request. -/
def rmwLine (s : State) (r : RmwJob) (line : Nat) : State × RmwJob :=
  let q := r.req
  let va := reqVa s q
  let f := (fmtOf q.fmt).getD .fp64
  if !usable s q.tenant (line * 64) 64 true then
    (missAt s q.tenant (line * 64) 64 true, { r with left := r.left.filter (· != line), fail := 4 })
  else
    let la := localOf s q.tenant (line * 64)
    let e := meetErrs (perfAdd s .xag 0 4 1) (· == la / 64)
    let o := (List.range (q.len / (fmtBits f / 8))).foldl (addElem f q.ovf line q va) (memNat e la 64, Fl.none, linePoison e (la / 64))
    let w := if o.2.2 then storePoison e la else store e la (leBytes 64 o.1)
    (withdrawNew s e w.1, { r with
      left := r.left.filter (· != line)
      flags := r.flags ||| flBits o.2.1 ||| (if o.2.2 then 16 else 0)
      fail := if w.2 then 5 else r.fail })

/-- R575: the unit serves the line operation at the head of its queue. It waits for a recall (R587), and for the lower lines of its
request (R574). -/
def doRmwServe (s : State) (u : Nat) : State :=
  match tabGet [] s.xag.queues u with
  | [] => s
  | (id, line) :: t =>
    let pop := fun (x : State) => { x with xag := { x.xag with queues := tabSet x.xag.queues u t } }
    match s.xag.rmw.find? (fun r => r.id == id) with
    | none => pop s
    | some r =>
      if r.left.any (· < line) then s
      else match herdGate s r.req.tenant [] [(line * 64, 64)] with
        | some s' => s'
        | none =>
          let q := rmwLine (pop s) r line
          let s := q.1
          if q.2.left.isEmpty then
            let s := { s with xag := { s.xag with rmw := s.xag.rmw.filter (fun x => x.id != id) } }
            let s := if q.2.fail = 0 then remoteSignal s r.req else s
            retryWaiting (feedUnits s.xag.rmw (respond s r.req q.2.fail q.2.flags 0 [] []))
          else
            let s := { s with xag := { s.xag with rmw := s.xag.rmw.map (fun x => if x.id == id then q.2 else x) } }
            feedUnits s.xag.rmw s

/-! Timeouts (R731, R590). -/

/-- R590, R731: a wait of a node's request ends: at the source its part answers with a timeout; at the target a LOCK leaves its queue. -/
def doFabTimeout (s0 : State) (node tag : Nat) : State :=
  let gone := fun (q : FabReq) => q.srcNode == node && q.tag == tag
  let s := { s0 with xag := { s0.xag with
    locks := s0.xag.locks.map (fun l => { l with waiters := l.waiters.filter (fun q => !gone q) }),
    lockWait := s0.xag.lockWait.filter (fun q => !gone q) } }
  if node != nodeNum s then s
  else match tagPart s tag with
    | none => s
    | some (r, p) => xStep s0 s r (r.parts.map (fun x => if x = p then { p with st := 2, cause := 100 } else x))

/-! Herd messages (14.6). -/

/-- The node that sent a herd message, where its member and epoch are current (R594). -/
def herdSender (s : State) (m : HerdMsg) : Option Nat := match herdNode s m.member with
  | some v => if epochOld s v m.epoch then none else some v
  | none => none

/-- R563: the cause of the first check that a herd request fails at its home. [DEDUCED, log 53] -/
def herdCause (s : State) (w : Bool) (m : HerdMsg) (v : Nat) : Nat :=
  if !blkReady s .xag 0 then 7
  else if (ten s m.line.tenant).resetting || genOld s v m.srcTenant m.gen || epochOld s v m.epoch then 6
  else if !herdReach s v then 8
  else rangeCause s m.line.tenant true (m.line.line * 64) 64 m.job (fun r => !w || r.wr) w

/-- What a refused herd request leaves at the memory that it named. -/
def refusedHerd (s : State) (w : Bool) (m : HerdMsg) (cause : Nat) : State :=
  match regionOf s m.line.tenant true (m.line.line * 64) 64 with
  | some r => refused s m.line.tenant (regionVa r (m.line.line * 64)) 64 w cause
  | none => s

/-- R563, R583: GETS or GETM at its home: checked, then served or queued behind the line's transaction (R582). [DESIGN CHOICE, log 85] -/
def takeHerd (s : State) (op : HerdOp) (m : HerdMsg) : State :=
  match herdNode s m.member with
  | none => s
  | some v =>
    let cause := herdCause s (op == .getm) m v
    let s := notePeer s v m.epoch m.srcTenant m.gen
    if cause != 0 then sendMsg (refusedHerd s (op == .getm) m cause) { dst := v, vc := 2, flow := m.line.line % 65536, msg := .resp {
      node := nodeNum s, epoch := (page s .xag 0).epoch.toNat, tenant := m.srcTenant, gen := m.gen, tag := m.xtag, cause := cause,
      data := [], bad := [], flags := 0, val := 0 } }
    else
      let s := perfAdd s .xag 0 1 1
      let k := dirKey m.line.tenant m.line.line
      let e := dirLine s k
      if e.trans.isSome || !e.queue.isEmpty then modDir s k (fun e => { e with queue := e.queue ++ [(op, m)] }) else serveHerd s k op m

/-- A herd request arrives at its home; while the region table is read it waits (R561). -/
def doHerdReq (s : State) (op : HerdOp) (m : HerdMsg) : State :=
  if s.mgmt.lamb || m.line.node != nodeNum s then s
  else if s.xag.syncBusy then { s with xag := { s.xag with herdWait := s.xag.herdWait ++ [(op, m)] } }
  else takeHerd s op m

/-- A message for the home of a line, from a current member. -/
def atHome (s : State) (m : HerdMsg) (f : State → State) : State :=
  if m.line.node != nodeNum s || (herdSender s m).isNone || s.mgmt.lamb then s else xResume (retryWaiting (f s))

/-- A message for a caching member, from the line's home. -/
def atMember (s : State) (m : HerdMsg) (f : State → State) : State :=
  if herdSender s m != some m.line.node || s.mgmt.lamb then s else f s

/-- A snoop answer. -/
def sendSrsp (s : State) (m : HerdMsg) (tag : Nat) (f : HerdMsg → HerdMsg) : State := sendHerd s m.line.node .srsp (f (herdBlank m.line tag))

/-- R583, R585, R586: a snoop at a member. -/
def doSnoop (s : State) (inv : Bool) (m : HerdMsg) : State :=
  atMember s m (fun s =>
    match herdLine s m.line with
    | none => sendSrsp s m m.tag id
    | some e =>
      match e.st with
      | .m =>
        let s := if inv then dropHerdLine s m.line else modHerdLine s m.line (fun e => { e with st := .s })
        sendSrsp s m e.tag (fun x => { x with present := true, data := e.data, poison := e.poison })
      | .mi => sendSrsp s m e.tag (fun x => { x with wbif := true })
      | .s => sendSrsp (if inv then dropHerdLine s m.line else s) m m.tag id
      | .sm => sendSrsp (if inv then modHerdLine s m.line (fun e => { e with st := .im }) else s) m m.tag id
      | _ => sendSrsp s m m.tag id)

/-- R583: DATA_S at a member. -/
def doDataS (s : State) (m : HerdMsg) : State :=
  atMember s m (fun x => match herdLine x m.line with
    | some e => if e.st = .is then
        xPump s (modHerdLine x m.line (fun e => { e with st := .s, data := m.data, poison := m.poison, tag := m.tag }))
      else x
    | none => x)

/-- R583: DATA_M at a member. -/
def doDataM (s : State) (m : HerdMsg) : State :=
  atMember s m (fun x => match herdLine x m.line with
    | some e => if e.st = .im || e.st = .sm then
        xPump s (modHerdLine x m.line (fun e => { e with st := .m, data := m.data, poison := m.poison, tag := m.tag }))
      else x
    | none => x)

/-- R584: WB_ACK at a member. -/
def doWbAck (s : State) (m : HerdMsg) : State :=
  atMember s m (fun x => match herdLine x m.line with
    | some e => if e.st = .mi && e.tag == m.tag then xPump s (dropHerdLine x m.line) else x
    | none => x)

/-- R584: a member evicts a line. -/
def doHerdEvict (s : State) (l : HerdLine) : State := evictHerd s l

/-- R597: a member leaves. -/
def doMemberLeave (s : State) (m : Nat) : State :=
  if (herdNode s m).isSome && m != herdSelf s then xResume (retryWaiting (memberLeaves s m)) else s

/-! Lock epochs (R592). -/

/-- R592: the probe period of a lock with waiters ends: its owner's node is probed. -/
def doLockProbe (s : State) (t k : Nat) : State :=
  match lockOf s t k with
  | some l => match l.owner with
    | some (v, ot, g) => if l.waiters.isEmpty || !blkReady s .xag 0 then s
        else sendMsg s { dst := v, vc := 0, flow := 0, msg := .lockProbe t k ot g }
    | none => s
  | none => s

/-- R592: the owner's node answers a probe with its tenant's generation. -/
def doOwnerProbe (s : State) (node t k owner : Nat) : State :=
  if s.mgmt.lamb || !blkReady s .xag 0 then s
  else sendMsg s { dst := node, vc := 2, flow := 0, msg := .lockAnswer t k owner (ten s owner).gen }

/-- R592: what a target learns of a lock's owner: a notice, another generation, or silence ends its epoch. [DEDUCED, log 96] -/
def doLockNews (s : State) (t k v ot : Nat) (news : LockNews) : State :=
  match lockOf s t k with
  | some l => match l.owner with
    | some (w, o, g) =>
      if w != v || o != ot then s
      else match news with
        | .notice => breakLock s l
        | .probeGen h => if h != g then breakLock s l else s
        | .probeLost => breakLock s l
    | none => s
  | none => s

/-- R592: release notices for locks that tenants of this node hold. -/
def releaseNotices (s : State) (p : Nat → Bool) : State :=
  let gone := s.xag.mine.filter (fun m => p m.2.2.2)
  gone.foldl (fun x m => sendMsg x { dst := m.1, vc := 0, flow := 0, msg := .lockNotice m.2.1 m.2.2.1 m.2.2.2 })
    { s with xag := { s.xag with mine := s.xag.mine.filter (fun m => !p m.2.2.2) } }

/-! The region table (R561). -/

/-- R561: REGION_SYNC.go starts the read of the region table. -/
def doRegionSync (s : State) (r : Requester) : State :=
  regAccess s r .xag 0 0x110 true (fun s =>
    if blkReady s .xag 0 then { s with xag := { s.xag with syncBusy := true } } else s)

/-- One entry of the region table: none where it breaks Table 14.2; a region where it is valid. -/
def regionEntry (t e0 e1 e2 e3 : Nat) : Option (Option Region) :=
  if bits e0 5 27 != 0 || bits e1 42 22 != 0 || bits e2 42 22 != 0 || bits e3 48 16 != 0 || bits e1 0 12 != 0 || bits e3 0 12 != 0 then none
  else if !bitAt e0 0 then some none
  else
    let size := bits e2 0 42
    if size < 4096 || size % 4096 != 0 then none
    else some (some { tenant := t, herd := bitAt e0 1, wr := bitAt e0 2, add := bitAt e0 3, lk := bitAt e0 4, job := bits e0 32 32,
                      obase := bits e1 0 42, size := size, tbase := bits e3 0 48 })

/-- The leaves below a table of level `lvl` that maps tenant addresses from `va`: tenant address, local base, log2 of the size. -/
def leavesVa (s : State) : Nat → Nat → Nat → List (Nat × Nat × Nat)
  | 0, _, _ => []
  | lvl + 1, tbl, va =>
    if !(inLpddr tbl && backed s tbl) then []
    else (usedEntries s tbl).flatMap (fun i =>
      let e := memNat s (tbl + 8 * i) 8
      let a := bits e 12 36 * 4096
      let v := va + i * 2 ^ (12 + 9 * lvl)
      if !bitAt e 0 then [] else if bitAt e 1 then [(v, a, 12 + 9 * lvl)] else leavesVa s lvl a v)

/-- R561: a herd entry maps LPDDR only. -/
def herdLpddr (s : State) (r : Region) : Bool :=
  !r.herd || !(ten s r.tenant).rootValid
    || (leavesVa s 4 (ten s r.tenant).root 0).all (fun p => !rangesMeet p.1 (2 ^ p.2.2) r.tbase r.size || inLpddr p.2.1)

/-- The entries of the table that are not all zero, by number. -/
def tableEntries (s : State) (base : Nat) : List Nat :=
  ((s.mem.cells.filter (fun e => base ≤ e.1 && e.1 < base + 512 * 512)).map (fun e => (e.1 - base) / 32)).dedup

/-- The region table as memory holds it; none where it breaks Table 14.2 or cannot be read. -/
def readRegions (s : State) : Option (List Region) :=
  let base := regWord2 s .xag 0 0x108 0 % 2 ^ 48
  let whole := natsFrom (base / 4096) 64
  if whole.any (fun p => !(inLpddr (p * 4096) && served s (p * 4096))) || s.poison.any (fun l => base ≤ l * 64 && l * 64 < base + 262144) then none
  else
    let es := (tableEntries s base).map (fun n =>
      let a := base + 32 * n
      regionEntry (n / 16) (memNat s a 8) (memNat s (a + 8) 8) (memNat s (a + 16) 8) (memNat s (a + 24) 8))
    match allSome es with
    | none => none
    | some l =>
      let rs := l.filterMap id
      if allPairs (fun a b => !(a.tenant == b.tenant && a.herd == b.herd && rangesMeet a.obase a.size b.obase b.size)) rs
        && rs.all (herdLpddr s) then some rs else none

/-- R561: the read ends: the table takes force, or the previous one stays; the requests that wait resume. Its reads may meet errors (R378). -/
def doRegionEnd (s : State) : State :=
  if !s.xag.syncBusy then s
  else
    let base := regWord2 s .xag 0 0x108 0 % 2 ^ 48
    let s := readNow s (fun l => base ≤ l * 64 && l * 64 < base + 262144)
    let s := match readRegions s with
      | some rs => { s with xag := { s.xag with regions := rs, syncBusy := false, syncBad := false } }
      | none => raiseEvent { s with xag := { s.xag with syncBusy := false, syncBad := true } } .xag 0 5
    let hw := s.xag.herdWait
    retryWaiting (hw.foldl (fun x q => takeHerd x q.1 q.2) { s with xag := { s.xag with herdWait := [] } })

/-! Registers with rows of their own. -/

/-- R602: HERD or HERD_MEMBER_m is writable: the herd is off and no herd line is cached or owned at this node. [DEDUCED, log 53] -/
def herdFree (s : State) : Bool := !herdOn s && s.xag.cache.all (fun e => e.st == .opened)

/-- The values that HERD may take (Table 14.10); HERD_MEMBER_m takes any. -/
def herdValueOk (off v : Nat) : Bool := if off = 0x128 then bits v 3 4 ≤ 8 && (!bitAt v 7 || 1 ≤ bits v 3 4) else bits v 0 20 < 2 ^ 15

/-- R602: the owner writes HERD (offset 0x128) or HERD_MEMBER_m (0x12C + 4m). Clearing HERD.en is a write of HERD too. -/
def doHerdCfg (s : State) (r : Requester) (off v : Nat) : State :=
  regAccess s r .xag 0 off true (fun s =>
    if !(off = 0x128 || (0x12C ≤ off && off ≤ 0x148 && off % 4 = 0)) then s
    else if !herdFree s || !herdValueOk off v then regError s .xag 0 off
    else setRegWord s .xag 0 off (bits v 0 (if off = 0x128 then 16 else 21)))

/-- R731: the owner writes FAB_TMO; a value outside 100 µs to 1 s is ignored. -/
def doFabTmo (s : State) (r : Requester) (v : Nat) : State :=
  regAccess s r .xag 0 0x104 true (fun s =>
    if 100 ≤ v && v ≤ 1000000 then setRegWord s .xag 0 0x104 v else regError s .xag 0 0x104)

/-! Resets (R595, R596). -/

/-- R596: a tenant's lines leave the remote cache: owned herd lines are written back, the others dropped. -/
def dropTenantLines (s : State) (p : CacheLine → Bool) : State :=
  let s := (s.xag.cache.filter (fun e => p e && e.st != .opened)).foldl (fun x e =>
    evictHerd x { node := e.node, tenant := e.rtenant, line := e.line }) s
  modCache s (fun l => l.filter (fun e => !(p e && (e.st == .opened || e.st == .is || e.st == .im || e.st == .sm))))

/-- Every remote copy of this home's lines recalled (R595). -/
def recallAll (s : State) : State :=
  s.xag.dir.foldl (fun x e => if e.2.st = 0 || (dirLine x e.1).trans.isSome then x else startRecall x true e.1) s

/-- R595: the agent is reset: its commands complete TARGET_GONE, waiting requests fail with cause 7, lines are written back and recalled,
release notices go out, held locks are broken and released, and the epoch advances. -/
def xagReset (s : State) : State :=
  let s := (s.xag.waiting ++ s.xag.lockWait ++ s.xag.rmw.map (·.req)).foldl (fun x q => respond x q 7 0 0 [] []) s
  let s := { s with xag := { s.xag with waiting := [], herdWait := [], lockWait := [], rmw := [], queues := [], runs := [], syncBusy := false } }
  let s := failJobs s .xag .xag 0 0
  let s := recallAll (dropTenantLines s (fun _ => true))
  let s := releaseNotices s (fun _ => true)
  let held := s.xag.locks.filter (fun l => l.owner.isSome)
  let s := held.foldl (fun x _ => raiseEvent x .xag 0 2) s
  let s := s.xag.locks.foldl (fun x l => l.waiters.foldl (fun y q => respond y q 7 0 0 [] []) x) s
  { s with xag := { s.xag with locks := s.xag.locks.map (fun l => { l with owner := none, broken := l.broken || l.owner.isSome, waiters := [] }) } }

/-- R596, R634: a tenant's part of the agent is drained: its lines leave the cache, its notices go out, its commands stop, and
requests to it that wait fail with cause 6. -/
def xagTenant (s : State) (t : Nat) : State :=
  let mine := fun (q : FabReq) => q.tenant == t
  let all := s.xag.waiting ++ s.xag.lockWait ++ s.xag.rmw.map (·.req) ++ s.xag.locks.flatMap (·.waiters)
  let s := (all.filter mine).foldl (fun x q => respond x q 6 0 0 [] []) s
  let s := { s with xag := { s.xag with
    waiting := s.xag.waiting.filter (fun q => !mine q), lockWait := s.xag.lockWait.filter (fun q => !mine q),
    rmw := s.xag.rmw.filter (fun r => !mine r.req), runs := s.xag.runs.filter (fun r => r.tenant != t),
    locks := (s.xag.locks.map (fun l => if l.tenant == t then { l with waiters := [] } else l)).filter
      (fun l => l.owner.isSome || l.broken || !l.waiters.isEmpty) } }
  releaseNotices (dropTenantLines s (fun e => e.tenant == t)) (· == t)

/-! The steps of this part. -/

/-- XLOAD (R570). -/
def execXload (s : State) : Host.Outcome State Fault Refusal := .next (whenLive s (doXload s))
/-- XSTORE (R571). -/
def execXstore (s : State) : Host.Outcome State Fault Refusal := .next (whenLive s (doXstore s))
/-- XMCAST (R572). -/
def execXmcast (s : State) : Host.Outcome State Fault Refusal := .next (whenLive s (doXmcast s))
/-- XADD (R573). -/
def execXadd (s : State) : Host.Outcome State Fault Refusal := .next (whenLive s (doXadd s))
/-- XINVAL (R577). -/
def execXinval (s : State) : Host.Outcome State Fault Refusal := .next (whenLive s (doXinval s))
/-- LOCK (R590). -/
def execLockTake (s : State) : Host.Outcome State Fault Refusal := .next (whenLive s (doLockCmd s 0x56))
/-- UNLOCK (R591). -/
def execLockRelease (s : State) : Host.Outcome State Fault Refusal := .next (whenLive s (doLockCmd s 0x57))
/-- REMOTE_REQUEST (R563). -/
def execRemoteRequest (m : FabReq) (s : State) : Host.Outcome State Fault Refusal := .next (whenLive s (doRequest s m))
/-- REMOTE_RESPONSE (R564). -/
def execRemoteResponse (m : FabResp) (s : State) : Host.Outcome State Fault Refusal := .next (whenLive s (doResponse s m))
/-- RMW_UNIT_SERVE (R575). -/
def execRmwUnitServe (unit : Nat) (s : State) : Host.Outcome State Fault Refusal := .next (whenLive s (doRmwServe s unit))
/-- GETS (R583). -/
def execGets (m : HerdMsg) (s : State) : Host.Outcome State Fault Refusal := .next (whenLive s (doHerdReq s .gets m))
/-- GETM (R583). -/
def execGetm (m : HerdMsg) (s : State) : Host.Outcome State Fault Refusal := .next (whenLive s (doHerdReq s .getm m))
/-- SNPS (R583). -/
def execSnps (m : HerdMsg) (s : State) : Host.Outcome State Fault Refusal := .next (whenLive s (doSnoop s false m))
/-- SNPI (R583). -/
def execSnpi (m : HerdMsg) (s : State) : Host.Outcome State Fault Refusal := .next (whenLive s (doSnoop s true m))
/-- DATA_S (R583). -/
def execDataS (m : HerdMsg) (s : State) : Host.Outcome State Fault Refusal := .next (whenLive s (doDataS s m))
/-- DATA_M (R583). -/
def execDataM (m : HerdMsg) (s : State) : Host.Outcome State Fault Refusal := .next (whenLive s (doDataM s m))
/-- WB_ACK (R584). -/
def execWbAck (m : HerdMsg) (s : State) : Host.Outcome State Fault Refusal := .next (whenLive s (doWbAck s m))
/-- HERD_EVICT (R584). -/
def execHerdEvict (line : HerdLine) (s : State) : Host.Outcome State Fault Refusal := .next (whenLive s (doHerdEvict s line))
/-- LOCK_PROBE (R592). -/
def execLockProbe (tenant offset : Nat) (s : State) : Host.Outcome State Fault Refusal := .next (whenLive s (doLockProbe s tenant offset))
/-- LOCK_RELEASE_NOTICE (R592). -/
def execLockReleaseNotice (tenant offset ownerNode ownerTenant : Nat) (news : LockNews) (s : State) : Host.Outcome State Fault Refusal :=
  .next (whenLive s (doLockNews s tenant offset ownerNode ownerTenant news))
/-- REGION_SYNC (R561). -/
def execRegionSync (r : Requester) (s : State) : Host.Outcome State Fault Refusal := .next (whenLive s (doRegionSync s r))
/-- REGION_TABLE_READ_END (R561). -/
def execRegionTableReadEnd (s : State) : Host.Outcome State Fault Refusal := .next (whenLive s (doRegionEnd s))
/-- HERD_CONFIG_WRITE (R602). -/
def execHerdConfigWrite (r : Requester) (reg value : Nat) (s : State) : Host.Outcome State Fault Refusal := .next (whenLive s (doHerdCfg s r reg value))
/-- FAB_TMO_WRITE (R731). -/
def execFabTmoWrite (r : Requester) (value : Nat) (s : State) : Host.Outcome State Fault Refusal := .next (whenLive s (doFabTmo s r value))
/-- OWNER_NODE_PROBE (R592). -/
def execOwnerNodeProbe (node tenant offset ownerTenant : Nat) (s : State) : Host.Outcome State Fault Refusal :=
  .next (whenLive s (doOwnerProbe s node tenant offset ownerTenant))

end Sys2Proof.Machine
end

