-- ==== Sys2Proof/Machine/Gate.lean ====
section
/-! DEFINITION. The steps of engines that reach tenants' memory, behind the home's directory filter (R587): while a line that the step
would read or write is held elsewhere, the step begins the recalls and leaves its command as it is. -/

namespace Sys2Proof.Machine

/-- A tensor's elements and scales. -/
def tensorSpans (d : TDesc) (red free : Nat) : List (Option (Nat × Nat)) := [boxSpan d (fullBox d), scaleSpan d red free (fullBox d)]

/-- The spans of tenant addresses that a command reads and writes. -/
def cmdSpans (s : State) (j : Job) : List (Option (Nat × Nat)) × List (Option (Nat × Nat)) :=
  let c := j.cmd
  match cOp c with
  | 0x10 => (mmSpans c true, tensorSpans (mmC c) 0 1)
  | 0x11 => (mmSpans c true, tensorSpans (mmC c) 0 1)
  | 0x12 => (lsSpans c, [])
  | 0x20 => (twoSpans (pnX c) ++ (if named c 5 then twoSpans (pnY c) else []) ++ (if named c 6 then twoSpans (pnZ c) else []), twoSpans (voD c))
  | 0x21 => (redSpans c, twoSpans (pnZ c))
  | 0x22 => (redSpans c, [])
  | 0x23 => ([], twoSpans (vgD c))
  | 0x30 =>
    ([some (mrCode c, 4 * mrNinst c), some (mrArgs c, if mrArgs c = 0 then 0 else 64)],
      if mrResume c then [some (mrSave c, mrCores c * saveBytes)] else [])
  | 0x31 =>
    let p := solParOf (tNat s j.tenant (svAddr c) 64)
    (match cmdSys s j with
      | some y => ([some (svAddr c, 64), some (p.b, 8 * y.n)],
          [some (p.x, 8 * y.n), some (y.farea, 4096 * y.fpages), some (y.log, 32 * y.logcap)])
      | none => ([], []))
  | 0x32 => ([some (svAddr c, 16 * upCount c)], [])
  | 0x33 => (some (svAddr c, 64) :: (setupArrays (setupOf (tNat s j.tenant (svAddr c) 64))).map (fun a => some (a.1, a.2.1)), [some (suRec c, 32)])
  | 0x40 => (winSpans c, tensorSpans (mvDst c) 0 1)
  | 0x41 => (winSpans c, tensorSpans (mvDst c) 0 1)
  | 0x42 => (gatherSpans c, tensorSpans (mvDst c) 0 1)
  | 0x44 => ([], zeroSpans c)
  | 0x50 => ([boxSpan (arX c) (fullBox (arX c))], [boxSpan (arY c) (fullBox (arY c))])
  | _ => ([], [])

/-- R587: a step over some spans of a tenant goes on, or begins the recalls it needs. [DEDUCED, log 54] -/
def gateSpans (s : State) (t : Nat) (sp : List (Option (Nat × Nat)) × List (Option (Nat × Nat))) (go : State) : State :=
  if s.xag.dir.isEmpty then go
  else (herdGate s t (sp.1.filterMap id) (sp.2.filterMap id)).getD go

/-- R587: the step of a job. -/
def gateJob (s : State) (j : Option Job) (go : State) : State :=
  match j with
  | none => go
  | some j => gateSpans s j.tenant (cmdSpans s j) go

/-- R587: the step of a Drake command. -/
def gateDrake (s : State) (g idx op : Nat) (go : State) : State := if unitRuns s .drake g then gateJob s (drakeJob s g idx op) go else go

/-- The entry that commits next. -/
def commitEntry (s : State) (g idx : Nat) : Nat :=
  match drakeJob s g idx 0x43 with
  | some j => ((pfRun s g j).map (·.committed)).getD 0
  | none => 0

/-- R587: the source of one entry of a PREFETCH; its destination lies in an upper tier. -/
def gateEntry (s : State) (g idx e : Nat) (commit : Bool) (go : State) : State :=
  match drakeJob s g idx 0x43 with
  | some j =>
    if !unitRuns s .drake g || (commit && !pfReleased s j.tenant j.cmd e) || pfCount j.cmd ≤ e then go
    else gateSpans s j.tenant ([boxSpan (mvSrc (pfMove j.cmd e)) (fullBox (mvSrc (pfMove j.cmd e)))], []) go
  | none => go

/-- R587: a SOLVE of a method. -/
def gateSolve (s : State) (u m : Nat) (go : State) : State := gateJob s ((solvJob s u 0x31).filter (fun j => soMethod j.cmd == m)) go

/-- R587: a step of an all-reduce operation. -/
def gateOp (s : State) (k : Nat) (go : State) : State := gateJob s ((collOp s k).bind (opJob s)) go

/-- R587: a scalar access of a Mule core. -/
def gateScalar (s : State) (n op k : Nat) (w : Bool) (go : State) : State :=
  let c := mcore s n
  match c.code[c.pc]? with
  | some i =>
    if c.st != 2 || mOp i.toNat != op then go
    else
      let sp := [some (memAddr c i.toNat, k)]
      gateSpans s c.tenant (if w then ([], sp) else (sp, [])) go
  | none => go

/-- R587: a vector access of a Mule core. -/
def gateVector (s : State) (n op w : Nat) (wr : Bool) (go : State) : State :=
  let c := mcore s n
  match c.code[c.pc]? with
  | some i =>
    if c.st != 2 || mOp i.toNat != op || s.xag.dir.isEmpty then go
    else
      let k := vecN c w
      let es := (natsFrom c.vresume (k - c.vresume)).filter (vecAct c (mMsk i.toNat) k)
      let sp := es.map (fun e => some (vecAddr c i.toNat w e, w / 8))
      gateSpans s c.tenant (if wr then ([], sp) else (sp, [])) go
  | none => go

/-! The steps. -/

/-- MOVE (R417). -/
def execMoveT (group idx : Nat) (errs : List MemErr) (s : State) : Host.Outcome State Fault Refusal :=
  .next (whenLive s (gateDrake s group idx 0x40 (doMove s group idx errs)))

/-- CONVERT (R418). -/
def execConvertT (group idx : Nat) (errs : List MemErr) (s : State) : Host.Outcome State Fault Refusal :=
  .next (whenLive s (gateDrake s group idx 0x41 (doConvert s group idx errs)))

/-- GATHER_WIDEN (R420). -/
def execGatherWiden (group idx : Nat) (errs : List MemErr) (s : State) : Host.Outcome State Fault Refusal :=
  .next (whenLive s (gateDrake s group idx 0x42 (doGather s group idx errs)))

/-- PREFETCH_RUNAHEAD (R430). -/
def execPrefetchRunahead (group idx entry : Nat) (s : State) : Host.Outcome State Fault Refusal :=
  .next (whenLive s (gateEntry s group idx entry false (doRunahead s group idx entry)))

/-- PREFETCH_COMMIT (R429). -/
def execPrefetchCommit (group idx : Nat) (s : State) : Host.Outcome State Fault Refusal :=
  .next (whenLive s (gateEntry s group idx (commitEntry s group idx) true (doCommit s group idx)))

/-- ZERO (R426). -/
def execZeroT (group idx : Nat) (s : State) : Host.Outcome State Fault Refusal :=
  .next (whenLive s (gateDrake s group idx 0x44 (doZero s group idx)))

/-- MM (R140). -/
def execMm (array : Nat) (par : Option BankParity) (errs : List MemErr) (s : State) : Host.Outcome State Fault Refusal :=
  .next (whenLive s (gateJob s (oxJob s array 0x10) (doMm s array par errs)))

/-- MM_SPLIT (R199). -/
def execMmSplit (array : Nat) (par : Option BankParity) (errs : List MemErr) (s : State) : Host.Outcome State Fault Refusal :=
  .next (whenLive s (gateJob s (oxJob s array 0x11) (doMmSplit s array par errs)))

/-- LOAD_STAT (R166). -/
def execLoadStat (array : Nat) (s : State) : Host.Outcome State Fault Refusal :=
  .next (whenLive s (gateJob s (oxJob s array 0x12) (doLoadStat s array)))

/-- VOP (R218). -/
def execVop (slice : Nat) (badTable : List Nat) (errs : List MemErr) (s : State) : Host.Outcome State Fault Refusal :=
  .next (whenLive s (gateJob s (ponyJob s slice 0x20) (doVop s slice badTable errs)))

/-- VRED (R231). -/
def execVred (slice : Nat) (errs : List MemErr) (s : State) : Host.Outcome State Fault Refusal :=
  .next (whenLive s (gateJob s (ponyJob s slice 0x21) (doVred s slice errs)))

/-- VSUM (R229). -/
def execVsum (slice : Nat) (errs : List MemErr) (s : State) : Host.Outcome State Fault Refusal :=
  .next (whenLive s (gateJob s (ponyJob s slice 0x22) (doVsum s slice errs)))

/-- VGEN (R236). -/
def execVgen (slice : Nat) (badTable : List Nat) (s : State) : Host.Outcome State Fault Refusal :=
  .next (whenLive s (gateJob s (ponyJob s slice 0x23) (doVgen s slice badTable)))

/-- MULE_RUN (R291). -/
def execMuleRun (core : Nat) (s : State) : Host.Outcome State Fault Refusal :=
  .next (whenLive s (gateJob s ((coreRun s core).map (·.2)) (doMuleRun s core)))

/-- LD (R280). -/
def execLd (core : Nat) (ev : MuleEv) (s : State) : Host.Outcome State Fault Refusal :=
  .next (whenLive s (gateScalar s core 0x05 8 false (doLoad s core 0x05 8 ev setI)))

/-- ST (R280). -/
def execSt (core : Nat) (ev : MuleEv) (s : State) : Host.Outcome State Fault Refusal :=
  .next (whenLive s (gateScalar s core 0x06 8 true (doStore s core 0x06 8 ev iReg)))

/-- LDW (R280). -/
def execLdw (core : Nat) (ev : MuleEv) (s : State) : Host.Outcome State Fault Refusal :=
  .next (whenLive s (gateScalar s core 0x07 4 false (doLoad s core 0x07 4 ev (fun c d v => setI c d (unsgn 64 (sgn 32 v))))))

/-- LDWU (R280). -/
def execLdwu (core : Nat) (ev : MuleEv) (s : State) : Host.Outcome State Fault Refusal :=
  .next (whenLive s (gateScalar s core 0x08 4 false (doLoad s core 0x08 4 ev (fun c d v => setI c d (v % 2 ^ 32)))))

/-- STW (R280). -/
def execStw (core : Nat) (ev : MuleEv) (s : State) : Host.Outcome State Fault Refusal :=
  .next (whenLive s (gateScalar s core 0x09 4 true (doStore s core 0x09 4 ev iReg)))

/-- FLD (R280). -/
def execFld (core : Nat) (ev : MuleEv) (s : State) : Host.Outcome State Fault Refusal :=
  .next (whenLive s (gateScalar s core 0x0A 8 false (doLoad s core 0x0A 8 ev setF)))

/-- FST (R280). -/
def execFst (core : Nat) (ev : MuleEv) (s : State) : Host.Outcome State Fault Refusal :=
  .next (whenLive s (gateScalar s core 0x0B 8 true (doStore s core 0x0B 8 ev fReg)))

/-- VLD64 (R282). -/
def execVld64 (core : Nat) (ev : MuleEv) (s : State) : Host.Outcome State Fault Refusal :=
  .next (whenLive s (gateVector s core 0x30 64 false (doVmem s core 0x30 64 true ev)))

/-- VLD32 (R282). -/
def execVld32 (core : Nat) (ev : MuleEv) (s : State) : Host.Outcome State Fault Refusal :=
  .next (whenLive s (gateVector s core 0x31 32 false (doVmem s core 0x31 32 true ev)))

/-- VLD16 (R282). -/
def execVld16 (core : Nat) (ev : MuleEv) (s : State) : Host.Outcome State Fault Refusal :=
  .next (whenLive s (gateVector s core 0x32 16 false (doVmem s core 0x32 16 true ev)))

/-- VST64 (R282). -/
def execVst64 (core : Nat) (ev : MuleEv) (s : State) : Host.Outcome State Fault Refusal :=
  .next (whenLive s (gateVector s core 0x33 64 true (doVmem s core 0x33 64 false ev)))

/-- VST32 (R282). -/
def execVst32 (core : Nat) (ev : MuleEv) (s : State) : Host.Outcome State Fault Refusal :=
  .next (whenLive s (gateVector s core 0x34 32 true (doVmem s core 0x34 32 false ev)))

/-- VST16 (R282). -/
def execVst16 (core : Nat) (ev : MuleEv) (s : State) : Host.Outcome State Fault Refusal :=
  .next (whenLive s (gateVector s core 0x35 16 true (doVmem s core 0x35 16 false ev)))

/-- SOLVE_SETUP_CREATE (R321). -/
def execSolveSetupCreate (u : Nat) (s : State) : Host.Outcome State Fault Refusal :=
  .next (whenLive s (gateJob s (solvJob s u 0x33) (doSetupCreate s u)))

/-- SOLVE_SETUP_MEASURE (R324). -/
def execSolveSetupMeasure (u : Nat) (s : State) : Host.Outcome State Fault Refusal :=
  .next (whenLive s (gateJob s (solvJob s u 0x33) (doSetupMeasure s u)))

/-- SOLVE_UPD (R331). -/
def execSolveUpd (u : Nat) (se : StructErr) (s : State) : Host.Outcome State Fault Refusal :=
  .next (whenLive s (gateJob s (solvJob s u 0x32) (doSolveUpd s u se)))

/-- FACTOR (R340). -/
def execFactor (u : Nat) (se : StructErr) (s : State) : Host.Outcome State Fault Refusal :=
  .next (whenLive s (gateSolve s u 0 (doSolve s u se 0)))

/-- DIRECT (R340). -/
def execDirect (u : Nat) (se : StructErr) (s : State) : Host.Outcome State Fault Refusal :=
  .next (whenLive s (gateSolve s u 1 (doSolve s u se 1)))

/-- REFINE (R342). -/
def execRefine (u : Nat) (se : StructErr) (s : State) : Host.Outcome State Fault Refusal :=
  .next (whenLive s (gateSolve s u 2 (doSolve s u se 2)))

/-- CG (R342). -/
def execCg (u : Nat) (se : StructErr) (s : State) : Host.Outcome State Fault Refusal :=
  .next (whenLive s (gateSolve s u 3 (doSolve s u se 3)))

/-- BICGSTAB (R342). -/
def execBicgstab (u : Nat) (se : StructErr) (s : State) : Host.Outcome State Fault Refusal :=
  .next (whenLive s (gateSolve s u 4 (doSolve s u se 4)))

/-- PIECE_COMBINE (R541). -/
def execPieceCombine (slot : Nat) (c : Combining) (s : State) : Host.Outcome State Fault Refusal :=
  .next (whenLive s (gateOp s slot (doPieceCombine s slot c.piece c.struck)))

/-- RESULT_PIECE (R542). -/
def execResultPiece (m : CollMsg) (s : State) : Host.Outcome State Fault Refusal :=
  .next (whenLive s (gateOp s ((opSlot s m.key).getD 64) (doResultPiece s m)))

end Sys2Proof.Machine
end

