-- ==== Sys2Proof/Machine/Power.lean ====
section
/-! DEFINITION. Power groups, grants, energy estimates, clocks, protection (chapter 16). -/

namespace Sys2Proof.Machine

/-! Constants (Tables 16.1, 16.2, 16.9). -/

/-- The power groups, g from 0 to 10. -/
def pwrGroups : List Nat := List.range 11

/-- A group's maximum in W (Table 16.2, R18). -/
def grpMax (g : Nat) : Nat := [300, 160, 45, 170, 10, 45, 175, 70, 60, 15, 10].getD g 0

/-- Commands are charged to the group (Table 16.2). -/
def grpCharged (g : Nat) : Bool := g ≤ 5 || g == 7

/-- The grade maximum of the limit in W (CAPS0.lim_max). -/
def limMax (s : State) : Nat := if s.part.mGrade then 0x3B6 else 0x4B0

/-- The least limit in W (CAPS0.lim_min). -/
def limMin : Nat := 0x258

/-- The least frequency of a domain in MHz: 0 and 1 ox_clk of the accelerator dies, 2 mule_clk (Table 16.1). -/
def domMin (d : Nat) : Nat := if d = 2 then 500 else 400

/-- The grade ceiling of a domain in MHz (CAPS1). -/
def domMax (s : State) (d : Nat) : Nat :=
  if d = 2 then (if s.part.mGrade then 1800 else 2000) else if s.part.mGrade then 1300 else 1500

/-! Registers. -/

/-- A power group. -/
def pwrGrp (s : State) (g : Nat) : PwrGrp := tabGet {} s.pwr.groups g

/-- The state with a power group changed. -/
def modGrp (s : State) (g : Nat) (f : PwrGrp → PwrGrp) : State := { s with pwr := { s.pwr with groups := tabMod {} s.pwr.groups g f } }

/-- A clock domain. -/
def pwrDom (s : State) (d : Nat) : PwrDom := tabGet {} s.pwr.doms d

/-- The state with a clock domain changed. -/
def modDom (s : State) (d : Nat) (f : PwrDom → PwrDom) : State := { s with pwr := { s.pwr with doms := tabMod {} s.pwr.doms d f } }

/-- PWR.LIMIT. -/
def pwrLimit (s : State) : Nat := bits (regWord s .pwr 0 0x100 (limMax s)) 0 11

/-- A group's ceiling in W, in force. -/
def grpCeil (s : State) (g : Nat) : Nat := (pwrGrp s g).ceilIn.getD (grpMax g)

/-- A domain's policy floor in MHz. -/
def domFloor (s : State) (d : Nat) : Nat := max ((pwrDom s d).floor.getD (domMin d)) (domMin d)

/-- A domain's policy ceiling in MHz, within the grade ceiling and the domain's range (R648). -/
def domCeil (s : State) (d : Nat) : Nat := max (min ((pwrDom s d).ceil.getD (domMax s d)) (domMax s d)) (domMin d)

/-- A domain's frequency in force in MHz (CLK_STAT). -/
def domMhz (s : State) (d : Nat) : Nat := (pwrDom s d).mhz.getD (domMin d)

/-- PWR.THERM.target. -/
def thermTarget (s : State) : Nat := bits (regWord s .pwr 0 0x134 0x5F) 0 7

/-- PWR.BORROW. -/
def pwrBorrow (s : State) : Nat := bits (regWord s .pwr 0 0x124 4) 0 4

/-! Energy estimates and issue (16.4). -/

/-- The tenant address lies in scratchpad. -/
def inScratch (s : State) (t va : Nat) : Bool := (spadOf (localOf s t va)).isSome

/-- A source or destination of a Drake command lies in scratchpad (Table 16.3). -/
def drakeScratch (s : State) (t : Nat) (c : Cmd) : Bool :=
  match cOp c with
  | 0x43 => (List.range (pfCount c)).any (fun i => inScratch s t (mvSrc (pfMove c i)).base || inScratch s t (mvDst (pfMove c i)).base)
  | 0x44 => inScratch s t (if zMode c = 0 then (zDst c).base else zAddr c)
  | _ => inScratch s t (mvSrc c).base || inScratch s t (mvDst c).base

/-- The group whose default estimate a command takes (R658): that of its opcode, OX for array work. [DEDUCED, log 60] -/
def estGroup (s : State) (t : Nat) (c : Cmd) : Nat :=
  let op := cOp c
  if op ≤ 0x07 then 4
  else if op ≤ 0x12 then 0
  else if op ≤ 0x23 then 2
  else if op ≤ 0x33 then 3
  else if op ≤ 0x44 then (if drakeScratch s t c then 1 else 5)
  else 7

/-- A command's estimate in nJ: its energy field, or the default where that is 0 (R658). -/
def estimate (s : State) (t : Nat) (c : Cmd) : Nat := if cEnergy c = 0 then (pwrGrp s (estGroup s t c)).defEst else cEnergy c

/-- A command's charges: group and nJ (Table 16.3, R657). -/
def charges (s : State) (t : Nat) (c : Cmd) : List (Nat × Nat) :=
  let e := estimate s t c
  if estGroup s t c = 0 then [(0, 15 * e / 23), (1, e - 15 * e / 23)] else [(estGroup s t c, e)]

/-- A group's window energy W_g in nJ (R657). -/
def winEnergy (s : State) (g : Nat) : Nat := (pwrGrp s g).grant * 10000

/-- B_g: what a command may borrow (R659). -/
def borrowOf (s : State) (g : Nat) : Nat := winEnergy s g * s.pwr.borrow / 16

/-- R659, R660: one charge fits its group's balance. [DEDUCED, log 60] -/
def chargeFits (s : State) (c : Nat × Nat) : Bool :=
  let r := (pwrGrp s c.1).bal
  if winEnergy s c.1 + borrowOf s c.1 < c.2 then r == (winEnergy s c.1 : Int) else (c.2 : Int) ≤ r + (borrowOf s c.1 : Int)

/-- A ready front command that is marked first (R661): tenant, stream, command. [DEDUCED, log 94] -/
def markedFronts (s : State) : List (Nat × Nat × Cmd) :=
  (tenantNums s).flatMap (fun t => (List.range 8).filterMap (fun st =>
    if (stream s t st).hold.marked then (ready s t st).map (fun r => (t, st, r.1)) else none))

/-- Another command that is marked first is charged to one of the groups (R661). [DEDUCED, log 94] -/
def markBlocks (s : State) (t st : Nat) (cs : List (Nat × Nat)) : Bool :=
  (markedFronts s).any (fun m => !(m.1 == t && m.2.1 == st) && (charges s m.1 m.2.2).any (fun c => cs.any (fun d => d.1 == c.1)))

/-- A command may issue by its energy (R659 to R661). [DEDUCED, log 60] -/
def energyFits (s : State) (t st : Nat) (c : Cmd) : Bool :=
  let cs := charges s t c
  cs.all (chargeFits s) && !markBlocks s t st cs

/-- The estimates added to the demand of their groups (R654). -/
def addDemand (s : State) (cs : List (Nat × Nat)) : State := cs.foldl (fun x c => modGrp x c.1 (fun g => { g with demand := g.demand + c.2 })) s

/-- R659: the charges of a command that issues are taken from the balances. -/
def chargeAll (s : State) (t : Nat) (c : Cmd) : State :=
  let cs := charges s t c
  addDemand (cs.foldl (fun x c => modGrp x c.1 (fun g => { g with bal := g.bal - (c.2 : Int) })) s) cs

/-- R662: the cause of a hold for energy: thermal (3) where protection cut the grant of a group that the command does not fit. -/
def energyCause (s : State) (t : Nat) (c : Cmd) : Nat :=
  if (charges s t c).any (fun x => !chargeFits s x && (pwrGrp s x.1).cut) then 3 else 2

/-- R654, R661, R662: the front command of a stream is passed over for energy at `now`: once a window it joins the demand; in the fourth
window in a row it is marked first, where no other mark stands on a group of its own. [DEDUCED, log 60; DEDUCED, log 94] -/
def passEnergy (s : State) (t st now : Nat) (c : Cmd) : State :=
  let cause := energyCause s t c
  let h := (stream s t st).hold
  let s := passOver s t st now cause 0
  let s := perfAdd s .pwr 0 (if cause = 3 then 2 else 1) 1
  if h.eCount != 0 && h.eWin == s.pwr.win then s
  else
    let n := if h.eCount != 0 && h.eWin + 1 == s.pwr.win then h.eCount + 1 else 1
    let mark := decide (4 ≤ n) && !h.marked && !markBlocks s t st (charges s t c)
    let s := addDemand s (charges s t c)
    let s := modStream s t st (fun x => { x with hold := { x.hold with eWin := s.pwr.win, eCount := n, marked := h.marked || mark } })
    if mark then perfAdd s .pwr 0 3 1 else s

/-! Grants (16.3). -/

/-- The episode of a protection cause is open. -/
def epOpen (s : State) (cause : Nat) : Bool := s.pwr.eps.any (fun e => e.1 == cause)

/-- The groups on a core rail or die: 0 and 1 the accelerator dies, 2 the processor die, 3 the fabric die. -/
def dieGroups (d : Nat) : List Nat := if d ≤ 1 then [0, 1, 2] else if d = 2 then [3, 4] else [7]

/-- The floors scaled to fit a limit L (R656): the factor is (L − 140) / sum. -/
def floorAt (s : State) (l g : Nat) : Nat :=
  let sum := sumOf (pwrGroups.map (fun k => (pwrGrp s k).floorIn))
  if l < sum + 140 then (pwrGrp s g).floorIn * (l - 140) / sum else (pwrGrp s g).floorIn

/-- R656: the floors do not fit the limit. -/
def floorsShort (s : State) (l : Nat) : Bool := decide (l < sumOf (pwrGroups.map (fun k => (pwrGrp s k).floorIn)) + 140)

/-- base[g] of R654. [DEDUCED, log 60] -/
def baseOf (s : State) (l g draw : Nat) : Nat :=
  let b := min (min (floorAt s l g) (grpMax g)) (grpCeil s g)
  if grpCharged g then b else min (max draw b) (grpMax g)

/-- want[g] of R654: the demand in nJ over 10 µs, in W rounded up. [DEDUCED, log 60] -/
def wantOf (s : State) (l g draw : Nat) : Nat :=
  if grpCharged g then min (min (ceilDiv (pwrGrp s g).demand 10000) (grpMax g)) (grpCeil s g) - baseOf s l g draw else 0

/-- The grants of R654 where the bases exceed what the limit leaves by `short`: the wants share the shortage. Where nothing is wanted, or a
grant would fall below 0, the charged groups share it by their bases instead, so that R19 holds. [DESIGN CHOICE, log 99] -/
def shortGrants (base want : Nat → Nat) (short : Nat) : List Nat :=
  let w := sumOf (pwrGroups.map want)
  let c := sumOf ((pwrGroups.filter grpCharged).map base)
  if w != 0 && pwrGroups.all (fun g => ceilDiv (want g * short) w ≤ base g) then pwrGroups.map (fun g => base g - ceilDiv (want g * short) w)
  else pwrGroups.map (fun g => if grpCharged g then base g - ceilDiv (base g * short) c else base g)

/-- The grants of R654 for an effective limit. [DEDUCED, log 60] -/
def grantsFor (s : State) (l leak : Nat) (draw : Nat → Nat) : List Nat :=
  let base := fun g => baseOf s l g (draw g)
  let want := fun g => wantOf s l g (draw g)
  let need := leak + sumOf (pwrGroups.map base)
  let w := sumOf (pwrGroups.map want)
  if l < need then shortGrants base want (need - l)
  else pwrGroups.map (fun g => base g + (if l - need < w then want g * (l - need) / w else want g))

/-- Grants after the cuts of protection causes 1 and 2 (Table 16.6): halved on a rail above its current limit, cut to the floor on a hot
die. [DEDUCED, log 94] -/
def cutGrant (s : State) (l g x : Nat) : Nat :=
  let half := if s.pwr.eps.any (fun e => e.1 == 1 && (dieGroups e.2).contains g) then x / 2 else x
  if s.pwr.eps.any (fun e => e.1 == 2 && (dieGroups e.2).contains g) then min half (floorAt s l g) else half

/-- R677: in Lamb mode only LPDDR, HOST and MGMT are granted power. -/
def lambGrant (s : State) (g x : Nat) : Nat := if s.mgmt.lamb && !(g == 5 || g == 9 || g == 10) then 0 else x

/-- R672: the draw that BRAKE_N cannot reach: SERDES, LPDDR, HOST, MGMT and leakage. [DEDUCED, log 94] -/
def brakeSum (m : PowerMeas) : Nat := m.draw.getD 6 0 + m.draw.getD 5 0 + m.draw.getD 9 0 + m.draw.getD 10 0 + m.leakage

/-- The effective limit L: the programmed limit, or its half while BRAKE_N acts, not below what cannot be shed (R672). [DEDUCED, log 94] -/
def effLimit (s : State) (m : PowerMeas) : Nat := if epOpen s 3 then max (pwrLimit s / 2) (brakeSum m) else pwrLimit s

/-! Clocks (16.1, 16.5). -/

/-- The frequency that a domain has or is about to have. [DEDUCED, log 60] -/
def domDecided (s : State) (d : Nat) : Nat := (pwrDom s d).next.getD (domMhz s d)

/-- A frequency decided for a domain (R649). -/
def decide649 (s : State) (d f : Nat) : State := if f = domDecided s d then s else modDom s d (fun x => { x with next := some f })

/-- A protection cause holds a domain: a cap stands, or its die is hot. -/
def domHeld (s : State) (d : Nat) : Bool := (pwrDom s d).cap.isSome || s.pwr.eps.any (fun e => e.1 == 2 && e.2 == d)

/-- A domain's share of the grants in W (R665). -/
def domShare (s : State) (d : Nat) : Nat :=
  if d = 2 then (pwrGrp s 3).grant else ((pwrGrp s 0).grant + (pwrGrp s 1).grant + (pwrGrp s 2).grant) / 2

/-- R663: a charged group's draw exceeds its grant by more than a quarter. -/
def estLow (s : State) (g draw : Nat) : Bool := grpCharged g && decide ((pwrGrp s g).grant * 5 < draw * 4)

/-- R663, R665: the clock of a domain must fall. -/
def domDown (s : State) (m : PowerMeas) (d : Nat) : Bool :=
  decide (domShare s d * 105 < m.domain.getD d 0 * 100) || decide (thermTarget s < m.temps.getD d 0)
    || (dieGroups d).any (fun g => estLow s g (m.draw.getD g 0))

/-- R664, R665: the frequency of a domain after a boundary: adaptation within policy; under protection no rise, and a fall of 50 MHz on a
hot die. -/
def adaptTo (s : State) (m : PowerMeas) (d : Nat) : Nat :=
  let f := domDecided s d
  if domHeld s d then
    let hot := s.pwr.eps.any (fun e => e.1 == 2 && e.2 == d)
    min (max (if hot || domDown s m d then f - 50 else f) (domMin d)) ((pwrDom s d).cap.getD f)
  else if (pwrDom s d).pin then domCeil s d
  else
    let g := if domDown s m d then f - 50 else if m.domain.getD d 0 * 100 < domShare s d * 90 then f + 50 else f
    min (max g (domFloor s d)) (domCeil s d)

/-- The clocks of a boundary: held until PWR.CTRL.enable is set (R675), stopped in Lamb mode (R677). -/
def adaptClocks (s : State) (m : PowerMeas) : State :=
  if !s.pwr.enabled || s.mgmt.lamb then s else [0, 1, 2].foldl (fun x d => decide649 x d (adaptTo s m d)) s

/-- A group at a boundary: the new grant and its mark, the draw, the balance refilled (R659), the demand begun again. -/
def refill (g : PwrGrp) (grant draw : Nat) (cut : Bool) : PwrGrp :=
  { g with grant := grant, draw := draw, cut := cut, bal := min g.bal 0 + (grant * 10000 : Nat), demand := 0 }

/-- Cause 1 or 2 holds the grant of a group (Table 16.6). -/
def grpHeld (s : State) (g : Nat) : Bool := s.pwr.eps.any (fun e => (e.1 == 1 || e.1 == 2) && (dieGroups e.2).contains g)

/-- R25, R669: the floors and ceilings written take effect at a boundary, a group's once no protection cause holds its grant. -/
def latchGroups (s : State) : State :=
  pwrGroups.foldl (fun x g => if grpHeld s g then x else modGrp x g (fun y => { y with floorIn := y.floor, ceilIn := y.ceil })) s

/-- R654, R659, R663, R665: a 10 µs boundary. -/
def doGrantBoundary (s : State) (m : PowerMeas) : State :=
  let s := latchGroups s
  let draw := fun g => m.draw.getD g 0
  let l := effLimit s m
  let free := grantsFor s (pwrLimit s) m.leakage draw
  let cut := (pwrGroups.zip (grantsFor s l m.leakage draw)).map (fun e => lambGrant s e.1 (cutGrant s l e.1 e.2))
  let low := pwrGroups.any (fun g => estLow s g (draw g))
  let pkg := sumOf (pwrGroups.map draw) + m.leakage
  let c := adaptClocks s m
  let c := pwrGroups.foldl (fun x g => modGrp x g (fun y => refill y (cut.getD g 0) (draw g) (decide (cut.getD g 0 < free.getD g 0)))) c
  let c := { c with
    arbs := c.arbs.map (fun a => (a.1, { a.2 with accs := [], total := 0 })),
    pwr := { c.pwr with
      borrow := pwrBorrow s, temps := (List.range 4).map (fun d => m.temps.getD d 0), pkg := pkg * 8, leak := m.leakage * 8, limEff := l,
      floorScaled := floorsShort s l, brakeShort := epOpen s 3 && decide (pwrLimit s / 2 < brakeSum m),
      mj := (s.pwr.mj + pkg) % 100, win := s.pwr.win + 1 } }
  let c := latchPolicies (perfAdd (perfAdd c .pwr 0 0 1) .pwr 0 7 ((s.pwr.mj + pkg) / 100))
  if low then raiseEvent c .pwr 0 6 else c

/-- R649: a frequency change reaches its switch edge. -/
def doClockSwitch (s : State) (d : Nat) : State :=
  match (pwrDom s d).next with
  | some f => perfAdd (modDom s d (fun x => { x with mhz := some f, next := none })) .pwr 0 (if d = 2 then 5 else 4) 1
  | none => s

/-! Policy writes (R4, R648, R655). -/

/-- A policy write that is ignored: PWR.EVENT.refused and ERR_STATUS. [DEDUCED, log 61] -/
def policyRefused (s : State) (off : Nat) : State := regError (raiseEvent s .pwr 0 7) .pwr 0 off

/-- R4: a write of PWR.LIMIT. [DEDUCED, log 61] -/
def setLimit (s : State) (v : Nat) : State :=
  let w := bits v 0 11
  if limMin ≤ w && w ≤ limMax s then setRegWord s .pwr 0 0x100 w else policyRefused s 0x100

/-- The group that GRP_IDX selects. -/
def grpIdx (s : State) : Nat := bits (regWord s .pwr 0 0x110 0) 0 4

/-- The domain that CLK_IDX selects. -/
def clkIdx (s : State) : Nat := bits (regWord s .pwr 0 0x128 0) 0 2

/-- R655: a write of PWR.GRP_POL. [DEDUCED, log 61] -/
def setGrpPol (s : State) (v : Nat) : State :=
  let g := grpIdx s
  let others := sumOf ((pwrGroups.filter (· != g)).map (fun k => (pwrGrp s k).floor))
  if pwrLimit s < others + bits v 0 9 + 140 then policyRefused s 0x114
  else modGrp s g (fun x => { x with floor := bits v 0 9, ceil := some (bits v 16 9) })

/-- R648, Table 16.8: a write of PWR.CLK_POL. [DEDUCED, log 61] -/
def setClkPol (s : State) (v : Nat) : State :=
  let d := clkIdx s
  let lo := bits v 0 12
  let hi := bits v 16 12
  if hi < lo || lo % 50 != 0 || hi % 50 != 0 then policyRefused s 0x12C
  else modDom s d (fun x => { x with floor := some lo, ceil := some hi, pin := bitAt v 28 })

/-! Protection (R666 to R672). -/

/-- R673: the node drives ALERT_N low. -/
def alertLow (s : State) : Bool := (page s .pwr 0).event &&& (page s .pwr 0).eventEn != 0

/-- R671: the node drives TRIP_N low. -/
def tripLow (s : State) : Bool := s.mgmt.tripped

/-- An override episode begins, unless the cause has one open already for this rail, die, port or link (R668). -/
def beginEpisode (s : State) (cause who : Nat) : State :=
  if s.pwr.eps.contains (cause, who) then s
  else
    let s' := { s with pwr := { s.pwr with eps := s.pwr.eps ++ [(cause, who)] } }
    if epOpen s cause then s' else raiseEvent s' .pwr 0 0

/-- A cap of protection on a domain and the fall to it. -/
def capDom (s : State) (d f : Nat) : State :=
  if !s.pwr.enabled || s.mgmt.lamb then s
  else
    let f := max f (domMin d)
    let s := modDom s d (fun x => { x with cap := some (min f (x.cap.getD f)) })
    if f < domDecided s d then decide649 s d f else s

/-- Table 16.6, cause 1: a core rail is above its current limit: every ox_clk and mule_clk falls 200 MHz. -/
def doCurrentLimit (s : State) (rail : Nat) : State :=
  if 4 ≤ rail then s
  else
    let first := !s.pwr.eps.contains (1, rail)
    let s := raiseEvent (beginEpisode s 1 rail) .pwr 0 4
    if first then [0, 1, 2].foldl (fun x d => capDom x d (domDecided s d - 200)) s else s

/-- The hottest reading of a die noted. -/
def noteTemp (s : State) (die temp : Nat) : State := { s with pwr := { s.pwr with temps := listSet s.pwr.temps die temp } }

/-- Table 16.6, cause 2: a die sensor reaches 105 °C. -/
def doThermWarn (s : State) (die temp : Nat) : State :=
  if 4 ≤ die || temp < 105 then s else raiseEvent (beginEpisode (noteTemp s die temp) 2 die) .pwr 0 2

/-- R672: BRAKE_N counts as asserted: both clocks fall to half, rounded down to a step. -/
def doBrake (s : State) : State :=
  let s := raiseEvent (beginEpisode s 3 0) .pwr 0 1
  [0, 1, 2].foldl (fun x d => capDom x d (domDecided s d / 2 / 50 * 50)) s

/-- R671: the trip: every clock but mgmt_clk stops; only a power-on reset ends it. [DEDUCED, log 80] -/
def doTrip (s : State) (die : Nat) : State :=
  if 4 ≤ die then s else { s with mgmt := { s.mgmt with tripped := true } }

/-- A port is at rate code 3, or a rank of it has refreshes postponed (R371, R374, cause 4). -/
def refreshHeld (s : State) : Bool := s.ports.any (fun p => p.2.rate == 3 || p.2.post0 != 0 || p.2.post1 != 0)

/-- Caps that an ended cause no longer holds. -/
def liftCaps (s : State) : State :=
  if epOpen s 1 || epOpen s 3 then s else [0, 1, 2].foldl (fun x d => modDom x d (fun y => { y with cap := none })) s

/-- The episodes of a cause end after `us` µs: the OVERRIDE entry, the times, the notice (R666). -/
def endEpisode (s : State) (cause us : Nat) : State :=
  let s := { s with pwr := { s.pwr with
    eps := s.pwr.eps.filter (fun e => e.1 != cause), ovrTime := tabMod 0 s.pwr.ovrTime cause (· + BitVec.ofNat 64 us), ovrLast := cause } }
  emit (ledgerDrain 4 (overrideEntry (perfAdd (liftCaps s) .pwr 0 6 us) cause us)) (.notice 2 [cause, us])

/-- R666: a cause has been clear for its hysteresis. Cause 4 is clear once no port is at rate code 3 and no refresh is postponed; causes
5 and 7 end in Lamb mode; cause 6 ends by its link (R498). -/
def doEpisodeEnd (s : State) (cause us : Nat) : State :=
  if !(1 ≤ cause && cause ≤ 4) || !epOpen s cause || (cause == 4 && refreshHeld s) then s else endEpisode s cause us

/-! The steps. -/

/-- GRANT_BOUNDARY (R654). -/
def execGrantBoundary (meas : PowerMeas) (s : State) : Host.Outcome State Fault Refusal := .next (whenLive s (doGrantBoundary s meas))

/-- CLOCK_SWITCH (R649). -/
def execClockSwitch (domain : Nat) (s : State) : Host.Outcome State Fault Refusal := .next (whenLive s (doClockSwitch s domain))

/-- LIMIT_WRITE (R4). -/
def execLimitWrite (r : Requester) (value : Nat) (s : State) : Host.Outcome State Fault Refusal :=
  .next (whenLive s (regAccess s r .pwr 0 0x100 (!isVf r) (fun s => setLimit s value)))

/-- GRP_POL_WRITE (R655). -/
def execGrpPolWrite (r : Requester) (value : Nat) (s : State) : Host.Outcome State Fault Refusal :=
  .next (whenLive s (regAccess s r .pwr 0 0x114 (!isVf r) (fun s => setGrpPol s value)))

/-- CLK_POL_WRITE (R648). -/
def execClkPolWrite (r : Requester) (value : Nat) (s : State) : Host.Outcome State Fault Refusal :=
  .next (whenLive s (regAccess s r .pwr 0 0x12C (!isVf r) (fun s => setClkPol s value)))

/-- CURRENT_LIMIT (R666). -/
def execCurrentLimit (rail : Nat) (s : State) : Host.Outcome State Fault Refusal := .next (whenLive s (doCurrentLimit s rail))

/-- THERM_WARN (R666). -/
def execThermWarn (die temp : Nat) (s : State) : Host.Outcome State Fault Refusal := .next (whenLive s (doThermWarn s die temp))

/-- THERMAL_TRIP (R671). -/
def execThermalTrip (die : Nat) (s : State) : Host.Outcome State Fault Refusal := .next (whenLive s (doTrip s die))

/-- BRAKE_ASSERT (R672). -/
def execBrakeAssert (s : State) : Host.Outcome State Fault Refusal := .next (whenLive s (doBrake s))

/-- OVERRIDE_EPISODE_END (R666). -/
def execOverrideEpisodeEnd (cause us : Nat) (s : State) : Host.Outcome State Fault Refusal := .next (whenLive s (doEpisodeEnd s cause us))

end Sys2Proof.Machine
end

