-- ==== Sys2Proof/Machine/Hen.lean ====
section
/-! DEFINITION. Checkpoint and restore: the Hen engine (chapter 17). -/

namespace Sys2Proof.Machine

/-- The state with the Hen engine changed. -/
def modHen (s : State) (f : Hen → Hen) : State := { s with hen := f s.hen }

/-- The engine works: READY, and not in Lamb mode (R704). -/
def henOn (s : State) : Bool := blkReady s .hen 0 && !s.mgmt.lamb

/-- HEN.EPOCH. -/
def henEpoch (s : State) : Nat := (page s .hen 0).epoch.toNat

/-- A slot of a tenant. -/
def slotOf (s : State) (t k : Nat) : Slot := if k = 0 then (henTen s t).slot0 else (henTen s t).slot1

/-- The state with a slot of a tenant changed. -/
def modSlot (s : State) (t k : Nat) (f : Slot → Slot) : State :=
  modHenTen s t (fun h => if k = 0 then { h with slot0 := f h.slot0 } else { h with slot1 := f h.slot1 })

/-- The slot that does not hold the tenant's newest complete cut (R687). -/
def otherSlot (s : State) (t : Nat) : Nat := if (henTen s t).newest = some 0 then 1 else 0

/-- The bytes of a slot (R681). -/
def slotBytes (s : State) (t : Nat) : Nat := (henTen s t).copySize * 2 ^ 21

/-- The bytes of a wide register of the HEN page, in address order. -/
def henRegBytes (s : State) (off words : Nat) : List Byte := (List.range words).flatMap (fun i => leBytes 4 (regWord s .hen 0 (off + 4 * i) 0))

/-- A cut of the tenant is copying. -/
def cutOf (s : State) (t : Nat) : Option Cutting := s.hen.cuts.find? (fun c => c.tenant == t)

/-- R687: the tenant's checkpoint timer counts from the last management tick. -/
def restartTimer (s : State) (t : Nat) : State := modHenTen s t (fun h => { h with base := s.mgmt.ticks })

/-! Set tables (R680, R683). -/

/-- Table 17.1: an entry of 32 bytes whose reserved bits are zero and whose fields are in range. [DEDUCED, log 63] -/
def setEntryOk (e : Nat) : Bool :=
  bits e 8 56 == 0 && bits e 112 16 == 0 && bits e 176 16 == 0 && bits e 192 64 == 0
    && (if bitAt e 1 then bits e 64 48 == 0 && bits e 128 48 == 0
        else bits e 64 12 == 0 && bits e 128 12 == 0 && bits e 128 48 != 0)

/-- The entries of a set table from an address on, at most `n`; none where the table breaks Table 17.1 or cannot be read. [DEDUCED, log 63] -/
def setTable (s : State) (t : Nat) : Nat → Nat → Option (List CutEntry)
  | 0, _ => some []
  | n + 1, a =>
    if !usable s t a 32 false || tPoison s t a 32 then none
    else
      let e := tNat s t a 32
      if !bitAt e 0 then some []
      else if !setEntryOk e then none
      else (setTable s t n (a + 32)).map (fun l =>
        { kind := b2n (bitAt e 1), unit := bits e 2 2, sys := bits e 4 4, addr := bits e 64 48, bytes := bits e 128 48 } :: l)

/-- R683: an entry with its system, where it names one, and its chunks. [DESIGN CHOICE, log 66] -/
def fillEntry (s : State) (t : Nat) (e : CutEntry) : CutEntry :=
  if e.kind = 0 then { e with chunks := e.bytes / 4096 }
  else match sysAt s e.unit e.sys with
    | some y => if y.tenant == t && !y.failed then
        { e with addr := y.farea, granules := y.granules, fpages := y.fpages, setup := setupRecord y, chunks := 16 * y.granules + y.fpages,
                 snap := some y }
      else e
    | none => e

/-- R683: the entries with their first chunks numbered from `c`. -/
def numberEntries : Nat → List CutEntry → List CutEntry
  | _, [] => []
  | c, e :: es => { e with first := c } :: numberEntries (c + e.chunks) es

/-- The tenant pages of an entry's ranges. -/
def entryMapped (s : State) (t : Nat) (e : CutEntry) (w : Bool) : Bool :=
  if e.kind = 0 then mapped s t e.addr e.bytes w else e.fpages == 0 || lpddrXlated s t e.addr (4096 * e.fpages) w

/-- What the checks of a cut find: its entries, or the code of R686. -/
inductive CutPlan where
  | fails (code : Nat)
  | takes (es : List CutEntry)
deriving DecidableEq, Repr

/-- R686: the checks of a triggered cut, in the order of their codes. [DEDUCED, log 63] -/
def cutPlan (s : State) (t : Nat) : CutPlan :=
  match setTable s t 64 (henTen s t).setAddr with
  | none => .fails 1
  | some raw =>
    let es := numberEntries 0 (raw.map (fillEntry s t))
    let n := sumOf (es.map (·.chunks))
    if raw.isEmpty then .fails 1
    else if es.any (fun e => e.kind == 1 && e.snap.isNone) then
      (if es.any (fun e => e.kind == 0 && !entryMapped s t e false) then .fails 2 else .fails 3)
    else if !es.all (fun e => entryMapped s t e false) then .fails 2
    else if slotBytes s t < (manifestPages es.length n + n) * 4096 then .fails 4
    else if 2 ^ 32 ≤ n then .fails 5
    else .takes es

/-- R683: the pages of an entry's chunks: local pages, or granule pages of entry `k`. -/
def entryPages (s : State) (t k : Nat) (e : CutEntry) : List Nat :=
  let pagesAt := fun a n => (pagesOf a n).map (fun p => localOf s t (p * 4096) / 4096)
  if e.kind = 0 then pagesAt e.addr e.bytes
  else (natsFrom (2 ^ 28 + k * 2 ^ 20) (16 * e.granules)) ++ pagesAt e.addr (4096 * e.fpages)

/-- The entries of a set table that are read, the one that ends it included. -/
def tableReach (s : State) (t : Nat) : Nat → Nat → Nat
  | 0, _ => 0
  | n + 1, a => if usable s t a 32 false && bitAt (tNat s t a 32) 0 then 1 + tableReach s t n (a + 32) else 1

/-- The set table of a tenant read: the errors in it are met (R378). -/
def tableRead (s : State) (t : Nat) : State :=
  readNow s (spansHave s t [some ((henTen s t).setAddr, 32 * tableReach s t 64 (henTen s t).setAddr)])

/-! Deciding and beginning a cut (R684 to R687). -/

/-- R684: the step that closes is a cut: a CUT pends, or a trigger has been reached, the closing step counted. [DEDUCED, log 62] -/
def cutTriggered (s : State) (t : Nat) : Bool :=
  let h := henTen s t
  h.setValid && (h.trig || (ten s t).cutPend || (h.steps != 0 && h.steps ≤ h.since + 1) || (h.secs != 0 && h.base + 1000 * h.secs ≤ s.mgmt.ticks))

/-- R687: the triggers of a tenant cleared. -/
def clearTriggers (s : State) (t : Nat) : State :=
  restartTimer (modHenTen (modTen s t (fun x => { x with cutPend := false })) t (fun h => { h with trig := false, since := 0 })) t

/-- R686: a triggered cut fails. [DEDUCED, log 63] -/
def cutFails (s : State) (t code : Nat) : State :=
  raiseEvent (modHenTen (clearTriggers s t) t (fun h => { h with failCode := code })) .hen 0 2

/-- The cuts that have been decided and begin when their STEP entry is written (R687). -/
def cutsDecided (s : State) : Nat := (s.hen.tens.filter (fun e => e.2.decided && (stream s e.1 0).inStep)).length

/-- R684 to R686: the decision when the waits of the stream-0 STEP are met; true where the step is a cut. A cut that is decided and waits
for the ledger counts among the four that may copy. [DEDUCED, log 62] -/
def cutDecide (s : State) (t : Nat) : State × Bool :=
  let s := if (henTen s t).decided then modHenTen s t (fun h => { h with decided := false }) else s
  if !henOn s || !cutTriggered s t then (s, false)
  else if (cutOf s t).isSome || (slotOf s t (otherSlot s t)).hostLock || 4 ≤ s.hen.cuts.length + cutsDecided s then
    (raiseEvent (modHenTen s t (fun h => { h with trig := true })) .hen 0 1, false)
  else
    let s := tableRead s t
    match cutPlan s t with
    | .fails code => (cutFails s t code, false)
    | .takes _ => (modHenTen s t (fun h => { h with decided := true }), true)

/-- R687: a cut at the close of step `c` begins, the tenant's current step having advanced. [DEDUCED, log 62] -/
def cutBegin (s : State) (t : Nat) (c : W64) : State :=
  match cutPlan s t with
  | .fails code => cutFails s t code
  | .takes es =>
    let k := otherSlot s t
    let pages := es.zipIdx.flatMap (fun p => entryPages s t p.2 p.1)
    let x := ten s t
    let cut : Cutting := {
      tenant := t, cut := (henTen s t).next, step := c, slot := k, entries := es, pages := pages, left := List.range pages.length,
      tokens := x.tokens, tokenErr := x.tokenErr, sums := x.sums.filter (fun e => e.1 < 15), seed := x.seed, replay := x.replay }
    let s := clearTriggers (modSlot s t k (fun _ => { cut := cut.cut, step := c })) t
    modHen (modHenTen s t (fun h => { h with next := h.next + 1 })) (fun h => { h with cuts := h.cuts ++ [cut] })

/-- What the close of step `c` does in Hen: the step is counted, and a cut that was decided begins (R684, R687). The mark of a CUT, which
is for the step that closes (R69), ends with it unless the cut is postponed (R685). [DEDUCED, log 62] -/
def henStepClosed (s : State) (t : Nat) (c : W64) : State :=
  let d := (henTen s t).decided
  let s := modHenTen s t (fun h => { h with since := h.since + 1, decided := false })
  if d then cutBegin s t c else if (henTen s t).trig then s else modTen s t (fun x => { x with cutPend := false })

/-! The manifest (R692). -/

/-- Table 17.3: the record of an entry of a cut. -/
def entryRecord (c : Cutting) (e : CutEntry) : List Byte :=
  let bad := c.bad.any (fun i => e.first ≤ i && i < e.first + e.chunks)
  leBytes 8 (e.kind + e.unit * 4 + e.sys * 16 + b2n bad * 256) ++ leBytes 8 e.addr
    ++ leBytes 8 (if e.kind = 0 then e.bytes else e.granules + e.fpages * 2 ^ 32) ++ leBytes 8 (e.first + e.chunks * 2 ^ 32)
    ++ (if e.kind = 0 then List.replicate 32 0 else e.setup)

/-- Table 17.2: the header of a manifest. -/
def manifestHead (s : State) (c : Cutting) : List Byte :=
  leBytes 8 (0x01 + c.entries.length * 2 ^ 8 + c.tenant * 2 ^ 16 + b2n (!c.bad.isEmpty) * 2 ^ 28)
    ++ leBytes 8 c.cut.toNat ++ leBytes 8 c.step.toNat ++ fprintBytes s ++ leBytes 8 c.seed.toNat ++ leBytes 8 (b2n c.replay)
    ++ leBytes 8 c.pages.length ++ leBytes 8 (nodeNum s) ++ leBytes 8 c.tokenErr.toNat
    ++ (List.range 15).flatMap (fun i => leBytes 8 (tabGet 0 c.sums i).toNat) ++ List.replicate 56 0
    ++ (List.range 64).flatMap (fun i => leBytes 4 (tabGet 0 c.tokens i).toNat) ++ List.replicate 512 0

/-- R692: the whole manifest. -/
def manifestOf (s : State) (c : Cutting) : List Byte :=
  manifestHead s c ++ c.entries.flatMap (entryRecord c)
    ++ (List.range c.pages.length).flatMap (fun i => beBytes 32 (tabGet 0 c.hashes i))

/-- Bytes written by Hen from a page on, padded with zeros to whole pages. -/
def henWrite (s : State) (dst : Nat) (bs : List Byte) : State :=
  (List.range (ceilDiv bs.length 4096)).foldl (fun x k => henPage x (dst + 4096 * k) ((bs.drop (4096 * k)).take 4096) []) s

/-- What the manifest at the start of a slot or place says, read as far as its header lets it be found. -/
structure Manifest where
  bytes : List Byte
  entries : Nat
  chunks : Nat
deriving DecidableEq, Repr

/-- The manifest that bytes hold: version 1, 1 to 64 entries, and exactly its length. -/
def parseManifest (bs : List Byte) : Option Manifest :=
  let h := leNat (bs.take 8)
  let e := bits h 8 8
  let c := leNat ((bs.drop 56).take 8)
  if bits h 0 8 == 1 && 1 ≤ e && e ≤ 64 && manifestBytes e c ≤ bs.length then
    some { bytes := bs.take (manifestBytes e c), entries := e, chunks := c }
  else none

/-- The manifest in memory at the start of a slot or place of `size` bytes. -/
def readManifest (s : State) (base size : Nat) : Option Manifest :=
  let e := bits (memNat s base 8) 8 8
  let c := memNat s (base + 56) 8
  if size < (manifestPages e c + c) * 4096 then none else parseManifest (memBytes s base (manifestBytes e c))

/-- The digest that a manifest gives for chunk `i`. -/
def chunkDigest (m : Manifest) (i : Nat) : List Byte := (m.bytes.drop (1024 + 64 * m.entries + 32 * i)).take 32

/-- The local address of chunk `i` behind a manifest. -/
def chunkAddr (base : Nat) (m : Manifest) (i : Nat) : Nat := base + (manifestPages m.entries m.chunks + i) * 4096

/-- Chunk `i` at a slot or place passes its check. -/
def chunkGood (s : State) (base : Nat) (m : Manifest) (i : Nat) : Bool := sha256 (memBytes s (chunkAddr base m i) 4096) == chunkDigest m i

/-- The lines of a page in memory that read as poison, by their place. -/
def pageBad (s : State) (a : Nat) : List Nat := (List.range 64).filter (fun j => linePoison s (a / 64 + j))

/-! Copying and completing (R688 to R691). -/

/-- R688: the lowest chunk left of a tenant's cut copied. -/
def doChunkCopy (s : State) (t : Nat) : State :=
  if !henOn s then s
  else match cutOf s t with
    | none => s
    | some c => match c.left with
      | [] => s
      | i :: _ => withdrawNew s (pageRead s (c.pages.getD i 0)) (copyChunk s c i)

/-- R691: a cut whose chunks are all copied completes. R693: a drain of an older cut of the tenant is abandoned for it. -/
def doCutComplete (s : State) (t : Nat) : State :=
  if !henOn s then s
  else match cutOf s t with
    | none => s
    | some c =>
      if !c.left.isEmpty then s
      else
        let m := manifestOf s c
        let dig := sha256 m
        let s := henWrite s (slotBase s t c.slot) m
        let s := modSlot s t c.slot (fun x => { x with
          complete := true, poison := !c.bad.isEmpty, buddy := false, cut := c.cut, step := c.step, digest := beNat dig, entries := c.entries })
        let s := modHenTen s t (fun h => { h with newest := some c.slot })
        let s := modHen s (fun h => { h with
          cuts := h.cuts.filter (fun x => x.tenant != t),
          drain := h.drain.map (fun d => if d.tenant = t then { tenant := t, slot := c.slot, cut := c.cut } else d) })
        let s := ledgerDue s { chain := t, typ := 4, step := c.step, body := leBytes 8 c.cut.toNat ++ dig ++ List.replicate 24 0 }
        perfAdd (raiseEvent s .hen 0 0) .hen 0 0 1

/-! Drains to the buddy (R693 to R695). -/

/-- The buddy's node and whether the drain is enabled. -/
def buddyNode (s : State) : Nat := bits (regWord s .hen 0 0x114 0) 0 20
/-- BUDDY.en. -/
def buddyEn (s : State) : Bool := bitAt (regWord s .hen 0 0x114 0) 20

/-- The tag by which a step names Hen's outstanding request, beyond the fabric agent's 16-bit tags. -/
def henTag : Nat := 65536

/-- The first tenant whose newest complete cut the buddy has not acknowledged. -/
def drainNext (s : State) : Option Drain :=
  (s.hen.tens.findSome? (fun e => match e.2.newest with
    | some k => if (slotOf s e.1 k).complete && !(slotOf s e.1 k).buddy then some { tenant := e.1, slot := k, cut := (slotOf s e.1 k).cut }
                else none
    | none => none))

/-- A message between Hen engines sent by port 101 and VC 7; the flow is the low bits of the chunk index (R693). -/
def sendHen (s : State) (dst : Nat) (op : HenOp) (m : HenMsg) : State :=
  sendMsg s { dst := dst, vc := 7, flow := (m.chunk - 1) % 2 ^ 16, msg := .hen op m }

/-- Part `k` of a cut at a slot or place read. -/
def partRead (s : State) (base size k : Nat) : State :=
  match readManifest s base size with
  | none => s
  | some m =>
    if k = 0 then (List.range (manifestPages m.entries m.chunks)).foldl (fun x i => pageRead x (base / 4096 + i)) s
    else pageRead s (chunkAddr base m (k - 1) / 4096)

/-- The message that carries part `k` of a cut at a slot or place: the manifest, or chunk k - 1. -/
def partMsg (s : State) (base size : Nat) (h : HenMsg) (k : Nat) : HenMsg :=
  match readManifest s base size with
  | none => { h with chunk := k }
  | some m =>
    if k = 0 then { h with chunk := 0, data := m.bytes }
    else { h with chunk := k, data := memBytes s (chunkAddr base m (k - 1)) 4096, bad := pageBad s (chunkAddr base m (k - 1)) }

/-- A blank message of this node's engine. -/
def henMsg (s : State) (origin tenant cut : Nat) : HenMsg :=
  { node := nodeNum s, origin := origin, tenant := tenant, cut := cut, copy := 0, chunk := 0, data := [], bad := [], refused := false,
    epoch := henEpoch s }

/-- Part `k` of the cut that a drain sends. HEN.PERF4 counts the bytes drained. -/
def sendDrainPart (s : State) (d : Drain) (k : Nat) : State :=
  let s := partRead s (slotBase s d.tenant d.slot) (slotBytes s d.tenant) k
  let h := henTen s d.tenant
  let m := partMsg s (slotBase s d.tenant d.slot) (slotBytes s d.tenant)
    { (henMsg s (nodeNum s) d.tenant d.cut.toNat) with copy := if k = 0 then h.copyOff + h.copySize * 2 ^ 24 else 0 } k
  perfAdd (sendHen s (buddyNode s) .chunk m) .hen 0 4 m.data.length

/-- The chunks of the cut in a slot. -/
def slotChunks (s : State) (t k : Nat) : Nat := ((readManifest s (slotBase s t k) (slotBytes s t)).map (·.chunks)).getD 0

/-- R693: the next part of the drain is sent; with none under way a tenant's newest complete cut starts. -/
def doDrainChunk (s : State) : State :=
  if !henOn s || !buddyEn s then s
  else match s.hen.drain.or (drainNext s) with
    | none => s
    | some d =>
      if d.failed || slotChunks s d.tenant d.slot < d.next then s
      else modHen (sendDrainPart s d d.next) (fun h => { h with drain := some { d with next := d.next + 1 } })

/-- R695: the drain under way fails and waits for its restart. -/
def drainFails (s : State) : State :=
  match s.hen.drain with
  | none => s
  | some d => if d.failed then s else raiseEvent (modHen s (fun h => { h with drain := some { d with failed := true } })) .hen 0 4

/-- The drain under way that a buddy's message answers: from the buddy, with the current epoch (R705). [DEDUCED, log 62] -/
def drainFor (s : State) (m : HenMsg) : Option Drain :=
  s.hen.drain.filter (fun d => m.node == buddyNode s && m.epoch == henEpoch s && m.tenant == d.tenant && m.cut == d.cut.toNat && !d.failed)

/-- R694, R695: the buddy has acknowledged the drained cut, or abandoned it. -/
def doBuddyAck (s : State) (m : HenMsg) : State :=
  if !henOn s then s
  else match drainFor s m with
    | none => s
    | some d =>
      if m.refused then drainFails s
      else raiseEvent (modHen (modSlot s d.tenant d.slot (fun x => { x with buddy := true })) (fun h => { h with drain := none })) .hen 0 3

/-- R694: a chunk that failed its check at the buddy is sent again, once. -/
def doAgain (s : State) (m : HenMsg) : State :=
  if !henOn s then s
  else match drainFor s m with
    | none => s
    | some d =>
      if d.again.contains m.chunk then s
      else modHen (sendDrainPart s d m.chunk) (fun h => { h with drain := some { d with again := d.again ++ [m.chunk] } })

/-- R695: a failed drain starts again from the manifest. -/
def doDrainRestart (s : State) : State :=
  if !henOn s then s
  else match s.hen.drain with
    | some d => if d.failed then modHen s (fun h => { h with drain := some { d with next := 0, again := [], failed := false } }) else s
    | none => s

/-! Holding for another node (R694). -/

/-- The local address of a place of the hold area. -/
def heldBase (s : State) (d : Held) : Nat := regWord2 s .hen 0 0x120 0 % 2 ^ 48 + (d.copyOff + d.place * d.copySize) * 2 ^ 21

/-- The newest complete held cut of a tenant of an origin node. -/
def heldNewest (s : State) (o t : Nat) : Option Held := (s.hen.held.filter (fun d => d.origin == o && d.otenant == t && d.complete)).getLast?

/-- A cut of a tenant of an origin node that is held complete, or is being received, as `done` says. -/
def heldAt (s : State) (done : Bool) (o t cut : Nat) : Option Held :=
  s.hen.held.find? (fun d => d.complete == done && d.origin == o && d.otenant == t && d.cut.toNat == cut)

/-- Two records stand for the same place of the hold area. -/
def samePlace (d x : Held) : Bool := x.origin == d.origin && x.otenant == d.otenant && x.place == d.place

/-- The places of two held cuts overlap in the hold area. -/
def placesMeet (d x : Held) : Bool := rangesMeet (d.copyOff + d.place * d.copySize) d.copySize (x.copyOff + x.place * x.copySize) x.copySize

/-- The state with a held cut changed. -/
def modHeld (s : State) (d : Held) (f : Held → Held) : State :=
  modHen s (fun h => { h with held := h.held.map (fun x => if samePlace d x then f x else x) })

/-- A held cut dropped. -/
def forgetHeld (s : State) (d : Held) : State := modHen s (fun h => { h with held := h.held.filter (fun x => !samePlace d x) })

/-- The buddy's answer to a drain's message. -/
def answerHen (s : State) (op : HenOp) (m : HenMsg) (chunk : Nat) (refused : Bool) : State :=
  sendHen s m.node op { henMsg s m.origin m.tenant m.cut with chunk := chunk, refused := refused, epoch := m.epoch }

/-- R694: the manifest of a drain arrives: a place is chosen and the manifest written; one that cannot be read abandons the drain. What
else the hold area held there, for an earlier origin or layout, is lost. [DEDUCED, log 64] -/
def holdManifest (s : State) (m : HenMsg) : State :=
  match parseManifest m.data with
  | none => answerHen s .ack m 0 true
  | some f =>
    let place := match heldNewest s m.origin m.tenant with
      | some d => if d.place = 0 then 1 else 0
      | none => 0
    let d : Held := {
      origin := m.origin, otenant := m.tenant, place := place, cut := BitVec.ofNat 64 m.cut, copyOff := bits m.copy 0 24, copySize := bits m.copy 24 24,
      entries := f.entries, chunks := f.chunks }
    if d.copySize * 2 ^ 21 < (manifestPages f.entries f.chunks + f.chunks) * 4096 then answerHen s .ack m 0 true
    else
      let s := modHen (forgetHeld s d) (fun h => { h with held := h.held.filter (fun x => !placesMeet d x) ++ [d] })
      henWrite s (heldBase s d) f.bytes

/-- R694: a chunk of a drain arrives, is checked and written; the last completes the held cut. [DEDUCED, log 64] -/
def holdChunk (s : State) (m : HenMsg) : State :=
  match heldAt s false m.origin m.tenant m.cut with
  | none => s
  | some d =>
    let i := m.chunk - 1
    if d.chunks ≤ i || d.got.contains i then s
    else match readManifest s (heldBase s d) (d.copySize * 2 ^ 21) with
      | none => answerHen (forgetHeld s d) .ack m 0 true
      | some f =>
        if m.data.length != 4096 || sha256 m.data != chunkDigest f i then
          (if d.again.contains i then answerHen (forgetHeld s d) .ack m 0 true
           else answerHen (modHeld s d (fun x => { x with again := x.again ++ [i] })) .again m m.chunk false)
        else
          let s := henPage s (chunkAddr (heldBase s d) f i) m.data m.bad
          let got := d.got ++ [i]
          let full := decide (got.length = d.chunks)
          let s := modHeld s d (fun x => { x with got := got, complete := full })
          if !full then s
          else
            -- the newest complete cut stands last
            let order := s.hen.held.filter (fun x => !samePlace d x) ++ s.hen.held.filter (samePlace d)
            let s := modHen s (fun h => { h with held := order })
            raiseEvent (answerHen s .ack m 0 false) .hen 0 8

/-- R694: a part of a drain arrives from the node that this one holds for. HEN.PERF5 counts the bytes. -/
def doHold (s : State) (m : HenMsg) : State :=
  let w := regWord s .hen 0 0x118 0
  if !henOn s || !bitAt w 20 || bits w 0 20 != m.node || m.origin != m.node then s
  else
    let s := perfAdd s .hen 0 5 m.data.length
    if m.chunk = 0 then holdManifest s m else holdChunk s m

/-- R698: part `k` of a held cut read and sent to the node that asks for it. -/
def sendHeldPart (m : HenMsg) (d : Held) (s : State) (k : Nat) : State :=
  let s := partRead s (heldBase s d) (d.copySize * 2 ^ 21) k
  sendHen s m.node .restore { (partMsg s (heldBase s d) (d.copySize * 2 ^ 21) (henMsg s m.origin m.tenant m.cut) k) with epoch := m.epoch }

/-- R698: a buddy is asked for a held cut: it serves it whole, or refuses. [DEDUCED, log 64] -/
def doRebuild (s : State) (m : HenMsg) : State :=
  let hold := regWord s .hen 0 0x118 0
  let rel := regWord s .hen 0 0x11C 0
  let refuse := answerHen s .restore m 0 true
  if !henOn s then s
  else if !(bitAt hold 20 && bits hold 0 20 == m.origin && bitAt rel 20 && bits rel 0 20 == m.node) then refuse
  else match heldAt s true m.origin m.tenant m.cut with
    | none => refuse
    | some d => (List.range (d.chunks + 1)).foldl (sendHeldPart m d) s

/-! Restores (R697 to R702). -/

/-- The restore changed. -/
def modRest (s : State) (f : Restore → Restore) : State := modHen s (fun h => { h with rest := f h.rest })

/-- A restore is running. -/
def resting (s : State) : Bool := 1 ≤ s.hen.rest.st && s.hen.rest.st ≤ 4

/-- R700: the running restore aborts. -/
def restAborts (s : State) (cause : Nat) : State :=
  if resting s then raiseEvent (modRest s (fun r => { r with st := 6, cause := cause })) .hen 0 7 else s

/-- REST_CUT, REST_DIGEST and the fields of REST_SRC (Table 17.9). -/
def restCut (s : State) : Nat := regWord2 s .hen 0 0x198 0
/-- REST_DIGEST. -/
def restDigest (s : State) : List Byte := henRegBytes s 0x1A0 8
/-- REST_SRC. -/
def restSrc (s : State) : Nat := regWord2 s .hen 0 0x190 0

/-- R698: the slot that holds cut REST_CUT, otherwise the slot that does not hold the newest complete cut. [DEDUCED, log 64] -/
def restSlot (s : State) (t : Nat) : Nat :=
  match [0, 1].find? (fun k => (slotOf s t k).complete && (slotOf s t k).cut.toNat == restCut s) with
  | some k => k
  | none => otherSlot s t

/-- R697: every stream of the tenant is disabled. -/
def allDisabled (s : State) (t : Nat) : Bool := (ten s t).en == 0 && (ten s t).enWritten == 0

/-- R697, R698: a restore starts where the target tenant allows it. -/
def doRestGo (s : State) (r : Requester) (v : Nat) : State :=
  let t := bits v 0 12
  let src := bits v 12 2
  let ok := henOn s && !resting s && t < 512 && src != 3 && allDisabled s t && !(ten s t).resetting && (cutOf s t).isNone
  regAccess s r .hen 0 0x188 true (fun s =>
    if !ok then regError s .hen 0 0x188
    else
      let s := setRegWord s .hen 0 0x188 (v % 2 ^ 14)
      let k := restSlot s t
      let keep := (slotOf s t k).complete && (slotOf s t k).cut.toNat == restCut s
      let s := if src = 0 || keep then s else modSlot s t k (fun x => { x with complete := false, buddy := false, entries := [] })
      let s := modRest s (fun _ => { st := if src = 0 then 2 else 1, tenant := t, source := src, slot := k })
      if src = 1 then
        sendHen s (bits (restSrc s) 0 20) .rebuild (henMsg s (bits (restSrc s) 20 20) (bits (restSrc s) 40 12) (restCut s))
      else s)

/-- The base of the slot that the restore uses. -/
def restBase (s : State) : Nat := slotBase s s.hen.rest.tenant s.hen.rest.slot

/-- The manifest in the restore's slot, where it matches REST_DIGEST (R699). -/
def restManifest (s : State) : Option Manifest :=
  (readManifest s (restBase s) (slotBytes s s.hen.rest.tenant)).filter (fun m => sha256 m.bytes == restDigest s)

/-- R698: the manifest, a chunk or a refusal of the buddy arrives; a chunk that passes its check is kept, unless the host holds the slot. -/
def doRebuildChunk (s : State) (m : HenMsg) : State :=
  let r := s.hen.rest
  if !henOn s || r.st != 1 || r.source != 1 || m.node != bits (restSrc s) 0 20 || m.epoch != henEpoch s || m.cut != restCut s
    || m.origin != bits (restSrc s) 20 20 || m.tenant != bits (restSrc s) 40 12 then s
  else if m.refused then modRest s (fun r => { r with st := 2 })
  else if (slotOf s r.tenant r.slot).hostLock then s
  else if m.chunk = 0 then
    match parseManifest m.data with
    | none => s
    | some f =>
      if sha256 f.bytes != restDigest s || slotBytes s r.tenant < (manifestPages f.entries f.chunks + f.chunks) * 4096 then s
      else modRest (henWrite s (restBase s) f.bytes) (fun r => { r with manifest := true })
  else match (if r.manifest then restManifest s else none) with
    | none => s
    | some f =>
      let i := m.chunk - 1
      if f.chunks ≤ i || r.got.contains i || m.data.length != 4096 || sha256 m.data != chunkDigest f i then s
      else
        let s := henPage s (chunkAddr (restBase s) f i) m.data m.bad
        let got := r.got ++ [i]
        modRest s (fun r => { r with got := got, checked := got.length, fromBuddy := true, st := if got.length = f.chunks then 2 else r.st })

/-- The index that stands on the list for the manifest (R699). -/
def manifestMark : Nat := 2 ^ 64 - 1

/-- R699: what is missing or fails its check. From the buddy, a chunk or manifest that has not been received is missing until the host
supplies it. [DEDUCED, log 65] -/
def restMissing (s : State) (hosted : Bool) : List Nat :=
  let r := s.hen.rest
  match (if r.source = 1 && !r.manifest && !hosted then none else restManifest s) with
  | none => [manifestMark]
  | some f => (List.range f.chunks).filter (fun i =>
      (r.source = 1 && !hosted && !r.got.contains i) || !chunkGood s (restBase s) f i)

/-- R699: a list written at REST_LIST as far as REST_LCAP allows; NEED_HOST. HEN.PERF7 counts the indices listed. [DEDUCED, log 65] -/
def restList (s : State) (miss : List Nat) : State :=
  let l := miss.take (regWord s .hen 0 0x1C8 0)
  let s := (store s (regWord2 s .hen 0 0x1C0 0 % 2 ^ 48) (l.flatMap (leBytes 8))).1
  perfAdd (raiseEvent (modRest s (fun r => { r with st := 3, listed := l })) .hen 0 6) .hen 0 7 l.length

/-- R449: the fingerprint in a manifest matches this node's: every field but the stepping. -/
def fprintMatches (s : State) (m : Manifest) : Bool :=
  setBits (leNat ((m.bytes.drop 24).take 16)) 24 8 0 == setBits (leNat (fprintBytes s)) 24 8 0

/-- R699, R700: the check of the slot, which is read: the restore aborts, asks the host, or goes on to apply. `hosted` says that the host has supplied
what was listed. -/
def restChecked (s : State) (hosted : Bool) : State :=
  let r := s.hen.rest
  let s := meetErrs s (fun l => restBase s ≤ l * 64 && l * 64 < restBase s + slotBytes s r.tenant)
  let miss := restMissing s hosted
  let old := hosted && miss.any r.listed.contains
  if old && miss.contains manifestMark then restAborts s 1
  else if old then restAborts s 2
  else match restManifest s with
    | none => restList s miss
    | some f =>
      let s := modRest s (fun r => { r with checked := f.chunks - miss.length, fromHost := r.fromHost || r.source == 2 || (hosted && r.listed.any (· != manifestMark)) })
      if !fprintMatches s f then restAborts s 5
      else if miss.isEmpty then modRest s (fun r => { r with st := 4, listed := [] })
      else restList s miss

/-- R699: Hen checks the slot. -/
def doRestCheck (s : State) : State := if henOn s && s.hen.rest.st == 2 then restChecked s (!s.hen.rest.listed.isEmpty) else s

/-- R699: the host says that it has written the chunks. [DEDUCED, log 65] -/
def doHostDone (s : State) (r : Requester) : State :=
  regAccess s r .hen 0 0x188 true (fun s =>
    if !henOn s then s
    else if s.hen.rest.st == 1 && s.hen.rest.source == 2 then modRest s (fun r => { r with st := 2 })
    else if s.hen.rest.st == 3 then restChecked s true
    else s)

/-- R700: the owner aborts the restore. -/
def doRestAbort (s : State) (r : Requester) : State := regAccess s r .hen 0 0x188 true (fun s => restAborts s 2)

/-- R700: REST_TMO has passed in NEED_HOST. -/
def doRestTimeout (s : State) : State := if s.hen.rest.st == 3 then restAborts s 2 else s

/-- The entry records of a manifest (Table 17.3). -/
def manifestEntries (m : Manifest) : List CutEntry :=
  (List.range m.entries).map (fun k =>
    let e := leNat ((m.bytes.drop (1024 + 64 * k)).take 64)
    { kind := bits e 0 2, unit := bits e 2 2, sys := bits e 4 4, addr := bits e 64 48, bytes := bits e 128 64,
      granules := bits e 128 32, fpages := bits e 160 32, first := bits e 192 32, chunks := bits e 224 32 })

/-- R701: the system that an entry recreates: this node's own record of it, or what the unit makes of its bytes. -/
def restoredOf (s : State) (t : Nat) (m : Manifest) (e : CutEntry) : Option SolSys :=
  let r := s.hen.rest
  let sl := slotOf s r.tenant r.slot
  let own := if beBytes 32 sl.digest == restDigest s then (sl.entries.find? (fun x => x.kind == 1 && x.first == e.first)).bind (·.snap) else none
  let y := own.or (Config.restoredSys ((natsFrom e.first e.chunks).flatMap (fun i => memBytes s (chunkAddr (restBase s) m i) 4096)))
  y.map (fun y => { y with tenant := t, farea := e.addr, granules := e.granules, fpages := e.fpages })

/-- R701: the capacity that a recreated system needs (R326), systems of its number released first. [DEDUCED, log 65] -/
def restRoom (s : State) (t : Nat) (e : CutEntry) : Bool :=
  let old := sysAt s e.unit e.sys
  let mine := match old with
    | some y => if y.tenant == t then y.granules else 0
    | none => 0
  granulesOf s t - mine + e.granules ≤ (ten s t).qSmem && granulesUsed s e.unit - ((old.map (·.granules)).getD 0) + e.granules ≤ 1024

/-- R701: an entry applied: a system recreated, none where it cannot be (Table 17.4); then its chunks written through the translation,
poisoned lines as poison. [DEDUCED, log 65; DESIGN CHOICE, log 66] -/
def applyEntry (s : State) (t : Nat) (m : Manifest) (e : CutEntry) : Option State :=
  let put := fun (x : State) (i va : Nat) =>
    let a := chunkAddr (restBase x) m i
    let x := pageRead x (a / 4096)
    let bad := pageBad x a
    let x := (tStore x t va (memBytes x a 4096)).1
    bad.foldl (fun y j => (tStorePoison y t (va + 64 * j)).1) x
  if e.kind = 0 then some ((List.range e.chunks).foldl (fun x j => put x (e.first + j) (e.addr + 4096 * j)) s)
  else if !blkReady s .solv e.unit || !restRoom s t e then none
  else (restoredOf s t m e).map (fun y =>
    (List.range e.fpages).foldl (fun x j => put x (e.first + 16 * e.granules + j) (e.addr + 4096 * j)) (putSys s e.unit e.sys y))

/-- The entries applied in order. -/
def applyEntries (t : Nat) (m : Manifest) : List CutEntry → State → Option State
  | [], s => some s
  | e :: es, s => match applyEntry s t m e with
    | none => none
    | some s => applyEntries t m es s

/-- R702: the source byte of a RESTORE entry. -/
def restSource (r : Restore) : Nat := b2n r.fromBuddy + 2 * b2n r.fromHost

/-- R701, R702: the checked cut is applied to the tenant, whose context becomes that of the manifest. [DEDUCED, log 65] -/
def doRestApply (s : State) : State :=
  let r := s.hen.rest
  let t := r.tenant
  if !henOn s || r.st != 4 then s
  else if !allDisabled s t || (ten s t).resetting then restAborts s 6
  else match restManifest s with
    | none => restAborts s 1
    | some m =>
      let es := manifestEntries m
      if !es.all (fun e => entryMapped s t e true) then restAborts s 3
      else match applyEntries t m es s with
        | none => restAborts s 4
        | some s =>
          let w := fun o n => leNat ((m.bytes.drop o).take n)
          let c := w 16 8
          let sums := (ten s t).sums.filter (fun e => 15 ≤ e.1)
          let s := modTen s t (fun x => { x with
            step := BitVec.ofNat 64 (c + 1), tokens := (List.range 64).map (fun i => (i, BitVec.ofNat 32 (w (256 + 4 * i) 4))),
            tokenErr := BitVec.ofNat 64 (w 72 8), sums := (List.range 15).map (fun i => (i, BitVec.ofNat 64 (w (80 + 8 * i) 8))) ++ sums })
          let dig := restDigest s
          let s := modSlot s t r.slot (fun x => { x with
            complete := true, poison := bitAt (w 0 8) 28, cut := BitVec.ofNat 64 (restCut s), step := BitVec.ofNat 64 c, digest := beNat dig })
          let s := restartTimer (modHenTen s t (fun h => { h with
            newest := some r.slot, next := BitVec.ofNat 64 (restCut s + 1), since := 0, trig := false })) t
          let s := ledgerDue s {
            chain := t, typ := 5, step := BitVec.ofNat 64 c,
            body := leBytes 8 (restCut s) ++ dig ++ leBytes 1 (restSource r) ++ List.replicate 23 0 }
          perfAdd (raiseEvent (modRest s (fun r => { r with st := 5 })) .hen 0 5) .hen 0 6 m.chunks

/-! Registers with steps of their own. -/

/-- The tenant that TEN_IDX selects. -/
def henSel (s : State) : Nat := bits (regWord s .hen 0 0x128 0) 0 12

/-- R681: a write of TEN_COPY, ignored where the slots would pass COPY_SIZE or overlap another tenant's. -/
def doTenCopy (s : State) (r : Requester) (v : Nat) : State :=
  let off := bits v 0 24
  let size := bits v 24 24
  regAccess s r .hen 0 0x138 true (fun s =>
    if bits (regWord s .hen 0 0x110 0) 0 24 < off + 2 * size
        || s.hen.tens.any (fun e => e.1 != henSel s && rangesMeet off (2 * size) e.2.copyOff (2 * e.2.copySize)) then
      regError s .hen 0 0x138
    else modHenTen s (henSel s) (fun h => { h with copyOff := off, copySize := size }))

/-- R684: a write of TEN_TRIG sets the triggers; a non-zero secs restarts the timer. -/
def doTenTrig (s : State) (r : Requester) (v : Nat) : State :=
  regAccess s r .hen 0 0x140 true (fun s =>
    let t := henSel s
    let s := modHenTen s t (fun h => { h with steps := bits v 0 16, secs := bits v 16 16 })
    if bits v 16 16 = 0 then s else restartTimer s t)

/-! Resets and coinciding events (R704, R705). -/

/-- R704: a tenant's cut that copies is abandoned; its slot stays incomplete. -/
def abandonCut (s : State) (t : Nat) : State := modHen s (fun h => { h with cuts := h.cuts.filter (fun c => c.tenant != t) })

/-- R704: a tenant reset: its cut is abandoned, a restore into it aborts with cause 6, and its timer restarts (R684). -/
def henTenant (s : State) (t : Nat) : State :=
  let s := abandonCut s t
  let s := if resting s && s.hen.rest.tenant = t then restAborts s 6 else s
  restartTimer (modHenTen s t (fun h => { h with trig := false, decided := false })) t

/-- R700: a stream of the tenant is enabled while it is restored. -/
def henEnabled (s : State) (t : Nat) : State :=
  if resting s && s.hen.rest.tenant = t && !allDisabled s t then restAborts s 6 else s

/-- R705: copies and drains are abandoned and a running restore aborts with cause 7. -/
def henReset (s : State) : State :=
  restAborts (modHen s (fun h => { h with cuts := [], drain := none })) 7

/-- R731, R695, R699: Hen's outstanding request reaches the fabric timeout: the drain fails, or the fill from the buddy ends. -/
def henTimeout (s : State) : State :=
  if s.hen.rest.st == 1 && s.hen.rest.source == 1 then modRest s (fun r => { r with st := 2 }) else drainFails s

/-! The steps of this part. -/

/-- FABRIC_TIMEOUT (R731): Hen's own request is named by `henTag`. -/
def execFabricTimeout (node tag : Nat) (s : State) : Host.Outcome State Fault Refusal :=
  .next (whenLive s (if tag = henTag then (if node = nodeNum s then henTimeout s else s) else doFabTimeout s node tag))

/-- TEN_COPY_WRITE (R681). -/
def execTenCopyWrite (r : Requester) (value : Nat) (s : State) : Host.Outcome State Fault Refusal := .next (whenLive s (doTenCopy s r value))

/-- TEN_TRIG_WRITE (R684). -/
def execTenTrigWrite (r : Requester) (value : Nat) (s : State) : Host.Outcome State Fault Refusal := .next (whenLive s (doTenTrig s r value))

/-- CHUNK_COPY (R688). -/
def execChunkCopy (tenant : Nat) (s : State) : Host.Outcome State Fault Refusal := .next (whenLive s (doChunkCopy s tenant))

/-- CUT_COMPLETE (R691). -/
def execCutComplete (tenant : Nat) (s : State) : Host.Outcome State Fault Refusal := .next (whenLive s (doCutComplete s tenant))

/-- BUDDY_DRAIN_CHUNK (R693). -/
def execBuddyDrainChunk (s : State) : Host.Outcome State Fault Refusal := .next (whenLive s (doDrainChunk s))

/-- BUDDY_CHUNK_RECEIVE (R694). -/
def execBuddyChunkReceive (m : HenMsg) (s : State) : Host.Outcome State Fault Refusal := .next (whenLive s (doHold s m))

/-- BUDDY_ACK (R694). -/
def execBuddyAck (m : HenMsg) (s : State) : Host.Outcome State Fault Refusal := .next (whenLive s (doBuddyAck s m))

/-- DRAIN_RESTART (R695). -/
def execDrainRestart (s : State) : Host.Outcome State Fault Refusal := .next (whenLive s (doDrainRestart s))

/-- REST_GO (R697). -/
def execRestGo (r : Requester) (value : Nat) (s : State) : Host.Outcome State Fault Refusal := .next (whenLive s (doRestGo s r value))

/-- REBUILD_REQUEST (R698). -/
def execRebuildRequest (m : HenMsg) (s : State) : Host.Outcome State Fault Refusal := .next (whenLive s (doRebuild s m))

/-- REST_CHECK (R699). -/
def execRestCheck (s : State) : Host.Outcome State Fault Refusal := .next (whenLive s (doRestCheck s))

/-- REST_HOST_DONE (R699). -/
def execRestHostDone (r : Requester) (s : State) : Host.Outcome State Fault Refusal := .next (whenLive s (doHostDone s r))

/-- REST_ABORT (R700). -/
def execRestAbort (r : Requester) (s : State) : Host.Outcome State Fault Refusal := .next (whenLive s (doRestAbort s r))

/-- REST_TIMEOUT (R700). -/
def execRestTimeout (s : State) : Host.Outcome State Fault Refusal := .next (whenLive s (doRestTimeout s))

/-- REST_APPLY (R701). -/
def execRestApply (s : State) : Host.Outcome State Fault Refusal := .next (whenLive s (doRestApply s))

/-- REBUILD_CHUNK_RECEIVE (R698). -/
def execRebuildChunkReceive (m : HenMsg) (s : State) : Host.Outcome State Fault Refusal := .next (whenLive s (doRebuildChunk s m))

/-- CHUNK_REQUESTED_AGAIN (R694). -/
def execChunkRequestedAgain (m : HenMsg) (s : State) : Host.Outcome State Fault Refusal := .next (whenLive s (doAgain s m))

end Sys2Proof.Machine
end

