-- ==== Sys2Proof/Machine/Fetch.lean ====
section
/-! DEFINITION. Fetching commands and the acceptance checks (2.2 to 2.4). -/

namespace Sys2Proof.Machine

/-! The own fields of a command (R39). -/

/-- The opcodes of Table 2.2. -/
def opKnown (op : Nat) : Bool :=
  op ≤ 0x07 || (0x10 ≤ op && op ≤ 0x12) || (0x20 ≤ op && op ≤ 0x23) || (0x30 ≤ op && op ≤ 0x33) || (0x40 ≤ op && op ≤ 0x44)
    || (0x50 ≤ op && op ≤ 0x57)

/-- The opcodes that honour ovf (Table 2.2). -/
def opOvf (op : Nat) : Bool := [0x10, 0x11, 0x20, 0x21, 0x22, 0x23, 0x30, 0x31, 0x32, 0x41, 0x42, 0x50, 0x54].contains op

/-- R37: the class that a command must carry. -/
def opVcls (c : Cmd) : Bool := cOp c == 0x54 || (cOp c == 0x50 && arArr c)

/-- R39: the checks of bytes 0 to 31. -/
def headOk (s : State) (t : Nat) (c : Cmd) : Bool :=
  opKnown (cOp c) && cVer c == 1 && cZero c 0 19 13 && cZero c 2 18 6 && cZero c 3 32 32 && cVcls c == opVcls c
    && (!cOvf c || opOvf (cOp c)) && !(cWaitEn c && 63 < cWaitTok c) && !(cSigEn c && 63 < cSigTok c) && (ten s t).step.toNat ≤ cStep c

/-- The operand words from `i` on are zero. -/
def zeroFrom (c : Cmd) (i : Nat) : Bool := (natsFrom i (8 - i)).all (fun k => cw c k == 0)

/-- The address and count of a stream-0 STEP's witness list (R67). -/
def witAddr (c : Cmd) : Nat := cw c 4
/-- The witness count. -/
def witCount (c : Cmd) : Nat := cf c 5 0 16

/-- R67, R68: the own fields of a STEP. -/
def stepFieldsOk (st : Nat) (c : Cmd) : Bool :=
  cStep c != 2 ^ 64 - 1
    && (if st = 0 then cw c 4 % 64 == 0 && cZero c 4 48 16 && witCount c ≤ 64 && cZero c 5 16 48 && zeroFrom c 6 else zeroFrom c 4)

/-- R53, R55: the own fields of a TEST. -/
def testFieldsOk (c : Cmd) : Bool :=
  cZero c 4 4 4 && cf c 4 11 3 ≤ 3 && cZero c 4 14 2 && cf c 4 16 8 != 0 && cZero c 4 24 40 && zeroFrom c 6
    && !(cf c 4 11 3 == 3 && cf c 4 8 3 ≤ 5 && cf c 5 32 32 != 0)

/-- R47, R58, R69: the own fields of the control commands. [DEDUCED, log 18] -/
def ctlFieldsOk (st : Nat) (c : Cmd) : Bool :=
  match cOp c with
  | 0x01 => [4, 5, 6, 7].all (fun i => cZero c i 9 23 && !(bitAt (cw c i) 8 && 63 < cf c i 0 8))
  | 0x02 => cf c 4 0 8 ≤ 63 && cZero c 4 9 23 && zeroFrom c 5
  | 0x03 => cZero c 4 1 63 && zeroFrom c 5
  | 0x04 => stepFieldsOk st c
  | 0x05 => st == 0 && zeroFrom c 4
  | 0x06 => testFieldsOk c
  | 0x07 => 1 ≤ cf c 4 0 6 && cf c 4 0 6 ≤ 32 && cZero c 4 6 10 && cf c 4 16 16 != 0 && cZero c 4 32 32 && zeroFrom c 5
  | _ => zeroFrom c 4

/-- R39: the operand area's reserved bits and ranges. -/
def fieldsOk (s : State) (t st : Nat) (c : Cmd) : Bool :=
  match cOp c with
  | 0x10 => mmFieldsOk c
  | 0x11 => splitFieldsOk c
  | 0x12 => loadStatFieldsOk c
  | 0x20 => vopFieldsOk c
  | 0x21 => vredFieldsOk c
  | 0x22 => vsumFieldsOk c
  | 0x23 => vgenFieldsOk c
  | 0x30 => muleFieldsOk c
  | 0x31 => solveFieldsOk c
  | 0x32 => updFieldsOk c
  | 0x33 => setupFieldsOk c
  | 0x40 => moveFieldsOk c
  | 0x41 => convertFieldsOk c
  | 0x42 => gatherFieldsOk c
  | 0x43 => prefetchFieldsOk c
  | 0x44 => zeroFieldsOk c
  | 0x50 => arFieldsOk c
  | 0x51 | 0x52 | 0x53 | 0x54 | 0x55 | 0x56 | 0x57 => xFieldsOk s t c
  | _ => ctlFieldsOk st c

/-! The structures that a command names (R799). -/

/-- The 64-byte lines that a command names itself, by address divided by 64. -/
def namedLines (st : Nat) (c : Cmd) : List Nat :=
  let f := fun (l : List Nat) => l.map (fun i => cf c i 0 42)
  match cOp c with
  | 0x04 => if st = 0 then linesOf (witAddr c) (8 * witCount c) else []
  | 0x10 | 0x11 => f [4, 5, 6]
  | 0x12 | 0x23 => f [4]
  | 0x20 => f ([4, 7] ++ [5, 6].filter (named c))
  | 0x21 => f ([4, 6] ++ [5].filter (named c))
  | 0x22 => f ([4] ++ [5].filter (named c))
  | 0x40 | 0x41 | 0x50 => f [4, 5]
  | 0x42 => f ([4, 5] ++ [6].filter (named c))
  | 0x43 => linesOf (pfSched c) (16 * pfCount c)
  | 0x44 => if zMode c = 0 then f [4] else []
  | 0x51 | 0x52 | 0x53 | 0x54 => f [5]
  | _ => []

/-- Word `i` of a stream-0 STEP's witness list as Goose read it (R463). -/
def witWord (c : Cmd) (i : Nat) : Nat := bits (cRead c ((witAddr c + 8 * i) / 64)) (64 * (i % 8)) 64

/-- The lines that the lists of a PREFETCH and a stream-0 STEP name. -/
def listedLines (st : Nat) (c : Cmd) : List Nat :=
  match cOp c with
  | 0x04 => if st = 0 then (List.range (witCount c)).map (fun i => bits (witWord c i) 0 42) else []
  | 0x43 => (List.range (pfCount c)).flatMap (fun i => [bits (pfEntry c i) 0 42, bits (pfEntry c i) 64 42])
  | _ => []

/-- What reading a command's structures came to. -/
inductive Looked where
  | read (c : Cmd)
  | poisoned
  | refused (status : Nat)

/-- Structures as tenant spans. -/
def lineSpans (ls : List Nat) : List (Option (Nat × Nat)) := ls.map (fun l => some (64 * l, 64))

/-- Structures read at fetch: REFUSED_FORMAT where one is not mapped or not backed, TARGET_GONE where one is not served, POISONED where
one reads as poison (R39, R385, R799); the errors in them are met (R378). [DEDUCED, log 13] -/
def lookAt (s : State) (t : Nat) (c : Cmd) (ls : List Nat) : State × Looked :=
  let s := fillSpans s t (lineSpans ls)
  if !ls.all (fun l => present s t (64 * l) 64) then (s, .refused 0x14)
  else match ls.find? (fun l => !usable s t (64 * l) 64 false) with
    | some l => (missAt s t (64 * l) 64 false, .refused 0x22)
    | none =>
      let s1 := readSpans s t (lineSpans ls)
      (withdrawNew s s1 s1,
        if ls.any (fun l => tPoison s1 t (64 * l) 64) then .poisoned
        else .read { c with read := ls.foldl (fun r l => tabSet r l (tNat s1 t (64 * l) 64)) c.read })

/-- R463: the witnesses of a stream-0 STEP are well formed. -/
def witOk (c : Cmd) : Bool :=
  (List.range (witCount c)).all (fun i => bits (witWord c i) 42 22 == 0 && descOk (cDesc c (bits (witWord c i) 0 42)))

/-- R39: the checks of a command on what it names. -/
def descsOk (s : State) (t st : Nat) (c : Cmd) : Bool :=
  match cOp c with
  | 0x04 => st != 0 || witOk c
  | 0x10 => mmDescsOk s t c
  | 0x11 => splitDescsOk s t c
  | 0x12 => loadStatDescsOk s t c
  | 0x20 => vopDescsOk s t c
  | 0x21 => vredDescsOk s t c
  | 0x22 => vsumDescsOk s t c
  | 0x23 => vgenDescsOk s t c
  | 0x30 => muleDescsOk s t c
  | 0x40 => moveDescsOk s t c
  | 0x41 => convertDescsOk s t c
  | 0x42 => gatherDescsOk s t c
  | 0x43 => prefetchDescsOk s t c
  | 0x44 => zeroDescsOk s t c
  | 0x50 => arDescsOk s t c
  | 0x51 | 0x52 | 0x53 | 0x54 | 0x55 | 0x56 | 0x57 => xDescsOk s t c
  | _ => true

/-- R443, R631, R40: the later refusals: status and detail code. [DEDUCED, log 20] -/
def laterRefusal (s : State) (t : Nat) (c : Cmd) : Nat × Nat :=
  if (ten s t).replay && cVcls c then (0x12, 0)
  else if cOp c == 0x30 && (ten s t).qMule < mrCores c then (0x11, 0x10)
  else if cOp c == 0x50 && (ten s t).qColl == 0 then (0x11, 0x11)
  else (0, 0)

/-- R39, R40, R617, R799: a fetched command with what its checks found. [DEDUCED, log 20] -/
def checkCmd (s : State) (t st : Nat) (c : Cmd) : State × Cmd :=
  if !(ten s t).assigned then (s, { c with verdict := 0x13 })
  else if !headOk s t c || !fieldsOk s t st c then (s, { c with verdict := 0x14 })
  else
    let later := laterRefusal s t c
    let refusedBy := fun (s : State) (v : Nat) => (s, { c with verdict := v })
    let poisonedAt := fun (s : State) => (s, { c with verdict := later.1, code := later.2, poisoned := later.1 == 0 })
    match lookAt s t c (namedLines st c) with
    | (s, .refused v) => refusedBy s v
    | (s, .poisoned) => poisonedAt s
    | (s, .read c1) =>
      match lookAt s t c1 (listedLines st c1) with
      | (s, .refused v) => refusedBy s v
      | (s, .poisoned) => poisonedAt s
      | (s, .read c2) =>
        if !descsOk s t st c2 then (s, { c2 with verdict := 0x14 }) else (s, { c2 with verdict := later.1, code := later.2 })

/-! Fetching (R31, R33, R34). -/

/-- The tenant address of the ring slot of a count (R30). -/
def cmdSlot (x : Stream) (n : W32) : Nat := x.cmdBase + 64 * (n.toNat % 2 ^ x.k)

/-- R31: Goose may fetch the stream's next command. -/
def canFetch (s : State) (t st : Nat) : Bool :=
  let x := stream s t st
  ctxRuns s t && blkReady s .goose (coreOf t) && s.hostIf.own ≤ 1 && enabled s t st && x.fault == 0 && x.held.isEmpty && x.head != x.tail
    && (x.head - x.rel).toNat < 2 ^ x.k

/-- R33: a fetch fails: the stream stops. [DEDUCED, log 14] -/
def fetchFault (s : State) (t st : Nat) : State :=
  raiseEvent (modStream s t st (fun x => { x with fault := x.fault ||| 1 })) .goose (coreOf t) 0

/-- R475: the ordinal of the stream's next command in the step that it names. -/
def nextOrd (x : Stream) (step : Nat) : Nat := if x.ordStep = step then x.ordNum + 1 else 1

/-- R31, R34: the command at the head count fetched and checked. -/
def doFetch (s0 : State) (t st now : Nat) : State :=
  if !canFetch s0 t st then s0
  else
    let s := atTime s0 now
    let x := stream s t st
    let va := cmdSlot x x.head
    let s1 := readSpans s t [some (va, 64)]
    let s := withdrawNew s s1 s1
    if !usable s1 t va 64 false then fetchFault (missAt s t va 64 false) t st
    else if tPoison s1 t va 64 then fetchFault s t st
    else
      let ws := (List.range 8).map (fun i => tNat s1 t (va + 8 * i) 8)
      let c : Cmd := { count := x.head, words := ws, seq := (ten s t).nextSeq, ord := nextOrd x (ws.getD 1 0) }
      let s := modTen s t (fun y => { y with nextSeq := y.nextSeq + 1 })
      let r := checkCmd s t st c
      let s := modStream r.1 t st (fun y => { y with
        fetched := y.fetched ++ [r.2], head := y.head + 1, ordStep := cStep c, ordNum := c.ord })
      markReady s t

/-! The doorbells (R31). -/

/-- R31: software advances the tail count. -/
def doTail (s : State) (r : Requester) (t st v : Nat) : State :=
  if 8 ≤ st then s
  else regAccess s r .ten t (0x160 + 0x20 * st) true (fun s =>
    modStream s t st (fun x => { x with tail := BitVec.ofNat 32 v }))

/-- R31: software releases completion slots. -/
def doCplRel (s : State) (r : Requester) (t st v : Nat) : State :=
  if 8 ≤ st then s
  else regAccess s r .ten t (0x168 + 0x20 * st) true (fun s =>
    modStream s t st (fun x => { x with rel := BitVec.ofNat 32 v }))

/-- TAIL_WRITE (R31). -/
def execTailWrite (r : Requester) (tenant stream value : Nat) (s : State) : Host.Outcome State Fault Refusal :=
  .next (whenLive s (doTail s r tenant stream value))

/-- CPL_REL_WRITE (R31). -/
def execCplRelWrite (r : Requester) (tenant stream value : Nat) (s : State) : Host.Outcome State Fault Refusal :=
  .next (whenLive s (doCplRel s r tenant stream value))

/-- GOOSE_FETCH (R31). -/
def execGooseFetch (tenant stream now : Nat) (s : State) : Host.Outcome State Fault Refusal := .next (whenLive s (doFetch s tenant stream now))

end Sys2Proof.Machine
end

