-- ==== Sys2Proof/Machine/Issue.lean ====
section
/-! DEFINITION. Issue: targets, arbitration, quotas, refusals at the front of a stream, completion, defer limits (2.6, 15.6, 15.7). -/

namespace Sys2Proof.Machine

/-! Targets (R162, R165, R210, R407). -/

/-- The jobs that a unit has accepted and not finished; one whose record Goose has still to write is no longer with the unit.
[DEDUCED, log 93] -/
def unitLoad (s : State) (u : EUnit) : Nat := (s.jobs.filter (fun j => decide (j.unit = u) && j.result.isNone)).length

/-- The first of a list with the least of some measure. -/
def leastBy (f : Nat → Nat) : List Nat → Option Nat
  | [] => none
  | x :: xs => match leastBy f xs with
    | some y => if f y < f x then some y else some x
    | none => some x

/-- R165: the instance that a selector value gives among 24 units: the one named, or on a die the one of those READY with room that
holds least, all being full the lowest; none where none is READY. -/
def pickUnit (s : State) (b : Block) (mk : Nat → EUnit) (sel : Nat) : Option EUnit :=
  if sel < 24 then (if blkReady s b sel then some (mk sel) else none)
  else
    let ok := (natsFrom (12 * (sel - 0x40)) 12).filter (blkReady s b)
    let open4 := ok.filter (fun n => unitLoad s (mk n) < 4)
    ((leastBy (fun n => unitLoad s (mk n)) open4).or ok.head?).map mk

/-- The Drake group of the die whose scratchpad holds a tenant address. -/
def spadGroup (s : State) (t va : Nat) : List Nat := match spadOf (localOf s t va) with
  | some (d, _) => [d]
  | none => []

/-- R407: the groups in order of preference. [DEDUCED, log 39] -/
def drakePrefs (s : State) (t : Nat) (c : Cmd) : List Nat :=
  let m := if cOp c == 0x43 then pfMove c 0 else c
  if mvGroup c ≤ 2 then [mvGroup c]
  else if cOp c == 0x44 then spadGroup s t (if zMode c = 0 then (zDst c).base else zAddr c) ++ [2]
  else spadGroup s t (mvDst m).base ++ spadGroup s t (mvSrc m).base ++ [2]

/-- R309: the cores that are neither OFF nor FAULT. -/
def liveCores (s : State) : List Nat := (List.range 128).filter (fun n => (mcore s n).st != 0 && (mcore s n).st != 6)

/-- The idle cores of clusters that accept work. -/
def freeCores (s : State) : List Nat := (liveCores s).filter (fun n => blkReady s .mule (n / 8) && (mcore s n).st == 1)

/-- The unit that a command goes to; none for a control command, and where every unit that it may use is gone. -/
def target (s : State) (t : Nat) (c : Cmd) : Option EUnit :=
  let op := cOp c
  if op ≤ 0x07 then none
  else if op ≤ 0x12 then pickUnit s .ox .ox (mmArray c)
  else if op ≤ 0x23 then pickUnit s .pony .pony (pnSlice c)
  else if op = 0x30 then (if mrCores c ≤ (liveCores s).length then some .mule else none)
  else if op ≤ 0x33 then (if blkReady s .solv (svUnit c) then some (.solv (svUnit c)) else none)
  else if op ≤ 0x44 then ((drakePrefs s t c).find? (blkReady s .drake)).map .drake
  else if op = 0x50 then (if blkReady s .coll 0 then some .coll else none)
  else if blkReady s .xag 0 then some .xag else none

/-! Offers (R804). -/

/-- A ready front command offered at a unit. -/
structure Offer where
  tenant : Nat
  stream : Nat
  cmd : Cmd
  iter : Option Nat
deriving DecidableEq, Repr

/-- The streams of a tenant in round robin, starting after the one that issued last. -/
def streamOrder (s : State) (t : Nat) : List Nat := (natsFrom ((ten s t).lastStream + 1) 8).map (· % 8)

/-- R804: what a tenant offers at a unit. -/
def offerOf (s : State) (u : EUnit) (t : Nat) : Option Offer :=
  (streamOrder s t).findSome? (fun st => match ready s t st with
    | some (c, it) => if decide (target s t c = some u) then some { tenant := t, stream := st, cmd := c, iter := it } else none
    | none => none)

/-- What all tenants offer at a unit, by tenant. [DEDUCED, log 23] -/
def offers (s : State) (u : EUnit) : List Offer := (tenantNums s).filterMap (offerOf s u)

/-! Arbitration (R627). -/

/-- The number under which a unit keeps its arbitration counts. -/
def unitKey : EUnit → Nat
  | .ox n => n
  | .pony n => 100 + n
  | .mule => 200
  | .solv u => 300 + u
  | .drake g => 310 + g
  | .coll => 320
  | .xag => 330

/-- A unit's arbitration counts. -/
def arbOf (s : State) (u : EUnit) : Arb := tabGet {} s.arbs (unitKey u)

/-- The offer comes from a background stream. -/
def isBg (s : State) (o : Offer) : Bool := bitAt (ten s o.tenant).bg o.stream

/-- A reserved tenant whose acceptances number fewer than its share of the window's (R627). -/
def underShare (s : State) (a : Arb) (o : Offer) : Bool :=
  (ten s o.tenant).arbClass == 0 && tabGet 0 a.accs o.tenant * 256 < (ten s o.tenant).share * a.total

/-- An offer put into a list before the first that it does not follow. -/
def insOffer (before : Offer → Offer → Bool) (o : Offer) : List Offer → List Offer
  | [] => [o]
  | p :: ps => if before p o then p :: insOffer before o ps else o :: p :: ps

/-- Offers in order of `before`, equals kept in order. -/
def sortOffers (before : Offer → Offer → Bool) (l : List Offer) : List Offer := l.reverse.foldl (fun a o => insOffer (fun p q => before p q) o a) []

/-- The share of a's window taken, compared by cross multiplication. -/
def lessShare (s : State) (a : Arb) (p q : Offer) : Bool :=
  tabGet 0 a.accs p.tenant * (ten s q.tenant).share < tabGet 0 a.accs q.tenant * (ten s p.tenant).share

/-- Weighted round robin: the tenant served last while its turn lasts, then the others in turn. -/
def wrrOrder (a : Arb) (l : List Offer) : List Offer :=
  let later := l.filter (fun o => a.last < o.tenant)
  let upTo := l.filter (fun o => o.tenant ≤ a.last)
  if a.left != 0 then l.filter (fun o => o.tenant == a.last) ++ later ++ upTo.filter (fun o => o.tenant != a.last) else later ++ upTo

/-- R627: the offers in the order in which the unit tries them. [DEDUCED, log 23] -/
def arbOrder (s : State) (u : EUnit) (l : List Offer) : List Offer :=
  let a := arbOf s u
  let bg := wrrOrder { a with left := 0 } (l.filter (isBg s))
  let fg := l.filter (fun o => !isBg s o)
  let one := sortOffers (lessShare s a) (fg.filter (underShare s a))
  let two := wrrOrder a (fg.filter (fun o => !underShare s a o))
  if 63 ≤ a.sinceBg then bg ++ one ++ two else one ++ two ++ bg

/-- The counts after an acceptance. [DEDUCED, log 23] -/
def arbTake (s : State) (u : EUnit) (o : Offer) : State :=
  let a := arbOf s u
  let bg := isBg s o
  let turn := !bg && !underShare s a o
  let w := (ten s o.tenant).weight
  let a' : Arb := {
    accs := tabMod 0 a.accs o.tenant (· + 1), total := a.total + 1, last := if turn then o.tenant else a.last,
    left := if !turn then a.left else if o.tenant == a.last && a.left != 0 then a.left - 1 else w - 1,
    sinceBg := if bg then 0 else a.sinceBg + 1 }
  { s with arbs := tabSet s.arbs (unitKey u) a' }

/-! Room and quotas (R289, R629, R631, Table 15.6). -/

/-- The commands of a tenant issued and not completed. [DEDUCED, log 93] -/
def inflight (s : State) (t : Nat) : Nat := (s.jobs.filter (fun j => j.tenant == t && !j.orphan)).length

/-- The cores that a tenant's runs hold. -/
def coresHeld (s : State) (t : Nat) : Nat := sumOf ((s.mule.runs.filter (fun r => r.tenant == t)).map (fun r => r.cores.length))

/-- The ALLREDUCEs of a tenant that run. -/
def collsHeld (s : State) (t : Nat) : Nat := (s.jobs.filter (fun j => j.tenant == t && decide (j.unit = .coll) && j.result.isNone)).length

/-- R289: the ready MULE_RUNs that have been held for lack of cores: since when, tenant, stream, and the cores each wants. -/
def coreHolds (s : State) : List (Nat × Nat × Nat × Nat) :=
  (tenantNums s).flatMap (fun t => (List.range 8).filterMap (fun st => match ready s t st, (stream s t st).hold.coresAt with
    | some (c, _), some at0 => if cOp c == 0x30 then some (at0, t, st, mrCores c) else none
    | _, _ => none))

/-- The longest-held of them; at one time the lowest tenant and stream. [DEDUCED, log 93] -/
def longestHeld (s : State) : Option (Nat × Nat × Nat × Nat) :=
  (coreHolds s).foldl (fun a h => match a with
    | some x => if h.1 < x.1 then some h else some x
    | none => some h) none

/-- R289: the idle cores are reserved for another MULE_RUN, the longest-held. [DEDUCED, log 93] -/
def coresReserved (s : State) (o : Offer) : Bool :=
  match longestHeld s with
  | some (_, t, st, _) => !(t == o.tenant && st == o.stream)
  | none => false

/-- R289, MULE.HELD: the idle cores reserved for the longest-held MULE_RUN, up to its number. -/
def reservedCores (s : State) : Nat :=
  match longestHeld s with
  | some (_, _, _, n) => min n (freeCores s).length
  | none => 0

/-- The commands that a unit takes at once. -/
def unitRoom : EUnit → Nat
  | .drake _ => 16
  | .coll => 64
  | .ox _ | .pony _ | .solv _ => 4
  | .mule | .xag => 2 ^ 32

/-- Why an offer cannot be accepted for want of a quota or room: the code of Table 15.6. [DEDUCED, log 93] -/
def roomCode (s : State) (u : EUnit) (o : Offer) : Option Nat :=
  let x := ten s o.tenant
  if x.qInflight ≤ inflight s o.tenant then some 0x01
  else if cOp o.cmd == 0x30 && x.qMule < coresHeld s o.tenant + mrCores o.cmd then some 0x12
  else if cOp o.cmd == 0x50 && x.qColl ≤ collsHeld s o.tenant then some 0x13
  else if cOp o.cmd == 0x30 && ((freeCores s).length < mrCores o.cmd || coresReserved s o) then some 0x03
  else if unitRoom u ≤ unitLoad s u then some (if cOp o.cmd == 0x50 then 0x04 else 0x02)
  else none

/-! Acceptance. -/

/-- A command leaves the front of its stream by running: the stream is the one that issued last (GOOSE.PERF0). -/
def leavesFront (s : State) (t st : Nat) : State :=
  perfAdd (modTen (takeFront s t st) t (fun x => { x with lastStream := st })) .goose (coreOf t) 0 1

/-- The offer is accepted by the unit: it issues (R804). -/
def accept (s : State) (u : EUnit) (o : Offer) : State :=
  let h := holdUpTo (stream s o.tenant o.stream).hold s.gclk
  let j : Job := {
    tenant := o.tenant, stream := o.stream, cmd := o.cmd, iter := o.iter, unit := u, wait := holdWait h s.gclk, cause := holdCause h,
    hold := tabGet 0 h.sums (holdCause h), gen := (ten s o.tenant).gen }
  let s := arbTake (chargeAll s o.tenant o.cmd) u o
  let s := leavesFront { s with jobs := s.jobs ++ [j] } o.tenant o.stream
  if cOp o.cmd == 0x30 then takeCores s j ((freeCores s).take (mrCores o.cmd)) else s

/-- The offers tried in order: the first that has room and energy is accepted, the rest are passed over. -/
def tryOffers (u : EUnit) : List Offer → State → State
  | [], s => s
  | o :: os, s =>
    match roomCode s u o with
    | some k => tryOffers u os (passOver s o.tenant o.stream s.gclk 1 k)
    | none =>
      if !energyFits s o.tenant o.stream o.cmd then tryOffers u os (passEnergy s o.tenant o.stream s.gclk o.cmd)
      else
        let s := accept s u o
        markReady (os.foldl (fun x p => passOver x p.tenant p.stream x.gclk 1 5) s) o.tenant

/-! Streams enabled and disabled (R71, R801, R802, R33). -/

/-- R33, R801: a stream enabled again writes its held records and, if it can, leaves FAULT. -/
def restartStream (s : State) (t st : Nat) : State :=
  flushHeld ((stream s t st).held.length + 1) (modStream s t st (fun x => { x with fault := 0 })) t st

/-- R71: STREAM_EN as last written takes effect. [DEDUCED, log 24] -/
def applyEn (s : State) (t : Nat) : State :=
  let x := ten s t
  let fresh := (List.range 8).filter (fun st => bitAt x.enWritten st && !bitAt x.en st)
  let s := modTen s t (fun x => { x with en := x.enWritten })
  markReady (henEnabled (fresh.foldl (fun y st => restartStream y t st) s) t) t

/-- R71: a stream-0 STEP is in progress: it is the front command of stream 0. [DEDUCED, log 24] -/
def stepInProgress (s : State) (t : Nat) : Bool :=
  (stream s t 0).inStep || (match front (stream s t 0) with
    | some (c, _) => cOp c == 0x04
    | none => false)

/-- R71, R70: a write of STREAM_EN, held while a stream-0 STEP is in progress. [DEDUCED, log 24] -/
def writeEn (s : State) (t v : Nat) : State :=
  let s := modTen s t (fun x => { x with enWritten := v % 256 })
  if stepInProgress s t then henEnabled s t else applyEn s t

/-- R71: a held change of STREAM_EN takes effect once no stream-0 STEP is in progress any more, however that STEP completed. -/
def settleEn (s : State) (t : Nat) : State :=
  if (ten s t).enWritten = (ten s t).en || stepInProgress s t then s else applyEn s t

/-! What Goose ends at the front of a stream (R39, R56, R59, R178, R799, R800). -/

/-- R59: the LOOP can never be run: its body does not fit the ring, or holds a LOOP, STEP or CUT. [DEDUCED, log 16] -/
def loopBad (x : Stream) (c : Cmd) : Bool :=
  cOp c == 0x07 && (2 ^ x.k < cf c 4 0 6 + 1
    || ((x.fetched.drop 1).take (cf c 4 0 6)).any (fun d => cOp d == 0x04 || cOp d == 0x05 || cOp d == 0x07))

/-- The skip range of a stream with one command less. -/
def skipLess (x : Stream) : Stream := { x with skip := x.skip - 1, skipAll := x.skipAll && x.skip != 1 }

/-- The front command leaves with a result and without timing. [DEDUCED, log 17] -/
def endFront (s : State) (t st : Nat) (c : Cmd) (it : Option Nat) (r : Result) : State := complete (takeFront s t st) t st c it r {} 0

/-- A STEP, CUT or LOOP ends the skip range of a TEST (R57). -/
def endsSkip (c : Cmd) (x : Stream) : Stream := if cOp c == 0x04 || cOp c == 0x05 || cOp c == 0x07 then { x with skip := 0, skipAll := false } else x

/-- R59: the LOOP is refused and each of its body commands is skipped. -/
def refuseLoop (s : State) (t st : Nat) (c : Cmd) : State :=
  endFront (modStream s t st (fun x => { x with skip := cf c 4 0 6, skipAll := true })) t st c none { status := 0x14 }

/-- R433, R438: the fills of a PREFETCH that ends with a status of 0x10 or higher before a group runs it, with the error bit of its token.
[DEDUCED, log 39] -/
def lostFills (s : State) (t : Nat) (c : Cmd) : State :=
  if cOp c == 0x43 && pfFillEn c && pfFillTok c ≤ 63 then tokenErr (tokenAdd s t (pfFillTok c) (pfCount c)) t (pfFillTok c) else s

/-- R386: a command that its structures ended TARGET_GONE or POISONED at fetch notes its step with their pages. -/
def noteLooked (s : State) (t st : Nat) (c : Cmd) (status : Nat) : State :=
  if status = 0x22 || status = 0x20 then noteWithdrawn s t (cStep c) (lineSpans (namedLines st c ++ listedLines st c)) else s

/-- The detail of a command whose target is gone: cause 7 for the fabric agent (Table 14.3), else 0. [DEDUCED, log 25] -/
def goneDetail (c : Cmd) : Nat := if 0x51 ≤ cOp c then 7 else 0

/-- The event of a unit's page that says that a command completed TARGET_GONE. [DEDUCED, log 26] -/
def goneEvent (s : State) : EUnit → State
  | .ox n => raiseEvent s .ox n 5
  | .pony n => raiseEvent s .pony n 5
  | .mule => s
  | .solv n => raiseEvent s .solv n 5
  | .drake n => raiseEvent s .drake n 1
  | .coll => raiseEvent s .coll 0 5
  | .xag => raiseEvent s .xag 0 0

/-- The unit that a command names by itself (R178). [DEDUCED, log 26] -/
def namedUnit (c : Cmd) : Option EUnit :=
  let op := cOp c
  if op ≤ 0x07 then none
  else if op ≤ 0x12 then (if mmArray c < 24 then some (.ox (mmArray c)) else none)
  else if op ≤ 0x23 then (if pnSlice c < 24 then some (.pony (pnSlice c)) else none)
  else if op = 0x30 then none
  else if op ≤ 0x33 then some (.solv (svUnit c))
  else if op ≤ 0x44 then (if mvGroup c ≤ 2 then some (.drake (mvGroup c)) else none)
  else if op = 0x50 then some .coll
  else some .xag

/-- A command completes TARGET_GONE at issue: the page of the unit that it names raises `gone`. [DEDUCED, log 26] -/
def goneNamed (s : State) (c : Cmd) : State := match namedUnit c with
  | some u => goneEvent s u
  | none => s

/-- Goose ends the front command of a stream: skipped, refused, poisoned, or with its target gone. A command that no check of fetch
refused stays until its step is reached (R64, R800), a skipped one too. [DEDUCED, log 17] -/
def doFrontEnd (s0 : State) (t st now : Nat) : State :=
  let s := markReady (atTime s0 now) t
  match front (stream s t st) with
  | none => s0
  | some (c, it) =>
    let x := stream s t st
    if !frontLive s t st || stopHolds (ten s t) st c || x.inStep then s0
    else if skipActive x c then
      (if stepReached s t c then settleEn (endFront (modStream s t st skipLess) t st c it { skip := true }) t else s0)
    else if badAtFront s t c then
      let r : Result := if c.verdict != 0 then { status := c.verdict, detail := c.code }
        else if c.poisoned then { status := 0x20, flags := flBits { poison := true } } else { status := 0x14 }
      if c.verdict != 0 || stepReached s t c then
        settleEn (endFront (modStream (lostFills (noteLooked s t st c r.status) t c) t st (endsSkip c)) t st c it r) t
      else s0
    else if loopBad x c then (if stepReached s t c then refuseLoop s t st c else s0)
    else if cOp c ≤ 0x07 || (target s t c).isSome || (ready s t st).isNone then s0
    else completeFront (goneNamed (lostFills s t c) c) t st s.gclk c it { status := 0x22, detail := goneDetail c }

/-- COMMAND_ISSUE: an issue decision at a unit, or at the front of a stream. -/
def doIssue (s0 : State) (site : IssueAt) (now : Nat) : State :=
  match site with
  | .front t st => if 8 ≤ st then s0 else doFrontEnd s0 t st now
  | .unit u =>
    let s := (tenantNums s0).foldl markReady (atTime s0 now)
    match offers s u with
    | [] => s0
    | os => tryOffers u (arbOrder s u os) s

/-! Completion and defer limits. -/

/-- R43: Goose records the completion of an issued command. An orphan's is discarded (R80, R634, R725). -/
def doComplete (s : State) (t st n iter now : Nat) : State :=
  match s.jobs.find? (fun j => j.tenant == t && j.stream == st && j.cmd.count.toNat == n && j.iter.getD 0 == iter && j.result.isSome) with
  | none => s
  | some j =>
    let s := atTime { s with jobs := s.jobs.erase j } now
    match j.result with
    | none => s
    | some r => if j.orphan then discardReply s else complete s t st j.cmd j.iter r { wait := j.wait, cause := j.cause } j.hold

/-- R630, R631: the front command of a stream has been held for queue longer than DEFER_LIM. [DEDUCED, log 21] -/
def doDeferLimit (s0 : State) (t st now : Nat) : State :=
  let s := atTime s0 now
  let x := stream s t st
  match ready s t st with
  | none => s0
  | some (c, it) =>
    let h := holdUpTo x.hold s.gclk
    if (ten s t).deferLim == 0 || x.inStep || h.lastCause != 1 || tabGet 0 h.sums 1 < (ten s t).deferLim * 1000 then s0
    else
      let quota := h.queueCode == 0x12 || h.queueCode == 0x13
      let g := s.gclk
      let s := modStream (lostFills s t c) t st (endsSkip c)
      complete (takeFront s t st) t st c it { status := if quota then 0x11 else 0x10, detail := h.queueCode }
        { wait := holdWait h g, cause := 1 } (tabGet 0 h.sums 1)

/-- COMMAND_ISSUE (R804). -/
def execCommandIssue (site : IssueAt) (now : Nat) (s : State) : Host.Outcome State Fault Refusal := .next (whenLive s (doIssue s site now))

/-- DEFER_LIMIT_EXPIRE (R630). -/
def execDeferLimitExpire (tenant stream now : Nat) (s : State) : Host.Outcome State Fault Refusal :=
  .next (whenLive s (doDeferLimit s tenant stream now))

end Sys2Proof.Machine
end

