-- ==== Sys2Proof/Machine/Control.lean ====
section
/-! DEFINITION. The control commands (2.5, 2.7, 2.8), the STEP entry (11.6), streams enabled and disabled (R71, R802), and the reset of a
Goose core (R80). -/

namespace Sys2Proof.Machine

/-- A control command of opcode `op` that is ready at the front of a stream runs as `f` says, if its energy fits; else it is passed
over (R659, R661). -/
def ctlFront (s0 : State) (t st now op : Nat) (f : State → Cmd → Option Nat → State) : State :=
  if 8 ≤ st then s0
  else
    let s := markReady (atTime s0 now) t
    match ready s t st with
    | none => s0
    | some (c, it) =>
      if cOp c != op || loopBad (stream s t st) c then s0
      else if !energyFits s t st c then passEnergy s t st s.gclk c
      else f (modStream (chargeAll s t c) t st (endsSkip c)) c it

/-- A control command completes at the front of its stream. -/
def ctlDone (s : State) (t st : Nat) (c : Cmd) (it : Option Nat) (r : Result) : State :=
  let s := perfAdd (modTen s t (fun x => { x with lastStream := st })) .goose (coreOf t) 0 1
  completeFront s t st s.gclk c it r

/-- NOP. -/
def doNop (s : State) (t st now : Nat) : State := ctlFront s t st now 0x00 (fun s c it => ctlDone s t st c it {})

/-- R47: WAIT. Its waits are met where it is ready. -/
def doWait (s : State) (t st now : Nat) : State := ctlFront s t st now 0x01 (fun s c it => ctlDone s t st c it {})

/-- A token's error bit cleared. -/
def clearErr (s : State) (t n : Nat) : State :=
  modTen s t (fun x => { x with tokenErr := x.tokenErr &&& ~~~(BitVec.ofNat 64 (2 ^ n)) })

/-- R47: SIGNAL. -/
def doSignal (s : State) (t st now : Nat) : State :=
  ctlFront s t st now 0x02 (fun s c it =>
    let s := tokenAdd s t (cf c 4 0 8) (cf c 4 32 32)
    let s := if bitAt (cw c 4) 8 then clearErr s t (cf c 4 0 8) else s
    ctlDone s t st c it {})

/-- R47: FENCE. [DEDUCED, log 16] -/
def doFence (s : State) (t st now : Nat) : State := ctlFront s t st now 0x03 (fun s c it => ctlDone s t st c it {})

/-! TEST (R53 to R55). -/

/-- The result of one of the comparisons 0 to 5 from an ordering. -/
def cmpHolds (cmp : Nat) (o : Ordering) : Bool :=
  match cmp with
  | 0 => o == .eq
  | 1 => o != .eq
  | 2 => o == .lt
  | 3 => o != .gt
  | 4 => o == .gt
  | _ => o != .lt

/-- R55: two floating-point values compared: with a NaN only ne holds. -/
def fltHolds (f : Fmt) (cmp a b : Nat) : Bool :=
  let x := fDecode f a
  let y := fDecode f b
  if vIsNaN x || vIsNaN y then cmp == 1 else cmpHolds cmp (vCmp x y)

/-- R54, R55: the condition of a TEST on a slot's value. -/
def testHolds (c : Cmd) (v : Nat) : Bool :=
  let cmp := cf c 4 8 3
  let imm := cw c 5
  if cmp = 6 then (v &&& imm) != 0
  else if cmp = 7 then (v &&& imm) == 0
  else match cf c 4 11 3 with
    | 0 => cmpHolds cmp (compare v imm)
    | 1 => cmpHolds cmp (compare (sgn 64 v) (sgn 64 imm))
    | 2 => fltHolds .fp64 cmp v imm
    | _ => fltHolds .fp32 cmp (v % 2 ^ 32) (imm % 2 ^ 32)

/-- R54: TEST. -/
def doTest (s : State) (t st now : Nat) : State :=
  ctlFront s t st now 0x06 (fun s c it =>
    let h := testHolds c (readSum s t (cf c 4 0 4)).toNat
    let s := if h then s else modStream s t st (fun x => { x with skip := cf c 4 16 8, skipAll := false })
    ctlDone s t st c it { detail := b2n h })

/-! LOOP (R59). -/

/-- R59, R60: a LOOP whose body is fetched starts: the body leaves the fetched commands with it. -/
def doLoop (s : State) (t st now : Nat) : State :=
  ctlFront s t st now 0x07 (fun s c _ =>
    let n := cf c 4 0 6
    let x := stream s t st
    let h := holdUpTo x.hold s.gclk
    let l : Looping := {
      cmd := c, wait := holdWait h s.gclk, cause := holdCause h, body := (x.fetched.drop 1).take n, times := cf c 4 16 16,
      accs := List.replicate n {} }
    let s := modStream s t st (fun x => { x with fetched := x.fetched.drop (n + 1), loops := x.loops ++ [l], hold := {} })
    markReady (perfAdd (modTen s t (fun x => { x with lastStream := st })) .goose (coreOf t) 0 1) t)

/-- R69: CUT. -/
def doCut (s : State) (t st now : Nat) : State :=
  ctlFront s t st now 0x05 (fun s c it => ctlDone (modTen s t (fun x => { x with cutPend := true })) t st c it {})

/-! The STEP entry (R462 to R464). -/

/-- The commands of a stream's items in ring order, oldest first: `head` is the stream's head count. -/
def insItem (head : W32) (i : StepItem) : List StepItem → List StepItem
  | [] => [i]
  | j :: js => if (head - i.count).toNat ≤ (head - j.count).toNat then j :: insItem head i js else i :: j :: js

/-- The items of a step in the order of the digests: stream 0 to 7, in ring order within each. -/
def stepItems (s : State) (t step : Nat) : List StepItem :=
  (List.range 8).flatMap (fun st =>
    (((ten s t).items.filter (fun i => i.step == step && i.stream == st)).foldl (fun l i => insItem (stream s t st).head i l) []))

/-- The 64 bytes of a command. -/
def wordBytes (ws : List Nat) : List Byte := ws.flatMap (leBytes 8)

/-- The first 64 bits of a record. -/
def recHead (i : StepItem) : Nat := leNat (i.record.take 8)

/-- R462: a record without DEFERRED, cause, wait, count and tenant. -/
def recPlain (i : StepItem) : List Byte :=
  leBytes 8 (setBits (setBits (setBits (recHead i) 21 1 0) 24 4 0) 32 12 0) ++ ((i.record.drop 8).take 12) ++ leBytes 4 0
    ++ ((i.record.drop 24).take 4) ++ leBytes 4 0

/-- R448: the record carries an event status; the cap stop of a MULE_RUN, in a loop too, is none. -/
def isEvent (i : StepItem) : Bool :=
  let st := bits (recHead i) 8 8
  [0x10, 0x11, 0x13, 0x20, 0x21, 0x22, 0x23, 0x25].contains st
    || (st == 0x24 && !i.cap)

/-- The record is of a V-class command (R37). [DEDUCED, log 19] -/
def isV (i : StepItem) : Bool := bitAt (recHead i) 29

/-- R455: the digest of a tensor in the tenant's memory. [DEDUCED, log 95] -/
def tensorDigest (s : State) (t : Nat) (d : TDesc) : List Byte :=
  let k := scaledDim d 0 1
  sha256 ([0x01, BitVec.ofNat 8 d.fmt, BitVec.ofNat 8 (bits d.scale 0 7), 0] ++ d.exts.flatMap (leBytes 3) ++ [0, 0] ++ packTensor s t d
    ++ (if dSfmt d = 0 then [] else tBytes s t (dSaddr d) (extCount (scaleExts d k))))

/-- What a witness comes to at the close: its record, and its marks (R464). -/
structure Witness where
  record : List Byte
  poison : Bool
  gone : Bool
  hashed : Nat

/-- R464: a witness record. [DEDUCED, log 95] -/
def witRecord (tau fmt count : Nat) (poison gone : Bool) (dig : List Byte) : List Byte :=
  leBytes 8 (tau + fmt * 2 ^ 24 + b2n poison * 2 ^ 32 + b2n gone * 2 ^ 33) ++ leBytes 8 count ++ List.replicate 16 0 ++ dig

/-- The witness that is gone, with what its descriptor could say. -/
def lostWitness (tau fmt count : Nat) : Witness :=
  { record := witRecord tau fmt count false true (List.replicate 32 0), poison := false, gone := true, hashed := 0 }

/-- A read of tenant spans at the close: the errors in them are met (R378). What it finds is judged on the first state, the second is what
it leaves. -/
def closeRead (s : State) (t : Nat) (spans : List (Option (Nat × Nat))) : State × State :=
  let s1 := readSpans s t spans
  (s1, withdrawNew s s1 s1)

/-- The witness of a descriptor that was read. [DEDUCED, log 95] -/
def witTensor (s : State) (t : Nat) (d : TDesc) (bad : Bool) : State × Witness :=
  let spans := [boxSpan d (fullBox d), scaleSpan d 0 1 (fullBox d)]
  let r := closeRead s t spans
  if !descOk d then (s, lostWitness d.tau d.fmt 0)
  else if bad || !tensorMapped r.1 t d 0 1 (fullBox d) false then (r.2, lostWitness d.tau d.fmt (extCount d.exts))
  else match missing r.1 t none ((extIdx d).flatMap (elemSpans d 0 1)) with
  | some (a, n) => (missAt r.2 t a n false, lostWitness d.tau d.fmt (extCount d.exts))
  | none =>
    let p := !(packBad r.1 t d).isEmpty || (dSfmt d != 0 && tPoison r.1 t (dSaddr d) (extCount (scaleExts d (scaledDim d 0 1))))
    (r.2, { record := witRecord d.tau d.fmt (extCount d.exts) p false (tensorDigest r.1 t d), poison := p, gone := false,
            hashed := packedBytes d })

/-- R464: witness `i` of the list at tenant address `a`, read again at the close, and the state as the reads leave it. -/
def witness (s : State) (t a i : Nat) : State × Witness :=
  let r := closeRead s t [some (a + 8 * i, 8)]
  if !usable r.1 t (a + 8 * i) 8 false then (missAt r.2 t (a + 8 * i) 8 false, lostWitness 0 0 0)
  else if tPoison r.1 t (a + 8 * i) 8 then (r.2, lostWitness 0 0 0)
  else
    let w := tNat r.1 t (a + 8 * i) 8
    let da := bits w 0 42 * 64
    let q := closeRead r.2 t [some (da, 64)]
    if !usable q.1 t da 64 false then (missAt q.2 t da 64 false, lostWitness 0 0 0)
    else if tPoison q.1 t da 64 then (q.2, lostWitness 0 0 0)
    else witTensor q.2 t (tdesc (tNat q.1 t da 64)) (bits w 42 22 != 0)

/-- The witnesses of a list of `n` words, in order. -/
def witnesses (s : State) (t a n : Nat) : State × List Witness :=
  (List.range n).foldl (fun x i => let r := witness x.1 t a i; (r.1, x.2 ++ [r.2])) (s, [])

/-- R462: the tflags of a STEP entry from bit 36 up. [DEDUCED, log 19] -/
def stepFlags (its : List StepItem) (cut event : Bool) (wcount : Nat) : Nat :=
  let f := (its.filter (fun i => !isV i)).foldl (fun a i => a ||| bits (recHead i) 16 7) 0
  let v := its.any isV
  bits f 0 5 + bits f 6 1 * 2 ^ 5 + b2n cut * 2 ^ 6 + b2n v * 2 ^ 7 + b2n (event || its.any isEvent) * 2 ^ 8 + wcount * 2 ^ 9

/-- R462: the command digest of a step whose stream-0 STEP is `c`. -/
def cmdDigest (its : List StepItem) (c : Cmd) : List Byte :=
  let own := wordBytes (c.words.take 4) ++ List.replicate 32 0
  let zero := its.filter (fun i => i.stream == 0)
  let rest := its.filter (fun i => i.stream != 0)
  sha256 (zero.flatMap (fun i => wordBytes i.words) ++ own ++ rest.flatMap (fun i => wordBytes i.words))

/-- R462: the record digest. -/
def recDigest (its : List StepItem) : List Byte := sha256 ((its.filter (fun i => !isV i)).flatMap recPlain)

/-- The STEP entry of a tenant's step, with the witnesses read. -/
def stepEntryOf (s : State) (t : Nat) (c : Cmd) (cut : Bool) (ws : List Witness) : Entry :=
  let its := stepItems s t (cStep c)
  let recs := ws.flatMap (·.record)
  { chain := t, typ := 2, tflags := stepFlags its cut (ws.any (fun w => w.gone || w.poison)) ws.length, step := BitVec.ofNat 64 (cStep c),
    body := cmdDigest its c ++ recDigest its ++ recs ++ List.replicate (64 * (ws.length % 2)) 0 }

/-! STEP (R65, R66). -/

/-- The entry of the tenant's STEP has been written to the ring (R465). [DEDUCED, log 22] -/
def stepWritten (s : State) (t : Nat) : Bool := (stream s t 0).inStep && (ten s t).stepEntry < (chainOf s t).next.toNat

/-- R66: the step closes: the current step advances, a cut that was decided begins, the STEP completes, a held STREAM_EN takes
effect. [DEDUCED, log 22] -/
def finishStep (s : State) (t : Nat) : State :=
  match (stream s t 0).fetched.head? with
  | none => s
  | some c =>
    let x := ten s t
    let s := modTen s t (fun x => { x with
      step := x.step + 1, items := x.items.filter (fun i => cStep c < i.step) })
    let s := henStepClosed s t (BitVec.ofNat 64 (cStep c))
    let s := modStream (perfAdd (raiseEvent s .goose (coreOf t) 3) .goose (coreOf t) 7 1) t 0 (fun y => { y with inStep := false })
    let keep := (ten s t).items
    let s := ctlDone s t 0 c none { status := x.stepStatus, detail := x.stepEntry }
    applyEn (modTen s t (fun x => { x with items := keep })) t

/-- R465: every STEP whose entry has been written completes. -/
def finishSteps (s : State) : State := (tenantNums s).foldl (fun x t => if stepWritten x t then finishStep x t else x) s

/-- The entries that wait written as far as the ring allows, and the STEPs that waited for them completed (R465, R479). -/
def ledgerRun (s : State) : State :=
  if blkReady s .ledg 0 then finishSteps (ledgerDrain (s.ledger.waiting.length + 1) s) else s

/-- R66: the waits of a stream-0 STEP are met: Hen decides, the entry is formed and goes to the ledger. [DEDUCED, log 19] -/
def closeStep (s : State) (t : Nat) (c : Cmd) : State :=
  let r := witnesses s t (witAddr c) (witCount c)
  let ws := r.2
  let s := r.1
  let s := if ws.any (fun w => w.gone || w.poison) then raiseEvent s .ledg 0 4 else s
  let s := perfAdd s .ledg 0 2 (sumOf (ws.map (·.hashed)))
  let d := cutDecide s t
  let e := stepEntryOf d.1 t c d.2 ws
  let s := if chainEmpty d.1 t then ledgerDue d.1 e else ledgerPush d.1 e
  let idx := (chainOf s t).next.toNat + (chainOf s t).due - 1
  let s := modTen s t (fun x => { x with
    stepEntry := idx, stepStatus := if ws.any (·.gone) then 0x22 else if ws.any (·.poison) then 0x20 else 0 })
  let s := ledgerRun (modStream s t 0 (fun x => { x with inStep := true }))
  if (stream s t 0).inStep then passOver s t 0 s.gclk 1 0 else s

/-- STEP: in streams 1 to 7 it marks the end of the stream's part of the step (R65); in stream 0 it closes the step (R66). A STEP of
streams 1 to 7 that is refused, poisoned or skipped does not run and does not mark it. [DEDUCED, log 19] -/
def doStep (s0 : State) (t st now : Nat) : State :=
  if st = 0 && (stream s0 t 0).inStep then ledgerRun (atTime s0 now)
  else ctlFront s0 t st now 0x04 (fun s c it =>
    if st = 0 then closeStep s t c
    else ctlDone (modStream s t st (fun x => { x with stepDone := some (BitVec.ofNat 64 (cStep c)) })) t st c it {})

/-! Ending a context's commands (R80, R634). -/

/-- R80: the loop of a stream that still issues stops issuing, and each of its body commands completes TARGET_GONE in the first of its
iterations that has not issued, in ring order. [DEDUCED, log 16] -/
def quitLoop (s : State) (t st : Nat) : State :=
  match curLoop (stream s t st) with
  | none => s
  | some l =>
    let at_ := fun (b : Nat) => if b < l.pos then l.iter + 1 else l.iter
    let due := fun (b : Nat) => decide (at_ b < l.times) && (match l.stopAfter with
      | some i => decide (at_ b ≤ i)
      | none => true)
    let accs := (List.range l.accs.length).zip l.accs |>.map (fun p => if due p.1 then { p.2 with issued := p.2.issued + 1 } else p.2)
    let s := modStream s t st (fun x => { x with
      loops := x.loops.dropLast ++ [{ l with quit := true, accs := accs }], skip := 0, skipAll := false, hold := {} })
    let s := ((List.range l.body.length).zip l.body).foldl (fun y p =>
      if due p.1 then completeBody y t st p.2 (at_ p.1) { status := 0x22 } {} 0 else y) s
    closeLoop s t st ((stream s t st).loops.length - 1)

/-- Each fetched command of a stream that has not issued completes with a status (R80, R634); a STEP that waits for the ledger is one. -/
def flushFetched : Nat → State → Nat → Nat → Nat → State
  | 0, s, _, _, _ => s
  | n + 1, s, t, st, status =>
    match (stream s t st).fetched with
    | [] => s
    | c :: _ =>
      let s := modStream s t st (fun x => { x with fetched := x.fetched.drop 1, hold := {}, inStep := false })
      flushFetched n (completePlain (lostFills s t c) t st c { status := status } {}) t st status

/-- R78: a stream after a reset of its context: its ring counts and settings are kept. -/
def blankStream (x : Stream) : Stream :=
  { cmdBase := x.cmdBase, k := x.k, cplBase := x.cplBase, tail := x.tail, head := x.head, rel := x.rel, wr := x.wr }

/-- R78: a context reset: step 0, tokens, error bits and slots 0, every stream disabled. -/
def blankContext (s : State) (t : Nat) : State :=
  modTen s t (fun x => { x with
    step := 0, tokens := [], tokenErr := 0, sums := [], enWritten := 0, en := 0, cutPend := false,
    streams := tabMap x.streams (fun _ y => blankStream y), lastStream := 7, stepEntry := 0, stepStatus := 0, items := [] })

/-- A command that has no record, with the record that it gets: its stream, the command, its result and timing. -/
abbrev Unrecorded := Nat × Cmd × Result × Timing

/-- The commands of a stream that have no record, with the records that a status gives them (R63, R80, R634). -/
def unrecorded (s : State) (t st status : Nat) : List Unrecorded :=
  let x := stream s t st
  let jobs := (jobsOf s t st).filter (fun j => !j.orphan && j.iter.isNone)
  let ofJob := jobs.map (fun j => (st, j.cmd, ({ status := status } : Result), ({ wait := j.wait, cause := j.cause } : Timing)))
  let ofLoop := fun (l : Looping) =>
    (st, l.cmd, ({ status := status, detail := fullIters l (l.times + 1) 0 } : Result), ({ wait := l.wait, cause := l.cause } : Timing))
      :: ((l.body.zip l.accs).filter (fun p => !p.2.written)).map (fun p =>
        (st, p.1, { (bodyResult p.2).1 with status := status, detail := 0 }, (bodyResult p.2).2))
  ofJob ++ x.loops.flatMap ofLoop ++ x.fetched.map (fun c => (st, c, ({ status := status } : Result), ({} : Timing)))

/-- Every command of a tenant that has no record gets one with a status, in ring-count order within each stream (R634); jobs become
orphans, whose completions are discarded, and a PREFETCH that was not issued fills nothing (R433). -/
def endCommands (s : State) (t status : Nat) : State :=
  let idle := (List.range 8).flatMap (fun st => (stream s t st).fetched)
  let all := (List.range 8).flatMap (fun st => (unrecorded s t st status).insertionSort (fun a b => a.2.1.seq ≤ b.2.1.seq))
  let s := { s with jobs := s.jobs.map (fun j => if j.tenant == t then { j with orphan := true } else j) }
  let s := modTen s t (fun x => { x with streams := tabMap x.streams (fun _ y =>
    { y with fetched := [], loops := [], hold := {}, inStep := false, skip := 0, skipAll := false }) })
  all.foldl (fun x u => completePlain x t u.1 u.2.1 u.2.2.1 u.2.2.2) (idle.foldl (fun x c => lostFills x t c) s)

/-! The reset of a Goose core (R80). -/

/-- The tenants of a Goose core. -/
def coreTenants (s : State) (g : Nat) : List Nat := (tenantNums s).filter (fun t => coreOf t == g)

/-- A page's EPOCH raised. -/
def bumpEpoch (s : State) (b : Block) (i : Nat) : State := modPage s b i (fun p => { p with epoch := p.epoch + 1 })

/-- R80: the reset of a Goose core begins, or its quiesce: commands not issued complete TARGET_GONE. `follow` is the STATE that comes
after, plus 8 where it is a reset. -/
def gooseBegin (s : State) (g follow : Nat) : State :=
  let s := setBlkState s .goose g 3
  let s := { s with mgmt := { s.mgmt with resetting := (s.mgmt.resetting.filter (fun r => r.1 != pageKey .goose g)) ++ [(pageKey .goose g, follow)] } }
  (coreTenants s g).foldl (fun x t => settleEn ((List.range 8).foldl (fun y st =>
    let y := quitLoop y t st
    flushFetched ((stream y t st).fetched.length + 1) y t st 0x22) x) t) s

/-- What follows a Goose core's quiesce, while one runs. -/
def gooseFollow (s : State) (g : Nat) : Option Nat := (s.mgmt.resetting.find? (fun r => r.1 == pageKey .goose g)).map (·.2)

/-- R80: the quiesce of a Goose core ends: commands without a record get one, and in a reset the contexts are reset. -/
def gooseEnd (s : State) (g follow : Nat) : State :=
  let s := (coreTenants s g).foldl (fun x t => endCommands x t 0x22) s
  let s := { s with mgmt := { s.mgmt with resetting := s.mgmt.resetting.filter (fun r => r.1 != pageKey .goose g) } }
  if follow < 8 then setBlkState s .goose g follow
  else setBlkState (bumpEpoch ((coreTenants s g).foldl blankContext s) .goose g) .goose g (follow - 8)

/-- The quiesce of a Goose core ends once no issued command of its tenants is left. -/
def gooseSettle (s : State) (g : Nat) : State :=
  match gooseFollow s g with
  | some f =>
    if s.jobs.any (fun j => !j.orphan && coreOf j.tenant == g)
        || (coreTenants s g).any (fun t => (List.range 8).any (fun st => !(stream s t st).loops.isEmpty)) then s
    else gooseEnd s g f
  | none => s

/-! The steps of this part. -/

/-- COMMAND_COMPLETE (R43). -/
def execCommandComplete (tenant stream count iter now : Nat) (s : State) : Host.Outcome State Fault Refusal :=
  .next (whenLive s (gooseSettle (doComplete s tenant stream count iter now) (coreOf tenant)))

/-- NOP (R36). -/
def execNop (tenant stream now : Nat) (s : State) : Host.Outcome State Fault Refusal := .next (whenLive s (doNop s tenant stream now))

/-- WAIT (R47). -/
def execWaitTok (tenant stream now : Nat) (s : State) : Host.Outcome State Fault Refusal := .next (whenLive s (doWait s tenant stream now))

/-- SIGNAL (R47). -/
def execSignalTok (tenant stream now : Nat) (s : State) : Host.Outcome State Fault Refusal := .next (whenLive s (doSignal s tenant stream now))

/-- FENCE (R47). -/
def execFenceCmd (tenant stream now : Nat) (s : State) : Host.Outcome State Fault Refusal := .next (whenLive s (doFence s tenant stream now))

/-- STEP (R66). -/
def execStepClose (tenant stream now : Nat) (s : State) : Host.Outcome State Fault Refusal := .next (whenLive s (doStep s tenant stream now))

/-- CUT (R69). -/
def execCut (tenant stream now : Nat) (s : State) : Host.Outcome State Fault Refusal := .next (whenLive s (doCut s tenant stream now))

/-- TEST (R54). -/
def execTestSlot (tenant stream now : Nat) (s : State) : Host.Outcome State Fault Refusal := .next (whenLive s (doTest s tenant stream now))

/-- LOOP (R59). -/
def execLoopRun (tenant stream now : Nat) (s : State) : Host.Outcome State Fault Refusal := .next (whenLive s (doLoop s tenant stream now))

/-- STEP_REGISTER_WRITE (R70): the register of the Goose context, and TEN.STEP, its other name; the write is that of the TEN page. -/
def execStepRegisterWrite (r : Requester) (tenant value : Nat) (s : State) : Host.Outcome State Fault Refusal :=
  .next (whenLive s (regAccess s r .ten tenant 0x148 true (fun s =>
    if allDisabled s tenant then modTen s tenant (fun x => { x with step := BitVec.ofNat 64 value }) else regError s .ten tenant 0x148)))

/-- STREAM_EN_WRITE (R71). -/
def execStreamEnWrite (r : Requester) (tenant value : Nat) (s : State) : Host.Outcome State Fault Refusal :=
  .next (whenLive s (regAccess s r .ten tenant 0x108 true (fun s => writeEn s tenant value)))

end Sys2Proof.Machine
end

