-- ==== Sys2Proof/Machine/Lands.lean ====
section
/-! DEFINITION. The lands of the package and the signal or rail each carries (21.1, Tables 21.1, 21.2 and 21.4). -/

namespace Sys2Proof.Machine

/-- What a land carries (R780). -/
inductive Land where
  | vss
  | link (n lane : Nat) (tx p : Bool)          -- a Walsol link's lane: transmit or receive, positive or negative
  | lp (port chan k : Nat)                     -- signal k of an LPDDR channel, as `lpSignals` orders them
  | lpReset (port : Nat)
  | lpZq (port : Nat)
  | pcie (lane : Nat) (tx p : Bool)
  | board (name : String)                      -- Table 21.2
  | rail (name : String)                       -- Table 21.4
deriving DecidableEq, Repr

/-- The signals of an LPDDR channel in the order of the block fill rule. -/
def lpSignals : List String :=
  ["DQ0", "DQ1", "DQ2", "DQ3", "DQ4", "DQ5", "DQ6", "DQ7", "DQ8", "DQ9", "DQ10", "DQ11", "DQ12", "DQ13", "DQ14", "DQ15", "DMI0", "DMI1",
    "RDQS0_t", "RDQS0_c", "RDQS1_t", "RDQS1_c", "WCK0_t", "WCK0_c", "WCK1_t", "WCK1_c", "CA0", "CA1", "CA2", "CA3", "CA4", "CA5", "CA6",
    "CK_t", "CK_c", "CS0", "CS1"]

/-- Table 21.2: column, row, signal. -/
def boardLands : List (Nat × Nat × String) :=
  [(3, 3, "POR_N"), (3, 4, "PERST_N"), (5, 3, "REFCLK_HOST_P"), (6, 3, "REFCLK_HOST_N"), (5, 5, "REFCLK_LNK_P"), (6, 5, "REFCLK_LNK_N"),
    (8, 3, "SPI_CLK"), (8, 4, "SPI_CS_N"), (9, 3, "SPI_IO0"), (9, 4, "SPI_IO1"), (9, 5, "SPI_IO2"), (9, 6, "SPI_IO3"), (3, 8, "SMB_CLK"),
    (4, 8, "SMB_DAT"), (3, 10, "TCK"), (4, 10, "TMS"), (5, 10, "TDI"), (6, 10, "TDO"), (7, 10, "TRST_N"), (10, 8, "ALERT_N"),
    (10, 9, "TRIP_N"), (10, 10, "BRAKE_N")]

/-- Table 21.4: the rectangle of a rail: first and last column, first and last row. -/
def railRects : List (Nat × Nat × Nat × Nat × String) :=
  [(25, 48, 31, 90, "VIN_OX0"), (73, 96, 31, 90, "VIN_OX1"), (49, 72, 25, 48, "VIN_PROC"), (49, 72, 49, 90, "VDD_FAB"),
    (25, 96, 91, 104, "VDDA_LNK"), (109, 120, 1, 12, "VDDH_LNK"), (25, 48, 25, 30, "VDD_LP"), (73, 96, 25, 30, "VDDQ_LP"),
    (109, 120, 109, 120, "VDD_PCIE"), (1, 12, 109, 114, "VDDH_PCIE"), (1, 6, 115, 120, "VDD_AON"), (7, 12, 115, 120, "VDDIO")]

/-- A number lies in a range. -/
def within (lo hi x : Nat) : Bool := lo ≤ x && x ≤ hi

/-- Table 21.1: the land at a depth from an edge (0 south, 1 east, 2 north, 3 west) and a width along it, where a link has it. -/
def linkLand (e depth width : Nat) : Option Land :=
  if !(within 1 4 depth && within 13 108 width) then none
  else
    let n := 24 * e + (width - 13) / 4
    let k := (width - 13) % 4
    if depth % 2 = 0 then some .vss else some (.link n (k / 2) (depth == 1) (k % 2 == 0))

/-- Table 21.1: the links' land at a column and row. -/
def linkAt (c r : Nat) : Option Land :=
  (((linkLand 0 r c).or (linkLand 1 (121 - c) r)).or (linkLand 2 (121 - r) c)).or (linkLand 3 c r)

/-- The block fill rule of an LPDDR port, by the position in its block. -/
def lpLand (port i : Nat) : Land :=
  let k := 3 * (i / 4) + i % 4
  if i % 4 = 3 then .vss else if k = 148 then .lpReset port else if k = 149 then .lpZq port else .lp port (k / 37) (k % 37)

/-- Table 21.1: the LPDDR ports' land at a column and row: 8 to 15 along the south, 0 to 3 along the west, 4 to 7 along the east. -/
def lpAt (c r : Nat) : Option Land :=
  if within 21 100 c && within 5 24 r then some (lpLand (8 + (c - 21) / 10) ((r - 5) * 10 + (c - 21) % 10))
  else if within 5 24 c && within 31 70 r then some (lpLand ((r - 31) / 10) ((c - 5) * 10 + (r - 31) % 10))
  else if within 97 116 c && within 31 70 r then some (lpLand (4 + (r - 31) / 10) ((116 - c) * 10 + (r - 31) % 10))
  else none

/-- Table 21.1: the PCIe lanes' land at a column and row. -/
def pcieAt (c r : Nat) : Option Land :=
  if within 45 76 c && (r == 108 || r == 106) then some (.pcie ((c - 45) / 2) (r == 108) ((c - 45) % 2 == 0)) else none

/-- Tables 21.2 and 21.4: the board signal or the rail at a column and row. -/
def namedAt (c r : Nat) : Option Land :=
  match boardLands.find? (fun b => b.1 == c && b.2.1 == r) with
  | some b => some (.board b.2.2)
  | none => (railRects.find? (fun x => within x.1 x.2.1 c && within x.2.2.1 x.2.2.2.1 r && (c + r) % 2 == 0)).map (fun x => .rail x.2.2.2.2)

/-- R779, R780: what the land at column `c` and row `r`, 1 to 120 each, carries. -/
def landAt (c r : Nat) : Land := ((((linkAt c r).or (lpAt c r)).or (pcieAt c r)).or (namedAt c r)).getD .vss

end Sys2Proof.Machine
end

