-- ==== Sys2Proof/Machine/LedgerRows.lean ====
section
/-! DEFINITION. The steps of the ledger: mode and seed, seals, the ring, stop points, system time (chapter 11, R714). -/

namespace Sys2Proof.Machine

/-- The chain that TEN_IDX selects. -/
def ledgSel (s : State) : Nat := bits (regWord s .ledg 0 0x130 0) 0 12

/-- R461: a GENESIS of a chain's own trigger, reason 1 or 2: in an empty chain another comes first, with mode and seed as they stood; then
`f` changes them. -/
def genesisAfter (s : State) (t reason : Nat) (f : Tenant → Tenant) : State :=
  let s := if chainEmpty s t then
      ledgerPush s (genesisEntry s t (if (chainOf s t).cleared then 3 else 0) (ten s t).replay (ten s t).seed)
    else s
  let s := modTen s t f
  ledgerPush s (genesisEntry s t reason (ten s t).replay (ten s t).seed)

/-- R470: the selected chain is sealed at the next tick. [DEDUCED, log 42] -/
def askSeal (s : State) (c : Nat) : State := modChain s c (fun x => { x with sealReq := true })

/-- R442: a write of TEN_MODE. [DEDUCED, log 42] -/
def doTenMode (s : State) (r : Requester) (v : Nat) : State :=
  regAccess s r .ledg 0 0x134 true (fun s =>
    let c := ledgSel s
    let s := if bitAt v 1 then askSeal s c else s
    if c = nodeChain then (if bitAt v 0 then regError s .ledg 0 0x134 else s)
    else if !allDisabled s c then regError s .ledg 0 0x134
    else genesisAfter s c 1 (fun x => { x with replay := bitAt v 0 }))

/-- R442: a write of TEN_SEED. -/
def doTenSeed (s : State) (r : Requester) (v : Nat) : State :=
  regAccess s r .ledg 0 0x138 true (fun s =>
    let c := ledgSel s
    if c = nodeChain || !allDisabled s c then regError s .ledg 0 0x138
    else genesisAfter s c 1 (fun x => { x with seed := BitVec.ofNat 64 v }))

/-- R470: 1 written to TEN_MODE.seal. [DEDUCED, log 42] -/
def doSealRequest (s : State) (r : Requester) : State := regAccess s r .ledg 0 0x134 true (fun s => askSeal s (ledgSel s))

/-- R470, R471: a multiple of SEAL_MS, in Lamb mode too: every chain that has gained entries is sealed. -/
def doSealPeriod (s : State) (fail : Bool) : State :=
  if s.mgmt.restarting || bits (regWord s .ledg 0 0x104 0x3E8) 0 16 = 0 then s else sealAll s fail

/-- R470: the chains for which a seal was asked are sealed at a tick, whether or not they have gained entries. [DEDUCED, log 42] -/
def sealAsked (s : State) : State :=
  s.ledger.chains.foldl (fun x e => if e.2.sealReq then sealFree (modChain x e.1 (fun c => { c with sealReq := false })) e.1 else x) s

/-- R474: the front waiting entry is written where there is room; a STEP that waited for it completes (R465). [DEDUCED, log 22] -/
def doLedgerWrite (s : State) : State :=
  if blkReady s .ledg 0 && !s.ledger.stuck then finishSteps (ledgerWrite s) else s

/-- R472: the unit write that completed TARGET_GONE is retried. -/
def doRingRetry (s : State) : State :=
  if blkReady s .ledg 0 && s.ledger.stuck then finishSteps (ledgerWrite { s with ledger := { s.ledger with stuck := false } }) else s

/-- R472: a ring of 2^k units from a base is acceptable. -/
def ringOk (s : State) (base k : Nat) : Bool :=
  base % 4096 == 0 && inLpddr base && (k == 0 || (10 ≤ k && k ≤ 24 && inLpddr (base + 2 ^ k * 128 - 1)
    && (List.range (2 ^ k / 2)).all (fun i => backed s (base + 256 * i))))

/-- R476: the node chain's GENESIS once a ring is configured. -/
def nodeGenesis (s : State) : State :=
  if ringLog s != 0 && chainEmpty s nodeChain then
    ledgerPush s (genesisEntry s nodeChain (if (chainOf s nodeChain).cleared then 3 else 0) false 0)
  else s

/-- R472: a write of RING_BASE or RING_LOG. -/
def doRingConfig (s : State) (r : Requester) (off v : Nat) : State :=
  if off = 0x108 then
    regAccess s r .ledg 0 0x108 true (fun s =>
      if s.ledger.wr != s.ledger.rd || !ringOk s (v % 2 ^ 48) (ringLog s) then regError s .ledg 0 0x108
      else setRegWord (setRegWord s .ledg 0 0x108 (v % 2 ^ 32)) .ledg 0 0x10C (bits v 32 16))
  else if off = 0x110 then
    regAccess s r .ledg 0 0x110 true (fun s =>
      if s.ledger.wr != s.ledger.rd || !ringOk s (ringBase s) (bits v 0 5) then regError s .ledg 0 0x110
      else nodeGenesis (setRegWord s .ledg 0 0x110 (bits v 0 5)))
  else s

/-- R474: the owner releases ring space; a value above WR_PTR is ignored, and no error is set (Table 11.6). [DEDUCED, log 42] -/
def doRdPtr (s : State) (r : Requester) (v : Nat) : State :=
  regAccess s r .ledg 0 0x120 true (fun s =>
    if s.ledger.wr.toNat < v then s
    else { s with ledger := { s.ledger with rd := BitVec.ofNat 64 v } })

/-- R475: a write of TEN_STOP_STEP or TEN_STOP. -/
def doTenStop (s : State) (r : Requester) (off v : Nat) : State :=
  let go := fun (f : Tenant → Tenant) => regAccess s r .ledg 0 off true (fun s =>
    let c := ledgSel s
    if c = nodeChain then regError s .ledg 0 off else markReady (modTen s c f) c)
  if off = 0x168 then go (fun x => { x with stopStep := BitVec.ofNat 64 v, stopHit := false })
  else if off = 0x170 then
    go (fun x => { x with stopOrd := bits v 0 16, stopStream := bits v 16 3, stopEn := bitAt v 19, stopHit := false })
  else s

/-- R475: every command of the stop point's stream up to it has completed. [DEDUCED, log 44] -/
def stopReached (s : State) (t : Nat) : Bool :=
  let x := ten s t
  let y := stream s t x.stopStream
  let upTo := fun (c : Cmd) => cStep c < x.stopStep.toNat || (cStep c == x.stopStep.toNat && c.ord ≤ x.stopOrd)
  (x.stopStep.toNat < y.ordStep || (y.ordStep == x.stopStep.toNat && x.stopOrd ≤ y.ordNum))
    && y.fetched.all (fun c => !upTo c) && y.loops.all (fun l => !upTo l.cmd) && (jobsOf s t x.stopStream).all (fun j => !upTo j.cmd)

/-- R475: the stop point is hit. LEDG.PERF7 counts the hits. [DEDUCED, log 44] -/
def doStopHit (s : State) (t : Nat) : State :=
  let x := ten s t
  if x.replay && x.stopEn && !x.stopHit && stopReached s t then
    perfAdd (raiseEvent (modTen s t (fun x => { x with stopHit := true })) .ledg 0 5) .ledg 0 7 1
  else s

/-- R714: the owner loads the system time. [DESIGN CHOICE, log 10] -/
def doSystime (s : State) (r : Requester) (v : Nat) : State :=
  regAccess s r .ledg 0 0x128 true (fun s => { s with mgmt := { s.mgmt with systime := BitVec.ofNat 64 v, systimeSet := true } })

/-- TEN_MODE_WRITE (R442). -/
def execTenModeWrite (r : Requester) (value : Nat) (s : State) : Host.Outcome State Fault Refusal := .next (whenLive s (doTenMode s r value))

/-- TEN_SEED_WRITE (R442). -/
def execTenSeedWrite (r : Requester) (value : Nat) (s : State) : Host.Outcome State Fault Refusal := .next (whenLive s (doTenSeed s r value))

/-- TEN_SEAL_REQUEST (R470). -/
def execTenSealRequest (r : Requester) (s : State) : Host.Outcome State Fault Refusal := .next (whenLive s (doSealRequest s r))

/-- SEAL_PERIOD (R470). -/
def execSealPeriod (fail : Bool) (s : State) : Host.Outcome State Fault Refusal := .next (whenLive s (doSealPeriod s fail))

/-- LEDGER_ENTRY_WRITE (R474). -/
def execLedgerEntryWrite (s : State) : Host.Outcome State Fault Refusal := .next (whenLive s (doLedgerWrite s))

/-- RING_UNIT_RETRY (R472). -/
def execRingUnitRetry (s : State) : Host.Outcome State Fault Refusal := .next (whenLive s (doRingRetry s))

/-- RING_CONFIG_WRITE (R472). -/
def execRingConfigWrite (r : Requester) (reg value : Nat) (s : State) : Host.Outcome State Fault Refusal := .next (whenLive s (doRingConfig s r reg value))

/-- RD_PTR_WRITE (R474). -/
def execRdPtrWrite (r : Requester) (value : Nat) (s : State) : Host.Outcome State Fault Refusal := .next (whenLive s (doRdPtr s r value))

/-- TEN_STOP_WRITE (R475). -/
def execTenStopWrite (r : Requester) (reg value : Nat) (s : State) : Host.Outcome State Fault Refusal := .next (whenLive s (doTenStop s r reg value))

/-- STOP_HIT (R475). -/
def execStopHit (tenant : Nat) (s : State) : Host.Outcome State Fault Refusal := .next (whenLive s (doStopHit s tenant))

/-- SYSTIME_WRITE (R714). -/
def execSystimeWrite (r : Requester) (value : Nat) (s : State) : Host.Outcome State Fault Refusal := .next (whenLive s (doSystime s r value))

end Sys2Proof.Machine
end

