-- ==== Sys2Proof/Machine/Phy.lean ====
section
/-! DEFINITION. The coding of a link: messages, Reed-Solomon codewords, lanes, alignment markers, PAM4 symbols, the scrambler of W1 without
FEC (R483). -/

/-- The alignment marker of a lane under a FEC mode, as 10-bit symbols, and the codewords from one marker to the next, which IEEE 802.3
gives and the spec names without giving them (R483). [DESIGN CHOICE, log 103] -/
opaque Sys2Proof.Config.alignMarker : Nat → Nat → List Nat
/-- The codewords from one alignment marker to the next, less one. [DESIGN CHOICE, log 103] -/
opaque Sys2Proof.Config.markerGap : Nat → Nat
/-- The scrambler's register when W1 without FEC starts to send. [DESIGN CHOICE, log 103] -/
opaque Sys2Proof.Config.scrambleStart : Nat

namespace Sys2Proof.Machine

/-! GF(2^10) with x^10 + x^3 + 1, and the codes (IEEE 802.3 clauses 91 and 119). [PRESUMED, log 102] -/

/-- A symbol times x. -/
def gfDouble (a : Nat) : Nat := if a < 512 then 2 * a else Nat.xor (2 * a) 0x409

/-- The product of two symbols; `k` counts the bits of the second. -/
def gfMulBits (a b : Nat) : Nat → Nat
  | 0 => 0
  | k + 1 => Nat.xor (if b.testBit 0 then a else 0) (gfMulBits (gfDouble a) (b / 2) k)

/-- The product of two symbols. -/
def gfMul (a b : Nat) : Nat := gfMulBits a b 10

/-- α to the `n`, α being the symbol x. -/
def gfPow : Nat → Nat
  | 0 => 1
  | n + 1 => gfDouble (gfPow n)

/-- A polynomial times (x + r); coefficients of the highest power first. -/
def mulRoot (p : List Nat) (r : Nat) : List Nat := (p ++ [0]).zipWith Nat.xor (0 :: p.map (gfMul r))

/-- The generator polynomial with the roots α^0 to α^(k-1), highest power first. -/
def rsGen (k : Nat) : List Nat := (List.range k).foldl (fun p i => mulRoot p (gfPow i)) [1]

/-- The remainder register after one more message symbol, `g` being the generator without its leading 1. -/
def rsStep (g : List Nat) (r : List Nat) (m : Nat) : List Nat :=
  let f := Nat.xor m (r.headD 0)
  (r.tail ++ [0]).zipWith Nat.xor (g.map (gfMul f))

/-- The codeword of a message: its symbols, then `k` parity symbols. -/
def rsEncode (k : Nat) (msg : List Nat) : List Nat := msg ++ msg.foldl (rsStep (rsGen k).tail) (List.replicate k 0)

/-- The parity symbols of a FEC mode: 14 of RS(528,514), 30 of RS(544,514) (R483). -/
def rsParity (fec : Nat) : Nat := if fec = 2 then 30 else 14

/-! Messages and lanes. -/

/-- The bits of a flit stream, least significant first. -/
def bitStream (flits : List (List Byte)) : List Bool := flits.flatten.flatMap (fun b => (List.range 8).map b.toNat.testBit)

/-- The value of bits, the first least significant. -/
def bitsNat (bs : List Bool) : Nat := bs.foldr (fun b n => b2n b + 2 * n) 0

/-- A list cut into whole pieces of `n`; what is left over waits for more. -/
def cutWhole {α : Type} (n : Nat) (l : List α) : List (List α) := (List.range (l.length / n)).map (fun i => (l.drop (n * i)).take n)

/-- R483: the 514 symbols of each 5,140-bit message of a flit stream. -/
def messages (flits : List (List Byte)) : List (List Nat) :=
  (cutWhole 5140 (bitStream flits)).map (fun m => (cutWhole 10 m).map bitsNat)

/-- Every `w`-th item from item `l` on: the symbols of a codeword that lane `l` of `w` carries (R483). -/
def onLane {α : Type} (w l : Nat) (xs : List α) : List α := (xs.zip (List.range xs.length)).filterMap (fun e => if e.2 % w == l then some e.1 else none)

/-- R483: the 10-bit symbols of a lane: the alignment marker before each period of codewords, and the lane's part of each codeword.
[DESIGN CHOICE, log 103] -/
def laneSymbols (fec w l : Nat) (flits : List (List Byte)) : List Nat :=
  let cs := (messages flits).map (rsEncode (rsParity fec))
  (cs.zip (List.range cs.length)).flatMap (fun e =>
    (if e.2 % (Config.markerGap fec + 1) == 0 then Config.alignMarker fec l else []) ++ onLane w l e.1)

/-- The bits of 10-bit symbols, least significant first. -/
def symbolBits (xs : List Nat) : List Bool := xs.flatMap (fun x => (List.range 10).map x.testBit)

/-- R483: the PAM4 level of two bits in order of transmission, by the Gray mapping of IEEE 802.3 clause 120. [PRESUMED, log 102] -/
def grayLevel (a b : Bool) : Nat := match a, b with
  | false, false => 0
  | false, true => 1
  | true, true => 2
  | true, false => 3

/-- The PAM4 levels of a lane's bits. -/
def pam4 (bs : List Bool) : List Nat := (cutWhole 2 bs).map (fun p => grayLevel (p.getD 0 false) (p.getD 1 false))

/-! W1 without FEC. -/

/-- The self-synchronising scrambler x^58 + x^39 + 1 (R483): the scrambled bits, first to last; `x` holds the last 58 bits sent, the latest
in bit 0. -/
def scramble : Nat → List Bool → List Bool
  | _, [] => []
  | x, b :: bs =>
    let o := Bool.xor b (Bool.xor (x.testBit 38) (x.testBit 57))
    o :: scramble ((2 * x + b2n o) % 2 ^ 58) bs

/-- The scrambler undone: the bits received, first to last. -/
def descramble : Nat → List Bool → List Bool
  | _, [] => []
  | x, o :: os => Bool.xor o (Bool.xor (x.testBit 38) (x.testBit 57)) :: descramble ((2 * x + b2n o) % 2 ^ 58) os

/-- R483: each 128 scrambled bits behind the sync header 0b01. -/
def syncBlocks (flits : List (List Byte)) : List (List Bool) :=
  (cutWhole 128 (scramble Config.scrambleStart (bitStream flits))).map ([false, true] ++ ·)

/-! The line. -/

/-- R483: what lane `l` of `w` sends for a flit stream under a generation and a FEC mode: the levels of its symbols in order, PAM4 for W3
and W2, NRZ for W1. Without FEC the blocks take the lanes in turn. [DESIGN CHOICE, log 103] -/
def lineOf (gen fec w l : Nat) (flits : List (List Byte)) : List Nat :=
  if fec = 0 then ((onLane w l (syncBlocks flits)).flatten).map b2n
  else
    let bs := symbolBits (laneSymbols fec w l flits)
    if gen = 1 then bs.map b2n else pam4 bs

/-- The flits that the node has put out on a link. -/
def flitsOut (s : State) (n : Nat) : List (List Byte) := s.out.filterMap (fun o => match o with
  | .flit k bs => if k == n then some bs else none
  | .send k _ _ bs => if k == n then some bs else none
  | _ => none)

/-- What lane `l` of a link sends, in the link's mode, for the flits that the node has put out on it. -/
def linkLine (s : State) (n l : Nat) : List Nat := lineOf (lnk s n).mode.gen (lnk s n).fec (lnk s n).mode.width l (flitsOut s n)

end Sys2Proof.Machine
end

