-- ==== Sys2Proof/Machine/LinkRows.lean ====
section
/-! DEFINITION. The steps of the links and the switch (chapter 12). -/

namespace Sys2Proof.Machine

/-- R498, R667: the episode of cause 6 of a link ends after `us` µs outside policy: the OVERRIDE entry, the times, the notice. -/
def endLinkEpisode (s : State) (n us : Nat) : State :=
  let s := modLink s n (fun l => { l with ovr := false, inMs := 0, outUs := 0, ovrTime := l.ovrTime + BitVec.ofNat 64 us })
  let s := { s with pwr := { s.pwr with
    eps := s.pwr.eps.filter (· != (6, n)), ovrTime := tabMod 0 s.pwr.ovrTime 6 (· + BitVec.ofNat 64 us), ovrLast := 6 } }
  emit (ledgerRun (overrideEntry (perfAdd s .pwr 0 6 us) 6 us)) (.notice 2 [6, us])

/-- The same after the time that the link has counted. [DEDUCED, log 59] -/
def endLinkOverride (s : State) (n : Nat) : State := if (lnk s n).ovr then endLinkEpisode s n (lnk s n).outUs else s

/-- What follows when a link has changed its state: an override ends where the link is FAILED or back within policy (R498), holds begin
(R513) and herd members may be split (R588). -/
def linkMoved (before : List Nat) (s : State) (n : Nat) : State :=
  let l := lnk s n
  let s := if l.st = 9 || (l.st = 7 && inPolicy s n l.mode) then endLinkOverride s n else s
  checkSplits (routesChanged before s)

/-- R486: an attempt of a link fails. -/
def attemptLost (s : State) (n : Nat) : State := linkMoved (routeLinks s) (attemptFails s n) n

/-- R485: CTRL.enable set: DISABLED to DOWN; not in Lamb mode (R520). -/
def doLinkEnable (s : State) (r : Requester) (n : Nat) : State :=
  regAccess s r .wlink n 0x10 (!isVf r) (fun s =>
    if (lnk s n).st = 0 && !s.mgmt.lamb then modLink s n (fun l => { l with st := 1, backoff := false }) else s)

/-- R485: a DOWN link sees activity. -/
def doLinkDetect (s : State) (n : Nat) : State :=
  if (lnk s n).st = 1 && !(lnk s n).backoff then modLink s n (fun l => { l with st := 2, cap := none }) else s

/-- Table 12.2: the work of a state ends. TRAIN_W1 leaves with the receive lanes that locked, and NEGOTIATE begins with a CAP flit. -/
def doLinkAdvance (s : State) (n lanes : Nat) : State :=
  match (lnk s n).st with
  | 2 => modLink s n (fun l => { l with st := 3 })
  | 3 => sendCap (modLink s n (fun l => { l with st := 4, rxLanes := lanes % 4, cap := none, sent := none })) n
  | 5 => sendTests (modLink s n (fun l => { l with st := 6 })) n
  | _ => s

/-- R486: a state exceeds its time limit. -/
def doLinkTimeout (s : State) (n : Nat) : State :=
  if (2 ≤ (lnk s n).st && (lnk s n).st ≤ 6) || (lnk s n).st = 8 then attemptLost s n else s

/-- R486: the wait after a failed attempt ends. -/
def doBackoffEnd (s : State) (n : Nat) : State :=
  if (lnk s n).st = 1 && (lnk s n).backoff then modLink s n (fun l => { l with st := 2, backoff := false, cap := none }) else s

/-- Table 12.2: FAILED is left for DETECT. -/
def doFailedRetry (s : State) (n : Nat) : State :=
  if (lnk s n).st = 9 then modLink s n (fun l => { l with st := 2, attempts := 0, cap := none }) else s

/-- R487: the partner's CAP flit is received. [DESIGN CHOICE, log 85] -/
def doCap (s : State) (n : Nat) (c : CapBody) : State :=
  if (lnk s n).st = 4 then
    let s := modLink s n (fun l => { l with cap := some c })
    match agreeMode (sentCap s n) c with
    | some m => trainAt (modLink s n (fun l => { l with agreed := m })) n m
    | none => attemptLost s n
  else s

/-- R487: the CAP flit is sent again. -/
def doCapRepeat (s : State) (n : Nat) : State := if (lnk s n).st = 4 && (lnk s n).cap.isNone then sendCap s n else s

/-- R488, R490: VERIFY ends with the test flits received. -/
def doVerifyEnd (s : State) (n : Nat) (got : List (List Byte)) : State :=
  if (lnk s n).st = 6 then
    let before := routeLinks s
    if verifyPasses got then linkMoved before (enterActive s n) n
    else match modeDown s n (lnk s n).target with
      | some m => trainAt s n m
      | none => attemptLost s n
  else s

/-- R498: the hysteresis after protection acts on a link within policy: doubled where it acts within 1 s of a return. [DEDUCED, log 56] -/
def hystNext (l : Link) : Nat :=
  if l.inMs ≤ 1000 then min 64 (2 * l.hyst) else if 64000 ≤ l.inMs then 1 else l.hyst

/-- R497, protection: one mode down regardless of policy; below W1 x1 the link is FAILED. -/
def protectLink (s : State) (n : Nat) : State :=
  let l := lnk s n
  match modeDown s n l.mode with
  | none =>
    let before := routeLinks s
    linkMoved before (raiseEvent (linkIdle (linkLost s n) n 9) .wlink n 4) n
  | some m =>
    let leaves := !l.ovr && inPolicy s n l.mode && !inPolicy s n m
    let s := modLink (retrain s n m) n (fun x => { x with calmMs := 0, stepped := false })
    if leaves then
      raiseEvent (beginEpisode (modLink s n (fun x => { x with ovr := true, hyst := hystNext l, inMs := 0, outUs := 0 })) 6 n) .wlink n 3
    else s

/-- R497, adaptation: one mode down where the new mode stays within policy. [DEDUCED, log 56] -/
def adaptDown (s : State) (n : Nat) : State :=
  let s := modLink s n (fun x => { x with calmMs := 0 })
  match modeDown s n (lnk s n).mode with
  | some m => if inPolicy s n m then modLink (retrain s n m) n (fun x => { x with stepped := false }) else s
  | none => s

/-- R498: the time of a window counted, within policy or outside it; after 64 s within policy the hysteresis is 1 s again. -/
def windowTime (l : Link) : Link :=
  if l.ovr then { l with outUs := l.outUs + 1000 }
  else { l with inMs := min 64000 (l.inMs + 1), hyst := if 64000 ≤ l.inMs + 1 then 1 else l.hyst }

/-- R497: a window of 1 ms ends. -/
def doErrorWindow (s : State) (n : Nat) : State :=
  let l := lnk s n
  if l.st != 7 && l.st != 8 then s
  else
    let s := modLink s n (fun x => { windowTime x with winFlits := 0, winBad := 0 })
    if l.st = 8 then s
    else if l.winFlits < l.winBad * 10000 then protectLink s n
    else if l.winFlits < l.winBad * 1000000 then adaptDown s n
    else modLink s n (fun x => { x with calmMs := min 1000 (x.calmMs + 1) })

/-- R497: a receive lane of an ACTIVE link loses lock. -/
def doLaneLoss (s : State) (n lane : Nat) : State :=
  if (lnk s n).st = 7 && lane < 2 then
    protectLink (modLink s n (fun l => { l with rxLanes := l.rxLanes - (if bitAt l.rxLanes lane then 2 ^ lane else 0) })) n
  else s

/-- R497: one mode up after 1 s without a trigger, or at once when data waits while an idle step-down is in effect. -/
def doStepUp (s : State) (n : Nat) : State :=
  let l := lnk s n
  if l.st = 7 && !l.ovr && (1000 ≤ l.calmMs || (polPsave s n && l.stepped && !l.queue.isEmpty)) then
    match modeUp s n with
    | some m => modLink (retrain s n m) n (fun x => { x with calmMs := 0 })
    | none => s
  else s

/-- R497: no data flit in either direction for idle_us under psave: RETRAIN to gen_floor. -/
def doIdleDown (s : State) (n : Nat) : State :=
  let l := lnk s n
  let m : LinkMode := { gen := genFloor s n, width := l.mode.width }
  if l.st = 7 && !l.ovr && polPsave s n && l.queue.isEmpty && l.replay.isEmpty && m.gen < l.mode.gen
      && (fecOf m.gen (commonFec s n)).isSome && inPolicy s n m then
    modLink (retrain s n m) n (fun x => { x with stepped := true, calmMs := 0 })
  else s

/-- R499: a retrain ends. -/
def doRetrainEnd (s : State) (n : Nat) : State :=
  if (lnk s n).st = 8 then linkMoved (routeLinks s) (retrainDone s n) n else s

/-- R498: the hysteresis expires after `us` µs outside policy: the link retrains to the lowest mode within policy. Its episode ends when it
is back within policy. -/
def doOverrideReturn (s : State) (n us : Nat) : State :=
  if (lnk s n).st = 7 && (lnk s n).ovr then
    match lowestMode s n with
    | some m => retrain (modLink s n (fun l => { l with outUs := us })) n m
    | none => s
  else s

/-- R516: an ACTIVE link goes DOWN, its partner having reset or its signal being lost, or FAILED. -/
def doLinkDown (s : State) (n : Nat) (failed : Bool) : State :=
  if (lnk s n).st = 7 || (lnk s n).st = 8 then
    let before := routeLinks s
    let t := linkLost s n
    linkMoved before (if failed then raiseEvent (linkIdle t n 9) .wlink n 4 else linkIdle t n 1) n
  else s

/-- CTRL.enable cleared: the transmitters are off, and the link is DISABLED until it is enabled (Table 12.2). -/
def disableLink (s : State) (n : Nat) : State :=
  let before := routeLinks s
  linkMoved before (modLink (linkIdle (linkLost s n) n 0) n (fun l => { l with attempts := 0 })) n

/-- R519: a configuration that is not valid leaves lock unset. -/
def lockChecked (s : State) : State :=
  let w := regWord s .wsw 0 0x100 0
  if bitAt w 31 && !cfgValid (nodeNum s) (groupsG s) (grpSize s) then
    raiseEvent (setRegWord s .wsw 0 0x100 (bits w 0 31)) .wsw 0 3
  else s

/-- R519: a write of NODE_CFG or GRP_SIZE. -/
def doNodeCfg (s : State) (r : Requester) (off v : Nat) : State :=
  if off = 0x100 || off = 0x128 then
    regAccess s r .wsw 0 off (!isVf r) (fun s =>
      if s.links.any (fun l => l.2.st == 7 || l.2.st == 8) then regError s .wsw 0 off
      else lockChecked (setRegWord s .wsw 0 off (if off = 0x100 then v % 2 ^ 32 else bits v 0 6)))
  else s

/-- R518: a switch reset: every flit in its buffers is discarded, holds end with what they hold, and the links come back from RETRAIN in
their modes, their replay buffers kept and sent again (R499). [DEDUCED, log 58] -/
def switchReset (s : State) : State :=
  let lost := s.links.flatMap (fun e => e.2.queue.map (·.p)) ++ s.sw.holds.flatMap (·.held)
  let t : State := { s with sw := { s.sw with holds := [] }, links := s.links.map (fun e => (e.1, { e.2 with queue := [], paths := [] })) }
  let t := lost.foldl leaveInput t
  (t.links.filter (fun e => e.2.st == 7)).foldl (fun x e => resendReplay x e.1) t

/-- LINK_ENABLE (R485). -/
def execLinkEnable (r : Requester) (link : Nat) (s : State) : Host.Outcome State Fault Refusal := .next (whenLive s (doLinkEnable s r link))

/-- LINK_DETECT (R485). -/
def execLinkDetect (link : Nat) (s : State) : Host.Outcome State Fault Refusal := .next (whenLive s (doLinkDetect s link))

/-- LINK_STATE_ADVANCE (R485). -/
def execLinkStateAdvance (link lanes : Nat) (s : State) : Host.Outcome State Fault Refusal := .next (whenLive s (doLinkAdvance s link lanes))

/-- LINK_STATE_TIMEOUT (R486). -/
def execLinkStateTimeout (link : Nat) (s : State) : Host.Outcome State Fault Refusal := .next (whenLive s (doLinkTimeout s link))

/-- ATTEMPT_BACKOFF_END (R486). -/
def execAttemptBackoffEnd (link : Nat) (s : State) : Host.Outcome State Fault Refusal := .next (whenLive s (doBackoffEnd s link))

/-- LINK_FAILED_RETRY (R485). -/
def execLinkFailedRetry (link : Nat) (s : State) : Host.Outcome State Fault Refusal := .next (whenLive s (doFailedRetry s link))

/-- CAP (R487). -/
def execCap (link : Nat) (body : CapBody) (s : State) : Host.Outcome State Fault Refusal := .next (whenLive s (doCap s link body))

/-- CAP_REPEAT (R487). -/
def execCapRepeat (link : Nat) (s : State) : Host.Outcome State Fault Refusal := .next (whenLive s (doCapRepeat s link))

/-- VERIFY_END (R488). -/
def execVerifyEnd (link : Nat) (flits : List (List Byte)) (s : State) : Host.Outcome State Fault Refusal :=
  .next (whenLive s (doVerifyEnd s link flits))

/-- DATA_FLIT (R495). -/
def execDataFlit (link : Nat) (f : Flit) (s : State) : Host.Outcome State Fault Refusal := .next (whenLive s (doDataFlit s link f))

/-- IDLE_FLIT (R493). -/
def execIdleFlit (link : Nat) (f : Flit) (s : State) : Host.Outcome State Fault Refusal := .next (whenLive s (doIdleFlit s link f))

/-- RETRY_REQUEST (R494). -/
def execRetryRequest (link : Nat) (f : Flit) (s : State) : Host.Outcome State Fault Refusal := .next (whenLive s (doRetryRequest s link f))

/-- RETRY_REQUEST_REPEAT (R494). -/
def execRetryRequestRepeat (link : Nat) (s : State) : Host.Outcome State Fault Refusal := .next (whenLive s (doRetryRepeat s link))

/-- LINK_ERROR_WINDOW (R497). -/
def execLinkErrorWindow (link : Nat) (s : State) : Host.Outcome State Fault Refusal := .next (whenLive s (doErrorWindow s link))

/-- LINK_STEP_UP (R497). -/
def execLinkStepUp (link : Nat) (s : State) : Host.Outcome State Fault Refusal := .next (whenLive s (doStepUp s link))

/-- LINK_IDLE_STEPDOWN (R497). -/
def execLinkIdleStepdown (link : Nat) (s : State) : Host.Outcome State Fault Refusal := .next (whenLive s (doIdleDown s link))

/-- RETRAIN_END (R499). -/
def execRetrainEnd (link : Nat) (s : State) : Host.Outcome State Fault Refusal := .next (whenLive s (doRetrainEnd s link))

/-- LINK_OVERRIDE_RETURN (R498). -/
def execLinkOverrideReturn (link outsideUs : Nat) (s : State) : Host.Outcome State Fault Refusal :=
  .next (whenLive s (doOverrideReturn s link outsideUs))

/-- LINK_DOWN (R516). -/
def execLinkDown (link : Nat) (failed : Bool) (s : State) : Host.Outcome State Fault Refusal := .next (whenLive s (doLinkDown s link failed))

/-- LANE_LOCK_LOSS (R497). -/
def execLaneLockLoss (link lane : Nat) (s : State) : Host.Outcome State Fault Refusal := .next (whenLive s (doLaneLoss s link lane))

/-- ROUTE_HOLD_END (R513). -/
def execRouteHoldEnd (hold : Nat) (s : State) : Host.Outcome State Fault Refusal := .next (whenLive s (endHold s hold))

/-- NODE_CFG_WRITE (R519). -/
def execNodeCfgWrite (r : Requester) (reg value : Nat) (s : State) : Host.Outcome State Fault Refusal := .next (whenLive s (doNodeCfg s r reg value))

end Sys2Proof.Machine
end

