-- ==== Sys2Proof/Machine/MemRows.lean ====
section
/-! DEFINITION. The steps of the memory tiers: shared sets, scrub, refresh, windows, seals, zeroing (chapter 9, R623). -/

namespace Sys2Proof.Machine

/-! Windows (R365 to R367). A port keeps its contents when the windows change; a local address then shows what the windows now place
there. -/

/-- The key of a port-local byte: port × 2^40 + port-local data address. -/
def physKey (p d : Nat) : Nat := p * 2 ^ 40 + d

/-- The local address that shows a port-local byte under the windows, if one does: the inverse of `locate` (R366). -/
def shownAt (s : State) (k : Nat) : Option Nat :=
  let p := k / 2 ^ 40
  let d := k % 2 ^ 40
  let find := fun (w : Window) =>
    let q := Nat.log2 (portSet w.pset).length
    let g := (d - w.pbase * 2 ^ 26) / 256
    if (portSet w.pset).contains p && w.pbase * 2 ^ 26 ≤ d && d < (w.pbase + winPart w) * 2 ^ 26 then
      ((List.range (2 ^ q)).map (fun low => w.base * 2 ^ 30 + (g * 2 ^ q + low) * 256 + d % 256)).find? (fun a => locate s a == some (p, d))
    else none
  (windows s).findSome? find

/-- The LPDDR contents put aside by port, while the windows change. [DEDUCED, log 38] -/
def darken (s : State) : State :=
  if !winValid s then s
  else
    let key := fun a => if inLpddr a then (locate s a).map (fun x => physKey x.1 x.2) else none
    { s with
      dark := s.mem.cells.foldl (fun c e => match key e.1 with
        | some k => cellSet c k e.2
        | none => c) s.dark,
      mem := { cells := s.mem.cells.filter (fun e => (key e.1).isNone) },
      darkPoison := s.poison.foldl (fun c l => match key (l * 64) with
        | some k => insNat (k / 64) c
        | none => c) s.darkPoison,
      poison := s.poison.filter (fun l => (key (l * 64)).isNone),
      darkErrs := s.darkErrs ++ s.memErrs.filterMap (fun e => (key (e.line * 64)).map (fun k => { e with line := k / 64 })),
      memErrs := s.memErrs.filter (fun e => (key (e.line * 64)).isNone) }

/-- The LPDDR contents that a valid window set shows, brought back. [DEDUCED, log 38] -/
def lighten (s : State) : State :=
  if !winValid s then s
  else
    { s with
      mem := { cells := s.dark.foldl (fun c e => match shownAt s e.1 with
        | some a => cellSet c a e.2
        | none => c) s.mem.cells },
      dark := s.dark.filter (fun e => (shownAt s e.1).isNone),
      poison := s.darkPoison.foldl (fun c l => match shownAt s (l * 64) with
        | some a => insNat (a / 64) c
        | none => c) s.poison,
      darkPoison := s.darkPoison.filter (fun l => (shownAt s (l * 64)).isNone),
      memErrs := s.memErrs ++ s.darkErrs.filterMap (fun e => (shownAt s (e.line * 64)).map (fun a => { e with line := a / 64 })),
      darkErrs := s.darkErrs.filter (fun e => (shownAt s (e.line * 64)).isNone) }

/-- The data and the tag of port-local data line `l`, shown by a window or not. -/
def portLine (s : State) (p l : Nat) : List Byte × Byte :=
  let k := physKey p (l * 64)
  match shownAt s k with
  | some a => (memBytes s a 64, lineTag s (a / 64))
  | none => ((natsFrom k 64).map (fun x => ((s.dark.find? (fun e => e.1 == x)).map (·.2)).getD 0),
      if s.darkPoison.contains (k / 64) then 0xFF else 0x00)

/-- R369, R376: device line `x` of a port: a data line, or the check bytes of the 15 before it with four bytes of zero. -/
def deviceBytes (s : State) (p x : Nat) : List Byte :=
  if x % 16 = 15 then
    (List.range 15).flatMap (fun i => let d := portLine s p (x / 16 * 15 + i); checkBytes d.1 d.2) ++ List.replicate 4 0
  else (portLine s p (x / 16 * 15 + x % 16)).1

/-- A change of the windows, each port keeping its contents. -/
def rewindow (s : State) (f : State → State) : State := lighten (f (darken s))

/-- WIN_CTRL.lock. -/
def winLocked (s : State) : Bool := bitAt (regWord s .lpc 0 0x180 0) 0

/-- WIN_n set to a value's fields (Table 9.12). -/
def putWindow (s : State) (n v : Nat) : State :=
  let lo := bits v 0 9 + bits v 12 3 * 2 ^ 12 + bits v 16 9 * 2 ^ 16
  rewindow s (fun s => setRegWord (setRegWord s .lpc 0 (0x140 + 8 * n) lo) .lpc 0 (0x144 + 8 * n) (bits v 32 10))

/-- R367: a write of WIN_n. Set values 6 and 7 are reserved (R766). [DEDUCED, log 38] -/
def doWinWrite (s : State) (r : Requester) (n v : Nat) : State :=
  if 8 ≤ n then s
  else regAccess s r .lpc 0 (0x140 + 8 * n) true (fun s =>
    if winLocked s || 6 ≤ bits v 12 3 then regError s .lpc 0 (0x140 + 8 * n) else putWindow s n v)

/-- R367: WIN_CTRL.lock set. -/
def doWinLock (s : State) (r : Requester) : State :=
  regAccess s r .lpc 0 0x180 true (fun s => if winValid s then setRegWord s .lpc 0 0x180 1 else regError s .lpc 0 0x180)

/-! Shared sets (9.8, 9.9). -/

/-- The set that SET_IDX selects. -/
def setIdx (s : State) (d : Nat) : Nat := bits (regWord s .spad d 0x104 0) 0 4

/-- SET_RANGE of a set: first page and pages. The page keeps one register per set, at the model's own offset. [DEDUCED, log 35] -/
def setRange (s : State) (d k : Nat) : Nat × Nat :=
  (bits (regWord s .spad d (0x1000 + 8 * k) 0) 0 17, bits (regWord s .spad d (0x1004 + 8 * k) 0) 0 17)

/-- The local address of an upper-tier page of a die. -/
def upperPage (d p : Nat) : Nat := upperBase d + p * 4096

/-- R382: a page's golden copy. -/
def goldenPage (d p : Nat) : Nat := upperPage d p + 0x20000000

/-- R382: a page's digest copy, 0 A and 1 B. -/
def digestAt (d p copy : Nat) : Nat := lowerBase d + 0x1F800000 + copy * 0x400000 + 32 * p

/-- R383: SET_CMD load. [DEDUCED, log 35] -/
def doSetLoad (s : State) (r : Requester) (d : Nat) : State :=
  regAccess s r .spad d 0x118 true (fun s =>
    let k := setIdx s d
    let x := setRange s d k
    let meets := (spad s d).sets.any (fun e => e.1 != k && e.2.st != 0 && rangesMeet e.2.first e.2.pages x.1 x.2)
    if (sharedSet s d k).st != 0 || x.2 = 0 || 129024 < x.1 + x.2 || meets || anyMaps s (upperPage d x.1) (x.2 * 4096) then
      regError s .spad d 0x118
    else modSet s d k (fun _ => { st := 1, first := x.1, pages := x.2 }))

/-- R383: SET_CMD activate: the digests and golden copies are begun. -/
def doSetActivate (s : State) (r : Requester) (d : Nat) : State :=
  regAccess s r .spad d 0x118 true (fun s =>
    let k := setIdx s d
    if (sharedSet s d k).st = 1 then modSet s d k (fun x => { x with activating := true }) else regError s .spad d 0x118)

/-- The lines of a page that read as poison, by their place in the page. -/
def pagePoison (s : State) (a : Nat) : List Nat := (List.range 64).filter (fun j => linePoison s (a / 64 + j))

/-- R382, R383: a page's golden copy and both digest copies written; poisoned lines stay poisoned in the copy. -/
def publishPage (s : State) (d p : Nat) : State :=
  let s := pageRead s (upperPage d p / 4096)
  let bs := memBytes s (upperPage d p) 4096
  let bad := pagePoison s (upperPage d p)
  let dg := sha256 bs
  let s := (store s (goldenPage d p) bs).1
  let s := bad.foldl (fun x j => (storePoison x (goldenPage d p + 64 * j)).1) s
  (store (store s (digestAt d p 0) dg).1 (digestAt d p 1) dg).1

/-- R383: digests and golden copies are written and the set becomes ACTIVE. -/
def doActivateDone (s : State) (d k : Nat) : State :=
  let e := sharedSet s d k
  if e.st = 1 && e.activating && blkReady s .spad d then
    modSet ((natsFrom e.first e.pages).foldl (fun x p => publishPage x d p) s) d k (fun x => { x with st := 2, activating := false })
  else s

/-- R384: upper-tier page `p` of a die lies in a set that tenants map read-only: ACTIVE, RESTORING or FAILED. -/
def pageKept (s : State) (d p : Nat) : Bool :=
  (spad s d).sets.any (fun e => 2 ≤ e.2.st && e.2.first ≤ p && p < e.2.first + e.2.pages)

/-- The lines of a range zeroed but for those of sealed granules (R392, R395). -/
def zeroOpen (s : State) (a n : Nat) : State :=
  if n = 0 then s
  else (natsFrom (a / 2 ^ 21) ((a + n - 1) / 2 ^ 21 - a / 2 ^ 21 + 1)).foldl (fun x g =>
    let lo := max a (g * 2 ^ 21)
    let hi := min (a + n) ((g + 1) * 2 ^ 21)
    if x.sealedG.contains g then x else zeroEngine x lo (hi - lo)) s

/-- R383, R390: a set is retired: its pages, golden copies and digests are zeroed, a restore under way is abandoned. [DEDUCED, log 35] -/
def retireSet (s : State) (d k : Nat) : State :=
  let e := sharedSet s d k
  let s := zeroOpen s (upperPage d e.first) (e.pages * 4096)
  let s := zeroOpen s (goldenPage d e.first) (e.pages * 4096)
  let s := zeroOpen (zeroOpen s (digestAt d e.first 0) (e.pages * 32)) (digestAt d e.first 1) (e.pages * 32)
  modSpad s d (fun x => { x with wd := x.wd.filter (fun w => w.setNo != k), sets := tabDel x.sets k })

/-- R383: SET_CMD retire. Zeroing stops in Lamb mode (R401), where the command is ignored. [DEDUCED, log 35] -/
def doSetRetire (s : State) (r : Requester) (d : Nat) : State :=
  regAccess s r .spad d 0x118 true (fun s =>
    let k := setIdx s d
    let e := sharedSet s d k
    if s.mgmt.lamb then regError s .spad d 0x118
    else if e.st != 0 && anyMaps s (upperPage d e.first) (e.pages * 4096) then regError s .spad d 0x118 else retireSet s d k)

/-- R387: the digest that a page is compared with: copy A, or B when A is poisoned. -/
def pageDigest (s : State) (d p : Nat) : Option (List Byte) :=
  if !anyPoison s (digestAt d p 0) 32 then some (memBytes s (digestAt d p 0) 32)
  else if !anyPoison s (digestAt d p 1) 32 then some (memBytes s (digestAt d p 1) 32)
  else none

/-- R387: the golden copy is whole and matches. -/
def goldenGood (s : State) (d p : Nat) : Bool :=
  !anyPoison s (goldenPage d p) 4096 && pageDigest s d p == some (sha256 (memBytes s (goldenPage d p) 4096))

/-- A page written whole by the node, which clears its poison. -/
def putPage (s : State) (a : Nat) (bs : List Byte) : State := memPut (zeroEngine s a 4096) a bs

/-- R387: a page comes back: it leaves the table, its set is ACTIVE again once none of its pages is withdrawn, the events are raised and
the ledger entries written. Nothing is written to a sealed granule (R392). -/
def bringBack (s : State) (d p src : Nat) (bs : List Byte) : State :=
  match (spad s d).wd.find? (fun w => w.page == p) with
  | none => s
  | some w =>
    if isSealed s (upperPage d p) then s
    else
      let s := putPage s (upperPage d p) bs
      let s := modSpad s d (fun x => { x with wd := x.wd.filter (fun y => y.page != p) })
      let rest := (spad s d).wd.filter (fun y => y.setNo == w.setNo)
      let s := modSet s d w.setNo (fun e => { e with st := if e.st = 3 && rest.isEmpty then 2 else e.st })
      let s := memEvents (raiseEvent s .spad d 3) (upperPage d p) 4096
      memoryEntries s 1 d w.setNo src p w

/-- R390: an uncorrectable error in a golden copy whose upper page is good: the upper page is copied again. -/
def fixGolden (s : State) (d p : Nat) : State :=
  match setOfPage s d p with
  | none => s
  | some k =>
    let up := upperPage d p
    if ((sharedSet s d k).st = 2 || (sharedSet s d k).st = 3) && !withdrawn s up && !anyPoison s up 4096
        && pageDigest s d p == some (sha256 (memBytes s up 4096)) then
      raiseEvent (putPage s (goldenPage d p) (memBytes s up 4096)) .spad d 6
    else s

/-- R390: an uncorrectable error in a line of one digest copy: the line is written again from the other copy. -/
def fixDigest (s : State) (a other : Nat) : State :=
  if linePoison s (other / 64) then s else (store s (a / 64 * 64) (memBytes s (other / 64 * 64) 64)).1

/-- R390: what an uncorrectable error in a lower-tier line leads to. -/
def lowerError (s : State) (a : Nat) : State :=
  match spadOf a with
  | some (d, 1) =>
    let off := a - lowerBase d
    if off < 0x1F800000 then fixGolden s d (off / 4096)
    else if off < 0x1FC00000 then fixDigest s a (a + 0x400000)
    else fixDigest s a (a - 0x400000)
  | _ => s

/-- Lines are read: errors met, and what an uncorrectable one in a golden copy or a digest leads to (R390). -/
def lowerRead (s : State) (p : Nat → Bool) : State :=
  let u := meetErrs s p
  (errLines s (fun l => p l && !linePoison s l && linePoison u l)).foldl (fun x l => lowerError x (l * 64)) u

/-- R388: an image of a withdrawn page is asked of the owner. -/
def askImage (s : State) (d : Nat) (w : Withdrawn) : State :=
  let s := modSpad s d (fun x => { x with wd := x.wd.map (fun y => if y.page == w.page then { y with img := true } else y) })
  emit (raiseEvent s .spad d 5) (.notice 4 [d, w.setNo, w.page])

/-- The lines of the lower tier that a restore of page `p` reads: its golden copy and both digest copies. -/
def goldenLine (d p l : Nat) : Bool :=
  rangesMeet (l * 64) 64 (goldenPage d p) 4096 || l == digestAt d p 0 / 64 || l == digestAt d p 1 / 64

/-- R387, R388: a withdrawn page is restored from its golden copy, or an image is asked of the owner, once for each page. -/
def doPageRestore (s : State) (d p : Nat) : State :=
  match (spad s d).wd.find? (fun w => w.page == p) with
  | none => s
  | some w =>
    if s.mgmt.restarting || s.mgmt.lamb || !blkReady s .spad d || (sharedSet s d w.setNo).st != 3 then s
    else
      let s := lowerRead s (goldenLine d p)
      if goldenGood s d p then bringBack s d p 0 (memBytes s (goldenPage d p) 4096)
      else if w.img then s
      else askImage s d w

/-- The oldest withdrawn page of a die for which an image is asked (R388). -/
def imagePage (s : State) (d : Nat) : Option Withdrawn :=
  (spad s d).wd.find? (fun w => w.img && (sharedSet s d w.setNo).st == 3)

/-- A scratchpad whose reset waits for images of pages (R388, R397) becomes what its reset leaves it, once none is awaited. [DEDUCED, log 74] -/
def spadSettle (s : State) (d : Nat) : State :=
  match s.mgmt.resetting.find? (fun e => e.1 == pageKey .spad d) with
  | some e =>
    if (spad s d).wd.any (·.img) then s
    else setBlkState { s with mgmt := { s.mgmt with resetting := s.mgmt.resetting.filter (fun r => r.1 != pageKey .spad d) } } .spad d (e.2 % 8)
  | none => s

/-- R388, R389: the owner's image is checked; it restores the page and its golden copy, or fails the set. Where both digest copies are
poisoned, the digest is the 32 bytes that follow the image. [DEDUCED, log 35] -/
def takeImage (s : State) (d addr : Nat) : State :=
  match imagePage s d with
  | none => s
  | some w =>
    let s := meetErrs s (fun l => rangesMeet (l * 64) 64 addr 4128)
    let bs := memBytes s addr 4096
    let dg := (pageDigest s d w.page).getD (memBytes s (addr + 4096) 32)
    let readable := servedRange s addr 4096 && !anyPoison s addr 4096
      && ((pageDigest s d w.page).isSome || (servedRange s (addr + 4096) 32 && !anyPoison s (addr + 4096) 32))
    if readable && sha256 bs == dg then spadSettle (bringBack (putPage s (goldenPage d w.page) bs) d w.page 1 bs) d
    else spadSettle (failSet s d w.setNo w) d

/-- R388: HOST_IMG.go. -/
def doHostImg (s : State) (r : Requester) (d addr : Nat) : State :=
  regAccess s r .spad d 0x120 true (fun s =>
    let a := addr % 2 ^ 48
    let s := setRegWord (setRegWord s .spad d 0x120 (a % 2 ^ 32)) .spad d 0x124 (a / 2 ^ 32)
    if inLpddr a && inLpddr (a + 4095) then takeImage s d a else regError s .spad d 0x120)

/-- R389: SET_TMO passes without a valid image of some page of a set. -/
def doImageTimeout (s : State) (d k : Nat) : State :=
  match (spad s d).wd.find? (fun w => w.img && w.setNo == k && (sharedSet s d k).st == 3) with
  | none => s
  | some w => if s.mgmt.restarting then s else spadSettle (failSet s d k w) d

/-! Scrub (R381, R390). -/

/-- R381: patrol scrub reads a line; `bad` are bytes of it that have gone wrong since it was stored. It stops in Lamb mode (R401) and its
periods wait during a management restart (R742). -/
def doScrub (s : State) (l : Nat) (bad : List Nat) : State :=
  if s.mgmt.lamb || s.mgmt.restarting || !(inLpddr (l * 64) || (spadOf (l * 64)).isSome) || !backed s (l * 64) then s
  else
    let s := addErrs s [{ line := l, bad := bad }]
    let u := lowerRead s (· == l)
    withdrawNew s u u

/-! Refresh (9.6). -/

/-- R666: cause 4 arises at a port. -/
def refreshCause (s : State) (p : Nat) : State :=
  if s.pwr.eps.contains (4, p) then s else raiseEvent (beginEpisode s 4 p) .pwr 0 5

/-- Table 9.7: the rate code of a device's report. -/
def mr4Code (temp : Nat) : Nat := if temp ≤ 85 then 0 else if temp ≤ 95 then 1 else if temp ≤ 105 then 2 else 3

/-- R370: the report of the hottest device of a port. -/
def hottest : List Mr4 → Option Mr4
  | [] => none
  | x :: xs => match hottest xs with
    | some y => if x.temp < y.temp then some y else some x
    | none => some x

/-- R372: the rate code that a port applies: the greater of REF_FLOOR and what its devices' reports require. -/
def refreshRate (s : State) (p : Nat) : Nat := max (portOf s p).floor (portOf s p).rate

/-- Table 9.7: the refresh interval of a port in ns. -/
def refreshNs (s : State) (p : Nat) : Nat := [3900, 1950, 980].getD (refreshRate s p) 980

/-- R370, R371: the rate code after a read: a rise at once, a fall after 8 reads in a row of the same lower code. -/
def rateAfter (x : Port) (code report : Nat) : Port :=
  let x := { x with report := report }
  if x.rate ≤ code then { x with rate := code, lower := 0 }
  else
    let n := if x.lower != 0 && x.lowerCode == code then x.lower + 1 else 1
    if 8 ≤ n then { x with rate := code, lower := 0 } else { x with lower := n, lowerCode := code }

/-- R370 to R373: MR4 of every device of a port is read; the hottest report sets the port's rate code. -/
def doMr4 (s : State) (p : Nat) (reports : List Mr4) : State :=
  let x := portOf s p
  match hottest reports with
  | none => s
  | some r =>
    let code := mr4Code r.temp
    if !x.trained || 16 ≤ p then s
    else
      let s := modPort s p (fun x => rateAfter x code r.field)
      let s := if x.rate < code then raiseEvent s .lpc p 3 else s
      if code = 3 then refreshCause (raiseEvent s .lpc p 4) p else s

/-- R374: a rank owes a refresh. `closed` says that its row has closed since the last, so that what was postponed has been issued; `busy`
that it has an open row with demand accesses queued to it now. A rank with 8 postponed takes no demand access, so that they are issued.
LPC.PERF3 counts refreshes. [DEDUCED, log 38] -/
def doRefresh (s : State) (p rank : Nat) (closed busy : Bool) : State :=
  let x := portOf s p
  let was := if rank = 0 then x.post0 else x.post1
  let n := if closed then 0 else was
  let put := fun m => modPort s p (fun x => if rank = 0 then { x with post0 := m } else { x with post1 := m })
  if !x.trained || x.ranks ≤ rank then s
  else if busy && n < 8 then
    let s := perfAdd (put (n + 1)) .lpc p 3 (was - n)
    if n + 1 = 8 then refreshCause (raiseEvent s .lpc p 7) p else s
  else perfAdd (put 0) .lpc p 3 (was + 1)

/-! Seals (9.10). -/

/-- The local granule that a tenant's granule maps whole and writable. [DEDUCED, log 37] -/
def tenGranule (s : State) (t va : Nat) : Option Nat :=
  match xlateW s t va with
  | none => none
  | some a =>
    if a % 2 ^ 21 = 0 && (inLpddr a || inUpper a)
        && (List.range 512).all (fun i => xlateW s t (va + 4096 * i) == some (a + 4096 * i)) then some a
    else none

/-- R391: TEN.SEAL.go. -/
def doTenantSeal (s : State) (r : Requester) (t va : Nat) : State :=
  regAccess s r .ten t 0x140 true (fun s =>
    if va % 2 ^ 21 != 0 || 2 ^ 48 ≤ va || (ten s t).sealBusy then regError s .ten t 0x140
    else
      let s := modTen s t (fun x => { x with sealAddr := va, sealRefused := false })
      match tenGranule s t va with
      | none => modTen s t (fun x => { x with sealRefused := true })
      | some a => { modTen s t (fun x => { x with sealBusy := true }) with seals := s.seals ++ [{ addr := a, tenant := t }] })

/-- A requester that speaks for an owner: the management controller, or the PF while the node is owned or being released. -/
def asOwner (s : State) (r : Requester) : Bool :=
  match r with
  | .mgmt => true
  | .pf => s.hostIf.own == 1 || s.hostIf.own == 2
  | .vf _ | .cfg _ => false

/-- R391: HOST.SEAL.go. [DEDUCED, log 37] -/
def doOwnerSeal (s : State) (r : Requester) (a : Nat) : State :=
  regAccess s r .host 0 0x130 (asOwner s r) (fun s =>
    if a % 2 ^ 21 != 0 || 2 ^ 48 ≤ a || s.hostIf.sealBusy then regError s .host 0 0x130
    else
      let s := setRegWord (setRegWord s .host 0 0x130 (a % 2 ^ 32)) .host 0 0x134 (a / 2 ^ 32)
      if inLpddr a || inUpper a then
        { s with hostIf := { s.hostIf with sealBusy := true, sealRefused := false }, seals := s.seals ++ [{ addr := a, tenant := 512 }] }
      else { s with hostIf := { s.hostIf with sealRefused := true } })

/-- R391, R466, R467: a seal takes effect. TEN.PERF6 counts a tenant's seals. [DEDUCED, log 37] -/
def doSeal (s : State) (g : Nat) : State :=
  match s.seals.find? (fun q => q.addr == g * 2 ^ 21) with
  | none => s
  | some q =>
    let s := readNow s (fun l => l / 32768 == g)
    let body := memoryBody 3 0 0 0 0 (List.replicate 16 0) q.addr (sha256 (memBytes s q.addr (2 ^ 21)))
    let s := { s with sealedG := insNat g s.sealedG, seals := s.seals.erase q }
    if q.tenant = 512 then
      ledgerDue { s with hostIf := { s.hostIf with sealBusy := false } } { chain := nodeChain, typ := 6, body := body }
    else
      let s := perfAdd (raiseEvent (modTen s q.tenant (fun x => { x with sealBusy := false })) .ten q.tenant 3) .ten q.tenant 6 1
      ledgerDue s { chain := q.tenant, typ := 6, step := (ten s q.tenant).step, body := body }

/-! Zeroing (9.12, R623). -/

/-- R623: HOST.ZREQ.go. -/
def doZreq (s : State) (r : Requester) (pages : Nat) : State :=
  regAccess s r .host 0 0x120 (asOwner s r) (fun s =>
    if 64 ≤ s.hostIf.zreq.length then regError s .host 0 0x120
    else
      let s := setRegWord s .host 0 0x120 (pages % 2 ^ 32)
      { s with hostIf := { s.hostIf with zreq := s.hostIf.zreq ++ [{ addr := regWord2 s .host 0 0x118 0 % 2 ^ 48, pages := pages % 2 ^ 32 }] } })

/-- R393: the seal of every granule that lies wholly in a released range ends. [DEDUCED, log 37] -/
def endSeals (s : State) (a n : Nat) : State :=
  { s with sealedG := s.sealedG.filter (fun g => g * 2 ^ 21 < a || a + n < (g + 1) * 2 ^ 21) }

/-- The lines of a released range zeroed: a page of a set that is in use is not (R384). [DEDUCED, log 35] -/
def zeroReleased (s : State) (a n : Nat) : State :=
  if [0, 1].any (fun d => (spad s d).sets.any (fun e => 2 ≤ e.2.st && rangesMeet (upperPage d e.2.first) (e.2.pages * 4096) a n)) then
    (pagesOf a n).foldl (fun x p =>
      let lo := max a (p * 4096)
      let k := min (a + n) (p * 4096 + 4096) - lo
      match spadOf (p * 4096) with
      | some (d, 0) => if pageKept s d ((p * 4096 - upperBase d) / 4096) then x else zeroOpen x lo k
      | _ => zeroOpen x lo k) s
  else zeroOpen s a n

/-- R623, R393: a range's zeroing completes. Zeroing stops in Lamb mode (R401). -/
def doZeroDone (s : State) (i : Nat) : State :=
  match s.hostIf.zreq[i]? with
  | none => s
  | some z =>
    if s.mgmt.lamb then s
    else
      let s := zeroReleased (endSeals s z.addr (4096 * z.pages)) z.addr (4096 * z.pages)
      raiseEvent { s with hostIf := { s.hostIf with zreq := s.hostIf.zreq.eraseIdx i } } .host 0 5

/-- What lies on a port, zeroed. -/
def zeroPort (s : State) (p : Nat) : State :=
  let on := fun a => inLpddr a && (match locate s a with
    | some (q, _) => q == p
    | none => false)
  { s with
    mem := { cells := s.mem.cells.filter (fun e => !on e.1) }, poison := s.poison.filter (fun l => !on (l * 64)),
    dark := s.dark.filter (fun e => e.1 / 2 ^ 40 != p), darkPoison := s.darkPoison.filter (fun l => l * 64 / 2 ^ 40 != p),
    memErrs := s.memErrs.filter (fun e => !on (e.line * 64)), darkErrs := s.darkErrs.filter (fun e => e.line * 64 / 2 ^ 40 != p) }

/-- R719: a port's zero fill ends and it becomes READY. -/
def doFillEnd (s : State) (p : Nat) : State :=
  if (portOf s p).filling && !s.mgmt.lamb && blkState s .lpc p == 0 then
    setBlkState (modPort (zeroPort s p) p (fun x => { x with filling := false })) .lpc p 1
  else s

/-! The steps. -/

/-- SET_LOAD (R383). -/
def execSetLoad (r : Requester) (die : Nat) (s : State) : Host.Outcome State Fault Refusal := .next (whenLive s (doSetLoad s r die))

/-- SET_ACTIVATE (R383). -/
def execSetActivate (r : Requester) (die : Nat) (s : State) : Host.Outcome State Fault Refusal := .next (whenLive s (doSetActivate s r die))

/-- SET_ACTIVATE_DONE (R383). -/
def execSetActivateDone (die set : Nat) (s : State) : Host.Outcome State Fault Refusal := .next (whenLive s (doActivateDone s die set))

/-- SET_RETIRE (R383). -/
def execSetRetire (r : Requester) (die : Nat) (s : State) : Host.Outcome State Fault Refusal := .next (whenLive s (doSetRetire s r die))

/-- SHARED_PAGE_RESTORE (R387). -/
def execSharedPageRestore (die page : Nat) (s : State) : Host.Outcome State Fault Refusal := .next (whenLive s (doPageRestore s die page))

/-- HOST_IMG_SUBMIT (R388). -/
def execHostImgSubmit (r : Requester) (die addr : Nat) (s : State) : Host.Outcome State Fault Refusal := .next (whenLive s (doHostImg s r die addr))

/-- SET_IMAGE_TIMEOUT (R389). -/
def execSetImageTimeout (die set : Nat) (s : State) : Host.Outcome State Fault Refusal := .next (whenLive s (doImageTimeout s die set))

/-- SCRUB_READ (R381). -/
def execScrubRead (line : Nat) (bad : List Nat) (s : State) : Host.Outcome State Fault Refusal := .next (whenLive s (doScrub s line bad))

/-- MR4_POLL (R370). -/
def execMr4Poll (port : Nat) (rank0 rank1 : List Mr4) (s : State) : Host.Outcome State Fault Refusal :=
  .next (whenLive s (doMr4 s port (rank0 ++ rank1)))

/-- REFRESH_DUE (R374). -/
def execRefreshDue (port rank : Nat) (row : RowUse) (s : State) : Host.Outcome State Fault Refusal :=
  .next (whenLive s (doRefresh s port rank row.closed row.busy))

/-- WIN_WRITE (R367). -/
def execWinWrite (r : Requester) (window value : Nat) (s : State) : Host.Outcome State Fault Refusal := .next (whenLive s (doWinWrite s r window value))

/-- WIN_LOCK (R367). -/
def execWinLock (r : Requester) (s : State) : Host.Outcome State Fault Refusal := .next (whenLive s (doWinLock s r))

/-- TENANT_SEAL (R391). -/
def execTenantSeal (r : Requester) (tenant addr : Nat) (s : State) : Host.Outcome State Fault Refusal := .next (whenLive s (doTenantSeal s r tenant addr))

/-- OWNER_SEAL (R391). -/
def execOwnerSeal (r : Requester) (addr : Nat) (s : State) : Host.Outcome State Fault Refusal := .next (whenLive s (doOwnerSeal s r addr))

/-- SEAL_TAKE_EFFECT (R391). -/
def execSealTakeEffect (granule : Nat) (s : State) : Host.Outcome State Fault Refusal := .next (whenLive s (doSeal s granule))

/-- ZREQ_SUBMIT (R623). -/
def execZreqSubmit (r : Requester) (pages : Nat) (s : State) : Host.Outcome State Fault Refusal := .next (whenLive s (doZreq s r pages))

/-- ZERO_DONE (R623). -/
def execZeroDone (idx : Nat) (s : State) : Host.Outcome State Fault Refusal := .next (whenLive s (doZeroDone s idx))

/-- ZERO_FILL_END (R719). -/
def execZeroFillEnd (port : Nat) (s : State) : Host.Outcome State Fault Refusal := .next (whenLive s (doFillEnd s port))

end Sys2Proof.Machine
end

