-- ==== Sys2Proof/Machine/TenRows.lean ====
section
/-! DEFINITION. Tenants: their registers, the BAR2 windows, tenant reset, ownership and release (chapter 15). -/

namespace Sys2Proof.Machine

/-! Registers of the TEN page (15.5, 15.6). -/

/-- The offset of a stream's block in the TEN page (Table 15.12). -/
def streamOff (st : Nat) : Nat := 0x150 + 0x20 * st

/-- R625: a write of CMD_BASE. A k outside 4 to 16 or a base that is not 4 KiB aligned is a reserved value (R766). [DEDUCED, log 33] -/
def doCmdBase (s : State) (r : Requester) (t st v : Nat) : State :=
  if 8 ≤ st then s
  else regAccess s r .ten t (streamOff st) true (fun s =>
    let k := bits v 48 5
    if enabled s t st || v % 4096 != 0 || k < 4 || 16 < k then regError s .ten t (streamOff st)
    else modStream s t st (fun x => { x with cmdBase := bits v 0 48, k := k }))

/-- R625: a write of CPL_BASE. [DEDUCED, log 33] -/
def doCplBase (s : State) (r : Requester) (t st v : Nat) : State :=
  if 8 ≤ st then s
  else regAccess s r .ten t (streamOff st + 8) true (fun s =>
    if enabled s t st || v % 4096 != 0 then regError s .ten t (streamOff st + 8)
    else modStream s t st (fun x => { x with cplBase := bits v 0 48 }))

/-- The shares of reserved tenants but one (HOST.RES_SUM without it). -/
def sharesBut (s : State) (t : Nat) : Nat :=
  sumOf ((s.tenants.filter (fun e => e.1 != t && e.2.arbClass == 0)).map (fun e => e.2.share))

/-- R628: a write of TEN.ARB. Weight 0 is a reserved value (R766). -/
def doArb (s : State) (r : Requester) (t v : Nat) : State :=
  regAccess s r .ten t 0x10C (!isVf r) (fun s =>
    let cls := bits v 0 1
    let share := bits v 8 8
    if bits v 4 4 = 0 || 192 < sharesBut s t + (if cls = 0 then share else 0) then regError s .ten t 0x10C
    else modTen s t (fun x => { x with arbClass := cls, weight := bits v 4 4, share := share }))

/-- R622: the cached translations of a range of pages, or of the whole tenant, dropped. [DEDUCED, log 83] -/
def invalidate (s : State) (t : Nat) : State :=
  modTen s t (fun x => { x with
    tlb := if x.invAll then [] else x.tlb.filter (fun e => e.vpage < x.invAddr / 4096 || x.invAddr / 4096 + x.invPages ≤ e.vpage) })

/-- TEN.INV's fields stored. -/
def putInv (s : State) (t v : Nat) : State := modTen s t (fun x => { x with invPages := bits v 0 32, invAll := bitAt v 32 })

/-- R622: a write of TEN.INV with go. -/
def doInv (s : State) (r : Requester) (t v : Nat) : State :=
  regAccess s r .ten t 0x130 (!isVf r) (fun s => invalidate (putInv s t v) t)

/-! BAR2 (15.2). -/

/-- An access answered as Unsupported Request. HOST.PERF4 counts them. -/
def answerUr (s : State) : State := perfAdd (emit s .ur) .host 0 4 1

/-- R608: a PF BAR2 access may reach every line of a range. -/
def pfReach (s : State) (a n : Nat) : Bool :=
  a + n ≤ 2 ^ 40 && (linesOf a n).all (fun l => (inLpddr (l * 64) || inUpper (l * 64)) && backed s (l * 64))

/-- R587: the recalls that a host access to local memory starts and waits for. -/
def hostRecalls (s : State) (a n : Nat) (w : Bool) : Option State :=
  match recalls s a n w with
  | [] => none
  | ks => some (ks.foldl (fun x k => startRecall x w k) s)

/-- The places in a read, by byte offset, of lines that read as poison (R380): `at_` gives the local line of an address. -/
def epLines (s : State) (at_ : Nat → Nat) (a n : Nat) : List Nat :=
  ((linesOf a n).filter (fun l => linePoison s (at_ l))).map (fun l => l * 64 - a)

/-- R587: the recalls that a BAR2 access starts and waits for. [DEDUCED, log 81] -/
def barGate (s : State) (b : BarAcc) : Option State :=
  match b.vf with
  | none => hostRecalls s b.addr b.len b.write
  | some t => if b.write then herdGate s t [] [(b.addr, b.len)] else herdGate s t [(b.addr, b.len)] []

/-- R608, R609: a BAR2 access takes place. HOST.PERF0 and PERF1 count bytes written and read, TEN.PERF5 a tenant's bytes. -/
def barDo (s : State) (b : BarAcc) : State :=
  let n := b.len
  match b.vf, b.write with
  | none, false =>
    let s := readNow s (fun l => rangesMeet (l * 64) 64 b.addr n)
    emit (perfAdd s .host 0 1 n) (.data (memBytes s b.addr n) (epLines s id b.addr n))
  | none, true => (store (perfAdd s .host 0 0 n) b.addr b.data).1
  | some t, false =>
    let s := readNow s (spansHave s t [some (b.addr, n)])
    let s := perfAdd (perfAdd s .host 0 1 n) .ten t 5 n
    emit s (.data (tBytes s t b.addr n) (epLines s (fun l => localOf s t (l * 64) / 64) b.addr n))
  | some t, true => (tStore (perfAdd (perfAdd s .host 0 0 n) .ten t 5 n) t b.addr b.data).1

/-- BAR2 accesses in order, the first that must wait for a recall keeping the later ones behind it. -/
def barRun : List BarAcc → State → State
  | [], s => { s with hostIf := { s.hostIf with barWait := [] } }
  | b :: t, s => match barGate s b with
    | some s' => { s' with hostIf := { s'.hostIf with barWait := b :: t } }
    | none => barRun t (barDo s b)

/-- A BAR2 access takes its place. -/
def barTake (s : State) (b : BarAcc) : State :=
  if s.hostIf.barWait.isEmpty then barRun [b] s else { s with hostIf := { s.hostIf with barWait := s.hostIf.barWait ++ [b] } }

/-- The BAR2 accesses that wait go on as far as they can. [DEDUCED, log 81] -/
def barResume (s : State) : State := if s.hostIf.barWait.isEmpty then s else barRun s.hostIf.barWait s

/-- R608: PF BAR2 is read. -/
def doPfRead (s : State) (a n : Nat) (errs : List MemErr) : State :=
  if !fnUp s 0 || s.mgmt.por then s
  else if !(s.hostIf.own == 1 || s.hostIf.own == 2) || (s.mgmt.lamb && !(inLpddr a && inLpddr (a + n - 1))) then answerUr s
  else if !pfReach s a n then raiseEvent (answerUr s) .host 0 4
  else barTake (addErrs s errs) { vf := none, addr := a, len := n, write := false, data := [] }

/-- R608: PF BAR2 is written. -/
def doPfWrite (s : State) (a : Nat) (bs : List Byte) : State :=
  let n := bs.length
  if !fnUp s 0 || s.mgmt.por || s.hostIf.own != 1 || s.mgmt.lamb then s
  else if !pfReach s a n then raiseEvent s .host 0 4
  else barTake s { vf := none, addr := a, len := n, write := true, data := bs }

/-- The VF's window reaches an access (R607): no tenant reset runs (R634), and the window holds it. -/
def vfWindow (s : State) (t a n : Nat) : Bool :=
  !(ten s t).resetting && !s.mgmt.lamb && a + n ≤ 2 ^ bits (regWord s .host 0 0x110 0x24) 0 6

/-- R609: a VF BAR2 access fails at the first page that it cannot use: the log takes the address while it is armed. [DEDUCED, log 82] -/
def barFault (s : State) (t a n : Nat) (w : Bool) : State :=
  let bad := (pagesOf a n).find? (fun p => !usable s t (p * 4096) 4096 w)
  let at_ := max a ((bad.getD (a / 4096)) * 4096)
  raiseEvent (modTen s t (fun x =>
    if x.faultValid then x else { x with faultAddr := at_ % 2 ^ 48, faultWrite := w, faultValid := true })) .ten t 0

/-- R609: a VF BAR2 is read. [DEDUCED, log 82] -/
def doVfRead (s : State) (t a n : Nat) (errs : List MemErr) : State :=
  if !fnUp s (t + 1) || s.mgmt.por || 512 ≤ t then s
  else if !vfWindow s t a n then answerUr s
  else
    let s := fillTlb s t a n
    if !usable s t a n false then barFault (answerUr s) t a n false
    else barTake (addErrs s errs) { vf := some t, addr := a, len := n, write := false, data := [] }

/-- R609: a VF BAR2 is written. [DEDUCED, log 82] -/
def doVfWrite (s : State) (t a : Nat) (bs : List Byte) : State :=
  let n := bs.length
  if !fnUp s (t + 1) || s.mgmt.por || 512 ≤ t || !vfWindow s t a n then s
  else
    let s := fillTlb s t a n
    if !usable s t a n true then barFault s t a n true
    else barTake s { vf := some t, addr := a, len := n, write := true, data := bs }

/-! Tenant reset (15.8). -/

/-- R306: a tenant's runs stop without a save record and their cores are zeroed. [DESIGN CHOICE, log 9] -/
def muleTenant (s : State) (t : Nat) : State :=
  let mine := s.mule.runs.filter (fun r => r.tenant == t)
  let s := mine.foldl (fun x r => (runCores r).foldl freeCore x) s
  { s with mule := { s.mule with runs := s.mule.runs.filter (fun r => r.tenant != t),
                                 dirty := s.mule.dirty.filter (fun d => !mine.any (fun r => r.id == d.run)) } }

/-- R437: a group's staged data of a tenant is discarded, with EVENT.pf_cancel and PERF5, and its blocks are zeroed. -/
def drakeTenant (s : State) (t : Nat) : State :=
  let s := [0, 1, 2].foldl (fun x g => ((drake x g).runs.filter (fun r => r.tenant == t)).foldl (fun y r => dropStaged y g r) x) s
  { s with drakes := tabMap s.drakes (fun _ d => { d with
    runs := d.runs.filter (fun r => r.tenant != t),
    busy := d.busy.filter (fun b => tabGet 512 d.owner b != t),
    owner := d.owner.filter (fun e => e.2 != t) }) }

/-- R634, steps 1 to 4: a tenant reset begins; a trigger during a running reset merges with it (Table 15.7). [DEDUCED, log 81] -/
def startReset (s : State) (t : Nat) : State :=
  if 512 ≤ t || (ten s t).resetting then s
  else
    let s := modTen s t (fun x => { x with resetting := true, done := false })
    let s := endCommands s t 0x21
    let s := bumpEpoch (modTen s t (fun x => { x with gen := (x.gen + 1) % 2 ^ 16 })) .ten t
    let s := collTenant (oxTenant s t) t 0x21
    let s := { s with jobs := s.jobs.filter (fun j => j.tenant != t) }
    henTenant (xagTenant (drakeTenant (releaseSystems (muleTenant s t) t) t) t) t

/-- Every tenant is reset (R633). -/
def resetAll (s : State) : State := (List.range 512).foldl startReset s

/-- R634 step 5, R776: the context is in the state of R78 and the ring counts are 0; ring bases and sizes are kept (R636). -/
def blankTenant (s : State) (t : Nat) : State :=
  modTen (blankContext s t) t (fun x => { x with
    nextSeq := 0, streams := tabMap x.streams (fun _ y => { cmdBase := y.cmdBase, k := y.k, cplBase := y.cplBase }) })

/-- R470, R477: the SEAL of every chain that has gained entries and the GENESIS of a tenant reset; stop point, seed and mode are cleared. [DEDUCED, log 42] -/
def resetEntries (s : State) (t : Nat) : State :=
  genesisAfter (sealGained s) t 2 (fun x => { x with
    replay := false, seed := 0, stopStep := 0, stopStream := 0, stopOrd := 0, stopEn := false, stopHit := false })

/-- R615 step 3: every chain is sealed once every tenant's reset has ended. -/
def releaseSeal (s : State) : State :=
  if s.hostIf.own = 2 && !s.hostIf.relSealed && !s.tenants.any (fun e => e.2.resetting) then
    ledgerRun (sealGained { s with hostIf := { s.hostIf with relSealed := true } })
  else s

/-- R634, steps 5 to 7. A tenant in a collective waits for its end (R635). -/
def doResetDone (s : State) (t : Nat) : State :=
  if !(ten s t).resetting || !collClear s t then s
  else
    let s := ledgerRun (resetEntries (blankTenant s t) t)
    let s := modTen s t (fun x => { x with resetting := false, done := true })
    let s := raiseEvent (raiseVec (raiseVec s (t + 1) 9) 0 3) .host 0 3
    releaseSeal (perfAdd (perfAdd s .ten t 7 1) .host 0 5 1)

/-- R633: 1 written to TEN.CTRL2.reset. -/
def doTenReset (s : State) (r : Requester) (t : Nat) : State := regAccess s r .ten t 0x100 true (fun s => startReset s t)

/-- R633: a Function Level Reset of a VF. -/
def doVfFlr (s : State) (t : Nat) : State :=
  if s.hostIf.vfEnable && t < s.hostIf.numVfs && s.hostIf.gen != 0 then startReset s t else s

/-- R633: a Function Level Reset of the PF. -/
def doPfFlr (s : State) : State := if s.hostIf.gen != 0 && !s.hostIf.crs then resetAll s else s

/-- R633: VF Enable cleared by a configuration write. It is held while the node is released (Table 15.3). -/
def doVfClear (s : State) : State :=
  if s.hostIf.vfEnable && s.hostIf.own = 1 && s.hostIf.gen != 0 then resetAll { s with hostIf := { s.hostIf with vfEnable := false } } else s

/-- R606, Table 15.3: NumVFs and VF Enable set by a configuration write. -/
def doVfSet (s : State) (n : Nat) : State :=
  if s.hostIf.own = 1 && !s.hostIf.vfEnable && s.hostIf.gen != 0 && !s.hostIf.crs && 1 ≤ n && n ≤ 512 then
    { s with hostIf := { s.hostIf with vfEnable := true, numVfs := n } }
  else s

/-! The PCIe link and interrupts. -/

/-- R626: the pending raisings of a function's open vectors are sent. [DEDUCED, log 87] -/
def flushVecs (s : State) (fn : Nat) : State :=
  (List.range 10).foldl (fun x v =>
    let m := msixOf x fn
    if bitAt m.pend v && msixOpen x fn v then
      raiseVec { x with hostIf := { x.hostIf with msix := tabSet x.hostIf.msix fn { m with pend := m.pend - 2 ^ v } } } fn v
    else x) s

/-- A function has a vector (R626). -/
def hasVec (fn v : Nat) : Bool := if fn = 0 then v < 4 else fn ≤ 512 && v < 10

/-- A vector's mask bit set or cleared; unmasking sends what is pending (R626). -/
def maskVec (s : State) (fn v : Nat) (masked : Bool) : State :=
  if !hasVec fn v then s
  else
    let m := msixOf s fn
    let m' := { m with mask := setBits m.mask v 1 (b2n masked) }
    flushVecs { s with hostIf := { s.hostIf with msix := tabSet s.hostIf.msix fn m' } } fn

/-- R626: a vector is unmasked. [DEDUCED, log 87] -/
def doUnmask (s : State) (fn v : Nat) : State := if fnUp s fn then maskVec s fn v false else s

/-- R606: the host interface and the configuration space of every function are reset. [DEDUCED, log 81] -/
def hostReset (s : State) : State :=
  let s := modPage s .host 0 (fun p => { p with epoch := p.epoch + 1, staged := [] })
  { s with hostIf := { s.hostIf with
    vfEnable := false, numVfs := 0, d3 := [], barWait := s.hostIf.barWait.filter (·.write),
    msix := tabMap s.hostIf.msix (fun _ m => { m with mask := 0xFFFF, entries := [] }) } }

/-- R606: a conventional reset or a loss of the link: the link goes down. [DEDUCED, log 81] -/
def doPcieReset (s : State) : State :=
  let s := if s.hostIf.gen != 0 then raiseEvent s .host 0 1 else s
  hostReset { s with hostIf := { s.hostIf with gen := 0, width := 0, flit := false } }

/-- R643: the link comes up. -/
def doLinkUp (s : State) (gen width : Nat) (flit : Bool) : State :=
  if s.hostIf.gen = 0 && 1 ≤ gen && gen ≤ 6 && [1, 2, 4, 8, 16].contains width then
    raiseEvent { s with hostIf := { s.hostIf with gen := gen, width := width, flit := flit } } .host 0 0
  else s

/-- R605: a function enters or leaves D3hot. [DEDUCED, log 87] -/
def doD3 (s : State) (fn : Nat) (on : Bool) : State :=
  if s.hostIf.gen = 0 || s.hostIf.crs || !(fn = 0 || (s.hostIf.vfEnable && fn ≤ s.hostIf.numVfs)) then s
  else if on then { s with hostIf := { s.hostIf with d3 := insNat fn s.hostIf.d3 } }
  else flushVecs { s with hostIf := { s.hostIf with d3 := s.hostIf.d3.filter (· != fn) } } fn

/-! Ownership (15.3). -/

/-- Ownership has changed: HOST.EVENT.own_change and the platform event, with the new state. -/
def ownChanged (s : State) : State := emit (raiseEvent s .host 0 2) (.notice 1 [s.hostIf.own])

/-- R613: the node gets an owner. -/
def claimFor (s : State) (viaPf : Bool) (eid : Nat) (smbus : Bool) : State :=
  ownChanged { s with hostIf := { s.hostIf with own := 1, viaPf := viaPf, eid := eid, smbus := smbus } }

/-- R613, R614: a claim written by the PF. -/
def doCtrlClaim (s : State) (r : Requester) : State :=
  regAccess s r .host 0 0x108 (decide (r = .pf)) (fun s =>
    if s.hostIf.own != 0 then regError (raiseEvent s .host 0 6) .host 0 0x108
    else if s.mgmt.lamb then regError s .host 0 0x108
    else claimFor s true 0 false)

/-- R615, steps 1 and 2: the release sequence begins. -/
def startRelease (s : State) : State :=
  let s := { s with hostIf := { s.hostIf with own := 2, relSealed := false } }
  let s := (tenantNums s).foldl (fun x t => (List.range 8).foldl (fun y st =>
    flushFetched ((stream y t st).fetched.length + 1) y t st 0x13) x) s
  resetAll s

/-- R615: the owner writes OWN_CTRL.release. A second request has no effect (R616). -/
def doCtrlRelease (s : State) (r : Requester) : State :=
  regAccess s r .host 0 0x108 (decide (r = .pf)) (fun s =>
    if s.mgmt.lamb || s.hostIf.own = 0 then regError s .host 0 0x108
    else if s.hostIf.own = 1 then startRelease s else s)

/-- R615, R478: the ledger has drained or HOST.REL_TMO has passed: ZEROING; every shared set is retired. -/
def doLedgerWaitEnd (s : State) (timedOut : Bool) : State :=
  if s.hostIf.own != 2 || !s.hostIf.relSealed || s.mgmt.lamb || !(timedOut || s.ledger.wr == s.ledger.rd) then s
  else
    let s := { s with hostIf := { s.hostIf with own := 3, vfEnable := false, numVfs := 0 } }
    [0, 1].foldl (fun x d => (spad x d).sets.foldl (fun y e => retireSet y d e.1) x) s

/-- The RW words of a page kept where `keep` says so; its staged words and event enables are dropped. -/
def clearPage (s : State) (b : Block) (i : Nat) (keep : Nat → Bool) : State :=
  modPage s b i (fun p => { p with regs := p.regs.filter (fun e => keep e.1), staged := [], eventEn := if b = .ten then 0 else p.eventEn })

/-- R478: the ledger cleared by an owner change: every chain starts again with reason 3 (R461). -/
def clearLedger (s : State) : State :=
  let s := { s with ledger := { chains := (List.range 512 ++ [nodeChain]).map (fun c => (c, { cleared := true })) } }
  clearPage s .ledg 0 (fun off => !(0x108 ≤ off && off ≤ 0x110))

/-- R615, step 4: what the node held is zeroed and the settings return to their reset values. [DEDUCED, log 81] -/
def clearOwned (s : State) : State :=
  let s := { s with
    mem := {}, poison := [], dark := [], darkPoison := [], memErrs := [], darkErrs := [], sealedG := [], seals := [],
    spads := tabMap s.spads (fun _ x => { x with sets := [], wd := [] }),
    tenants := tabMap s.tenants (fun _ x => { gen := x.gen, done := x.done }),
    hen := {}, drakes := [], solvs := [], coll := { s.coll with ops := [], held := [] }, arbs := [],
    oxs := tabMap s.oxs (fun _ x => { x with
      held := none, bank := 0, bank0 := {}, bank1 := {}, acc0 := [], acc1 := [], recomb := [], accNext := 0, accUse := [], owing := [] }),
    xag := { peerEpoch := s.xag.peerEpoch, peerGen := s.xag.peerGen, nextTag := s.xag.nextTag, nextRmw := s.xag.nextRmw } }
  let s := (List.range 512).foldl (fun x t => if (tabFind x.pages (pageKey .ten t)).isSome then clearPage x .ten t (fun _ => false) else x) s
  let s := if (tabFind s.pages (pageKey .xag 0)).isSome then clearPage s .xag 0 (fun off => off == 0x104) else s
  clearLedger s

/-- R615, step 5: the node is UNOWNED. Zeroing stops in Lamb mode (R401). -/
def doZeroingEnd (s : State) : State :=
  if s.hostIf.own != 3 || s.mgmt.lamb then s
  else
    let s := clearOwned s
    ownChanged { s with hostIf := { s.hostIf with
      own := 0, viaPf := false, eid := 0, smbus := false, zreq := [], relSealed := false, sealBusy := false, sealRefused := false, barWait := [] } }

/-! The steps. -/

/-- SRSP (R585). -/
def execSrsp (m : HerdMsg) (s : State) : Host.Outcome State Fault Refusal := .next (whenLive s (barResume (atHome s m (fun x => doSrsp x m))))

/-- WB (R584). -/
def execWb (m : HerdMsg) (s : State) : Host.Outcome State Fault Refusal := .next (whenLive s (barResume (atHome s m (fun x => doWb x m))))

/-- EVC (R586). -/
def execEvc (m : HerdMsg) (s : State) : Host.Outcome State Fault Refusal := .next (whenLive s (barResume (atHome s m (fun x => doEvc x m))))

/-- HERD_MEMBER_LEAVE (R597). -/
def execHerdMemberLeave (member : Nat) (s : State) : Host.Outcome State Fault Refusal := .next (whenLive s (barResume (doMemberLeave s member)))

/-- CMD_BASE_WRITE (R625). -/
def execCmdBaseWrite (r : Requester) (tenant stream value : Nat) (s : State) : Host.Outcome State Fault Refusal :=
  .next (whenLive s (doCmdBase s r tenant stream value))

/-- CPL_BASE_WRITE (R625). -/
def execCplBaseWrite (r : Requester) (tenant stream value : Nat) (s : State) : Host.Outcome State Fault Refusal :=
  .next (whenLive s (doCplBase s r tenant stream value))

/-- ARB_WRITE (R628). -/
def execArbWrite (r : Requester) (tenant value : Nat) (s : State) : Host.Outcome State Fault Refusal := .next (whenLive s (doArb s r tenant value))

/-- TRANSLATION_INVALIDATE (R622). -/
def execTranslationInvalidate (r : Requester) (tenant value : Nat) (s : State) : Host.Outcome State Fault Refusal :=
  .next (whenLive s (doInv s r tenant value))

/-- PF_BAR2_READ (R608). -/
def execPfBar2Read (addr len : Nat) (errs : List MemErr) (s : State) : Host.Outcome State Fault Refusal :=
  .next (whenLive s (doPfRead s addr len errs))

/-- PF_BAR2_WRITE (R608). -/
def execPfBar2Write (addr : Nat) (data : List Byte) (s : State) : Host.Outcome State Fault Refusal := .next (whenLive s (doPfWrite s addr data))

/-- VF_BAR2_READ (R609). -/
def execVfBar2Read (tenant addr len : Nat) (errs : List MemErr) (s : State) : Host.Outcome State Fault Refusal :=
  .next (whenLive s (doVfRead s tenant addr len errs))

/-- VF_BAR2_WRITE (R609). -/
def execVfBar2Write (tenant addr : Nat) (data : List Byte) (s : State) : Host.Outcome State Fault Refusal :=
  .next (whenLive s (doVfWrite s tenant addr data))

/-- MSIX_UNMASK (R626). -/
def execMsixUnmask (fn vector : Nat) (s : State) : Host.Outcome State Fault Refusal := .next (whenLive s (doUnmask s fn vector))

/-- PCIE_RESET (R606): PERST and a loss of the link act alike. -/
def execPcieReset (_linkLost : Bool) (s : State) : Host.Outcome State Fault Refusal := .next (whenLive s (doPcieReset s))

/-- PCIE_LINK_UP (R643). -/
def execPcieLinkUp (gen width : Nat) (flit : Bool) (s : State) : Host.Outcome State Fault Refusal := .next (whenLive s (doLinkUp s gen width flit))

/-- VF_ENABLE_SET (R606). -/
def execVfEnableSet (numVfs : Nat) (s : State) : Host.Outcome State Fault Refusal := .next (whenLive s (doVfSet s numVfs))

/-- D3HOT (R605). -/
def execD3hot (fn : Nat) (on : Bool) (s : State) : Host.Outcome State Fault Refusal := .next (whenLive s (doD3 s fn on))

/-- OWN_CTRL_CLAIM (R613). -/
def execOwnCtrlClaim (r : Requester) (s : State) : Host.Outcome State Fault Refusal := .next (whenLive s (doCtrlClaim s r))

/-- OWN_CTRL_RELEASE (R615). -/
def execOwnCtrlRelease (r : Requester) (s : State) : Host.Outcome State Fault Refusal := .next (whenLive s (doCtrlRelease s r))

/-- RELEASE_LEDGER_WAIT_END (R615). -/
def execReleaseLedgerWaitEnd (timedOut : Bool) (s : State) : Host.Outcome State Fault Refusal := .next (whenLive s (doLedgerWaitEnd s timedOut))

/-- RELEASE_ZEROING_END (R615). -/
def execReleaseZeroingEnd (s : State) : Host.Outcome State Fault Refusal := .next (whenLive s (doZeroingEnd s))

/-- TENANT_RESET (R634). -/
def execTenantReset (r : Requester) (tenant : Nat) (s : State) : Host.Outcome State Fault Refusal := .next (whenLive s (doTenReset s r tenant))

/-- VF_FLR (R633). -/
def execVfFlr (tenant : Nat) (s : State) : Host.Outcome State Fault Refusal := .next (whenLive s (doVfFlr s tenant))

/-- PF_FLR (R633). -/
def execPfFlr (s : State) : Host.Outcome State Fault Refusal := .next (whenLive s (doPfFlr s))

/-- VF_ENABLE_CLEAR (R633). -/
def execVfEnableClear (s : State) : Host.Outcome State Fault Refusal := .next (whenLive s (doVfClear s))

/-- TENANT_RESET_DONE (R634). -/
def execTenantResetDone (tenant : Nat) (s : State) : Host.Outcome State Fault Refusal := .next (whenLive s (doResetDone s tenant))

end Sys2Proof.Machine
end

