-- ==== Sys2Proof/Machine/Resets.lean ====
section
/-! DEFINITION. Quiesce and reset of one block instance, availability, and blocks whose management and data path disagree (19.3, 19.4,
19.6). -/

namespace Sys2Proof.Machine

/-! What an instance holds. -/

/-- The unit that a page's instance is, where it is one (R804). -/
def unitOf (b : Block) (i : Nat) : Option EUnit :=
  match b with
  | .ox => some (.ox i)
  | .pony => some (.pony i)
  | .solv => some (.solv i)
  | .drake => some (.drake i)
  | .coll => some .coll
  | .xag => some .xag
  | _ => none

/-- A Goose core holds commands: fetched, running in a loop, or issued. [DEDUCED, log 16] -/
def gooseWork (s : State) (g : Nat) : Bool :=
  s.jobs.any (fun j => !j.orphan && coreOf j.tenant == g)
    || (coreTenants s g).any (fun t => (List.range 8).any (fun st =>
      !(stream s t st).fetched.isEmpty || !(stream s t st).loops.isEmpty))

/-- The instance holds work (R734, R740). [DEDUCED, log 92] -/
def holdsWork (s : State) (b : Block) (i : Nat) : Bool :=
  match b with
  | .goose => gooseWork s i
  | .mule => s.mule.runs.any (fun r => r.cores.any (fun n => n / 8 == i))
  | .ledg => !s.ledger.waiting.isEmpty
  | .hen => !s.hen.cuts.isEmpty || s.hen.drain.isSome || resting s
  | .wlink => !(lnk s i).queue.isEmpty || !(lnk s i).replay.isEmpty
  | .wsw => !s.sw.holds.isEmpty || s.links.any (fun l => !l.2.queue.isEmpty)
  | .spad => (spad s i).sets.any (fun e => e.2.activating)
  | .xag => !s.xag.runs.isEmpty || !s.xag.waiting.isEmpty || !s.xag.rmw.isEmpty || s.jobs.any (fun j => decide (j.unit = .xag))
  | .ten => decide ((ten s i).en ≠ 0)
  | _ => match unitOf b i with
    | some u => s.jobs.any (fun j => decide (j.unit = u))
    | none => false

/-- STATE as the page shows it (R734, R758); a cluster reads READY while any of its cores is IDLE (R310). [DEDUCED, log 92] -/
def liveState (s : State) (b : Block) (i : Nat) : Nat :=
  if b = .ten then
    (if s.mgmt.lamb then 5 else if (ten s i).resetting then 3 else if !(ten s i).assigned then 0 else if (ten s i).en ≠ 0 then 2 else 1)
  else if b = .mule && blkState s b i = 1 && (natsFrom (8 * i) 8).any (fun n => (mcore s n).st == 1) then 1
  else if blkState s b i = 1 && holdsWork s b i then 2
  else blkState s b i

/-! The quiesce and the reset of each block. -/

/-- A Mule core of a cluster that is reset stops at its boundary with cause 5, unless it has halted or stopped, and writes its record; its
run goes on without it, and its registers are zeroed (R299, R304). A core whose run has not been loaded writes its record when the run
is. [DEDUCED, log 45] -/
def stopForReset (s : State) (n : Nat) : State :=
  match coreRun s n with
  | none => s
  | some (r, j) =>
    let c := mcore s n
    let stops := c.st = 2 || c.st = 3
    let s := if stops then raiseEvent (setCore s n { c with cause := 5 }) .mule (n / 8) 0 else s
    let s := if r.started && c.st != 5 then writeRecord s n j.cmd else s
    loseCore s n 0 (endOf n (mcore s n))

/-- R304: a cluster quiesces: its cores stop and their registers are zeroed. What its L2 holds dirty is written back. A run that has not
loaded its image and has lost every core completes TARGET_GONE. [DEDUCED, log 45] -/
def muleQuiesce (s : State) (cl : Nat) : State :=
  let s := (natsFrom (8 * cl) 8).foldl stopForReset s
  let s := { s with mule := { s.mule with dirty := s.mule.dirty.filter (fun d => d.cluster != cl) } }
  (s.mule.runs.filter (fun r => !r.started && (runCores r).isEmpty)).foldl (fun x r =>
    match x.jobs.find? (fun j => decide (j.unit = .mule) && j.result.isNone && runOf j r) with
    | some j => endRunMule x x r j (failResult 0x22 {} 0)
    | none => x) s

/-- The cores of a cluster put into a state; those in FAULT stay so. -/
def setCores (s : State) (cl st : Nat) : State :=
  (natsFrom (8 * cl) 8).foldl (fun x n =>
    if (coreRun x n).isSome || (mcore x n).st = 6 then x else setCore x n { st := st }) s

/-- R308, R310: the cores of a cluster after its start-up check, those that `bad` names in FAULT: the cluster is READY while one is left. -/
def checkCores (s : State) (cl : Nat) (bad : List Nat) : State :=
  (List.range 8).foldl (fun x k => setCore x (8 * cl + k) { st := if bad.contains k then 6 else 1 }) s

/-- R433: a PREFETCH of a group ends without its remaining entries: what it staged is discarded, and fill_tok is signalled for them. [DEDUCED, log 39] -/
def pfCancel (s : State) (g : Nat) (j : Job) : State :=
  if cOp j.cmd != 0x43 || j.result.isSome then s
  else match pfRun s g j with
    | some r => markReady (endRun (fillRest (dropStaged s g r) j.tenant j.cmd r.committed) g j) j.tenant
    | none => markReady (fillRest s j.tenant j.cmd 0) j.tenant

/-- The commands of a group that are not orphans. -/
def drakeHeld (s : State) (g : Nat) : List Job := s.jobs.filter (fun j => decide (j.unit = .drake g) && !j.orphan)

/-- What a group staged discarded, an orphan's too. -/
def dropRuns (s : State) (g : Nat) : State :=
  modDrake ((drake s g).runs.foldl (fun x r => dropStaged x g r) s) g (fun d => { d with runs := [] })

/-- R436: a group's commands complete TARGET_GONE, and what it staged is discarded. -/
def drakeQuiesce (s : State) (g : Nat) : State :=
  dropRuns (failJobs ((drakeHeld s g).foldl (fun x j => pfCancel x g j) s) (.drake g) .drake g 1) g

/-- R726: what a block's quiesce completes or cancels (R173, R244, R304, R349, R436, R553, R595, R705, R518; Table 12.2 for a link). -/
def quiesceInst (s : State) (b : Block) (i : Nat) : State :=
  match b with
  | .ox => failJobs s (.ox i) .ox i 5
  | .pony => failJobs s (.pony i) .pony i 5
  | .mule => muleQuiesce s i
  | .solv => failJobs s (.solv i) .solv i 5
  | .drake => drakeQuiesce s i
  | .coll => collReset s
  | .xag => xagReset s
  | .hen => henReset s
  | .wsw => switchReset s
  | _ => s

/-- R397: a page of a set in use comes back under R387, from its golden copy; where that is bad the page is withdrawn and an image asked
(R388). `w` is its entry, with the steps recorded before the reset. -/
def restorePage (s : State) (d : Nat) (w : Withdrawn) : State :=
  if isSealed s (upperPage d w.page) then s
  else
    let s := lowerRead (modSpad s d (fun x => { x with wd := x.wd ++ [w] })) (goldenLine d w.page)
    if goldenGood s d w.page then bringBack s d w.page 0 (memBytes s (goldenPage d w.page) 4096)
    else askImage (modSet s d w.setNo (fun e => { e with st := 3 })) d w

/-- R397: every page of a shared set that is in use is restored; `was` is the withdrawn-page table before the reset. -/
def restoreSet (was : List Withdrawn) (s : State) (d k : Nat) : State :=
  let e := sharedSet s d k
  (natsFrom e.first e.pages).foldl (fun x p =>
    let w := (was.find? (fun w => w.page == p)).getD { page := p, setNo := k }
    restorePage x d { w with img := false }) (modSet s d k (fun x => { x with st := 2 }))

/-- R397: a scratchpad reset: the upper tier is zeroed, the withdrawn-page table emptied, the sets in use restored. [DEDUCED, log 74] -/
def spadReset (s : State) (d : Nat) : State :=
  let was := (spad s d).wd
  let s := modSpad (zeroOpen s (upperBase d) (2 ^ 29)) d (fun x => { x with wd := [] })
  (spad s d).sets.foldl (fun x e => if e.2.st = 2 || e.2.st = 3 then restoreSet was x d e.1 else x) s

/-- R485, R517: a link that is reset leaves its state and comes up again. [DEDUCED, log 74] -/
def linkReset (s : State) (n : Nat) : State :=
  if (lnk s n).st = 0 then s
  else
    let before := routeLinks s
    linkMoved before (modLink (linkIdle (linkLost s n) n 1) n (fun l => { l with attempts := 0 })) n

/-- What a block's reset zeroes and brings back. -/
def zeroInst (s : State) (b : Block) (i : Nat) : State :=
  match b with
  | .ox => oxZero s i
  | .pony => edgeLost s i
  | .mule => setCores s i 0
  | .solv => solvReset s i
  | .drake => modDrake s i (fun _ => {})
  | .spad => spadReset s i
  | .wlink => linkReset s i
  | _ => s

/-- The STATE after a block's reset: FENCED and FAULT stay (R739, R757); a block whose rule returns it to READY does so, unless it was
OFF; the others enter OFF. [DEDUCED, log 74] -/
def resetTo (b : Block) (st : Nat) : Nat :=
  if st = 4 || st = 6 || st = 0 then st
  else match b with
    | .ox | .pony | .mule | .solv | .drake | .coll => 0
    | _ => 1

/-- The words staged in a page discarded (R762). -/
def unstage (s : State) (b : Block) (i : Nat) : State := modPage s b i (fun p => { p with staged := [] })

/-- R516: the epoch of a link that leaves ACTIVE increments with that; every other reset increments its block's. -/
def resetEpoch (s0 s : State) (b : Block) (i : Nat) : State :=
  if b = .wlink && ((lnk s0 i).st = 7 || (lnk s0 i).st = 8) then s else bumpEpoch s b i

/-- R775: one block instance is reset, to the STATE given. A scratchpad that waits for images stays QUIESCING until they are in (R397), and
a reset asked meanwhile merges with that (R729). -/
def resetInst (s : State) (b : Block) (i st : Nat) : State :=
  let s1 := unstage s b i
  if b = .goose then gooseSettle (gooseBegin s1 i (8 + st)) i
  else if b = .spad && s.mgmt.resetting.any (fun r => r.1 == pageKey .spad i) then
    { s with mgmt := { s.mgmt with resetting := s.mgmt.resetting.map (fun e => if e.1 == pageKey .spad i then (e.1, 8 + st) else e) } }
  else
    let s2 := setBlkState (resetEpoch s1 (zeroInst (quiesceInst s1 b i) b i) b i) b i st
    if b = .ledg then ledgerRun s2
    else if b = .spad && (spad s2 i).wd.any (·.img) then
      setBlkState { s2 with mgmt := { s2.mgmt with
        resetting := s2.mgmt.resetting.filter (fun r => r.1 != pageKey .spad i) ++ [(pageKey .spad i, 8 + st)] } } .spad i 3
    else s2

/-- R726: an instance quiesces to OFF. -/
def quiesceOff (s : State) (b : Block) (i : Nat) : State :=
  if b = .goose then gooseSettle (gooseBegin s i 0) i
  else
    let s := quiesceInst s b i
    let s := if b = .wlink then disableLink s i else if b = .mule then setCores s i 0 else s
    setBlkState s b i 0

/-! CTRL (Table 20.3). -/

/-- The block that MGMT.AVAIL_ID names. [DEDUCED, log 75] -/
def availBlock (s : State) : Option (Block × Nat) := idBlock (regWord s .mgmt 0 0x134 0)

/-- MGMT.AVAIL_CTRL.busy: an action runs on the block named. -/
def availBusy (s : State) : Bool :=
  s.mgmt.mmBusy && (match availBlock s with
    | some (b, i) => s.mgmt.resetting.any (fun r => r.1 == pageKey b i)
    | none => false)

/-- R757: an AVAIL action runs on this instance. -/
def availOn (s : State) (b : Block) (i : Nat) : Bool := availBusy s && decide (availBlock s = some (b, i))

/-- The pages whose CTRL.quiesce is reserved. -/
def noQuiesce (b : Block) : Bool := b == .mgmt || b == .host || b == .pwr || b == .ten

/-- R726, R756, R757: 1 written to CTRL.quiesce. A quiesce that runs already takes it in. [DEDUCED, log 74] -/
def doQuiesce (s : State) (r : Requester) (b : Block) (i : Nat) : State :=
  regAccess s r b i 0x10 (!isVf r) (fun s =>
    let st := blkState s b i
    if noQuiesce b then s
    else if availOn s b i || st = 0 || st = 4 || st = 5 || st = 6 then regError s b i 0x10
    else if st = 3 then s
    else quiesceOff s b i)

/-- R729: a reset written while an instance quiesces: it merges with a reset that runs, and follows a quiesce. [DEDUCED, log 74] -/
def resetMerged (s : State) (b : Block) (i : Nat) : State :=
  { s with mgmt := { s.mgmt with resetting := s.mgmt.resetting.map (fun e => if e.1 == pageKey b i && e.2 == 0 then (e.1, 8) else e) } }

/-- R775, R756, R757: 1 written to CTRL.reset. [DEDUCED, log 74] -/
def doBlockReset (s : State) (r : Requester) (b : Block) (i : Nat) : State :=
  regAccess s r b i 0x10 (!isVf r || b == .ten) (fun s =>
    let st := blkState s b i
    match b with
    | .mgmt => s
    | .ten => if s.mgmt.lamb then regError s b i 0x10 else startReset s i
    | .host => hostReset s
    | .pwr => bumpEpoch (unstage s .pwr 0) .pwr 0
    | _ =>
      if availOn s b i || st = 5 then regError s b i 0x10
      else if st = 3 then resetMerged s b i
      else resetInst s b i (resetTo b st))

/-! Availability (R733). -/

/-- A block in FENCED added to those in disagreement (R739): the event and a log entry of class 6. A block in FAULT stays there, as only
action 3 leaves FAULT. -/
def fenceBlock (s : State) (b : Block) (i : Nat) : State :=
  let k := pageKey b i
  let st := blkState s b i
  let s := blkError (raiseEvent s .mgmt 0 1) b i 6 0 0 0xFFF
  if st = 6 then s
  else
    let s := { s with mgmt := { s.mgmt with
      fenced := if s.mgmt.fenced.contains k then s.mgmt.fenced else s.mgmt.fenced ++ [k],
      resetting := s.mgmt.resetting.map (fun e => if e.1 == k then (e.1, e.2 / 8 * 8 + 4) else e) } }
    if st = 3 then s else setBlkState s b i 4

/-- A block leaves FENCED. -/
def unfence (s : State) (b : Block) (i : Nat) : State :=
  { s with mgmt := { s.mgmt with fenced := s.mgmt.fenced.filter (· != pageKey b i) } }

/-- A port may be READY: trained, its start-up fill ended (R719). -/
def portReady (s : State) (p : Nat) : Bool := (portOf s p).trained && !(portOf s p).filling

/-- A block put into READY; an array in Steer mode stays out of service (R181). -/
def toReady (s : State) (b : Block) (i : Nat) : State :=
  if (b = .lpc && !portReady s i) || (b = .ox && (ox s i).steer) then s
  else
    let s := setBlkState (unfence s b i) b i 1
    if b = .mule then setCores s i 1 else if b = .ledg then ledgerRun s else s

/-- R733, action 1: from OFF or FENCED to READY. A block in FAULT or in a quiesce stays. -/
def makeReady (s : State) (b : Block) (i : Nat) : State :=
  let st := blkState s b i
  if st = 0 || st = 4 then toReady s b i else s

/-- R733, action 2: quiesce to OFF. A block in FAULT stays there. -/
def makeOff (s : State) (b : Block) (i : Nat) : State :=
  let st := blkState s b i
  if st = 1 || st = 4 then quiesceOff (unfence s b i) b i else s

/-- R733, action 3: reset, then the start-up check: READY, or FAULT with a log entry of class 4 (R720). `bad` is empty where the check
passes; for a Mule cluster it names the cores that fail, each on its own (R308). An array's check is the Steer test (R170). [DEDUCED, log 75] -/
def resetCheck (s : State) (b : Block) (i : Nat) (bad : List Nat) : State :=
  let pass := if b = .mule then !(List.range 8).all bad.contains else bad.isEmpty
  let s := resetInst (unfence s b i) b i (if pass then 1 else 6)
  let s := if b = .ox then steerCheck s i pass else if b = .mule then checkCores s i bad else s
  let s := if bad.isEmpty then s else raiseEvent (blkError s b i 4 0 0 0xFFF) .mgmt 0 2
  if pass && b = .lpc && !portReady s i then setBlkState s .lpc i 0 else s

/-- R733, action 4: FENCED left for READY. [DEDUCED, log 75] -/
def leaveFenced (s : State) (b : Block) (i : Nat) : State := if blkState s b i = 4 then toReady s b i else s

/-- R733: an AVAIL request: the live STATE compared with the expected one; on a match `f` acts, else the block enters FENCED. It is ignored
in Lamb mode and during a management restart (R742, R748), while an action runs, and where AVAIL_ID names no block that has
availability. PERF5 and PERF6 count. [DEDUCED, log 75] -/
def doAvail (s : State) (action expect : Nat) (f : State → Block → Nat → State) : State :=
  if s.mgmt.lamb || s.mgmt.restarting || availBusy s || 7 ≤ expect then regError s .mgmt 0 0x138
  else match availBlock s with
    | none => regError s .mgmt 0 0x138
    | some (b, i) =>
      if noQuiesce b then regError s .mgmt 0 0x138
      else
        let s := setRegWord s .mgmt 0 0x138 (action + expect * 16)
        if liveState s b i = expect then
          f (perfAdd { s with mgmt := { s.mgmt with mismatch := false, mmBusy := b == .goose || b == .spad } } .mgmt 0 5 1) b i
        else fenceBlock (perfAdd { s with mgmt := { s.mgmt with mismatch := true } } .mgmt 0 6 1) b i

/-- R740: a FENCED block that holds no work is reconciled at a tick: it leaves FENCED for READY. [DEDUCED, log 75] -/
def reconcile (s : State) : State :=
  s.mgmt.fenced.foldl (fun x k =>
    match blkList[k / 4096 - 1]? with
    | some b =>
      let i := k % 4096
      if blkState x b i = 4 && !holdsWork x b i then toReady (perfAdd x .mgmt 0 5 1) b i else x
    | none => x) s

/-! Timeouts (R727, R730). -/

/-- R727: a block that has not quiesced in time is reset, or put OFF, at once. MGMT.PERF7 counts. -/
def doQuiesceTimeout (s : State) (b : Block) (i : Nat) : State :=
  if b = .goose then
    match gooseFollow s i with
    | some f => gooseEnd (perfAdd s .mgmt 0 7 1) i f
    | none => s
  else s

/-- A command of a unit completes TARGET_GONE, where it runs and has no result: what its engine still has of it ends (R433, Table 13.7). [DEDUCED, log 76] -/
def jobGone (s : State) (u : EUnit) (j : Job) : State :=
  if j.result.isSome then s
  else match u with
    | .coll =>
      match s.coll.ops.find? (fun e => opJob s e.2 == some j) with
      | some e => raiseAbort s s e.1 e.2 5
      | none => finishJob s (goneEvent s u) j (failResult 0x22 {} 0)
    | .xag => finishJob s { goneEvent s u with xag := { s.xag with runs := s.xag.runs.filter (fun r => xRunJob s r != some j) } } j (failResult 0x22 {} 0)
    | .drake g => finishJob s (goneEvent (pfCancel s g j) u) j (failResult 0x22 {} 0)
    | _ => finishJob s (goneEvent s u) j (failResult 0x22 {} 0)

/-- R730, R399: the request of a command meets the die-to-die timeout: the command completes TARGET_GONE; a Mule core stops with
cause 6. `k` is the command's place among those of its unit, or the core. [DEDUCED, log 76] -/
def goneAt (s : State) (u : EUnit) (k : Nat) : State :=
  match u with
  | .mule => if (mcore s k).st = 2 then stopCore s k 6 else s
  | _ =>
    match (s.jobs.filter (fun j => decide (j.unit = u)))[k]? with
    | some j => jobGone s u j
    | none => s

/-- R730: a die-to-die request of a block reaches 50 µs: an error of class 5 at the requester, and the command it served is gone. A
request of HOST or MGMT is a register access; a read returns ones (R768). [DEDUCED, log 76] -/
def doD2dTimeout (s : State) (b : Block) (i : Nat) (u : EUnit) (k : Nat) : State :=
  if blkCount b ≤ i || s.mgmt.lamb then s
  else
    let s := perfAdd (blkError s b i 5 0 0 0xFFF) .mgmt 0 3 1
    if b = .host || b = .mgmt then emit s (.regData 0xFFFFFFFF) else goneAt s u k

/-! The steps. -/

/-- AVAIL_MAKE_READY (R733). -/
def execAvailMakeReady (expect : Nat) (s : State) : Host.Outcome State Fault Refusal := .next (whenLive s (doAvail s 1 expect makeReady))

/-- AVAIL_QUIESCE_OFF (R733). -/
def execAvailQuiesceOff (expect : Nat) (s : State) : Host.Outcome State Fault Refusal := .next (whenLive s (doAvail s 2 expect makeOff))

/-- AVAIL_RESET_CHECK (R733). -/
def execAvailResetCheck (expect : Nat) (bad : List Nat) (s : State) : Host.Outcome State Fault Refusal :=
  .next (whenLive s (doAvail s 3 expect (fun s b i => resetCheck s b i bad)))

/-- AVAIL_LEAVE_FENCED (R733). -/
def execAvailLeaveFenced (expect : Nat) (s : State) : Host.Outcome State Fault Refusal := .next (whenLive s (doAvail s 4 expect leaveFenced))

/-- BLOCK_QUIESCE (R726). -/
def execBlockQuiesce (r : Requester) (block : Block) (inst : Nat) (s : State) : Host.Outcome State Fault Refusal :=
  .next (whenLive s (doQuiesce s r block inst))

/-- BLOCK_RESET (R775). -/
def execBlockReset (r : Requester) (block : Block) (inst : Nat) (s : State) : Host.Outcome State Fault Refusal :=
  .next (whenLive s (doBlockReset s r block inst))

/-- QUIESCE_TIMEOUT (R727). -/
def execQuiesceTimeout (block : Block) (inst : Nat) (s : State) : Host.Outcome State Fault Refusal := .next (whenLive s (doQuiesceTimeout s block inst))

/-- D2D_TIMEOUT (R730). -/
def execD2dTimeout (block : Block) (inst : Nat) (unit : EUnit) (idx : Nat) (s : State) : Host.Outcome State Fault Refusal :=
  .next (whenLive s (doD2dTimeout s block inst unit idx))

end Sys2Proof.Machine
end

