-- ==== Sys2Proof/Machine/Startup.lean ====
section
/-! DEFINITION. Start-up, node and power-on resets, the management firmware, Lamb mode (19.1, 19.2, 19.7, 19.8, 21.4). -/

namespace Sys2Proof.Machine

/-! Lamb mode (19.8). -/

/-- R745, step 4: the grants that R677 does not leave are taken, and ox_clk and mule_clk stop. -/
def lambPower (s : State) : State :=
  let s := pwrGroups.foldl (fun x g => modGrp x g (fun y => { y with grant := if g = 5 || g = 9 || g = 10 then y.grant else 0 })) s
  [0, 1, 2].foldl (fun x d => modDom x d (fun y => { y with mhz := some 0, next := none })) s

/-- The duration of an episode that Lamb mode ends, which nothing gives: a free value of at most 32 bits. [DESIGN CHOICE, log 7] -/
def freeSpan (s : State) : Nat × State := ((Config.freeWord s.freeCount).toNat % 2 ^ 32, { s with freeCount := s.freeCount + 1 })

/-- R674, R745, step 5: every open episode ends: those of the causes, and those of the links. [DESIGN CHOICE, log 59] -/
def endEpisodes (s : State) : State :=
  let s := (natsFrom 1 7).foldl (fun x c =>
    if c != 6 && epOpen x c then let f := freeSpan x; endEpisode f.2 c f.1 else x) s
  (s.links.map (·.1)).foldl (fun x n => if (lnk x n).ovr then endLinkOverride x n else x) s

/-- The blocks that go on in Lamb mode (R745, R746). [DEDUCED, log 79; DEDUCED, log 92] -/
def lambKeeps (b : Block) : Bool := b == .mgmt || b == .host || b == .pwr || b == .ledg || b == .lpc || b == .ten

/-- R745, step 6: every stopped block reads LAMB. A block that is OFF or in FAULT was not running. [DEDUCED, log 79; DEDUCED, log 92] -/
def lambStates (s : State) : State :=
  blkList.foldl (fun x b =>
    if lambKeeps b then x
    else (List.range (blkCount b)).foldl (fun y i =>
      let st := blkState y b i
      if st = 0 || st = 6 then y else setBlkState y b i 5) x) s

/-- R745, steps 1 to 4: the engines stop, every command without a record gets one, the collective unit aborts, the links are DISABLED,
and the clocks stop. [DEDUCED, log 79] -/
def lambStop (s : State) : State :=
  let s := [0, 1, 2].foldl (fun x g => (drakeHeld x g).foldl (fun y j => pfCancel y g j) x) s
  let s := [0, 1, 2].foldl dropRuns s
  let s := (tenantNums s).foldl (fun x t => endCommands x t 0x22) s
  let s := collLamb s
  let s := { s with
    jobs := []
    mgmt := { s.mgmt with fenced := [], resetting := [], mmBusy := false } }
  let s := (s.links.map (·.1)).foldl disableLink s
  lambPower s

/-- R745, steps 5 and 6. Under cause 4 no seal is made. -/
def lambRecord (s : State) : State :=
  let s := endEpisodes s
  let s := ledgerRun (if s.mgmt.lambCause = 4 then s else sealGained s)
  emit (raiseEvent (lambStates s) .mgmt 0 0) (.notice 3 [s.mgmt.lambCause])

/-- R744, R746, R748: Lamb mode is entered for a cause; a second cause adds nothing. During a management restart steps 5 and 6 wait for its
end. [DEDUCED, log 79] -/
def enterLamb (s : State) (cause : Nat) : State :=
  if s.mgmt.lamb || s.mgmt.por || s.mgmt.tripped then s
  else
    let t := s.mgmt.systime.toNat
    let s := lambStop { s with mgmt := { s.mgmt with lamb := true, lambCause := cause, lambTime := t } }
    if s.mgmt.restarting then { s with mgmt := { s.mgmt with lambOwed := true } } else lambRecord s

/-- R735, class 7: an uncorrectable error in control state. -/
def doControlFault (s : State) (b : Block) (i : Nat) : State :=
  if blkCount b ≤ i then s else enterLamb (raiseEvent (blkError s b i 7 0 0 0xFFF) .mgmt 0 3) 1

/-- R744: MGMT.LAMB_CTRL.enter. -/
def doLambCtrl (s : State) (r : Requester) : State := regAccess s r .mgmt 0 0x11C (asOwner s r) (fun s => enterLamb s 5)

/-- R666: protection cause 7: cause 2 has held for 100 ms, or a sensor reads 110 °C. -/
def doThermalHold (s : State) (die temp : Nat) : State :=
  if 4 ≤ die || !(epOpen s 2 || 110 ≤ temp) || s.mgmt.lamb then s
  else enterLamb (beginEpisode (raiseEvent (noteTemp s die temp) .pwr 0 3) 7 die) 2

/-! Resets of the node (19.2, 20.6, 21.6). -/

/-- What a reset of the whole node leaves: the part, the flash, and, the model's own, what has been sent, the waiting commands, the free
values drawn and the count of cycles. -/
def blankNode (s : State) (m : Mgmt) : State :=
  { part := s.part, mgmt := { m with fw := s.mgmt.fw, board := s.mgmt.board }
    tap := s.tap, gclk := s.gclk, out := s.out, freeCount := s.freeCount, pending := s.pending }

/-- R723, R724: a node reset: start-up runs again from phase 2; the RAS log stays (R737). An update staged in Lamb mode of cause 4 waits for
phase 2 (R747). -/
def nodeResetNow (s : State) : State :=
  let l := s.mgmt.lamb
  let s := blankNode s {
    por := false, phase := 2, rstKind := if l then 3 else 2, rstLamb := if l then s.mgmt.lambCause else 0
    staged := s.mgmt.staged && l && s.mgmt.lambCause == 4, slotB := s.mgmt.slotB
    log := s.mgmt.log, logHead := s.mgmt.logHead }
  setBlkState (setBlkState s .mgmt 0 1) .pwr 0 1

/-- R748: a node reset during the entry into Lamb mode waits for its end. [DEDUCED, log 78] -/
def startNodeReset (s : State) : State :=
  if s.mgmt.lambOwed then { s with mgmt := { s.mgmt with nodeRstOwed := true } } else nodeResetNow s

/-- R723: MGMT.NODE_RST.go. -/
def doNodeReset (s : State) (r : Requester) : State := regAccess s r .mgmt 0 0x118 (asOwner s r) startNodeReset

/-- R798: POR_N is asserted. The trip mark survives (R797). [DEDUCED, log 3; DEDUCED, log 80] -/
def powerOn (s : State) : State :=
  let s1 := blankNode s { tripped := s.mgmt.tripped }
  { s1 with tap := .idcode, gclk := 0 }

/-- R785: a rail has left its margin, by its place in Table 21.4: VDD_AON and VDDIO act as POR_N, and the trip mark is lost with VDD_AON
(R797); any other is protection cause 5, Lamb cause 3. [DEDUCED, log 3; DEDUCED, log 80] -/
def doRailFault (s : State) (rail : Nat) : State :=
  if 12 ≤ rail || s.mgmt.por then s
  else if rail = 10 then powerOn { s with mgmt := { s.mgmt with tripped := false } }
  else if rail = 11 then powerOn s
  else whenLive s (if s.mgmt.lamb then s else enterLamb (beginEpisode s 5 rail) 3)

/-! Start-up (19.1). -/

/-- R718, R724: POR_N is released: phase 1. [DEDUCED, log 80] -/
def doPorRelease (s : State) : State :=
  if !s.mgmt.por then s
  else
    let s := { s with mgmt := { s.mgmt with por := false, tripped := false, phase := 1, rstKind := b2n s.mgmt.tripped } }
    setBlkState (setBlkState s .mgmt 0 1) .pwr 0 1

/-- A firmware slot authenticates. -/
def fwGood (s : State) (b : Bool) : Bool := (s.mgmt.fw.getD (b2n b) { good := false }).good

/-- The check of an instance failed. -/
def failed (rs : List CheckResult) (b : Block) (i : Nat) : Bool := rs.any (fun r => decide (r.block = b) && r.inst == i && !r.pass)

/-- The next phase. -/
def toPhase (s : State) (n : Nat) : State := { s with mgmt := { s.mgmt with phase := n } }

/-- R721, R747: phase 2 ends: slot A, then slot B, or the slot updated under Lamb cause 4. -/
def phase2 (s : State) : State :=
  let start := fun (b : Bool) => toPhase { s with mgmt := { s.mgmt with slotB := b, staged := false } } 3
  if s.mgmt.staged && fwGood s (!s.mgmt.slotB) then start (!s.mgmt.slotB)
  else if fwGood s false then start false
  else if fwGood s true then start true
  else enterLamb s 4

/-- The usable capacity of an organisation in units of 64 MiB (Table 9.4, R369). -/
def usableUnits (density ranks : Nat) : Nat := [60, 90, 120, 180, 240].getD density 0 * ranks

/-- R361: the rates of a type (Table 9.3). -/
def rateOk (typ mts : Nat) : Bool :=
  [3200, 4267, 5500, 6400].contains mts || (typ == 2 && [7500, 8533, 9600].contains mts)

/-- A board's port is populated and within Tables 9.3 and 9.4. -/
def portCfgOk (c : PortCfg) : Bool := (c.typ == 1 || c.typ == 2) && c.density ≤ 4 && (c.ranks == 1 || c.ranks == 2) && rateOk c.typ c.mts

/-- R362, R363: a port is trained; one that fails is OFF and raises train_fail. Its configured capacity stays that of the windows that
include it, so that those alone are unavailable (R363, R367). [DEDUCED, log 38; DEDUCED, log 77] -/
def trainPort (rs : List CheckResult) (s : State) (e : Nat × PortCfg) : State :=
  let c := e.2
  if 16 ≤ e.1 || c.typ = 0 then s
  else if failed rs .lpc e.1 || !portCfgOk c then
    raiseEvent (modPort s e.1 (fun p => { p with typ := c.typ, usable := if portCfgOk c then usableUnits c.density c.ranks else 0 })) .lpc e.1 0
  else modPort s e.1 (fun p => { p with
    typ := c.typ, trained := true, ranks := c.ranks, density := c.density, mts := c.mts, vendor := c.vendor, revision := c.revision
    usable := usableUnits c.density c.ranks, filling := true })

/-- The blocks that start-up checks one by one in phase 6 (Table 19.1), each instance passing or failing. -/
def checkedBlocks : List Block := [.goose, .ox, .pony, .solv, .spad, .drake, .coll, .xag, .hen, .ledg]

/-- R720: an instance that failed its check enters FAULT; one that passed is READY. The check of an array is the Steer test (R177). -/
def checkInst (rs : List CheckResult) (b : Block) (s : State) (i : Nat) : State :=
  let s := if b = .ox then steerCheck s i (!failed rs b i) else s
  if failed rs b i then enterFault s b i 0xFFF else setBlkState s b i 1

/-- R310, R720: a cluster after the test of its cores, which `rs` names by core. -/
def checkCluster (rs : List CheckResult) (s : State) (cl : Nat) : State :=
  let cores := natsFrom (8 * cl) 8
  let s := cores.foldl (fun x n => setCore x n { st := if failed rs .mule n then 6 else 1 }) s
  if cores.all (failed rs .mule) then enterFault s .mule cl 0xFFF
  else
    let s := if cores.any (failed rs .mule) then raiseEvent (blkError s .mule cl 4 0 0 0xFFF) .mgmt 0 2 else s
    setBlkState s .mule cl 1

/-- Phase 6 ends. [DEDUCED, log 77] -/
def phase6 (s : State) (rs : List CheckResult) : State :=
  let s := checkedBlocks.foldl (fun x b => (List.range (blkCount b)).foldl (checkInst rs b) x) s
  toPhase ((List.range 16).foldl (checkCluster rs) s) 7

/-- R368: the window of a set over ports that are all trained: its size in GiB, 0 where it gets none. -/
def defaultSize (s : State) (k : Nat) : Nat :=
  let ps := (portSet k).map (portOf s)
  if ps.all (·.trained) then (portSet k).length * (ps.map (·.usable)).foldl min 480 / 16 else 0

/-- The word of a window. -/
def winWord (base set size pbase : Nat) : Nat := base % 512 + set % 8 * 2 ^ 12 + size % 512 * 2 ^ 16 + pbase % 1024 * 2 ^ 32

/-- A window register set. -/
def setWin (s : State) (n w : Nat) : State := setRegWord (setRegWord s .lpc 0 (0x140 + 8 * n) (w % 2 ^ 32)) .lpc 0 (0x144 + 8 * n) (w / 2 ^ 32)

/-- R368: windows 0, 1 and 2 over sets 2, 4 and 5. -/
def defaultWindows (s : State) : State :=
  let z0 := defaultSize s 2
  let z1 := defaultSize s 4
  let z2 := defaultSize s 5
  let put := fun (x : State) (n base set size : Nat) => if size = 0 then x else setWin x n (winWord base set size 0)
  put (put (put s 0 0 2 z0) 1 z0 4 z1) 2 (z0 + z1) 5 z2

/-- The windows of the board configuration. -/
def boardWindows (s : State) : State :=
  (s.mgmt.board.windows.zip (List.range 8)).foldl (fun x e =>
    setWin x e.2 (winWord (e.1.getD 0 0) (e.1.getD 1 0) (e.1.getD 2 0) (e.1.getD 3 0))) s

/-- R368: the windows set up and locked; a set that is not consistent is not locked, and sets ERR_STATUS (R367). -/
def setupWindows (s : State) : State :=
  let s := if s.mgmt.board.windows.isEmpty then defaultWindows s else boardWindows s
  if winValid s then setRegWord s .lpc 0 0x180 1 else regError s .lpc 0 0x180

/-- R520: the switch and the links loaded from the board configuration; the switch is READY and the configured links are enabled. -/
def setupSwitch (s : State) : State :=
  let s := s.mgmt.board.switch.foldl (fun x e => setRegWord x .wsw 0 e.1 e.2) s
  let s := latchPolicies (s.mgmt.board.policies.foldl (fun x e => if e.1 < 96 then setRegWord x .wlink e.1 0x10C e.2 else x) s)
  let s := lockChecked (setRegWord s .wsw 0 0x100 (setBits (regWord s .wsw 0 0x100 0) 31 1 1))
  let s := (List.range 96).foldl (fun x n => setBlkState x .wlink n 1) (setBlkState s .wsw 0 1)
  s.mgmt.board.links.foldl (fun x n => if n < 96 && (lnk x n).st = 0 then modLink x n (fun l => { l with st := 1 }) else x) s

/-- R718: a phase ends. `rs` names the checks that failed; the others passed. [DEDUCED, log 77] -/
def doPhaseEnd (s : State) (rs : List CheckResult) : State :=
  if s.mgmt.por || s.mgmt.startDone || s.mgmt.lamb then s
  else match s.mgmt.phase with
    | 1 => toPhase s 2
    | 2 => phase2 s
    | 3 => if s.mgmt.board.good then toPhase s 4 else enterLamb s 4
    | 4 => toPhase s 5
    | 5 => toPhase (s.mgmt.board.ports.foldl (trainPort rs) s) 6
    | 6 => phase6 s rs
    | 7 =>
      let s := setupSwitch (setupWindows s)
      toPhase { s with pwr := { s.pwr with enabled := true } } 8
    | 8 => setBlkState { s with mgmt := { s.mgmt with startDone := true }, hostIf := { s.hostIf with crs := false } } .host 0 1
    | _ => s

/-! The management firmware (19.7). -/

/-- The board controller serves Lamb mode from the boot ROM (R721): no management firmware runs. -/
def bootRom (s : State) : Bool := s.mgmt.lamb && s.mgmt.lambCause == 4

/-- The firmware starts again, from the slot given. MGMT.PERF1 counts restarts. [DEDUCED, log 78] -/
def restartFrom (s : State) (b : Bool) : State :=
  perfAdd { s with mgmt := { s.mgmt with restarting := true, slotB := b, staged := false } } .mgmt 0 1 1

/-- R743: the firmware falls back to the other slot; where neither slot authenticates, Lamb mode follows. [DEDUCED, log 78] -/
def rollBack (s : State) : State :=
  let b := !s.mgmt.slotB
  let s := raiseEvent { s with mgmt := { s.mgmt with restartTicked := true } } .mgmt 0 5
  if fwGood s b then restartFrom s b else if fwGood s (!b) then restartFrom s (!b) else enterLamb s 4

/-- R741, R742, R743: the management firmware restarts; a staged image is activated, and rolled back where it does not authenticate. [DEDUCED, log 78] -/
def startRestart (s : State) : State :=
  if s.mgmt.restarting || bootRom s then s
  else if s.mgmt.staged then
    let s := restartFrom s (!s.mgmt.slotB)
    let s := { s with mgmt := { s.mgmt with restartTicked := false } }
    if fwGood s s.mgmt.slotB then s else rollBack s
  else if fwGood s s.mgmt.slotB then restartFrom s s.mgmt.slotB
  else rollBack s

/-- R742: MGMT_CTRL.restart. -/
def doMgmtRestart (s : State) (r : Requester) : State :=
  regAccess s r .mgmt 0 0x114 (asOwner s r) (fun s =>
    if s.mgmt.restarting || bootRom s then regError s .mgmt 0 0x114 else startRestart s)

/-- R742, R748: a management restart ends: ledger entries that waited are written, then what of a Lamb entry is owed, then a node reset. -/
def doRestartEnd (s : State) : State :=
  if !s.mgmt.restarting then s
  else
    let owed := s.mgmt.owed
    let s := raiseEvent { s with mgmt := { s.mgmt with restarting := false, owed := [] } } .mgmt 0 6
    let s := ledgerRun (owed.foldl ledgerDue s)
    let s := if s.mgmt.lambOwed then lambRecord { s with mgmt := { s.mgmt with lambOwed := false } } else s
    if s.mgmt.nodeRstOwed then nodeResetNow s else s

/-- R743: the watchdog expires: a restart, or, before the first tick after an activation, a fall back to the previous slot. -/
def doWatchdog (s : State) : State :=
  if s.mgmt.por || bootRom s || s.mgmt.phase < 3 then s
  else if !s.mgmt.restartTicked then rollBack s
  else startRestart { s with mgmt := { s.mgmt with restarting := false } }

/-- R740: a management tick. It counts, the time advances once loaded (R714), seals that were asked are made (R470), ledger entries that
wait are written, FENCED blocks are reconciled. MGMT.PERF0 counts ticks. [DESIGN CHOICE, log 10; DEDUCED, log 77] -/
def doTick (s : State) : State :=
  if s.mgmt.restarting || !(s.mgmt.startDone || s.mgmt.lamb) || bootRom s then s
  else
    let m := s.mgmt
    let s := perfAdd { s with mgmt := { m with
      ticks := m.ticks + 1, restartTicked := true, systime := if m.systimeSet then m.systime + 1000 else m.systime } } .mgmt 0 0 1
    reconcile (ledgerRun (sealAsked s))

/-! The steps. -/

/-- CONTROL_FAULT (R735). -/
def execControlFault (block : Block) (inst : Nat) (s : State) : Host.Outcome State Fault Refusal := .next (whenLive s (doControlFault s block inst))

/-- LAMB_CTRL_ENTER (R744). -/
def execLambCtrlEnter (r : Requester) (s : State) : Host.Outcome State Fault Refusal := .next (whenLive s (doLambCtrl s r))

/-- THERMAL_HOLD_EXPIRE (R666). -/
def execThermalHoldExpire (die temp : Nat) (s : State) : Host.Outcome State Fault Refusal := .next (whenLive s (doThermalHold s die temp))

/-- RAIL_FAULT (R785). -/
def execRailFault (rail : Nat) (s : State) : Host.Outcome State Fault Refusal := .next (doRailFault s rail)

/-- NODE_RESET (R723). -/
def execNodeReset (r : Requester) (s : State) : Host.Outcome State Fault Refusal := .next (whenLive s (doNodeReset s r))

/-- MGMT_RESTART (R742). -/
def execMgmtRestart (r : Requester) (s : State) : Host.Outcome State Fault Refusal := .next (whenLive s (doMgmtRestart s r))

/-- MGMT_RESTART_END (R742). -/
def execMgmtRestartEnd (s : State) : Host.Outcome State Fault Refusal := .next (whenLive s (doRestartEnd s))

/-- WATCHDOG_EXPIRE (R743). -/
def execWatchdogExpire (s : State) : Host.Outcome State Fault Refusal := .next (whenLive s (doWatchdog s))

/-- MGMT_TICK (R740). -/
def execMgmtTick (s : State) : Host.Outcome State Fault Refusal := .next (whenLive s (doTick s))

/-- POWER_ON_RESET (R798). -/
def execPowerOnReset (s : State) : Host.Outcome State Fault Refusal := .next (powerOn s)

/-- POR_RELEASE (R718). -/
def execPorRelease (s : State) : Host.Outcome State Fault Refusal := .next (doPorRelease s)

/-- STARTUP_PHASE_END (R718). -/
def execStartupPhaseEnd (results : List CheckResult) (s : State) : Host.Outcome State Fault Refusal := .next (whenLive s (doPhaseEnd s results))

end Sys2Proof.Machine
end

