-- ==== Sys2Proof/Machine/Jtag.lean ====
section
/-! DEFINITION. The test access port (R793). -/

namespace Sys2Proof.Machine

/-- R793: IDCODE of a stepping. -/
def idcodeOf (s : State) : Nat := if s.part.stepping = 0xA0 then 0x05C1056F else 0x15C1056F

/-- The port works while POR_N is high (R793). -/
def tapUp (s : State) : Bool := !s.mgmt.por

/-- An instruction loaded into the port. -/
def loadTap (s : State) (i : TapInstr) : State := { s with tap := i }

/-- BYPASS: one bit between TDI and TDO, which captures 0 (IEEE 1149.1). -/
def bypassNow (s : State) : State := emit (loadTap s .bypass) (.tdo 0)

/-- R793: an instruction of the boundary register: taken only while the node is UNOWNED; else it acts as BYPASS. -/
def boundary (s : State) (i : TapInstr) : State :=
  if !tapUp s then s else if s.hostIf.own = 0 then loadTap s i else bypassNow s

/-- TAP_RESET (R793): IDCODE is the instruction after a reset (IEEE 1149.1). -/
def execTapReset (s : State) : Host.Outcome State Fault Refusal := .next (loadTap s .idcode)

/-- IDCODE (R793). -/
def execIdcode (s : State) : Host.Outcome State Fault Refusal :=
  .next (if tapUp s then emit (loadTap s .idcode) (.tdo (idcodeOf s)) else s)

/-- BYPASS (R793). -/
def execBypassTap (s : State) : Host.Outcome State Fault Refusal := .next (if tapUp s then bypassNow s else s)

/-- SAMPLE_PRELOAD (R793). -/
def execSamplePreload (s : State) : Host.Outcome State Fault Refusal := .next (boundary s .sample)

/-- EXTEST (R793). -/
def execExtestTap (s : State) : Host.Outcome State Fault Refusal := .next (boundary s .extest)

/-- EXTEST_PULSE (R793). -/
def execExtestPulse (s : State) : Host.Outcome State Fault Refusal := .next (boundary s .pulse)

/-- EXTEST_TRAIN (R793). -/
def execExtestTrain (s : State) : Host.Outcome State Fault Refusal := .next (boundary s .train)

end Sys2Proof.Machine
end

