-- ==== Sys2Proof/Machine/Mctp.lean ====
section
/-! DEFINITION. The management protocols over MCTP: control, PLDM, SPDM and the Aqtan vendor messages (15.3, 15.9, 19.7). -/

namespace Sys2Proof.Machine

/-- A completion code of the Aqtan messages: the spec names SUCCESS, NOT_OWNER and BUSY and gives numbers to none (the log). [PRESUMED, log 70] -/
def aqtanOk : Nat := 0
/-- NOT_OWNER (R614, R638). [PRESUMED, log 70] -/
def notOwner : Nat := 0x83
/-- BUSY of the Aqtan messages (R641, R742), which the spec does not number. [PRESUMED, log 70] -/
def aqtanBusy : Nat := 0x100
/-- ERROR_NOT_READY of PLDM (R742). [PRESUMED, log 70] -/
def pldmNotReady : Nat := 0x04
/-- ERROR Busy of SPDM (R742). [PRESUMED, log 70] -/
def spdmBusy : Nat := 0x03

/-- The node's endpoint on a binding answers: firmware or boot ROM runs, and for the PCIe binding the link is up (R606, R637, R721). [DEDUCED, log 72] -/
def mctpUp (s : State) (smbus : Bool) : Bool := (s.mgmt.startDone || s.mgmt.lamb || 3 ≤ s.mgmt.phase) && (smbus || s.hostIf.gen != 0)

/-- A message arrives and `f` answers it; HOST.PERF7 counts. -/
def mctpIn (s : State) (src : McSender) (f : State → State) : State :=
  if mctpUp s src.smbus then f (perfAdd s .host 0 7 1) else s

/-- A reply. -/
def reply (s : State) (src : McSender) (code : Nat) (data : List Nat) : State := emit s (.mctp src code data)

/-- R614: a reply of NOT_OWNER raises HOST.EVENT.not_owner. -/
def refuseOwner (s : State) (src : McSender) : State := reply (raiseEvent s .host 0 6) src notOwner []

/-- The sender is the owner that OWN_STAT records (R613). [DEDUCED, log 72] -/
def isOwner (s : State) (src : McSender) : Bool :=
  s.hostIf.own != 0 && !s.hostIf.viaPf && s.hostIf.eid == src.eid && s.hostIf.smbus == src.smbus

/-- The sender is the board authority (R615); without an authentic board configuration there is none. -/
def isAuthority (s : State) (src : McSender) : Bool := src.smbus && s.mgmt.board.good && src.eid == s.mgmt.board.authority

/-- R638, R792: the sender may set values and update firmware. [DEDUCED, log 72] -/
def maySet (s : State) (src : McSender) : Bool := isOwner s src || (s.hostIf.own == 0 && isAuthority s src)

/-- An Aqtan vendor message: BUSY during a management restart (R742), and in Lamb mode where it asks a change (R641, R747). -/
def aqtanIn (s : State) (src : McSender) (f : State → State) : State :=
  mctpIn s src (fun s => if s.mgmt.restarting then reply s src aqtanBusy [] else f s)

/-! Ownership (15.3). -/

/-- R613, R614: OWN_CLAIM. -/
def doOwnClaim (s : State) (src : McSender) : State :=
  aqtanIn s src (fun s =>
    if s.hostIf.own != 0 then refuseOwner s src
    else if s.mgmt.lamb then reply s src aqtanBusy []
    else reply (claimFor s false src.eid src.smbus) src aqtanOk [])

/-- R637: OWN_STATUS: the fields of HOST.OWN_STAT. -/
def doOwnStatus (s : State) (src : McSender) : State :=
  aqtanIn s src (fun s => reply s src aqtanOk [s.hostIf.own, b2n s.hostIf.viaPf, s.hostIf.eid, b2n s.hostIf.smbus])

/-- R615, R616, R641: a release asked by one who may: a second request has no further effect. -/
def releaseFor (s : State) (src : McSender) : State :=
  if s.mgmt.lamb then reply s src aqtanBusy []
  else reply (if s.hostIf.own = 1 then startRelease s else s) src aqtanOk []

/-- R615: OWN_RELEASE from the owner. -/
def doOwnRelease (s : State) (src : McSender) : State :=
  aqtanIn s src (fun s => if isOwner s src then releaseFor s src else refuseOwner s src)

/-- R615: OWN_FORCE from the board authority. [DEDUCED, log 72] -/
def doOwnForce (s : State) (src : McSender) : State :=
  aqtanIn s src (fun s => if isAuthority s src then releaseFor s src else refuseOwner s src)

/-! MCTP control. -/

/-- R637: Set Endpoint ID on a binding. The base protocol keeps 0 and 255 for no endpoint and all. [PRESUMED, log 70] -/
def doSetEid (s : State) (smbus : Bool) (eid : Nat) : State :=
  let src : McSender := { smbus := smbus, eid := 0 }
  mctpIn s src (fun s =>
    if eid = 0 || 255 ≤ eid then reply s src 2 []
    else reply { s with hostIf :=
      if smbus then { s.hostIf with eidSmbus := eid } else { s.hostIf with eidPcie := eid } } src 0 [eid])

/-! PLDM. -/

/-- A PLDM command: ERROR_NOT_READY during a management restart (R742). -/
def pldmIn (s : State) (src : McSender) (f : State → State) : State :=
  mctpIn s src (fun s => if s.mgmt.restarting then reply s src pldmNotReady [] else f s)

/-- R637: the PLDM types served: base, monitoring, firmware update (DSP0240, DSP0248, DSP0267). [PRESUMED, log 71] -/
def doPldmDiscovery (s : State) (src : McSender) : State := pldmIn s src (fun s => reply s src 0 [0, 2, 5])

/-- The numeric sensors (R637): 0 the package power, 1 to 4 the dies' temperatures, 5 to 16 the rails of Table 21.4. -/
def sensorCount : Nat := 17

/-- R638: every endpoint may read a sensor. What it measures lies outside the node's state: a free value. [PRESUMED, log 71] -/
def doSensorRead (s : State) (src : McSender) (k : Nat) : State :=
  pldmIn s src (fun s =>
    if sensorCount ≤ k then reply s src 0x80 []
    else reply { s with freeCount := s.freeCount + 1 } src 0 [(Config.freeWord s.freeCount).toNat])

/-- R638, R744, R747, Table 19.2: the values that PLDM sets: a management restart, a node reset, Lamb mode, by the offset of the MGMT register
that does the same. The boot ROM takes a node reset only. [DEDUCED, log 72] -/
def doPldmSet (s : State) (src : McSender) (reg value : Nat) : State :=
  pldmIn s src (fun s =>
    if !maySet s src then refuseOwner s src
    else if !bitAt value 0 then reply s src 0 []
    else if reg = 0x118 then startNodeReset (reply s src 0 [])
    else if bootRom s then reply s src 5 []
    else if reg = 0x114 then startRestart (reply s src 0 [])
    else if reg = 0x11C then enterLamb (reply s src 0 []) 5
    else reply s src 2 [])

/-- R741: an image is written to the inactive slot and staged where it authenticates. [DEDUCED, log 78] -/
def stageImage (s : State) (m : FwImage) : State :=
  let k := b2n (!s.mgmt.slotB)
  let fw := listSet s.mgmt.fw k { good := m.authentic, version := m.version % 2 ^ 32, digest := m.digest }
  let s := { s with mgmt := { s.mgmt with fw := fw, staged := m.authentic } }
  if m.authentic then raiseEvent s .mgmt 0 4 else s

/-- R638, R741, R747, R792: PLDM firmware update. Without an authentic board configuration any endpoint may update. [DEDUCED, log 72] -/
def doFwUpdate (s : State) (src : McSender) (m : FwImage) : State :=
  pldmIn s src (fun s =>
    if !(maySet s src || (bootRom s && !s.mgmt.board.good)) then refuseOwner s src
    else reply (stageImage s m) src (if m.authentic then 0 else 1) [])

/-! SPDM (Table 15.8, R639). -/

/-- An SPDM request: ERROR Busy during a management restart (R742). -/
def spdmIn (s : State) (src : McSender) (f : State → State) : State :=
  mctpIn s src (fun s => if s.mgmt.restarting then reply s src spdmBusy [] else f s)

/-- Bytes as the data of a reply. -/
def natsOf (bs : List Byte) : List Nat := bs.map (·.toNat)

/-- GET_VERSION: SPDM 1.2. -/
def doGetVersion (s : State) (src : McSender) : State := spdmIn s src (fun s => reply s src 0 [0x12])

/-- GET_CAPABILITIES: certificates, challenge and signed measurements, no sessions (DSP0274's CERT_CAP, CHAL_CAP, MEAS_CAP 2). -/
def doGetCaps (s : State) (src : McSender) : State := spdmIn s src (fun s => reply s src 0 [0x16])

/-- NEGOTIATE_ALGORITHMS: ECDSA P-384 and SHA-384. -/
def doNegotiate (s : State) (src : McSender) : State := spdmIn s src (fun s => reply s src 0 [384, 384])

/-- Table 0.3: the lot code and the 6-digit unit serial, as text. [DESIGN CHOICE, log 6] -/
def serialText (p : Part) : List Byte :=
  beBytes 8 p.lot ++ (List.range 6).map (fun k => BitVec.ofNat 8 (48 + p.serial / 10 ^ (5 - k) % 10))

/-- R9, R639: the certificate chain of a slot; the leaf of slot 0 names the lot code and the unit serial. -/
def certChain (s : State) (slot : Nat) : List Byte :=
  if slot = 0 then Config.certHead ++ serialText s.part ++ Config.certTail (serialText s.part) else Config.ledgerChain

/-- GET_DIGESTS: the SHA-384 of the chains of slots 0 and 1. [PRESUMED, log 71] -/
def doGetDigests (s : State) (src : McSender) : State :=
  spdmIn s src (fun s => reply s src 0 (natsOf (sha384 (certChain s 0) ++ sha384 (certChain s 1))))

/-- GET_CERTIFICATE: the chain of slot 0 or 1. -/
def doGetCert (s : State) (src : McSender) (slot : Nat) : State :=
  spdmIn s src (fun s => if slot ≤ 1 then reply s src 0 (natsOf (certChain s slot)) else reply s src 1 [])

/-- The private key of a slot's leaf (R639). -/
def slotKey (slot : Nat) : Nat := if slot = 0 then Config.deviceKey else Config.signingKey

/-- R639: the measurement of an index: the running firmware's digest and version, the board configuration's digest, the fingerprint. -/
def measurement (s : State) (k : Nat) : List Byte :=
  let f := s.mgmt.fw.getD (b2n s.mgmt.slotB) {}
  match k with
  | 1 => beBytes 48 f.digest
  | 2 => leBytes 4 f.version
  | 3 => beBytes 48 s.mgmt.board.digest
  | _ => fprintBytes s

/-- CHALLENGE: the digest of the slot's chain and the nonce, signed with the slot's key. [PRESUMED, log 71] -/
def doChallenge (s : State) (src : McSender) (slot nonce : Nat) : State :=
  spdmIn s src (fun s =>
    if 1 < slot then reply s src 1 []
    else
      let body := sha384 (certChain s slot) ++ beBytes 32 nonce
      let sig := ecdsaSign (slotKey slot) body
      reply s src 0 (natsOf (body ++ beBytes 48 sig.1 ++ beBytes 48 sig.2)))

/-- GET_MEASUREMENTS: one measurement of R639. [PRESUMED, log 71] -/
def doMeasure (s : State) (src : McSender) (k : Nat) : State :=
  spdmIn s src (fun s => if 1 ≤ k && k ≤ 4 then reply s src 0 (natsOf (measurement s k)) else reply s src 1 [])

/-! The steps. -/

/-- OWN_CLAIM (R613). -/
def execOwnClaim (src : McSender) (s : State) : Host.Outcome State Fault Refusal := .next (whenLive s (doOwnClaim s src))

/-- OWN_STATUS (R637). -/
def execOwnStatus (src : McSender) (s : State) : Host.Outcome State Fault Refusal := .next (whenLive s (doOwnStatus s src))

/-- OWN_RELEASE (R615). -/
def execOwnRelease (src : McSender) (s : State) : Host.Outcome State Fault Refusal := .next (whenLive s (doOwnRelease s src))

/-- OWN_FORCE (R615). -/
def execOwnForce (src : McSender) (s : State) : Host.Outcome State Fault Refusal := .next (whenLive s (doOwnForce s src))

/-- SET_ENDPOINT_ID (R637). -/
def execSetEndpointId (smbus : Bool) (eid : Nat) (s : State) : Host.Outcome State Fault Refusal := .next (whenLive s (doSetEid s smbus eid))

/-- PLDM_DISCOVERY (R637). -/
def execPldmDiscovery (src : McSender) (s : State) : Host.Outcome State Fault Refusal := .next (whenLive s (doPldmDiscovery s src))

/-- PLDM_SENSOR_READ (R638). -/
def execPldmSensorRead (src : McSender) (sensor : Nat) (s : State) : Host.Outcome State Fault Refusal := .next (whenLive s (doSensorRead s src sensor))

/-- PLDM_SET_VALUE (R638). -/
def execPldmSetValue (src : McSender) (reg value : Nat) (s : State) : Host.Outcome State Fault Refusal := .next (whenLive s (doPldmSet s src reg value))

/-- PLDM_FIRMWARE_UPDATE (R741). -/
def execPldmFirmwareUpdate (src : McSender) (image : FwImage) (s : State) : Host.Outcome State Fault Refusal :=
  .next (whenLive s (doFwUpdate s src image))

/-- GET_VERSION (R637). -/
def execGetVersion (src : McSender) (s : State) : Host.Outcome State Fault Refusal := .next (whenLive s (doGetVersion s src))

/-- GET_CAPABILITIES (R637). -/
def execGetCapabilities (src : McSender) (s : State) : Host.Outcome State Fault Refusal := .next (whenLive s (doGetCaps s src))

/-- NEGOTIATE_ALGORITHMS (R637). -/
def execNegotiateAlgorithms (src : McSender) (s : State) : Host.Outcome State Fault Refusal := .next (whenLive s (doNegotiate s src))

/-- GET_DIGESTS (R639). -/
def execGetDigests (src : McSender) (s : State) : Host.Outcome State Fault Refusal := .next (whenLive s (doGetDigests s src))

/-- GET_CERTIFICATE (R639). -/
def execGetCertificate (src : McSender) (slot : Nat) (s : State) : Host.Outcome State Fault Refusal := .next (whenLive s (doGetCert s src slot))

/-- CHALLENGE (R637). -/
def execChallenge (src : McSender) (slot nonce : Nat) (s : State) : Host.Outcome State Fault Refusal := .next (whenLive s (doChallenge s src slot nonce))

/-- GET_MEASUREMENTS (R639). -/
def execGetMeasurements (src : McSender) (index : Nat) (s : State) : Host.Outcome State Fault Refusal := .next (whenLive s (doMeasure s src index))

end Sys2Proof.Machine
end

