-- ==== Sys2Proof/Machine/RegMap.lean ====
section
/-! DEFINITION. The register maps of the pages: the place, width and access of every register (Tables 20.2, 20.6 and the maps of the
chapters), capability and event fields. -/

namespace Sys2Proof.Machine

/-- A register of a page: its offset, its 32-bit words, the bits of its RW, W1C and WO fields, the reset value of its RW fields, and
whether only the owner writes it (R611). Every other bit is RO or reserved. -/
structure RegSpec where
  off : Nat
  words : Nat := 1
  rw : Nat := 0
  w1c : Nat := 0
  wo : Nat := 0
  reset : Nat := 0
  owner : Bool := false
deriving DecidableEq, Repr

/-- The common registers (Table 20.2) but CTRL, EVENT, EVENT_EN and ERR_STATUS. -/
def plainCommon : List RegSpec :=
  [0x000, 0x004, 0x008, 0x00C, 0x014, 0x018, 0x01C, 0x034, 0x038, 0x03C].map (fun off => { off := off })
    ++ [{ off := 0x028, words := 2 }]
    ++ (List.range 8).map (fun k => { off := 0x040 + 8 * k, words := 2, rw := 2 ^ 64 - 1 })

/-- The registers of MGMT (section 19.9). -/
def regsMgmt : List RegSpec := [
    { off := 0x100 },
    { off := 0x104 },
    { off := 0x108 },
    { off := 0x10c },
    { off := 0x110 },
    { off := 0x114, wo := 1 },
    { off := 0x118, wo := 1 },
    { off := 0x11c, wo := 1 },
    { off := 0x120 },
    { off := 0x128, words := 2 },
    { off := 0x130, rw := 0xffff, reset := 0xa },
    { off := 0x134, rw := 0xffffffff },
    { off := 0x138, rw := 0x77, wo := 0x100 },
    { off := 0x13c },
    { off := 0x140 },
    { off := 0x144, rw := 0xff },
    { off := 0x148 },
    { off := 0x150, words := 8 }]

/-- The registers of HOST (section 15.11). -/
def regsHost : List RegSpec := [
    { off := 0x100 },
    { off := 0x104 },
    { off := 0x108, wo := 3 },
    { off := 0x10c, rw := 0xffff, reset := 0x3e8 },
    { off := 0x110, rw := 0x3f, reset := 0x24 },
    { off := 0x114 },
    { off := 0x118, words := 2, rw := 0xffffffffffff },
    { off := 0x120, words := 2, rw := 0xffffffff, wo := 0x100000000 },
    { off := 0x128 },
    { off := 0x130, words := 2, rw := 0xffffffffffff, wo := 0x1000000000000 }]

/-- The registers of PWR (section 16.9). -/
def regsPwr : List RegSpec := [
    { off := 0x100, rw := 0x7ff },
    { off := 0x104 },
    { off := 0x108 },
    { off := 0x10c },
    { off := 0x110, rw := 0xf },
    { off := 0x114, rw := 0x1ff01ff },
    { off := 0x118 },
    { off := 0x11c },
    { off := 0x120, rw := 0xffffffff, reset := 0x3e8 },
    { off := 0x124, rw := 0xf, reset := 4 },
    { off := 0x128, rw := 3 },
    { off := 0x12c, rw := 0x1fff0fff },
    { off := 0x130 },
    { off := 0x134, rw := 0x7f, reset := 0x5f },
    { off := 0x138 },
    { off := 0x178 }]

/-- The registers of LEDG (section 11.11). -/
def regsLedg : List RegSpec := [
    { off := 0x100 },
    { off := 0x104, rw := 0xffff, reset := 0x3e8 },
    { off := 0x108, words := 2, rw := 0xffffffffffff },
    { off := 0x110, rw := 0x1f },
    { off := 0x118, words := 2 },
    { off := 0x120, words := 2, rw := 0xffffffffffffffff },
    { off := 0x128, words := 2, rw := 0xffffffffffffffff },
    { off := 0x130, rw := 0xfff },
    { off := 0x134, rw := 1, wo := 2 },
    { off := 0x138, words := 2, rw := 0xffffffffffffffff },
    { off := 0x140, words := 2 },
    { off := 0x148, words := 8 },
    { off := 0x168, words := 2, rw := 0xffffffffffffffff },
    { off := 0x170, rw := 0xfffff },
    { off := 0x178, words := 2 },
    { off := 0x180, words := 2 },
    { off := 0x188, words := 2 },
    { off := 0x190, words := 24 }]

/-- The registers of HEN (section 17.8). -/
def regsHen : List RegSpec := [
    { off := 0x100 },
    { off := 0x108, words := 2, rw := 0xffffffffffff },
    { off := 0x110, rw := 0xffffff },
    { off := 0x114, rw := 0x1fffff },
    { off := 0x118, rw := 0x1fffff },
    { off := 0x11c, rw := 0x1fffff },
    { off := 0x120, words := 2, rw := 0xffffffffffff },
    { off := 0x128, rw := 0xfff },
    { off := 0x130, words := 2, rw := 0x1ffffffffffff },
    { off := 0x138, words := 2, rw := 0xffffffffffff },
    { off := 0x140, rw := 0xffffffff },
    { off := 0x144 },
    { off := 0x148, words := 2 },
    { off := 0x150, rw := 1 },
    { off := 0x154, rw := 8 },
    { off := 0x158, words := 2 },
    { off := 0x160, words := 2 },
    { off := 0x168, words := 8 },
    { off := 0x188, rw := 0x3fff, wo := 0x1c000 },
    { off := 0x190, words := 2, rw := 0xfffffffffffff },
    { off := 0x198, words := 2, rw := 0xffffffffffffffff },
    { off := 0x1a0, words := 8, rw := 2 ^ 256 - 1 },
    { off := 0x1c0, words := 2, rw := 0xffffffffffff },
    { off := 0x1c8, rw := 0xffffffff },
    { off := 0x1cc, rw := 0xffffffff, reset := 0xea60 },
    { off := 0x1d0, words := 2 },
    { off := 0x1d8, words := 2 }]

/-- The registers of GOOSE (section 2.12). -/
def regsGoose : List RegSpec := [
    { off := 0x100 },
    { off := 0x108, rw := 0x3f0f },
    { off := 0x10c },
    { off := 0x110, rw := 0xf0f },
    { off := 0x118, words := 2 }]

/-- The registers of OX (section 4.11). -/
def regsOx : List RegSpec := [
    { off := 0x100 },
    { off := 0x104 },
    { off := 0x108, words := 2 },
    { off := 0x110, words := 2 },
    { off := 0x118, rw := 0x1ff05, wo := 2 },
    { off := 0x11c },
    { off := 0x120, rw := 0xffffff },
    { off := 0x124, w1c := 0x20000 },
    { off := 0x128, words := 2, rw := 0xffffffffffffffff },
    { off := 0x130, words := 2 },
    { off := 0x138, words := 2, rw := 0xffffffffffffffff }]

/-- The registers of PONY (section 6.10). -/
def regsPony : List RegSpec := [
    { off := 0x100 },
    { off := 0x108, words := 2 },
    { off := 0x110, words := 2 },
    { off := 0x118 }]

/-- The registers of MULE (section 7.11). -/
def regsMule : List RegSpec := [
    { off := 0x100 },
    { off := 0x104 },
    { off := 0x108, w1c := 0x400 }]

/-- The registers of SOLV (section 8.8). -/
def regsSolv : List RegSpec := [
    { off := 0x100 },
    { off := 0x104 },
    { off := 0x108, rw := 0xf },
    { off := 0x10c },
    { off := 0x110, words := 2 },
    { off := 0x118, words := 2 },
    { off := 0x120, words := 2 },
    { off := 0x128, words := 2 },
    { off := 0x130, words := 2 }]

/-- The registers of SPAD (section 9.14). -/
def regsSpad : List RegSpec := [
    { off := 0x100 },
    { off := 0x104, rw := 0xf },
    { off := 0x108 },
    { off := 0x110, words := 2, rw := 0x1ffff0001ffff },
    { off := 0x118, wo := 7 },
    { off := 0x11c, rw := 0xffff, reset := 0x64 },
    { off := 0x120, words := 2, rw := 0xffffffffffff, wo := 0x1000000000000 },
    { off := 0x128, rw := 0x3f },
    { off := 0x12c },
    { off := 0x130, words := 2, w1c := 0x100000000 },
    { off := 0x138, rw := 0xffff, reset := 0x3e8 }]

/-- The registers of LPC (section 9.15). -/
def regsLpc : List RegSpec := [
    { off := 0x100 },
    { off := 0x104 },
    { off := 0x108, rw := 3 },
    { off := 0x10c },
    { off := 0x110 },
    { off := 0x118, words := 2, w1c := 0x1000000000000 },
    { off := 0x120, rw := 0xff, reset := 0x18 }]

/-- The registers of DRAKE (section 10.9). -/
def regsDrake : List RegSpec := [
    { off := 0x100 },
    { off := 0x104 },
    { off := 0x108, rw := 0xfff },
    { off := 0x10c },
    { off := 0x110 },
    { off := 0x118, words := 2 }]

/-- The registers of WLINK (section 12.10). -/
def regsWlink : List RegSpec := [
    { off := 0x100 },
    { off := 0x104 },
    { off := 0x108 },
    { off := 0x10c, rw := 0xffff01ff, reset := 0x3e8000d },
    { off := 0x110, rw := 3, reset := 3 },
    { off := 0x114 },
    { off := 0x118, words := 2 },
    { off := 0x120, words := 2 },
    { off := 0x128, words := 2 },
    { off := 0x130 },
    { off := 0x134 }]

/-- The registers of WSW (section 12.11). -/
def regsWsw : List RegSpec := [
    { off := 0x100, rw := 0xffffffff },
    { off := 0x104 },
    { off := 0x108, rw := 0xf0fffff, reset := 0x4044444 },
    { off := 0x10c, rw := 0xf, reset := 2 },
    { off := 0x110, rw := 0x1ffff, reset := 0x10010 },
    { off := 0x114, rw := 0xffff },
    { off := 0x118, words := 2, rw := 0xffffffffffffffff },
    { off := 0x120, rw := 0xffffffff },
    { off := 0x124 },
    { off := 0x128, rw := 0x3f, reset := 0x20 }]

/-- The registers of COLL (section 13.9). -/
def regsColl : List RegSpec := [
    { off := 0x100 },
    { off := 0x104, rw := 0x1f, reset := 4 },
    { off := 0x108, rw := 0x3f },
    { off := 0x10c },
    { off := 0x110, words := 2 },
    { off := 0x118, words := 2 },
    { off := 0x120, w1c := 0x800000 }]

/-- The registers of XAG (section 14.9). -/
def regsXag : List RegSpec := [
    { off := 0x100 },
    { off := 0x104, rw := 0xffffffff, reset := 0x7d0 },
    { off := 0x108, words := 2, rw := 0xffffffffffff },
    { off := 0x110, wo := 1 },
    { off := 0x114, rw := 0xfff },
    { off := 0x118, rw := 0xffffffff },
    { off := 0x11c, rw := 0x7ff },
    { off := 0x120, words := 2, rw := 0xffffffffffff },
    { off := 0x128, rw := 0xffff },
    { off := 0x14c, rw := 0xffff, reset := 0xa },
    { off := 0x150 },
    { off := 0x154 }]

/-- The registers of TEN (section 15.12). -/
def regsTen : List RegSpec := [
    { off := 0x100, rw := 2, wo := 1 },
    { off := 0x104, w1c := 2 },
    { off := 0x108, rw := 0xffff },
    { off := 0x10c, rw := 0xfff1, reset := 0x11, owner := true },
    { off := 0x110, rw := 0x7fff07ff, reset := 0x4800040, owner := true },
    { off := 0x114, rw := 0xff1fff, reset := 0x100000, owner := true },
    { off := 0x118, rw := 0xffffffff, owner := true },
    { off := 0x120, words := 2, rw := 0xfffffffff001, owner := true },
    { off := 0x128, words := 2, rw := 0xffffffffffff, owner := true },
    { off := 0x130, words := 2, rw := 0x1ffffffff, wo := 0x200000000, owner := true },
    { off := 0x138, words := 2, w1c := 0x2000000000000 },
    { off := 0x140, words := 2, rw := 0xffffffffffff, wo := 0x1000000000000 },
    { off := 0x148, words := 2, rw := 0xffffffffffffffff }]

/-- A Goose context's registers at a base (section 2.12). -/
def regsContext (o : Nat) : List RegSpec := [
    { off := o + 0x00, words := 2, rw := 0xffffffffffffffff },
    { off := o + 0x08, rw := 0xff },
    { off := o + 0x0C },
    { off := o + 0x10, words := 2, w1c := 0xffffffffffffffff },
    { off := o + 0x18 },
    { off := o + 0x20 }]

/-- A Mule core's registers at a base (section 7.11). -/
def regsMuleCore (o : Nat) : List RegSpec := [
    { off := o + 0x00 },
    { off := o + 0x04 },
    { off := o + 0x08, words := 2 },
    { off := o + 0x10, words := 2 }]

/-- A stream's registers at a base (section 15.12). -/
def regsStream (o : Nat) : List RegSpec := [
    { off := o + 0x00, words := 2, rw := 0x1fffffffffffff, reset := 0x4000000000000 },
    { off := o + 0x08, words := 2, rw := 0xffffffffffff },
    { off := o + 0x10, rw := 0xffffffff },
    { off := o + 0x14 },
    { off := o + 0x18, rw := 0xffffffff },
    { off := o + 0x1C }]

/-- The window registers, of instance 0 only (Table 20.6). -/
def regsWindows : List RegSpec :=
  (List.range 8).map (fun n => { off := 0x140 + 8 * n, words := 2, rw := 0x3ff01ff71ff }) ++ [{ off := 0x180, rw := 1 }]

/-- The block-specific registers of an instance (Table 20.6). -/
def blockRegs (b : Block) (i : Nat) : List RegSpec :=
  match b with
  | .mgmt => regsMgmt
  | .host => regsHost
  | .pwr => regsPwr ++ (List.range 7).map (fun c => { off := 0x140 + 8 * c, words := 2 })
  | .ledg => regsLedg
  | .hen => regsHen
  | .goose => regsGoose ++ (List.range 16).flatMap (fun c => regsContext (0x200 + 0x40 * c))
  | .ox => regsOx
  | .pony => regsPony
  | .mule => regsMule ++ (List.range 8).flatMap (fun c => regsMuleCore (0x200 + 0x20 * c))
  | .solv => regsSolv
  | .spad => regsSpad
  | .lpc => if i = 0 then regsLpc ++ regsWindows else regsLpc
  | .drake => regsDrake
  | .wlink => regsWlink
  | .wsw => regsWsw
  | .coll => regsColl
  | .xag => regsXag ++ (List.range 8).map (fun m => { off := 0x12C + 4 * m, rw := 0x1fffff })
  | .ten => regsTen ++ (List.range 8).flatMap (fun st => regsStream (streamOff st))

/-- The event bits of a block, from its chapter. -/
def eventMask (b : Block) : Nat :=
  match b with
  | .mgmt => 0xff
  | .host => 0x7f
  | .pwr => 0xff
  | .ledg => 0xff
  | .hen => 0x1ff
  | .goose => 0x1f
  | .ox => 0x3f
  | .pony => 0x7f
  | .mule => 0x3f
  | .solv => 0x3f
  | .spad => 0xff
  | .lpc => 0xff
  | .drake => 0x3f
  | .wlink => 0x1ff
  | .wsw => 0x1f
  | .coll => 0x7f
  | .xag => 0x7f
  | .ten => 0x1f

/-- CAPS0 of a block, from its chapter (H and M grade for PWR). -/
def capsLo (s : State) (b : Block) : Nat :=
  match b with
  | .mgmt => 0x3e80100
  | .host => 0x106200
  | .pwr => setBits 0x2d2c4b0 0 11 (limMax s)
  | .ledg => 0x20174001
  | .hen => 0x400c4240
  | .goose => 0x10400810
  | .ox => 0x7200080
  | .pony => 0x274200
  | .mule => 0x40c1008
  | .solv => 0x4001020
  | .spad => 0x7d002200
  | .lpc => 0x20242580
  | .drake => 0x8081004
  | .wlink => 0x20047b
  | .wsw => 0x18038860
  | .coll => 0x3f88040
  | .xag => 0x10c81010
  | .ten => 0x70a08

/-- CAPS1 of a block. -/
def capsHi (s : State) (b : Block) : Nat :=
  match b with
  | .mgmt => 0x20032
  | .host => 0x40ac1e
  | .pwr => if s.part.mGrade then 0x241A320A else 0x281e320a
  | .ledg => 0x10010101
  | .hen => 1
  | .goose => 0xff2001
  | .ox => 0x20939280
  | .pony => 0x14280
  | .mule => 0x8401001
  | .solv => 0x11001f
  | .spad => 0x40103e80
  | .lpc => 0x2808810
  | .drake => 0x40601
  | .wlink => 0x30101
  | .wsw => 0x10400
  | .coll => 0x601
  | .xag => 0x4001f01
  | .ten => 0

/-- The common registers of a page whose writes have effects of their own. -/
def actingCommon (b : Block) : List RegSpec :=
  [{ off := 0x010, wo := 7 }, { off := 0x020, w1c := eventMask b }, { off := 0x024, rw := eventMask b }, { off := 0x030, w1c := 3 }]

/-- Every register of a page. -/
def regsOf (b : Block) (i : Nat) : List RegSpec := plainCommon ++ actingCommon b ++ blockRegs b i

/-- The register of a page that covers an offset. -/
def specAt (b : Block) (i off : Nat) : Option RegSpec := (regsOf b i).find? (fun g => g.off ≤ off && off < g.off + 4 * g.words)

/-- The page at a BAR0 offset: block, instance and the offset within (R769). -/
def pageAt (addr : Nat) : Option (Block × Nat × Nat) :=
  (blkList.find? (fun b => blkBase b ≤ addr && addr < blkBase b + 0x1000 * blkCount b)).map (fun b =>
    (b, (addr - blkBase b) / 0x1000, addr % 0x1000))

end Sys2Proof.Machine
end

