-- ==== Sys2Proof/Machine/RegRead.lean ====
section
/-! DEFINITION. Reading a register page: the value of every register, snapshots, and the answer (20.2, 20.3 and the register maps of the
chapters). -/

namespace Sys2Proof.Machine

/-- A field at bit `lo`. -/
def fld (v lo : Nat) : Nat := v * 2 ^ lo

/-- A flag at bit `lo`. -/
def flg (b : Bool) (lo : Nat) : Nat := b2n b * 2 ^ lo

/-- A register's words as stored: its RW fields (RO and reserved fields zero). -/
def storedReg (s : State) (b : Block) (i : Nat) (g : RegSpec) : Nat :=
  (List.range g.words).foldl (fun a k => a + regWord s b i (g.off + 4 * k) (bits g.reset (32 * k) 32) * 2 ^ (32 * k)) 0 &&& g.rw

/-! The common registers (Table 20.2). -/

/-- The commands that an instance serves, oldest first. -/
def servedJobs (s : State) (b : Block) (i : Nat) : List Job :=
  match b with
  | .goose => s.jobs.filter (fun j => !j.orphan && coreOf j.tenant == i)
  | .mule => s.jobs.filter (fun j => s.mule.runs.any (fun r => runOf j r && r.cores.any (fun n => n / 8 == i)))
  | _ => match unitOf b i with
    | some u => s.jobs.filter (fun j => decide (j.unit = u) && j.result.isNone)
    | none => []

/-- OWNER (R758 for TEN). [DEDUCED, log 69] -/
def ownerReg (s : State) (b : Block) (i : Nat) : Nat :=
  if b = .ten then i else ((servedJobs s b i).head?.map (·.tenant)).getD 0xFFF

/-- A reset of the instance runs. -/
def resetRuns (s : State) (b : Block) (i : Nat) : Bool :=
  match b with
  | .ten => (ten s i).resetting
  | _ => s.mgmt.resetting.any (fun r => r.1 == pageKey b i && 8 ≤ r.2)

/-- CTRL (Table 20.3). -/
def ctrlReg (s : State) (b : Block) (i : Nat) : Nat :=
  let st := liveState s b i
  let enable := match b with
    | .wlink => (lnk s i).st != 0
    | .pwr => s.pwr.enabled
    | .ten => (ten s i).assigned
    | .host | .mgmt => true
    | _ => st == 1 || st == 2
  flg enable 0 + flg (st == 3 && b != .ten) 1 + flg (resetRuns s b i) 2

/-- EVENT_COUNT. -/
def countReg (p : Page) : Nat := (List.range 8).foldl (fun a k => a + fld (tabGet 0 p.count k) (8 * k)) 0

/-- The PERF counters that count cycles, waits, cache misses or memory traffic, which the spec does not fix: the model does not count them. [DESIGN CHOICE, log 11] -/
def perfOpen (b : Block) (k : Nat) : Bool :=
  match b with
  | .ox => k == 2 || k == 3
  | .pony => k == 2 || k == 3 || k == 4
  | .mule => 4 ≤ k
  | .solv => 6 ≤ k
  | .spad => k ≤ 5
  | .lpc => k ≤ 2 || k == 4 || k == 5 || k == 6
  | .drake => k == 1 || k == 2 || k == 3 || k == 7
  | .ledg | .mgmt => k == 4
  | .wlink => k == 2 || k == 5 || k == 6
  | .coll | .host => k == 6
  | .xag => k == 7
  | .hen => k == 3
  | _ => false

/-- PERFk as it reads: what the model has counted since the last write, and for a counter that it does not count a free value, drawn anew
whenever something has left the node, a read's data included. [DESIGN CHOICE, log 11] -/
def perfReg (s : State) (b : Block) (i k : Nat) : W64 :=
  let v := tabGet 0 (page s b i).perf k
  if perfOpen b k then v + Config.perfPart (pageKey b i) k (s.out.length + 2 ^ 64 * s.freeCount) else v

/-- A common register. [DEDUCED, log 91] -/
def commonReg (s : State) (b : Block) (i off : Nat) : Nat :=
  let p := page s b i
  match off with
  | 0x000 => pageId b i
  | 0x004 => 0x0101 + fld s.part.stepping 16
  | 0x008 => capsLo s b
  | 0x00C => capsHi s b
  | 0x010 => ctrlReg s b i
  | 0x014 => liveState s b i
  | 0x018 => p.epoch.toNat
  | 0x01C => ownerReg s b i
  | 0x020 => p.event.toNat
  | 0x024 => p.eventEn.toNat
  | 0x028 => countReg p
  | 0x030 => flg p.errValid 0 + flg p.errOver 1 + fld p.errClass 2 + fld p.errCode 8
  | 0x034 => bits p.errAddr.toNat 0 32
  | 0x038 => bits p.errAddr.toNat 32 32
  | 0x03C => p.errTenant + fld p.errEpoch 16
  | _ => if 0x040 ≤ off && off < 0x080 then (perfReg s b i ((off - 0x040) / 8)).toNat else 0

/-! GOOSE (Tables 2.10 to 2.12). -/

/-- R805: the code of a stream's state. A LOOP whose body is not fetched shows LOOP (R59) whatever else it waits on; a command that waits
on a token and on its step shows WAIT_TOKEN; one that is about to be skipped or refused, which Table 2.12 does not name, shows READY.
[DEDUCED, log 98] -/
def streamStat (s : State) (t st : Nat) : Nat :=
  let x := stream s t st
  if !enabled s t st then 0
  else if x.fault != 0 then 6
  else match front x with
    | none => 1
    | some (c, it) =>
      if x.inStep then 5
      else if stopHolds (ten s t) st c then 9
      else if (ready s t st).isSome then (if x.hold.lastCause != 0 then 5 else 2)
      else if skipActive x c || badAtFront s t c then (if c.verdict != 0 || stepReached s t c then 2 else 4)
      else if !loopBodyOk x c then 7
      else if !headWait s t c it || (cOp c == 0x01 && !waitExtra s t c it) then 3
      else if cStep c != (ten s t).step.toNat then 4
      else if !orderOk s t st c then 8
      else 2

/-- R805: the code of a context's state. A running LOOP has issued and not completed. -/
def ctxStat (s : State) (t : Nat) : Nat :=
  let stats := ((List.range 8).filter (enabled s t)).map (streamStat s t)
  if (ten s t).resetting || 8 ≤ (gooseFollow s (coreOf t)).getD 0 then 3
  else if s.jobs.any (fun j => j.tenant == t && !j.orphan) || (List.range 8).any (fun st => !(stream s t st).loops.isEmpty)
      || stats.any (fun k => k == 2 || k == 5) then 1
  else if stats.any (fun k => k == 3 || k == 4 || k == 7 || k == 8 || k == 9) then 2
  else 0

/-- A register of GOOSE. -/
def gooseReg (s : State) (g off : Nat) : Option Nat :=
  let idx := fun o lo w => bits (regWord s .goose g o 0) lo w
  if off = 0x100 then some ((List.range 16).foldl (fun a c => a + fld (ctxStat s (16 * g + c)) (2 * c)) 0)
  else if off = 0x10C then some (token s (16 * g + idx 0x108 0 4) (idx 0x108 8 6)).toNat
  else if off = 0x118 then some (readSum s (16 * g + idx 0x110 0 4) (idx 0x110 8 4)).toNat
  else if off < 0x200 || 0x600 ≤ off then none
  else
    let t := 16 * g + (off - 0x200) / 0x40
    match (off - 0x200) % 0x40 with
    | 0x00 => some (ten s t).step.toNat
    | 0x08 => some (ten s t).enWritten
    | 0x0C => some ((List.range 8).foldl (fun a st => a + fld (streamStat s t st) (4 * st)) 0)
    | 0x10 => some (ten s t).tokenErr.toNat
    | 0x18 => some (b2n (ten s t).cutPend)
    | 0x20 => some t
    | _ => none

/-! The engines. -/

/-- The command in service at a unit: the oldest one it has accepted and not finished. -/
def inService (s : State) (b : Block) (i : Nat) : Option Job := (servedJobs s b i).head?

/-- The tenant and the step field of the command in service, 0 where there is none. -/
def serviceTenant (s : State) (b : Block) (i : Nat) : Nat := ((inService s b i).map (·.tenant)).getD 0
/-- Its step field. -/
def serviceStep (s : State) (b : Block) (i : Nat) : Nat := ((inService s b i).map (fun j => cStep j.cmd)).getD 0

/-- A register of OX. No pass, load or fold is under way between steps. [DEDUCED, log 69] -/
def oxReg (s : State) (a off : Nat) : Option Nat :=
  let x := ox s a
  let held := match x.held with
    | some h => h.tenant + 4096
    | none => 0
  match off with
  | 0x100 => some (x.bank + flg x.steer 7
      + fld (satTo 3 (servedJobs s .ox a).length) 12 + fld (serviceTenant s .ox a) 16)
  | 0x104 => some held
  | 0x108 => some ((x.held.map (·.bdesc)).getD 0)
  | 0x110 => some (serviceStep s .ox a)
  | 0x118 => some (flg x.steer 0 + (regWord s .ox a 0x118 0 &&& 0x1FF04))
  | 0x11C => some (flg x.busy 0 + flg x.done 1 + flg x.fail 2)
  | 0x124 => some (x.logCol + fld x.logRow 9 + fld x.logBank 16 + flg x.logValid 17)
  | 0x130 => some x.sig.toNat
  | _ => none

/-- A register of PONY. -/
def ponyReg (s : State) (i off : Nat) : Option Nat :=
  let x := tabGet ({} : PonySl) s.ponys i
  match off with
  | 0x100 => some (flg (inService s .pony i).isSome 0 + fld (satTo 3 (servedJobs s .pony i).length) 1 + fld (serviceTenant s .pony i) 16)
  | 0x108 => some (serviceStep s .pony i)
  | 0x110 => some x.lastSum.toNat
  | 0x118 => some (x.lastSlot + fld x.lastTenant 16)
  | _ => none

/-- A register of MULE. [DEDUCED, log 69] -/
def muleReg (s : State) (cl off : Nat) : Option Nat :=
  let gone := blkState s .mule cl == 0
  let log := tabGet ({} : MuleLog) s.mule.logs cl
  match off with
  | 0x100 => some ((List.range 8).foldl (fun a k => a + fld (if gone then 0 else (mcore s (8 * cl + k)).st) (4 * k)) 0)
  | 0x104 => some (satTo 8 (coreHolds s).length + fld (satTo 8 (reservedCores s)) 8)
  | 0x108 => some (log.core + fld log.reg 3 + fld log.file 8 + flg log.valid 10)
  | _ =>
    if off < 0x200 || 0x300 ≤ off then none
    else
      let c := mcore s (8 * cl + (off - 0x200) / 0x20)
      match (off - 0x200) % 0x20 with
      | 0x00 => some c.tenant
      | 0x04 => some (c.pc % 2 ^ 14 + fld c.vresume 14 + fld c.lcore 23)
      | 0x08 => some c.step.toNat
      | 0x10 => some c.retired.toNat
      | _ => none

/-- A register of SOLV. -/
def solvReg (s : State) (u off : Nat) : Option Nat :=
  let y := sysAt s u (bits (regWord s .solv u 0x108 0) 0 4)
  let get := fun (f : SolSys → Nat) => some ((y.map f).getD 0)
  match off with
  | 0x100 => some (flg (inService s .solv u).isSome 0 + fld (satTo 3 (servedJobs s .solv u).length) 1
      + fld (((inService s .solv u).map (fun j => svSys j.cmd)).getD 0) 4 + fld (serviceTenant s .solv u) 16)
  | 0x104 => some (1024 - granulesUsed s u)
  | 0x10C => get (fun y => 1 + flg y.chol 1 + flg y.factor.isSome 2 + flg y.stale 3 + flg y.failed 4 + fld y.tenant 16)
  | 0x110 => get (fun y => y.n + fld y.granules 32)
  | 0x118 => get (fun y => y.nnzp % 2 ^ 32 + fld (snNum y.snode) 32)
  | 0x120 => get (fun y => y.fvals)
  | 0x128 => get (fun y => satTo 32 y.replaced)
  | 0x130 => some (serviceStep s .solv u)
  | _ => none

/-! The memories. -/

/-- A register of SPAD. -/
def spadReg (s : State) (d off : Nat) : Option Nat :=
  let x := spad s d
  let k := setIdx s d
  match off with
  | 0x100 =>
    let zero := fun (b : Nat) => !s.mgmt.lamb && (s.hostIf.own == 3 || s.hostIf.zreq.any (fun z => rangesMeet z.addr (4096 * z.pages) b (2 ^ 29)))
    some (flg (zero (upperBase d)) 0 + flg (zero (lowerBase d)) 1
      + flg (blkReady s .spad d && !s.mgmt.lamb && !s.mgmt.restarting) 2 + fld (satTo 7 x.wd.length) 3)
  | 0x108 => some ((sharedSet s d k).st + fld (satTo 7 (x.wd.filter (fun e => e.setNo == k)).length) 16)
  | 0x110 => some ((setRange s d k).1 + fld (setRange s d k).2 32)
  | 0x12C => some (match x.wd[bits (regWord s .spad d 0x128 0) 0 6]? with
    | some e => e.page + fld e.setNo 17 + fld 1 21
    | none => 0)
  | 0x130 => some (bits x.ue.addr 0 30 + flg x.ue.valid 32)
  | _ => none

/-- A register of LPC. -/
def lpcReg (s : State) (p off : Nat) : Option Nat :=
  let x := portOf s p
  match off with
  | 0x100 => some (x.typ + flg x.trained 2 + flg (x.ranks == 2) 3 + fld x.density 4 + fld x.mts 8)
  | 0x104 => some (x.rate + fld x.report 8)
  | 0x10C => some (x.vendor + fld x.revision 8)
  | 0x110 => some x.usable
  | 0x118 => some (bits x.ue.addr 0 48 + flg x.ue.valid 48)
  | 0x180 => some (b2n (winLocked s) + flg (winValid s) 1)
  | _ => none

/-- A register of DRAKE. -/
def drakeReg (s : State) (g off : Nat) : Option Nat :=
  let d := drake s g
  let n := (servedJobs s .drake g).length
  match off with
  | 0x100 => some (flg (n != 0) 0 + fld (satTo 5 n) 1 + fld (min n 4) 6 + fld (serviceTenant s .drake g) 16)
  | 0x104 => some (stageFree d).length
  | 0x10C => some (stageHeld d (bits (regWord s .drake g 0x108 0) 0 12))
  | 0x110 => some (match d.runs.head? with
    | some r => satTo 16 r.committed + fld (satTo 4 r.staged.length) 16
    | none => 0)
  | 0x118 => some (serviceStep s .drake g)
  | _ => none

/-! Links, collectives, fabric. -/

/-- A register of WLINK (Table 12.9). -/
def wlinkReg (s : State) (n off : Nat) : Option Nat :=
  let l := lnk s n
  let cap := fun (f : CapBody → Nat) => some ((l.partner.map f).getD 0)
  let live := l.st == 7 || l.st == 8
  match off with
  | 0x100 => some (l.st + fld (if live then l.mode.gen else 0) 4 + fld (if live then l.mode.width else 0) 6 + fld l.fec 8 + flg l.ovr 10
      + flg ((spareTakes s (routeLinks s)).contains n) 11 + fld l.txLanes 12 + fld l.feat 16 + fld l.arch 24)
  | 0x104 => cap (fun c => c.node + fld c.link 20)
  | 0x108 => cap (fun c => c.arch + fld c.rclass 8 + fld c.features 16 + fld c.genMax 24)
  | 0x114 => cap (·.epoch)
  | 0x118 => some (l.crcErrs + fld l.retries 32)
  | 0x120 => some l.fecFixed.toNat
  | 0x128 => some l.ovrTime.toNat
  | 0x130 => some l.hyst
  | 0x134 => some (l.failState + fld (satTo 4 l.attempts) 4)
  | _ => none

/-- A register of WSW. -/
def wswReg (s : State) (off : Nat) : Option Nat :=
  match off with
  | 0x104 => some ((s.links.filter (fun e => e.2.st == 7)).length + fld (s.links.filter (fun e => e.2.st == 9)).length 7
      + flg (!s.sw.holds.isEmpty) 14)
  | 0x124 => some s.sw.nonminK.toNat
  | _ => none

/-- A register of COLL. -/
def collReg (s : State) (off : Nat) : Option Nat :=
  let o := collOp s (bits (regWord s .coll 0 0x108 0) 0 6)
  let get := fun (f : CollOpn → Nat) => some ((o.map f).getD 0)
  match off with
  | 0x100 => some (s.coll.ops.length + fld (segsFree s) 8)
  | 0x10C => get (fun o => 1 + fld o.phase 1 + fld o.tenant 16)
  | 0x110 => get (fun o => o.key.plan + fld o.key.opid 16 + fld o.rank 32)
  | 0x118 => get (fun o => ((opJob s o).map (fun j => cStep j.cmd)).getD 0)
  | 0x120 => some (s.coll.logCause + fld s.coll.logRank 8 + flg s.coll.logValid 23)
  | _ => none

/-- The tenant that XAG.TEN_IDX selects. -/
def xagSel (s : State) : Nat := bits (regWord s .xag 0 0x114 0) 0 12

/-- A register of XAG. -/
def xagReg (s : State) (off : Nat) : Option Nat :=
  let x := tabGet ({} : XTen) s.xag.tens (xagSel s)
  match off with
  | 0x100 => some (satTo 13 (sumOf (s.xag.runs.map (fun r => (r.parts.filter (fun p => p.st == 1)).length))) + flg (bitAt (herdWord s) 7) 13)
  | 0x110 => some (flg s.xag.syncBusy 1 + flg s.xag.syncBad 2)
  | 0x118 => some x.job.toNat
  | 0x11C => some x.groups
  | 0x120 => some x.groupBase
  | 0x150 => some (satTo 13 s.xag.locks.length)
  | 0x154 => some ((List.range 16).foldl (fun a u => a + flg (64 ≤ (tabGet [] s.xag.queues u).length) u) 0)
  | _ => none

/-! The processor die. -/

/-- A register of HOST. -/
def hostReg (s : State) (off : Nat) : Option Nat :=
  let h := s.hostIf
  match off with
  | 0x100 => some (h.gen + fld h.width 3 + flg h.flit 8)
  | 0x104 => some (h.own + flg h.viaPf 2 + fld h.eid 8 + flg h.smbus 16)
  | 0x114 => some (satTo 9 (sharesBut s 512))
  | 0x120 => some (regWord s .host 0 0x120 0 + flg (64 ≤ h.zreq.length) 33)
  | 0x128 => some (satTo 7 h.zreq.length)
  | 0x130 => some (regWord2 s .host 0 0x130 0 % 2 ^ 48 + flg h.sealBusy 49 + flg h.sealRefused 50)
  | _ => none

/-- A register of TEN. -/
def tenReg (s : State) (t off : Nat) : Option Nat :=
  let x := ten s t
  match off with
  | 0x100 => some (flg x.assigned 1)
  | 0x104 => some (flg x.resetting 0 + flg x.done 1 + fld (x.gen % 2 ^ 16) 16)
  | 0x108 => some (x.enWritten + fld x.bg 8)
  | 0x10C => some (x.arbClass + fld x.weight 4 + fld x.share 8)
  | 0x110 => some (x.qInflight + fld x.qMule 16 + fld x.qColl 24)
  | 0x114 => some (x.qSmem + fld x.qStage 16)
  | 0x118 => some x.deferLim
  | 0x120 => some (b2n x.rootValid + x.root)
  | 0x128 => some x.invAddr
  | 0x130 => some (x.invPages + flg x.invAll 32)
  | 0x138 => some (x.faultAddr + flg x.faultWrite 48 + flg x.faultValid 49)
  | 0x140 => some (x.sealAddr + flg x.sealBusy 49 + flg x.sealRefused 50)
  | 0x148 => some x.step.toNat
  | _ =>
    if off < 0x150 || 0x250 ≤ off then none
    else
      let y := stream s t ((off - 0x150) / 0x20)
      match (off - 0x150) % 0x20 with
      | 0x00 => some (y.cmdBase + fld y.k 48)
      | 0x08 => some y.cplBase
      | 0x10 => some y.tail.toNat
      | 0x14 => some y.head.toNat
      | 0x18 => some y.rel.toNat
      | 0x1C => some y.wr.toNat
      | _ => none

/-- A register of PWR. -/
def pwrReg (s : State) (off : Nat) : Option Nat :=
  let g := grpIdx s
  let d := clkIdx s
  let x := pwrGrp s g
  let temp := fun k => satTo 8 (s.pwr.temps.getD k 0)
  match off with
  | 0x100 => some (pwrLimit s)
  | 0x104 => some ((List.range 7).foldl (fun a c => a + flg (epOpen s (c + 1)) c) 0 + flg s.pwr.floorScaled 7 + flg s.pwr.brakeShort 8)
  | 0x108 => some (satTo 16 s.pwr.pkg + fld (satTo 16 s.pwr.leak) 16)
  | 0x10C => some (satTo 11 s.pwr.limEff)
  | 0x114 => some (x.floor + fld (x.ceil.getD (grpMax g)) 16)
  | 0x118 => some (satTo 9 x.grant + fld (satTo 9 x.draw) 16)
  | 0x11C => some (unsgn 32 x.bal)
  | 0x120 => some x.defEst
  | 0x12C => some ((pwrDom s d).floor.getD (domMin d) + fld ((pwrDom s d).ceil.getD (domMax s d)) 16 + flg (pwrDom s d).pin 28)
  | 0x130 => some (domMhz s d)
  | 0x138 => some (temp 0 + fld (temp 1) 8 + fld (temp 2) 16 + fld (temp 3) 24)
  | 0x178 => some s.pwr.ovrLast
  | _ => if 0x140 ≤ off && off < 0x178 then some (tabGet 0 s.pwr.ovrTime ((off - 0x140) / 8 + 1)).toNat else none

/-- A big-endian digest as the register that holds its bytes in ascending order. -/
def digestReg (n d : Nat) : Nat := leNat (beBytes n d)

/-- A register of LEDG. [DEDUCED, log 69] -/
def ledgReg (s : State) (off : Nat) : Option Nat :=
  let c := ledgSel s
  let x := if c = nodeChain then ({} : Tenant) else ten s c
  match off with
  | 0x100 => some (flg (ringLog s != 0) 0 + flg (!s.ledger.waiting.isEmpty) 1 + flg (s.ledger.waiting.any (fun e => e.typ == 3)) 2)
  | 0x118 => some s.ledger.wr.toNat
  | 0x120 => some s.ledger.rd.toNat
  | 0x128 => some s.mgmt.systime.toNat
  | 0x134 => some (b2n x.replay)
  | 0x138 => some x.seed.toNat
  | 0x140 => some (chainOf s c).next.toNat
  | 0x148 => some (digestReg 32 (chainOf s c).head)
  | 0x168 => some x.stopStep.toNat
  | 0x170 => some (x.stopOrd + fld x.stopStream 16 + flg x.stopEn 19 + flg x.stopHit 20)
  | 0x178 => some (fprintLo s)
  | 0x180 => some fprintHi
  | 0x188 => some (leNat (keyId Config.signingKey))
  | 0x190 => some (leNat (beBytes 48 (publicKey Config.signingKey).1 ++ beBytes 48 (publicKey Config.signingKey).2))
  | _ => none

/-- A register of HEN. -/
def henReg (s : State) (off : Nat) : Option Nat :=
  let t := henSel s
  let h := henTen s t
  let x := slotOf s t (bits (regWord s .hen 0 0x150 0) 0 1)
  let r := s.hen.rest
  match off with
  | 0x100 => some (satTo 3 s.hen.cuts.length + flg s.hen.drain.isSome 3)
  | 0x130 => some (h.setAddr + flg h.setValid 48)
  | 0x138 => some (h.copyOff + fld h.copySize 24)
  | 0x140 => some (h.steps + fld h.secs 16)
  | 0x144 => some (flg (cutOf s t).isSome 0 + flg h.trig 1 + fld h.failCode 2)
  | 0x148 => some h.next.toNat
  | 0x154 => some (flg x.complete 0 + flg x.poison 1 + flg x.buddy 2 + flg x.hostLock 3)
  | 0x158 => some x.cut.toNat
  | 0x160 => some x.step.toNat
  | 0x168 => some (digestReg 32 x.digest)
  | 0x1D0 => some (r.st + fld r.cause 8 + fld (satTo 32 r.listed.length) 32)
  | 0x1D8 => some r.checked
  | _ => none

/-- A register of MGMT. -/
def mgmtReg (s : State) (off : Nat) : Option Nat :=
  let m := s.mgmt
  match off with
  | 0x100 => some (b2n s.part.mGrade + fld s.part.stepping 8)
  | 0x104 => some (s.part.serial % 2 ^ 20)
  | 0x108 => some (m.rstKind + fld m.rstLamb 4)
  | 0x10C => some (flg m.startDone 0 + flg m.restarting 1 + flg m.lamb 2 + fld m.phase 4 + flg m.slotB 8 + flg m.staged 9)
  | 0x110 => some (m.fw.getD (b2n m.slotB) {}).version
  | 0x120 => some m.lambCause
  | 0x128 => some m.lambTime
  | 0x138 => some ((regWord s .mgmt 0 0x138 0 &&& 0x77) + flg (availBusy s) 9 + flg m.mismatch 10)
  | 0x13C => some ((m.fenced.head?.map (fun k => match blkList[k / 4096 - 1]? with
    | some b => pageId b (k % 4096)
    | none => 0)).getD 0)
  | 0x140 => some (satTo 8 m.fenced.length)
  | 0x148 => some m.logHead.toNat
  | 0x150 => some (tabGet 0 m.log (bits (regWord s .mgmt 0 0x144 0) 0 8))
  | _ => none

/-- A block-specific register that is not simply stored. -/
def blockReg (s : State) (b : Block) (i off : Nat) : Option Nat :=
  match b with
  | .mgmt => mgmtReg s off
  | .host => hostReg s off
  | .pwr => pwrReg s off
  | .ledg => ledgReg s off
  | .hen => henReg s off
  | .goose => gooseReg s i off
  | .ox => oxReg s i off
  | .pony => ponyReg s i off
  | .mule => muleReg s i off
  | .solv => solvReg s i off
  | .spad => spadReg s i off
  | .lpc => lpcReg s i off
  | .drake => drakeReg s i off
  | .wlink => wlinkReg s i off
  | .wsw => wswReg s off
  | .coll => collReg s off
  | .xag => xagReg s off
  | .ten => tenReg s i off

/-- The whole value of a register of a page. -/
def regValue (s : State) (b : Block) (i : Nat) (g : RegSpec) : Nat :=
  (if g.off < 0x100 then commonReg s b i g.off else (blockReg s b i g.off).getD (storedReg s b i g)) % 2 ^ (32 * g.words)

/-! Read accesses (20.3). -/

/-- A requester's snapshot of a register (R763). -/
def snapOf (s : State) (r : Requester) (b : Block) (i off : Nat) : Option Nat :=
  ((page s b i).snaps.find? (fun x => x.req == reqCode r && x.off == off)).map (·.value)

/-- R763: the snapshot taken. -/
def takeSnap (s : State) (r : Requester) (b : Block) (i : Nat) (g : RegSpec) : State :=
  modPage s b i (fun p => { p with
    snaps := { req := reqCode r, off := g.off, value := regValue s b i g } :: p.snaps.filter (fun x => x.req != reqCode r || x.off != g.off) })

/-- The 32-bit word at an offset of a page, as a requester reads it: the live word, or of a wide register's higher words the snapshot's;
the lowest word takes the snapshot (R763). A reserved offset reads zero (R767). -/
def readWord (s : State) (r : Requester) (b : Block) (i off : Nat) : Nat × State :=
  match specAt b i off with
  | none => (0, s)
  | some g =>
    let v := if off = g.off then regValue s b i g else (snapOf s r b i g.off).getD (regValue s b i g)
    (bits v (8 * (off - g.off)) 32, if off = g.off && 1 < g.words then takeSnap s r b i g else s)

/-- The words from `off` to `last`, read in ascending order, as one little-endian value. -/
def readWords (s : State) (r : Requester) (b : Block) (i off : Nat) : Nat → Nat × State
  | 0 => (0, s)
  | n + 1 =>
    let x := readWord s r b i off
    let y := readWords x.2 r b i (off + 4) n
    (x.1 + 2 ^ 32 * y.1, y.2)

/-- R759, R760, R763: a read of `width` bytes at an offset of a page; a width or alignment that is not allowed gives the addressed bytes
and takes no snapshot. An 8-byte read of a 64-bit register returns a value of one instant. -/
def readPage (s : State) (r : Requester) (b : Block) (i off width : Nat) : Nat × State :=
  let n := (off % 4 + width + 3) / 4
  let v := readWords s r b i (off - off % 4) n
  if off % 4 = 0 && width % 4 = 0 then
    (if width = 8 && off % 8 = 0 then
      match specAt b i off with
      | some g => if g.off = off && g.words = 2 then (regValue s b i g, takeSnap s r b i g) else v
      | none => v
    else v)
  else (bits v.1 (8 * (off % 4)) (8 * width), s)

/-- A VF's MSI-X table and pending bits (Table 15.2): the word at an offset of BAR0 from 0x1000 up. -/
def msixWord (s : State) (fn off : Nat) : Nat :=
  let m := msixOf s fn
  let v := (off - 0x1000) / 16
  if off < 0x2000 then
    (if 10 ≤ v then 0
     else if off % 16 / 4 = 3 then b2n (bitAt m.mask v)
     else bits (tabGet 0 m.entries v) (32 * (off % 16 / 4)) 32)
  else if off < 0x2004 then m.pend % 2 ^ 32
  else 0

/-- A read of a VF's MSI-X structures. -/
def msixRead (s : State) (fn off width : Nat) : Nat :=
  let n := (off % 4 + width + 3) / 4
  let v := (List.range n).foldl (fun a k => a + msixWord s fn (off - off % 4 + 4 * k) * 2 ^ (32 * k)) 0
  bits v (8 * (off % 4)) (8 * width)

/-- A register read answers with its data (R764: nothing else changes). -/
def answer (x : Nat × State) : State := emit x.2 (.regData x.1)

/-- A BAR0 read that no page answers: it reads zero where no page lies (R767) and the function is reachable, else Unsupported Request
(Table 15.3, R612). The management controller's read of an address without a page reads zero. -/
def readNothing (s : State) (r : Requester) : State :=
  match r with
  | .mgmt => emit s (.regData 0)
  | .pf => if !fnUp s 0 then s else if s.hostIf.own = 1 then emit s (.regData 0) else answerUr s
  | .vf t => if fnUp s (t + 1) then answerUr s else s
  | .cfg _ => s

/-- A function exists in configuration space: the PF, and the VFs that NumVFs and VF Enable bring (R603, R606). -/
def cfgFn (s : State) (fn : Nat) : Bool := fn = 0 || (s.hostIf.vfEnable && fn ≤ s.hostIf.numVfs)

/-- What 4 bytes of a function's configuration space hold, where Table 15.1 or R604 says: the PF's identifiers at 0 and its revision, the
stepping, in the low byte at 8, and the two words of its Device Serial Number. [PRESUMED, log 101] -/
def cfgWord (s : State) (fn addr free : Nat) : Nat :=
  if fn = 0 && addr = Config.serialCap + 4 then s.part.serial % 2 ^ 20
  else if fn = 0 && addr = Config.serialCap + 8 then 0
  else if fn = 0 && addr = 0 then 0x5C101F8E
  else if fn = 0 && addr = 8 then setBits free 0 8 s.part.stepping
  else free

/-- A configuration read (R603, R604): retried until start-up is over (R640), nothing while the link is down. What Table 15.1 leaves to
the PCIe standards and the software is a free value. [PRESUMED, log 101] -/
def cfgRead (s : State) (fn addr : Nat) : State :=
  if s.hostIf.gen = 0 then s
  else if s.hostIf.crs then emit s .crs
  else if !cfgFn s fn then answerUr s
  else emit { s with freeCount := s.freeCount + 1 } (.regData (cfgWord s fn addr ((Config.freeWord s.freeCount).toNat % 2 ^ 32)))

/-- A read of a page or of a VF's BAR0. [DEDUCED, log 69] -/
def doRegRead (s : State) (r : Requester) (addr width : Nat) : State :=
  let s := bar0Count s r
  match r with
  | .cfg fn => cfgRead s fn addr
  | .vf t =>
    if !fnUp s (t + 1) then s
    else if s.mgmt.lamb then answerUr s
    else if addr < 0x1000 then
      (if readReaches s r .ten t && addr + width ≤ 0x1000 then answer (readPage s r .ten t addr width) else answerUr s)
    else if addr < 0x3000 then answer (msixRead s (t + 1) addr width, s)
    else if addr < 0x4000 then answer (0, s)
    else answerUr s
  | _ =>
    match pageAt addr with
    | none => readNothing s r
    | some (b, i, off) =>
      if 0x1000 < off + width then readNothing s r
      else if readReaches s r b i then answer (readPage s r b i off width)
      else match r with
        | .pf => if fnUp s 0 then answerUr s else s
        | _ => s

/-- REGISTER_SNAPSHOT_READ (R763). -/
def execRegisterSnapshotRead (r : Requester) (addr width : Nat) (s : State) : Host.Outcome State Fault Refusal :=
  .next (whenLive s (doRegRead s r addr width))

end Sys2Proof.Machine
end

