-- ==== Sys2Proof/Machine/RegWrite.lean ====
section
/-! DEFINITION. Writing a register page: access, staging and commit, reserved values, and what each register's write does (20.1 to 20.3
and the register maps of the chapters). -/

namespace Sys2Proof.Machine

/-! Access (R751 to R753, R611, R742). -/

/-- The OX registers that only the management controller writes (R753). -/
def steerOff (off : Nat) : Bool := off == 0x118 || off == 0x120 || off == 0x128 || off == 0x138

/-- The registers whose write the present owner must make: those of MGMT, and HOST's settings. [DEDUCED, log 68] -/
def ownerOnly (b : Block) (off : Nat) : Bool := (b == .mgmt && 0x100 ≤ off) || (b == .host && 0x10C ≤ off)

/-- The requester may write the register: it has a writable field, which Table 20.1 lets the requester write, and no management restart
stops it (R742). [DEDUCED, log 67] -/
def mayWrite (s : State) (r : Requester) (b : Block) (g : RegSpec) : Bool :=
  (g.rw ||| g.w1c ||| g.wo) != 0
    && (!isVf r || !g.owner)
    && (!(b == .ox && steerOff g.off) || decide (r = .mgmt))
    && (!ownerOnly b g.off || asOwner s r)
    && (b != .mgmt || !s.mgmt.restarting || g.off == 0x118 || g.off == 0x11C)

/-! Storing. -/

/-- The RW fields of a register set to those of a value. -/
def storeReg (s : State) (b : Block) (i : Nat) (g : RegSpec) (v : Nat) : State :=
  (List.range g.words).foldl (fun x k => setRegWord x b i (g.off + 4 * k) (bits (v &&& g.rw) (32 * k) 32)) s

/-- R766: a value that no field takes: the write is ignored whole and sets ERR_STATUS. [DEDUCED, log 67] -/
def orBad (s : State) (b : Block) (i off : Nat) (ok : Bool) (f : State → State) : State := if ok then f s else regError s b i off

/-- A value is a multiple of `n`. -/
def mult (v n : Nat) : Bool := v % n == 0

/-! The common registers. -/

/-- R651, R755: 1 written to EVENT bits clears them and their counts; clearing a bit from 7 up clears byte 7. -/
def clearEvents (s : State) (b : Block) (i v : Nat) : State :=
  let m := v &&& eventMask b
  let ks := (bitsOf 32 m).map (min 7)
  modPage s b i (fun p => { p with
    event := p.event &&& ~~~ BitVec.ofNat 32 m, count := p.count.filter (fun e => !ks.contains e.1) })

/-- ERR_STATUS: clearing valid arms the registers for the next error (R736). -/
def clearErrs (s : State) (b : Block) (i v : Nat) : State :=
  modPage s b i (fun p => { p with errValid := p.errValid && !bitAt v 0, errOver := p.errOver && !bitAt v 1 && !bitAt v 0 })

/-- CTRL (Table 20.3): the link's enable, the power arbiter's enable (R753, R757), then the reset or the quiesce. [DEDUCED, log 68] -/
def putCtrl (s : State) (r : Requester) (b : Block) (i v : Nat) : State :=
  if availOn s b i then regError s b i 0x10
  else
    let s := match b with
      | .wlink =>
        if bitAt v 0 then doLinkEnable s .mgmt i else if (lnk s i).st != 0 then disableLink s i else s
      | .pwr =>
        if bitAt v 0 = s.pwr.enabled then s
        else if r = .mgmt then { s with pwr := { s.pwr with enabled := bitAt v 0 } }
        else regError s .pwr 0 0x10
      | _ => s
    if bitAt v 2 then doBlockReset s .mgmt b i
    else if bitAt v 1 then doQuiesce s .mgmt b i
    else s

/-- A write of a common register. -/
def putCommon (s : State) (r : Requester) (b : Block) (i : Nat) (g : RegSpec) (v : Nat) : State :=
  match g.off with
  | 0x010 => putCtrl s r b i v
  | 0x020 => clearEvents s b i v
  | 0x024 => modPage s b i (fun p => { p with eventEn := BitVec.ofNat 32 (v &&& eventMask b) })
  | 0x030 => clearErrs s b i v
  | off => modPage s b i (fun p => { p with perf := tabSet p.perf ((off - 0x040) / 8) (BitVec.ofNat 64 v) })

/-! The processor die. -/

/-- A write of TEN.CTRL2: assigned by the owner (R611, R617), then the reset (R633). [DEDUCED, log 67] -/
def putCtrl2 (s : State) (r : Requester) (t v : Nat) : State :=
  let s := if bitAt v 1 = (ten s t).assigned then s
    else if isVf r then regError s .ten t 0x100
    else modTen s t (fun x => { x with assigned := bitAt v 1 })
  if bitAt v 0 then doTenReset s .mgmt t else s

/-- A write of a TEN register (Table 15.12). [DEDUCED, log 83] -/
def putTen (s : State) (r : Requester) (t : Nat) (g : RegSpec) (v : Nat) : State :=
  let set := fun (f : Tenant → Tenant) => modTen s t f
  match g.off with
  | 0x100 => putCtrl2 s r t v
  | 0x104 => if bitAt v 1 then set (fun x => { x with done := false }) else s
  | 0x108 => writeEn (set (fun x => { x with bg := bits v 8 8 })) t (bits v 0 8)
  | 0x10C => doArb s .mgmt t v
  | 0x110 => orBad s .ten t 0x110 (1 ≤ bits v 0 11 && bits v 0 11 ≤ 1024 && bits v 16 8 ≤ 128 && bits v 24 7 ≤ 64) (fun s =>
      modTen s t (fun x => { x with qInflight := bits v 0 11, qMule := bits v 16 8, qColl := bits v 24 7 }))
  | 0x114 => orBad s .ten t 0x114 (bits v 0 13 ≤ 4096 && bits v 16 8 ≤ 128) (fun s =>
      modTen s t (fun x => { x with qSmem := bits v 0 13, qStage := bits v 16 8 }))
  | 0x118 => set (fun x => { x with deferLim := v })
  | 0x120 => set (fun x => { x with rootValid := bitAt v 0, root := bits v 12 36 * 4096, tlb := [] })
  | 0x128 => orBad s .ten t 0x128 (mult v 4096) (fun s => modTen s t (fun x => { x with invAddr := bits v 0 48 }))
  | 0x130 => if bitAt v 33 then doInv s .mgmt t v else putInv s t v
  | 0x138 => if bitAt v 49 then set (fun x => { x with faultValid := false }) else s
  | 0x140 =>
    if bitAt v 48 then doTenantSeal s .mgmt t (bits v 0 48)
    else orBad s .ten t 0x140 (mult (bits v 0 48) (2 ^ 21)) (fun s => modTen s t (fun x => { x with sealAddr := bits v 0 48 }))
  | 0x148 => orBad s .ten t 0x148 (allDisabled s t) (fun s => modTen s t (fun x => { x with step := BitVec.ofNat 64 v }))
  | off =>
    let st := (off - 0x150) / 0x20
    match (off - 0x150) % 0x20 with
    | 0x00 => doCmdBase s .mgmt t st v
    | 0x08 => doCplBase s .mgmt t st v
    | 0x10 => doTail s .mgmt t st v
    | 0x18 => doCplRel s .mgmt t st v
    | _ => s

/-- A write of a HOST register but OWN_CTRL (Table 15.11). -/
def putHost (s : State) (g : RegSpec) (v : Nat) : State :=
  match g.off with
  | 0x110 => orBad s .host 0 0x110 (30 ≤ bits v 0 6 && bits v 0 6 ≤ 48 && !s.hostIf.vfEnable) (fun s => storeReg s .host 0 g v)
  | 0x118 => orBad s .host 0 0x118 (mult v 4096) (fun s => storeReg s .host 0 g v)
  | 0x120 => if bitAt v 32 then doZreq s .mgmt (bits v 0 32) else storeReg s .host 0 g v
  | 0x130 =>
    if bitAt v 48 then doOwnerSeal s .mgmt (bits v 0 48)
    else orBad s .host 0 0x130 (mult (bits v 0 48) (2 ^ 21)) (fun s => storeReg s .host 0 g v)
  | _ => storeReg s .host 0 g v

/-- A write of a PWR register (Table 16.9). -/
def putPwr (s : State) (g : RegSpec) (v : Nat) : State :=
  match g.off with
  | 0x100 => setLimit s v
  | 0x114 => setGrpPol s v
  | 0x120 => modGrp s (grpIdx s) (fun x => { x with defEst := v })
  | 0x124 => if bits v 0 4 ≤ 8 then storeReg s .pwr 0 g v else s
  | 0x12C => setClkPol s v
  | 0x134 => if 60 ≤ bits v 0 7 && bits v 0 7 ≤ 100 then storeReg s .pwr 0 g v else policyRefused s 0x134
  | _ => storeReg s .pwr 0 g v

/-- A write of a LEDG register (Table 11.11). -/
def putLedg (s : State) (g : RegSpec) (v : Nat) : State :=
  match g.off with
  | 0x108 => doRingConfig s .mgmt 0x108 v
  | 0x110 => doRingConfig s .mgmt 0x110 v
  | 0x120 => doRdPtr s .mgmt v
  | 0x128 => doSystime s .mgmt v
  | 0x134 => doTenMode s .mgmt v
  | 0x138 => doTenSeed s .mgmt v
  | 0x168 => doTenStop s .mgmt 0x168 v
  | 0x170 => doTenStop s .mgmt 0x170 v
  | _ => storeReg s .ledg 0 g v

/-- A write of REST_CTRL: its fields, then the action that it asks for. [DEDUCED, log 68] -/
def putRestCtrl (s : State) (g : RegSpec) (v : Nat) : State :=
  orBad s .hen 0 0x188 (bits v 0 12 < 512 && bits v 12 2 != 3) (fun s =>
    if bitAt v 15 then doRestAbort (storeReg s .hen 0 g v) .mgmt
    else if bitAt v 14 then doRestGo s .mgmt v
    else if bitAt v 16 then doHostDone (storeReg s .hen 0 g v) .mgmt
    else storeReg s .hen 0 g v)

/-- A write of a HEN register (Table 17.8). -/
def putHen (s : State) (g : RegSpec) (v : Nat) : State :=
  let t := henSel s
  match g.off with
  | 0x108 => orBad s .hen 0 0x108 (mult (bits v 0 48) (2 ^ 21)) (fun s => storeReg s .hen 0 g v)
  | 0x114 => orBad s .hen 0 0x114 (bits v 0 20 < 2 ^ 15) (fun s => storeReg s .hen 0 g v)
  | 0x118 => orBad s .hen 0 0x118 (bits v 0 20 < 2 ^ 15) (fun s => storeReg s .hen 0 g v)
  | 0x11C => orBad s .hen 0 0x11C (bits v 0 20 < 2 ^ 15) (fun s => storeReg s .hen 0 g v)
  | 0x120 => orBad s .hen 0 0x120 (mult (bits v 0 48) (2 ^ 21)) (fun s => storeReg s .hen 0 g v)
  | 0x130 => orBad s .hen 0 0x130 (mult (bits v 0 48) 64) (fun s =>
      modHenTen s t (fun h => { h with setAddr := bits v 0 48, setValid := bitAt v 48 }))
  | 0x138 => doTenCopy s .mgmt v
  | 0x140 => doTenTrig s .mgmt v
  | 0x154 => modSlot s t (bits (regWord s .hen 0 0x150 0) 0 1) (fun x => { x with hostLock := bitAt v 3 })
  | 0x188 => putRestCtrl s g v
  | 0x190 => orBad s .hen 0 0x190 (bits v 0 20 < 2 ^ 15 && bits v 20 20 < 2 ^ 15 && bits v 40 12 < 512) (fun s => storeReg s .hen 0 g v)
  | 0x1C0 => orBad s .hen 0 0x1C0 (mult (bits v 0 48) 64) (fun s => storeReg s .hen 0 g v)
  | _ => storeReg s .hen 0 g v

/-- A write of AVAIL_CTRL (R733): go asks for the action; the check that action 3 runs passes or fails, for a cluster core by core, by
a free value, since no row's operand says which. [DEDUCED, log 68] -/
def putAvail (s : State) (g : RegSpec) (v : Nat) : State :=
  let e := bits v 4 3
  let bad := (List.range 8).filter (fun k => (Config.freeWord s.freeCount).getLsbD k)
  if !bitAt v 8 then orBad s .mgmt 0 0x138 (1 ≤ bits v 0 3 && bits v 0 3 ≤ 4 && e ≤ 6) (fun s => storeReg s .mgmt 0 g v)
  else match bits v 0 3 with
    | 1 => doAvail s 1 e makeReady
    | 2 => doAvail s 2 e makeOff
    | 3 => doAvail { s with freeCount := s.freeCount + 1 } 3 e (fun s b i => resetCheck s b i bad)
    | 4 => doAvail s 4 e leaveFenced
    | _ => regError s .mgmt 0 0x138

/-- A write of a MGMT register (Table 19.9). [DEDUCED, log 68] -/
def putMgmt (s : State) (g : RegSpec) (v : Nat) : State :=
  match g.off with
  | 0x114 => if bitAt v 0 then doMgmtRestart s .mgmt else s
  | 0x118 => if bitAt v 0 then doNodeReset s .mgmt else s
  | 0x11C => if bitAt v 0 then doLambCtrl s .mgmt else s
  | 0x130 => orBad s .mgmt 0 0x130 (1 ≤ bits v 0 16 && bits v 0 16 ≤ 1000) (fun s => storeReg s .mgmt 0 g v)
  | 0x138 => putAvail s g v
  | _ => storeReg s .mgmt 0 g v

/-! The other blocks. -/

/-- A write of a GOOSE register (Tables 2.10, 2.11). -/
def putGoose (s : State) (c : Nat) (g : RegSpec) (v : Nat) : State :=
  let t := 16 * c + (g.off - 0x200) / 0x40
  match (g.off - 0x200) % 0x40 with
  | 0x00 => orBad s .goose c g.off (allDisabled s t) (fun s => modTen s t (fun x => { x with step := BitVec.ofNat 64 v }))
  | 0x08 => writeEn s t (bits v 0 8)
  | 0x10 => modTen s t (fun x => { x with tokenErr := x.tokenErr &&& ~~~ BitVec.ofNat 64 v })
  | _ => s

/-- A write of OX.STEER_CTRL: the fields, then entry, departure or a test (R181 to R185). -/
def putSteer (s : State) (a : Nat) (g : RegSpec) (v : Nat) : State :=
  let s := storeReg s .ox a { g with rw := 0x1FF04 } v
  let s := if bitAt v 0 = (ox s a).steer then s else if bitAt v 0 then doSteerEnter s .mgmt a else doSteerLeave s .mgmt a
  if bitAt v 1 then doSteerGo s .mgmt a else s

/-- A write of an OX register (Table 4.11). -/
def putOx (s : State) (a : Nat) (g : RegSpec) (v : Nat) : State :=
  match g.off with
  | 0x118 => putSteer s a g v
  | 0x124 => if bitAt v 17 then modOx s a (fun x => { x with logValid := false }) else s
  | _ => storeReg s .ox a g v

/-- A write of a SPAD register (Table 9.14). -/
def putSpad (s : State) (d : Nat) (g : RegSpec) (v : Nat) : State :=
  match g.off with
  | 0x110 =>
    let k := setIdx s d
    orBad s .spad d 0x110 (bits v 0 17 < 129024) (fun s =>
      setRegWord (setRegWord s .spad d (0x1000 + 8 * k) (bits v 0 17)) .spad d (0x1004 + 8 * k) (bits v 32 17))
  | 0x118 => (match bits v 0 3 with
    | 1 => doSetLoad s .mgmt d
    | 2 => doSetActivate s .mgmt d
    | 3 => doSetRetire s .mgmt d
    | _ => regError s .spad d 0x118)
  | 0x120 => if bitAt v 48 then doHostImg s .mgmt d (bits v 0 48) else storeReg s .spad d g v
  | 0x130 => if bitAt v 32 then modSpad s d (fun x => { x with ue := { x.ue with valid := false } }) else s
  | _ => storeReg s .spad d g v

/-- A write of WIN_CTRL: the lock set (R367), or cleared while no tenant maps LPDDR. -/
def putWinCtrl (s : State) (v : Nat) : State :=
  if bitAt v 0 then doWinLock s .mgmt
  else orBad s .lpc 0 0x180 (!winLocked s || !anyMaps s 0 0x8000000000) (fun s => setRegWord s .lpc 0 0x180 0)

/-- A write of an LPC register (Table 9.15). -/
def putLpc (s : State) (p : Nat) (g : RegSpec) (v : Nat) : State :=
  match g.off with
  | 0x108 => orBad s .lpc p 0x108 (bits v 0 2 != 3) (fun s => storeReg s .lpc p g v)
  | 0x118 => if bitAt v 48 then modPort s p (fun x => { x with ue := { x.ue with valid := false } }) else s
  | 0x120 => storeReg s .lpc p g v
  | 0x180 => putWinCtrl s v
  | off => doWinWrite s .mgmt ((off - 0x140) / 8) v

/-- A write of a WSW register (Table 12.11): spares and exclusions change the links that carry routes (R509, R513, R588). -/
def putWsw (s : State) (g : RegSpec) (v : Nat) : State :=
  let before := routeLinks s
  match g.off with
  | 0x100 => doNodeCfg s .mgmt 0x100 v
  | 0x128 => doNodeCfg s .mgmt 0x128 v
  | 0x10C => orBad s .wsw 0 0x10C (bits v 0 4 != 0) (fun s => storeReg s .wsw 0 g v)
  | 0x114 => checkSplits (routesChanged before (storeReg s .wsw 0 g v))
  | 0x118 => checkSplits (routesChanged before (storeReg s .wsw 0 g v))
  | 0x120 => checkSplits (routesChanged before (storeReg s .wsw 0 g v))
  | _ => storeReg s .wsw 0 g v

/-- A write of a COLL register (Table 13.9). -/
def putColl (s : State) (g : RegSpec) (v : Nat) : State :=
  match g.off with
  | 0x104 => orBad s .coll 0 0x104 (1 ≤ bits v 0 5 && bits v 0 5 ≤ 16) (fun s => storeReg s .coll 0 g v)
  | 0x120 => if bitAt v 23 then { s with coll := { s.coll with logValid := false } } else s
  | _ => storeReg s .coll 0 g v

/-- The fabric registers of the tenant that TEN_IDX selects changed. -/
def modXten (s : State) (f : XTen → XTen) : State := { s with xag := { s.xag with tens := tabMod {} s.xag.tens (xagSel s) f } }

/-- A write of an XAG register (Table 14.10). -/
def putXag (s : State) (g : RegSpec) (v : Nat) : State :=
  match g.off with
  | 0x104 => doFabTmo s .mgmt v
  | 0x108 => orBad s .xag 0 0x108 (mult (bits v 0 48) 4096) (fun s => storeReg s .xag 0 g v)
  | 0x110 => if bitAt v 0 then doRegionSync s .mgmt else s
  | 0x118 => modXten s (fun x => { x with job := BitVec.ofNat 32 v })
  | 0x11C => orBad s .xag 0 0x11C (bits v 0 11 ≤ 1024) (fun s => modXten s (fun x => { x with groups := bits v 0 11 }))
  | 0x120 => orBad s .xag 0 0x120 (mult (bits v 0 48) 256) (fun s => modXten s (fun x => { x with groupBase := bits v 0 48 }))
  | 0x14C => storeReg s .xag 0 g v
  | off => doHerdCfg s .mgmt off v

/-! Index registers (R762). -/

/-- The index registers of a block, by offset. -/
def indexOffs : Block → List Nat
  | .goose => [0x108, 0x110]
  | .solv => [0x108]
  | .spad => [0x104, 0x128]
  | .drake => [0x108]
  | .ledg => [0x130]
  | .coll => [0x108]
  | .xag => [0x114]
  | .pwr => [0x110, 0x128]
  | .hen => [0x128, 0x150]
  | .mgmt => [0x144]
  | _ => []

/-- The values that an index register takes. [DEDUCED, log 69] -/
def indexValueOk (b : Block) (off v : Nat) : Bool :=
  match b with
  | .ledg => bits v 0 12 ≤ 511 || bits v 0 12 == 0xFFF
  | .drake | .xag => bits v 0 12 ≤ 511
  | .hen => off != 0x128 || bits v 0 12 ≤ 511
  | .pwr => if off = 0x110 then bits v 0 4 ≤ 10 else bits v 0 2 != 3
  | _ => true

/-- R762: a write of an index register: the words that the requester has staged in the page are discarded. -/
def putIndex (s : State) (r : Requester) (b : Block) (i : Nat) (g : RegSpec) (v : Nat) : State :=
  orBad (modPage s b i (fun p => { p with staged := p.staged.filter (fun x => x.req != reqCode r) })) b i g.off (indexValueOk b g.off v)
    (fun s => storeReg s b i g v)

/-! Commit. -/

/-- What a write of a whole register does, once its requester may write it. -/
def putReg (s : State) (r : Requester) (b : Block) (i : Nat) (g : RegSpec) (v : Nat) : State :=
  if g.off < 0x100 then putCommon s r b i g v
  else if (indexOffs b).contains g.off then putIndex s r b i g v
  else match b with
    | .mgmt => putMgmt s g v
    | .host => putHost s g v
    | .pwr => putPwr s g v
    | .ledg => putLedg s g v
    | .hen => putHen s g v
    | .goose => putGoose s i g v
    | .ox => putOx s i g v
    | .mule => if bitAt v 10 then { s with mule := { s.mule with logs := tabMod {} s.mule.logs i (fun x => { x with valid := false }) } } else s
    | .spad => putSpad s i g v
    | .lpc => putLpc s i g v
    | .wsw => putWsw s g v
    | .coll => putColl s g v
    | .xag => putXag s g v
    | .ten => putTen s r i g v
    | _ => storeReg s b i g v

/-- A requester's staged words of a register dropped. -/
def dropWords (s : State) (r : Requester) (b : Block) (i : Nat) (g : RegSpec) : State :=
  if (page s b i).staged.isEmpty then s
  else modPage s b i (fun p => { p with staged := p.staged.filter (fun x => x.req != reqCode r || x.off < g.off || g.off + 4 * g.words ≤ x.off) })

/-- R761: a write that commits a register. OWN_CTRL looks at its requester itself. -/
def commitReg (s : State) (r : Requester) (b : Block) (i : Nat) (g : RegSpec) (v : Nat) : State :=
  if b = .host && g.off = 0x108 then
    (if bitAt v 0 then doCtrlClaim s r else if bitAt v 1 then doCtrlRelease s r else regAccess s r b i g.off true id)
  else regAccess s r b i g.off (mayWrite s r b g) (fun s => putReg (dropWords s r b i g) r b i g v)

/-- R761: a word staged for its requester. -/
def stageWord (s : State) (r : Requester) (b : Block) (i : Nat) (g : RegSpec) (off v : Nat) : State :=
  let s := bar0Count s r
  if !writeReaches s r b i then s
  else if !mayWrite s r b g then regError s b i off
  else modPage s b i (fun p => { p with
    staged := { req := reqCode r, off := off, word := v % 2 ^ 32 } :: p.staged.filter (fun x => x.req != reqCode r || x.off != off) })

/-- R761: the value that a write of the highest word commits: it, the requester's staged words, and the present value of the RW fields in
the words not staged. -/
def commitValue (s : State) (r : Requester) (b : Block) (i : Nat) (g : RegSpec) (hi : Nat) : Nat :=
  let now := regValue s b i g &&& g.rw
  (List.range g.words).foldl (fun a k =>
    let w := if k + 1 = g.words then hi % 2 ^ 32
      else (((page s b i).staged.find? (fun x => x.req == reqCode r && x.off == g.off + 4 * k)).map (·.word)).getD (bits now (32 * k) 32)
    a + w * 2 ^ (32 * k)) 0

/-- A write of 4 bytes at an aligned offset of a page. A reserved offset takes none (R767). -/
def writeWord (s : State) (r : Requester) (b : Block) (i off v : Nat) : State :=
  match specAt b i off with
  | none => bar0Count s r
  | some g =>
    if g.words = 1 then commitReg s r b i g (v % 2 ^ 32)
    else if off + 4 = g.off + 4 * g.words then commitReg s r b i g (commitValue s r b i g v)
    else stageWord s r b i g off v

/-- R760: `n` successive writes of 4 bytes. -/
def writeWords (s : State) (r : Requester) (b : Block) (i off : Nat) : Nat → Nat → State
  | 0, _ => s
  | n + 1, v => writeWords (writeWord s r b i off (v % 2 ^ 32)) r b i (off + 4) n (v / 2 ^ 32)

/-- R759 to R761: a write of `width` bytes at an offset of a page. -/
def writePage (s : State) (r : Requester) (b : Block) (i off width v : Nat) : State :=
  if width = 8 && off % 8 = 0 then
    match specAt b i off with
    | some g => if g.words = 2 && g.off = off then commitReg s r b i g (v % 2 ^ 64) else writeWords s r b i off 2 v
    | none => writeWords s r b i off 2 v
  else if width = 4 && off % 4 = 0 then writeWord s r b i off v
  else if 8 < width && width % 4 = 0 && off % 4 = 0 && !isVf r then writeWords s r b i off (width / 4) v
  else regAccess s r b i off false id

/-- A write of a word of a VF's MSI-X table (Table 15.2): message address and data, or the vector's mask (R626). [DEDUCED, log 69] -/
def msixWrite (s : State) (fn off v : Nat) : State :=
  let k := (off - 0x1000) / 16
  if 10 ≤ k then s
  else if off % 16 / 4 = 3 then maskVec s fn k (bitAt v 0)
  else
    let m := msixOf s fn
    { s with hostIf := { s.hostIf with
      msix := tabSet s.hostIf.msix fn { m with entries := tabMod 0 m.entries k (fun e => setBits e (32 * (off % 16 / 4)) 32 v) } } }

/-- A write of a VF's BAR0. [DEDUCED, log 67] -/
def vfWrite (s : State) (t addr width v : Nat) : State :=
  if addr < 0x1000 then writePage s (.vf t) .ten t addr width v
  else
    let s := bar0Count s (.vf t)
    if !fnUp s (t + 1) || s.mgmt.lamb || 0x2000 ≤ addr || !((width = 4 && addr % 4 = 0) || (width = 8 && addr % 8 = 0)) then s
    else
      let s := msixWrite s (t + 1) addr (v % 2 ^ 32)
      if width = 8 then msixWrite s (t + 1) (addr + 4) (v / 2 ^ 32 % 2 ^ 32) else s

/-- A register write of any address, width and value. An address that no page occupies takes none (R767). -/
def doRegWrite (s : State) (r : Requester) (addr width v : Nat) : State :=
  match r with
  | .vf t => vfWrite s t addr width v
  | .cfg _ => s
  | _ =>
    match pageAt addr with
    | none => bar0Count s r
    | some (b, i, off) => if 0x1000 < off + width then bar0Count s r else writePage s r b i off width v

/-- R762: a write of the index register at an offset of a page; nothing where the page has no index register there. -/
def doIndexWrite (s : State) (r : Requester) (b : Block) (i off v : Nat) : State :=
  match specAt b i off with
  | some g => if (indexOffs b).contains off then commitReg s r b i g (v % 2 ^ 32) else s
  | none => s

/-- R651: a write of EVENT. -/
def doEventWrite (s : State) (r : Requester) (b : Block) (i v : Nat) : State :=
  commitReg s r b i { off := 0x020, w1c := eventMask b } (v % 2 ^ 32)

/-! The steps. -/

/-- INDEX_REGISTER_WRITE (R762). -/
def execIndexRegisterWrite (r : Requester) (block : Block) (inst off value : Nat) (s : State) : Host.Outcome State Fault Refusal :=
  .next (whenLive s (doIndexWrite s r block inst off value))

/-- EVENT_WRITE (R651). -/
def execEventWrite (r : Requester) (block : Block) (inst mask : Nat) (s : State) : Host.Outcome State Fault Refusal :=
  .next (whenLive s (doEventWrite s r block inst mask))

/-- REGISTER_WRITE (R761). -/
def execRegisterWrite (r : Requester) (addr width value : Nat) (s : State) : Host.Outcome State Fault Refusal :=
  .next (whenLive s (doRegWrite s r addr width value))

end Sys2Proof.Machine
end

