-- ==== Sys2Proof/Machine/Dispatch.lean ====
section
/-! DEFINITION. Which meaning each constructor of `Instr` has. -/

namespace Sys2Proof.Machine

/-- The effect of a command on everything but the queue. -/
def exec (i : Instr) (s : State) : Host.Outcome State Fault Refusal :=
  match i with
  | .tailWrite r tenant stream value => Sys2Proof.Machine.execTailWrite r tenant stream value s
  | .cplRelWrite r tenant stream value => Sys2Proof.Machine.execCplRelWrite r tenant stream value s
  | .gooseFetch tenant stream now => Sys2Proof.Machine.execGooseFetch tenant stream now s
  | .commandIssue site now => Sys2Proof.Machine.execCommandIssue site now s
  | .commandComplete tenant stream count iter now => Sys2Proof.Machine.execCommandComplete tenant stream count iter now s
  | .deferLimitExpire tenant stream now => Sys2Proof.Machine.execDeferLimitExpire tenant stream now s
  | .nop tenant stream now => Sys2Proof.Machine.execNop tenant stream now s
  | .waitTok tenant stream now => Sys2Proof.Machine.execWaitTok tenant stream now s
  | .signalTok tenant stream now => Sys2Proof.Machine.execSignalTok tenant stream now s
  | .fenceCmd tenant stream now => Sys2Proof.Machine.execFenceCmd tenant stream now s
  | .stepClose tenant stream now => Sys2Proof.Machine.execStepClose tenant stream now s
  | .cut tenant stream now => Sys2Proof.Machine.execCut tenant stream now s
  | .testSlot tenant stream now => Sys2Proof.Machine.execTestSlot tenant stream now s
  | .loopRun tenant stream now => Sys2Proof.Machine.execLoopRun tenant stream now s
  | .mm array par ue => Sys2Proof.Machine.execMm array par ue s
  | .mmSplit array par ue => Sys2Proof.Machine.execMmSplit array par ue s
  | .loadStat array => Sys2Proof.Machine.execLoadStat array s
  | .steerEnter r array => Sys2Proof.Machine.execSteerEnter r array s
  | .steerLeave r array => Sys2Proof.Machine.execSteerLeave r array s
  | .steerGo r array => Sys2Proof.Machine.execSteerGo r array s
  | .steerTestEnd array => Sys2Proof.Machine.execSteerTestEnd array s
  | .vop slice badTable ue => Sys2Proof.Machine.execVop slice badTable ue s
  | .vred slice ue => Sys2Proof.Machine.execVred slice ue s
  | .vsum slice ue => Sys2Proof.Machine.execVsum slice ue s
  | .vgen slice badTable => Sys2Proof.Machine.execVgen slice badTable s
  | .muleRun core => Sys2Proof.Machine.execMuleRun core s
  | .muleRunEnd core => Sys2Proof.Machine.execMuleRunEnd core s
  | .barrierRelease core => Sys2Proof.Machine.execBarrierRelease core s
  | .sysNop core ev => Sys2Proof.Machine.execSysNop core ev s
  | .sysHalt core ev => Sys2Proof.Machine.execSysHalt core ev s
  | .sysBar core ev => Sys2Proof.Machine.execSysBar core ev s
  | .sysRet core ev => Sys2Proof.Machine.execSysRet core ev s
  | .sysSumi core ev => Sys2Proof.Machine.execSysSumi core ev s
  | .sysSumf core ev => Sys2Proof.Machine.execSysSumf core ev s
  | .sysFsrr core ev => Sys2Proof.Machine.execSysFsrr core ev s
  | .sysFsrc core ev => Sys2Proof.Machine.execSysFsrc core ev s
  | .sysSetvl core ev => Sys2Proof.Machine.execSysSetvl core ev s
  | .iop core ev => Sys2Proof.Machine.execIop core ev s
  | .addi core ev => Sys2Proof.Machine.execAddi core ev s
  | .lis core ev => Sys2Proof.Machine.execLis core ev s
  | .jt core ev => Sys2Proof.Machine.execJt core ev s
  | .ld core ev => Sys2Proof.Machine.execLd core ev s
  | .st core ev => Sys2Proof.Machine.execSt core ev s
  | .ldw core ev => Sys2Proof.Machine.execLdw core ev s
  | .ldwu core ev => Sys2Proof.Machine.execLdwu core ev s
  | .stw core ev => Sys2Proof.Machine.execStw core ev s
  | .fld core ev => Sys2Proof.Machine.execFld core ev s
  | .fst core ev => Sys2Proof.Machine.execFst core ev s
  | .fop core ev => Sys2Proof.Machine.execFop core ev s
  | .fma core ev => Sys2Proof.Machine.execFma core ev s
  | .fcmp core ev => Sys2Proof.Machine.execFcmp core ev s
  | .fcvt core ev => Sys2Proof.Machine.execFcvt core ev s
  | .vfop core ev => Sys2Proof.Machine.execVfop core ev s
  | .vfops core ev => Sys2Proof.Machine.execVfops core ev s
  | .vfma core ev => Sys2Proof.Machine.execVfma core ev s
  | .vfmas core ev => Sys2Proof.Machine.execVfmas core ev s
  | .vfcmp core ev => Sys2Proof.Machine.execVfcmp core ev s
  | .vfred core ev => Sys2Proof.Machine.execVfred core ev s
  | .vfcvt core ev => Sys2Proof.Machine.execVfcvt core ev s
  | .vi64 core ev => Sys2Proof.Machine.execVi64 core ev s
  | .vi32 core ev => Sys2Proof.Machine.execVi32 core ev s
  | .vi16 core ev => Sys2Proof.Machine.execVi16 core ev s
  | .vmisc core ev => Sys2Proof.Machine.execVmisc core ev s
  | .vld64 core ev => Sys2Proof.Machine.execVld64 core ev s
  | .vld32 core ev => Sys2Proof.Machine.execVld32 core ev s
  | .vld16 core ev => Sys2Proof.Machine.execVld16 core ev s
  | .vst64 core ev => Sys2Proof.Machine.execVst64 core ev s
  | .vst32 core ev => Sys2Proof.Machine.execVst32 core ev s
  | .vst16 core ev => Sys2Proof.Machine.execVst16 core ev s
  | .beq core ev => Sys2Proof.Machine.execBeq core ev s
  | .bne core ev => Sys2Proof.Machine.execBne core ev s
  | .blt core ev => Sys2Proof.Machine.execBlt core ev s
  | .bge core ev => Sys2Proof.Machine.execBge core ev s
  | .bltu core ev => Sys2Proof.Machine.execBltu core ev s
  | .bgeu core ev => Sys2Proof.Machine.execBgeu core ev s
  | .j core ev => Sys2Proof.Machine.execJ core ev s
  | .call core ev => Sys2Proof.Machine.execCall core ev s
  | .solveSetupCreate u => Sys2Proof.Machine.execSolveSetupCreate u s
  | .solveSetupRelease u => Sys2Proof.Machine.execSolveSetupRelease u s
  | .solveSetupMeasure u => Sys2Proof.Machine.execSolveSetupMeasure u s
  | .solveUpd u se => Sys2Proof.Machine.execSolveUpd u se s
  | .factor u se => Sys2Proof.Machine.execFactor u se s
  | .direct u se => Sys2Proof.Machine.execDirect u se s
  | .refine u se => Sys2Proof.Machine.execRefine u se s
  | .cg u se => Sys2Proof.Machine.execCg u se s
  | .bicgstab u se => Sys2Proof.Machine.execBicgstab u se s
  | .moveT group idx ue => Sys2Proof.Machine.execMoveT group idx ue s
  | .convertT group idx ue => Sys2Proof.Machine.execConvertT group idx ue s
  | .gatherWiden group idx ue => Sys2Proof.Machine.execGatherWiden group idx ue s
  | .prefetch group idx => Sys2Proof.Machine.execPrefetch group idx s
  | .prefetchRunahead group idx entry => Sys2Proof.Machine.execPrefetchRunahead group idx entry s
  | .prefetchCommit group idx => Sys2Proof.Machine.execPrefetchCommit group idx s
  | .prefetchPromote group idx => Sys2Proof.Machine.execPrefetchPromote group idx s
  | .zeroT group idx => Sys2Proof.Machine.execZeroT group idx s
  | .allreduce => Sys2Proof.Machine.execAllreduce s
  | .grantSend slot piece => Sys2Proof.Machine.execGrantSend slot piece s
  | .grant m => Sys2Proof.Machine.execGrant m s
  | .partialSum m => Sys2Proof.Machine.execPartialSum m s
  | .pieceCombine slot c => Sys2Proof.Machine.execPieceCombine slot c s
  | .resultPiece m => Sys2Proof.Machine.execResultPiece m s
  | .acknowledgement m => Sys2Proof.Machine.execAcknowledgement m s
  | .abortMsg m => Sys2Proof.Machine.execAbortMsg m s
  | .collectiveWaitTimeout slot => Sys2Proof.Machine.execCollectiveWaitTimeout slot s
  | .abortHoldExpire key => Sys2Proof.Machine.execAbortHoldExpire key s
  | .xload => Sys2Proof.Machine.execXload s
  | .xstore => Sys2Proof.Machine.execXstore s
  | .xmcast => Sys2Proof.Machine.execXmcast s
  | .xadd => Sys2Proof.Machine.execXadd s
  | .xinval => Sys2Proof.Machine.execXinval s
  | .lockTake => Sys2Proof.Machine.execLockTake s
  | .lockRelease => Sys2Proof.Machine.execLockRelease s
  | .remoteRequest m => Sys2Proof.Machine.execRemoteRequest m s
  | .remoteResponse m => Sys2Proof.Machine.execRemoteResponse m s
  | .rmwUnitServe unit => Sys2Proof.Machine.execRmwUnitServe unit s
  | .fabricTimeout node tag => Sys2Proof.Machine.execFabricTimeout node tag s
  | .gets m => Sys2Proof.Machine.execGets m s
  | .getm m => Sys2Proof.Machine.execGetm m s
  | .snps m => Sys2Proof.Machine.execSnps m s
  | .snpi m => Sys2Proof.Machine.execSnpi m s
  | .dataS m => Sys2Proof.Machine.execDataS m s
  | .dataM m => Sys2Proof.Machine.execDataM m s
  | .srsp m => Sys2Proof.Machine.execSrsp m s
  | .wb m => Sys2Proof.Machine.execWb m s
  | .evc m => Sys2Proof.Machine.execEvc m s
  | .wbAck m => Sys2Proof.Machine.execWbAck m s
  | .herdEvict line => Sys2Proof.Machine.execHerdEvict line s
  | .herdMemberLeave member => Sys2Proof.Machine.execHerdMemberLeave member s
  | .lockProbe tenant offset => Sys2Proof.Machine.execLockProbe tenant offset s
  | .lockReleaseNotice tenant offset ownerNode ownerTenant news => Sys2Proof.Machine.execLockReleaseNotice tenant offset ownerNode ownerTenant news s
  | .regionSync r => Sys2Proof.Machine.execRegionSync r s
  | .regionTableReadEnd => Sys2Proof.Machine.execRegionTableReadEnd s
  | .herdConfigWrite r reg value => Sys2Proof.Machine.execHerdConfigWrite r reg value s
  | .fabTmoWrite r value => Sys2Proof.Machine.execFabTmoWrite r value s
  | .linkEnable r link => Sys2Proof.Machine.execLinkEnable r link s
  | .linkDetect link => Sys2Proof.Machine.execLinkDetect link s
  | .linkStateAdvance link lanes => Sys2Proof.Machine.execLinkStateAdvance link lanes s
  | .linkStateTimeout link => Sys2Proof.Machine.execLinkStateTimeout link s
  | .attemptBackoffEnd link => Sys2Proof.Machine.execAttemptBackoffEnd link s
  | .linkFailedRetry link => Sys2Proof.Machine.execLinkFailedRetry link s
  | .cap link body => Sys2Proof.Machine.execCap link body s
  | .capRepeat link => Sys2Proof.Machine.execCapRepeat link s
  | .verifyEnd link flits => Sys2Proof.Machine.execVerifyEnd link flits s
  | .dataFlit link f => Sys2Proof.Machine.execDataFlit link f s
  | .idleFlit link f => Sys2Proof.Machine.execIdleFlit link f s
  | .retryRequest link f => Sys2Proof.Machine.execRetryRequest link f s
  | .retryRequestRepeat link => Sys2Proof.Machine.execRetryRequestRepeat link s
  | .linkErrorWindow link => Sys2Proof.Machine.execLinkErrorWindow link s
  | .linkStepUp link => Sys2Proof.Machine.execLinkStepUp link s
  | .linkIdleStepdown link => Sys2Proof.Machine.execLinkIdleStepdown link s
  | .retrainEnd link => Sys2Proof.Machine.execRetrainEnd link s
  | .linkOverrideReturn link outsideUs => Sys2Proof.Machine.execLinkOverrideReturn link outsideUs s
  | .linkDown link failed => Sys2Proof.Machine.execLinkDown link failed s
  | .routeHoldEnd hold => Sys2Proof.Machine.execRouteHoldEnd hold s
  | .nodeCfgWrite r reg value => Sys2Proof.Machine.execNodeCfgWrite r reg value s
  | .setLoad r die => Sys2Proof.Machine.execSetLoad r die s
  | .setActivate r die => Sys2Proof.Machine.execSetActivate r die s
  | .setActivateDone die set => Sys2Proof.Machine.execSetActivateDone die set s
  | .setRetire r die => Sys2Proof.Machine.execSetRetire r die s
  | .sharedPageRestore die page => Sys2Proof.Machine.execSharedPageRestore die page s
  | .hostImgSubmit r die addr => Sys2Proof.Machine.execHostImgSubmit r die addr s
  | .setImageTimeout die set => Sys2Proof.Machine.execSetImageTimeout die set s
  | .scrubRead line err => Sys2Proof.Machine.execScrubRead line err s
  | .mr4Poll port rank0 rank1 => Sys2Proof.Machine.execMr4Poll port rank0 rank1 s
  | .refreshDue port rank row => Sys2Proof.Machine.execRefreshDue port rank row s
  | .winWrite r window value => Sys2Proof.Machine.execWinWrite r window value s
  | .winLock r => Sys2Proof.Machine.execWinLock r s
  | .tenantSeal r tenant addr => Sys2Proof.Machine.execTenantSeal r tenant addr s
  | .ownerSeal r addr => Sys2Proof.Machine.execOwnerSeal r addr s
  | .sealTakeEffect granule => Sys2Proof.Machine.execSealTakeEffect granule s
  | .zreqSubmit r pages => Sys2Proof.Machine.execZreqSubmit r pages s
  | .zeroDone idx => Sys2Proof.Machine.execZeroDone idx s
  | .zeroFillEnd port => Sys2Proof.Machine.execZeroFillEnd port s
  | .tenModeWrite r value => Sys2Proof.Machine.execTenModeWrite r value s
  | .tenSeedWrite r value => Sys2Proof.Machine.execTenSeedWrite r value s
  | .tenSealRequest r => Sys2Proof.Machine.execTenSealRequest r s
  | .sealPeriod fail => Sys2Proof.Machine.execSealPeriod fail s
  | .ledgerEntryWrite => Sys2Proof.Machine.execLedgerEntryWrite s
  | .ringUnitRetry => Sys2Proof.Machine.execRingUnitRetry s
  | .ringConfigWrite r reg value => Sys2Proof.Machine.execRingConfigWrite r reg value s
  | .rdPtrWrite r value => Sys2Proof.Machine.execRdPtrWrite r value s
  | .tenStopWrite r reg value => Sys2Proof.Machine.execTenStopWrite r reg value s
  | .stopHit tenant => Sys2Proof.Machine.execStopHit tenant s
  | .systimeWrite r value => Sys2Proof.Machine.execSystimeWrite r value s
  | .stepRegisterWrite r tenant value => Sys2Proof.Machine.execStepRegisterWrite r tenant value s
  | .streamEnWrite r tenant value => Sys2Proof.Machine.execStreamEnWrite r tenant value s
  | .cmdBaseWrite r tenant stream value => Sys2Proof.Machine.execCmdBaseWrite r tenant stream value s
  | .cplBaseWrite r tenant stream value => Sys2Proof.Machine.execCplBaseWrite r tenant stream value s
  | .arbWrite r tenant value => Sys2Proof.Machine.execArbWrite r tenant value s
  | .translationInvalidate r tenant value => Sys2Proof.Machine.execTranslationInvalidate r tenant value s
  | .pfBar2Read addr len ue => Sys2Proof.Machine.execPfBar2Read addr len ue s
  | .pfBar2Write addr data => Sys2Proof.Machine.execPfBar2Write addr data s
  | .vfBar2Read tenant addr len ue => Sys2Proof.Machine.execVfBar2Read tenant addr len ue s
  | .vfBar2Write tenant addr data => Sys2Proof.Machine.execVfBar2Write tenant addr data s
  | .msixUnmask fn vector => Sys2Proof.Machine.execMsixUnmask fn vector s
  | .pcieReset linkLost => Sys2Proof.Machine.execPcieReset linkLost s
  | .ownCtrlClaim r => Sys2Proof.Machine.execOwnCtrlClaim r s
  | .ownClaim src => Sys2Proof.Machine.execOwnClaim src s
  | .ownStatus src => Sys2Proof.Machine.execOwnStatus src s
  | .ownCtrlRelease r => Sys2Proof.Machine.execOwnCtrlRelease r s
  | .ownRelease src => Sys2Proof.Machine.execOwnRelease src s
  | .ownForce src => Sys2Proof.Machine.execOwnForce src s
  | .releaseLedgerWaitEnd timedOut => Sys2Proof.Machine.execReleaseLedgerWaitEnd timedOut s
  | .releaseZeroingEnd => Sys2Proof.Machine.execReleaseZeroingEnd s
  | .tenantReset r tenant => Sys2Proof.Machine.execTenantReset r tenant s
  | .vfFlr tenant => Sys2Proof.Machine.execVfFlr tenant s
  | .pfFlr => Sys2Proof.Machine.execPfFlr s
  | .vfEnableClear => Sys2Proof.Machine.execVfEnableClear s
  | .tenantResetDone tenant => Sys2Proof.Machine.execTenantResetDone tenant s
  | .setEndpointId smbus eid => Sys2Proof.Machine.execSetEndpointId smbus eid s
  | .pldmDiscovery src => Sys2Proof.Machine.execPldmDiscovery src s
  | .pldmSensorRead src sensor => Sys2Proof.Machine.execPldmSensorRead src sensor s
  | .pldmSetValue src reg value => Sys2Proof.Machine.execPldmSetValue src reg value s
  | .pldmFirmwareUpdate src image => Sys2Proof.Machine.execPldmFirmwareUpdate src image s
  | .getVersion src => Sys2Proof.Machine.execGetVersion src s
  | .getCapabilities src => Sys2Proof.Machine.execGetCapabilities src s
  | .negotiateAlgorithms src => Sys2Proof.Machine.execNegotiateAlgorithms src s
  | .getDigests src => Sys2Proof.Machine.execGetDigests src s
  | .getCertificate src slot => Sys2Proof.Machine.execGetCertificate src slot s
  | .challenge src slot nonce => Sys2Proof.Machine.execChallenge src slot nonce s
  | .getMeasurements src index => Sys2Proof.Machine.execGetMeasurements src index s
  | .grantBoundary meas => Sys2Proof.Machine.execGrantBoundary meas s
  | .clockSwitch domain => Sys2Proof.Machine.execClockSwitch domain s
  | .limitWrite r value => Sys2Proof.Machine.execLimitWrite r value s
  | .grpPolWrite r value => Sys2Proof.Machine.execGrpPolWrite r value s
  | .clkPolWrite r value => Sys2Proof.Machine.execClkPolWrite r value s
  | .currentLimit rail => Sys2Proof.Machine.execCurrentLimit rail s
  | .thermWarn die temp => Sys2Proof.Machine.execThermWarn die temp s
  | .thermalHoldExpire die temp => Sys2Proof.Machine.execThermalHoldExpire die temp s
  | .thermalTrip die => Sys2Proof.Machine.execThermalTrip die s
  | .brakeAssert => Sys2Proof.Machine.execBrakeAssert s
  | .railFault rail => Sys2Proof.Machine.execRailFault rail s
  | .overrideEpisodeEnd cause us => Sys2Proof.Machine.execOverrideEpisodeEnd cause us s
  | .tenCopyWrite r value => Sys2Proof.Machine.execTenCopyWrite r value s
  | .tenTrigWrite r value => Sys2Proof.Machine.execTenTrigWrite r value s
  | .chunkCopy tenant => Sys2Proof.Machine.execChunkCopy tenant s
  | .cutComplete tenant => Sys2Proof.Machine.execCutComplete tenant s
  | .buddyDrainChunk => Sys2Proof.Machine.execBuddyDrainChunk s
  | .buddyChunkReceive m => Sys2Proof.Machine.execBuddyChunkReceive m s
  | .buddyAck m => Sys2Proof.Machine.execBuddyAck m s
  | .drainRestart => Sys2Proof.Machine.execDrainRestart s
  | .restGo r value => Sys2Proof.Machine.execRestGo r value s
  | .rebuildRequest m => Sys2Proof.Machine.execRebuildRequest m s
  | .restCheck => Sys2Proof.Machine.execRestCheck s
  | .restHostDone r => Sys2Proof.Machine.execRestHostDone r s
  | .restAbort r => Sys2Proof.Machine.execRestAbort r s
  | .restTimeout => Sys2Proof.Machine.execRestTimeout s
  | .restApply => Sys2Proof.Machine.execRestApply s
  | .mgmtTick => Sys2Proof.Machine.execMgmtTick s
  | .availMakeReady expect => Sys2Proof.Machine.execAvailMakeReady expect s
  | .availQuiesceOff expect => Sys2Proof.Machine.execAvailQuiesceOff expect s
  | .availResetCheck expect bad => Sys2Proof.Machine.execAvailResetCheck expect bad s
  | .availLeaveFenced expect => Sys2Proof.Machine.execAvailLeaveFenced expect s
  | .blockQuiesce r block inst => Sys2Proof.Machine.execBlockQuiesce r block inst s
  | .blockReset r block inst => Sys2Proof.Machine.execBlockReset r block inst s
  | .quiesceTimeout block inst => Sys2Proof.Machine.execQuiesceTimeout block inst s
  | .d2dTimeout block inst unit idx => Sys2Proof.Machine.execD2dTimeout block inst unit idx s
  | .controlFault block inst => Sys2Proof.Machine.execControlFault block inst s
  | .lambCtrlEnter r => Sys2Proof.Machine.execLambCtrlEnter r s
  | .nodeReset r => Sys2Proof.Machine.execNodeReset r s
  | .mgmtRestart r => Sys2Proof.Machine.execMgmtRestart r s
  | .mgmtRestartEnd => Sys2Proof.Machine.execMgmtRestartEnd s
  | .watchdogExpire => Sys2Proof.Machine.execWatchdogExpire s
  | .powerOnReset => Sys2Proof.Machine.execPowerOnReset s
  | .porRelease => Sys2Proof.Machine.execPorRelease s
  | .startupPhaseEnd results => Sys2Proof.Machine.execStartupPhaseEnd results s
  | .indexRegisterWrite r block inst off value => Sys2Proof.Machine.execIndexRegisterWrite r block inst off value s
  | .eventWrite r block inst mask => Sys2Proof.Machine.execEventWrite r block inst mask s
  | .registerWrite r addr width value => Sys2Proof.Machine.execRegisterWrite r addr width value s
  | .tapReset => Sys2Proof.Machine.execTapReset s
  | .idcode => Sys2Proof.Machine.execIdcode s
  | .bypassTap => Sys2Proof.Machine.execBypassTap s
  | .samplePreload => Sys2Proof.Machine.execSamplePreload s
  | .extestTap => Sys2Proof.Machine.execExtestTap s
  | .extestPulse => Sys2Proof.Machine.execExtestPulse s
  | .extestTrain => Sys2Proof.Machine.execExtestTrain s
  | .laneLockLoss link lane => Sys2Proof.Machine.execLaneLockLoss link lane s
  | .pcieLinkUp gen width flit => Sys2Proof.Machine.execPcieLinkUp gen width flit s
  | .vfEnableSet numVfs => Sys2Proof.Machine.execVfEnableSet numVfs s
  | .d3hot fn on => Sys2Proof.Machine.execD3hot fn on s
  | .registerSnapshotRead r addr width => Sys2Proof.Machine.execRegisterSnapshotRead r addr width s
  | .ownerNodeProbe node tenant offset ownerTenant => Sys2Proof.Machine.execOwnerNodeProbe node tenant offset ownerTenant s
  | .rebuildChunkReceive m => Sys2Proof.Machine.execRebuildChunkReceive m s
  | .chunkRequestedAgain m => Sys2Proof.Machine.execChunkRequestedAgain m s

end Sys2Proof.Machine
end

