-- ==== Sys2Proof/Safety.lean ====
section
/-! DEFINITION. What a safe step of the node is, and the words in which the claims are stated. -/

namespace Sys2Proof.Machine

/-- The step goes on to a next state. -/
def Safe (s : State) : Prop := ∃ t, step s = .next t

/-- The state in which a register write that reaches its page takes effect: the access counted (HOST.PERF2), the requester's staged words
of the register used up (R761). -/
def opened (s : State) (r : Requester) (b : Block) (i off : Nat) : State := useStaged (bar0Count s r) r b i off

/-- A live node's register write of `r` reaches page `i` of `b`. -/
def atPage (s : State) (r : Requester) (b : Block) (i : Nat) : Bool := live s && writeReaches s r b i

/-- The job `j` has its result in `t`. -/
def finished (t : State) (j : Job) : Prop := ∃ k ∈ t.jobs, sameJob j k = true ∧ k.result.isSome = true

/-- The job `j` has the result `r` in `t`. -/
def finishedAs (t : State) (j : Job) (r : Result) : Prop := ∃ k ∈ t.jobs, sameJob j k = true ∧ k.result = some r

/-- The job `j` ended TARGET_GONE in `t`, which event bit `n` of page `i` of `b` shows. -/
def endedGone (t : State) (j : Job) (b : Block) (i n : Nat) : Prop :=
  ∃ r, finishedAs t j r ∧ r.status = 0x22 ∧ (page t b i).event.getLsbD n = true

/-- Jobs other than `j` are in `t` what they are in `s`. -/
def keepsJobs (s t : State) (j : Job) : Prop := ∀ k ∈ s.jobs, sameJob j k = false → k ∈ t.jobs

/-- The SOLVE `j` of method `m` at unit `u` names a good system `y` and a parameter block `p` that no check refuses; `s'` is the state
with the translations of its accesses cached. -/
def solveStarts (s : State) (u m : Nat) (j : Job) (y : SolSys) (p : SolPar) (s' : State) : Prop :=
  let s1 := readSpans s j.tenant [some (svAddr j.cmd, 64)]
  solvJob s u 0x31 = some j ∧ soMethod j.cmd = m ∧ cmdSys s j = some y ∧ y.failed = false
    ∧ usable s1 j.tenant (svAddr j.cmd) 64 false = true ∧ tPoison s1 j.tenant (svAddr j.cmd) 64 = false
    ∧ p = solParOf (tNat s1 j.tenant (svAddr j.cmd) 64)
    ∧ s' = [(p.b, 8 * y.n), (p.x, 8 * y.n), (y.farea, 4096 * y.fpages), (y.log, 32 * y.logcap)].foldl
        (fun x e => fillTlb x j.tenant e.1 e.2) s1
    ∧ solveRefusal s' j.tenant j.cmd y p = none

/-- A command formed in the ring of a stream has its record among the commands of the open step (R462): the 32 bytes of Table 2.7. -/
def recorded (t : State) (ten_ st : Nat) (c : Cmd) (r : Result) (tm : Timing) : Prop :=
  ∃ x ∈ (ten t ten_).items, x.stream = st ∧ x.count = c.count ∧ x.record = recBytes ten_ st c r tm

/-- The queue, the part, and every tenant, engine, memory and link: what a register read or a refused write leaves as it is. -/
def onlyPages (s t : State) : Prop := ∃ p o, t = { s with pages := p, out := o }

/-- The front of stream `st` of tenant `t` holds the ready command `c` of opcode `op` at time `now`, and its energy fits. -/
def runsNow (s : State) (t st now op : Nat) (c : Cmd) (it : Option Nat) : Bool :=
  let s' := markReady (atTime s now) t
  live s && decide (st < 8) && decide (ready s' t st = some (c, it)) && cOp c == op && !loopBad (stream s' t st) c && energyFits s' t st c

/-- The state in which that command runs: its charges made, the skip range ended where it ends one. -/
def running (s : State) (t st now : Nat) (c : Cmd) : State :=
  modStream (chargeAll (markReady (atTime s now) t) t c) t st (endsSkip c)

/-- Nothing but counters of register pages differs: what an access that a page does not take leaves as it is. -/
def countersOnly (s t : State) : Prop :=
  (∃ p, t = { s with pages := p }) ∧ ∀ (b : Block) (i : Nat), ∃ q, page t b i = { page s b i with perf := q }

/-- The page and the offset in it that an address means to a requester: a tenant's function sees its own page alone (Table 20.1). -/
def regAt (r : Requester) (addr : Nat) : Option (Block × Nat × Nat) :=
  match r with
  | .vf t => if addr < 0x1000 then some (.ten, t, addr) else none
  | .cfg _ => none
  | _ => pageAt addr

/-- The requester and the page of a command that writes a register. -/
def pageOf : Instr → Option (Requester × Block × Nat)
  | .tailWrite r t _ _ | .cplRelWrite r t _ _ | .cmdBaseWrite r t _ _ | .cplBaseWrite r t _ _ | .arbWrite r t _
  | .translationInvalidate r t _ | .tenantReset r t | .tenantSeal r t _ | .stepRegisterWrite r t _ | .streamEnWrite r t _ => some (r, .ten, t)
  | .steerEnter r a | .steerLeave r a | .steerGo r a => some (r, .ox, a)
  | .regionSync r | .herdConfigWrite r _ _ | .fabTmoWrite r _ => some (r, .xag, 0)
  | .linkEnable r l => some (r, .wlink, l)
  | .nodeCfgWrite r _ _ => some (r, .wsw, 0)
  | .setLoad r d | .setActivate r d | .setRetire r d | .hostImgSubmit r d _ => some (r, .spad, d)
  | .winWrite r _ _ | .winLock r => some (r, .lpc, 0)
  | .ownerSeal r _ | .zreqSubmit r _ | .ownCtrlClaim r | .ownCtrlRelease r => some (r, .host, 0)
  | .tenModeWrite r _ | .tenSeedWrite r _ | .tenSealRequest r | .ringConfigWrite r _ _ | .rdPtrWrite r _ | .tenStopWrite r _ _
  | .systimeWrite r _ => some (r, .ledg, 0)
  | .limitWrite r _ | .grpPolWrite r _ | .clkPolWrite r _ => some (r, .pwr, 0)
  | .tenCopyWrite r _ | .tenTrigWrite r _ | .restGo r _ | .restHostDone r | .restAbort r => some (r, .hen, 0)
  | .blockQuiesce r b i | .blockReset r b i | .indexRegisterWrite r b i _ _ | .eventWrite r b i _ => some (r, b, i)
  | .lambCtrlEnter r | .nodeReset r | .mgmtRestart r => some (r, .mgmt, 0)
  | .registerWrite r addr _ _ => (regAt r addr).map (fun x => (r, x.1, x.2.1))
  | _ => none

/-- Core `n` executes next the instruction word `w` of major opcode `op`: its run has started, its cluster runs, the core is RUNNING and
the word stands at its index. -/
def nextIs (s : State) (n op w : Nat) : Bool :=
  live s && (coreRun s n).any (fun (x : MuleRun × Job) => x.1.started) && unitRuns s .mule (n / 8) && (mcore s n).st == 2
    && ((mcore s n).code[(mcore s n).pc]?).any (fun (x : BitVec 32) => x.toNat == w) && mOp w == op

/-- The state after an instruction that leaves the core as `c`: one more retired, the counters of its cluster raised, and the core halted
at the end of its image or stopped at its cap (R264, R294). -/
def ranTo (s : State) (n : Nat) (c : MCore) (beats ops : Nat) : State :=
  afterInstr (perfAdd (perfAdd (perfAdd (setCore s n { c with retired := c.retired + 1 }) .mule (n / 8) 1 1) .mule (n / 8) 2 beats)
    .mule (n / 8) 3 ops) n

/-- The event with an instruction is a register-file parity error (R308). -/
def isParity : MuleEv → Bool
  | .parity _ _ => true
  | _ => false

/-- No line of the node's memory is held by another member of its herd, nor is being recalled (R587). -/
def heldNowhere (s : State) : Bool := s.xag.dir.all (fun (e : Nat × DirLine) => e.2.st == 0 && e.2.trans.isNone)

/-- The remote command `j` of the run `r` in `t`, once its parts have become `ps` in `s`: its closing signals are sent, and where every part
is then answered the command has its result, else the agent holds the parts. -/
def carriesOn (s t : State) (r : XRun) (j : Job) (ps : List XPart) : Prop :=
  let q := (closeSignals s j ps ps).2
  if partsDone q then finished t j else { r with parts := q } ∈ t.xag.runs

/-- The remote command `j` has begun in `t` with the parts `ps`, formed in `s`, which cover `n` bytes. -/
def begun (s t : State) (j : Job) (ps : List XPart) (n : Nat) : Prop :=
  (ps.map (·.len)).foldl (· + ·) 0 = n ∧ carriesOn (xSent s j ps).1 t (xRunOf j []) j (xSent s j ps).2

/-- The part of tag `k` of the remote command of `r` is answered with cause `c` in `t`, or that answer has ended the command `j`. -/
def answered (t : State) (r : XRun) (j : Job) (k c : Nat) : Prop :=
  finished t j ∨ ∃ q ∈ t.xag.runs, q.tenant = r.tenant ∧ q.stream = r.stream ∧ q.count = r.count ∧ ∃ p ∈ q.parts, p.tag = k ∧ p.st = 2 ∧ p.cause = c

end Sys2Proof.Machine
end

