-- ==== Sys2Proof/Certificates/Slice0/Obligations.lean ====
section
/-! DEFINITION. The statements for the provers. -/

open Sys2Proof Sys2Proof.Machine

/-- A step runs the command at the front of the queue. For every state and every command, the step of the state with that command at the
front of its queue is exec of the command on the state with the queue's rest. With an empty queue the step answers the state unchanged,
which is the model's own choice (log entry 2). -/
def Obligations.StepRunsFrontCommand : Prop :=
  (∀ (s : State) (c : Instr) (rest : List Instr), step { s with pending := c :: rest } = exec c { s with pending := rest })
  ∧ (∀ s : State, s.pending = [] → step s = .next s)

/-- No command stops the node with a fault or a refusal. Every command of the table, on every state and with every operand, answers a next
state. What that state is, the statements about each command say. -/
def Obligations.EveryCommandAnswersNextState : Prop := ∀ (c : Instr) (s : State), ∃ t, exec c s = .next t

/-- Every step takes one command off the queue and keeps what the package fixes, so ID, VERSION, CAPS0 and CAPS1 keep their values. For
every state and every step to a next state t: the queue of t is the queue of s without its front, the part (grade, stepping, serial, lot)
is the same, and on every page the registers at offsets 0x000 (ID), 0x004 (VERSION), 0x008 (CAPS0) and 0x00C (CAPS1) have the same values
in t as in s. In every state VERSION reads layout 0x01 and arch 0x01. -/
def Obligations.IdentityNeverChanges : Prop :=
  (∀ s t : State, step s = .next t → t.pending = s.pending.tail ∧ t.part = s.part
    ∧ ∀ (b : Block) (i : Nat) (g : RegSpec), g.off = 0x000 ∨ g.off = 0x004 ∨ g.off = 0x008 ∨ g.off = 0x00C →
        regValue t b i g = regValue s b i g)
  ∧ (∀ (s : State) (b : Block) (i : Nat), bits (commonReg s b i 0x004) 0 8 = 0x01 ∧ bits (commonReg s b i 0x004) 8 8 = 0x01)

/-- The state after reset. After reset power-on reset is asserted, no command waits, every block of every page is OFF, no memory byte is
listed and the memory has its canonical form, no line is poisoned or sealed, the node is UNOWNED, the PCIe link is down, no tenant is
assigned, and the test access port has IDCODE loaded. -/
def Obligations.ResetState : Prop :=
  State.reset.mgmt.por = true ∧ State.reset.pending = [] ∧ (∀ (b : Block) (i : Nat), blkState State.reset b i = 0)
  ∧ State.reset.mem.cells = [] ∧ State.reset.mem.wf = true ∧ (∀ a : Nat, memByte State.reset a = 0)
  ∧ (∀ l : Nat, linePoison State.reset l = false) ∧ State.reset.sealedG = [] ∧ State.reset.hostIf.own = 0 ∧ State.reset.hostIf.gen = 0
  ∧ (∀ t : Nat, (ten State.reset t).assigned = false) ∧ State.reset.tap = .idcode

/-- After a thermal trip, and while power-on reset is asserted, only power and the test access port change anything. Where power-on reset
is asserted or a thermal trip has stopped the clocks, every command other than POWER_ON_RESET, POR_RELEASE, RAIL_FAULT and the seven
commands of the test access port leaves the state as it is. The seven commands of the port, in such a state, change at most the port's
instruction and what the node has put out. That a rail fault still acts is the model's reading (log entry 3). -/
def Obligations.StoppedNodeIsFrozen : Prop :=
  ∀ (c : Instr) (s : State), live s = false →
    (c ≠ .powerOnReset → c ≠ .porRelease → (∀ r, c ≠ .railFault r) → c ≠ .tapReset → c ≠ .idcode → c ≠ .bypassTap → c ≠ .samplePreload →
      c ≠ .extestTap → c ≠ .extestPulse → c ≠ .extestTrain → exec c s = .next s)
    ∧ (∀ t, (c = .tapReset ∨ c = .idcode ∨ c = .bypassTap ∨ c = .samplePreload ∨ c = .extestTap ∨ c = .extestPulse ∨ c = .extestTrain) →
        exec c s = .next t → ∃ x o, t = { s with tap := x, out := o })

/-- Every step keeps the canonical form of memory. Where the node's memory and the contents of LPDDR that no window shows are lists of
bytes at strictly rising addresses with no zero byte listed, they are so after every step to a next state, whatever command the step runs.
The form is the model's own choice (log entry 4): memory that nothing has written reads as zero. -/
def Obligations.MemoryKeepsItsForm : Prop :=
  ∀ s t : State, s.mem.wf = true → cellsWf 0 s.dark = true → step s = .next t → t.mem.wf = true ∧ cellsWf 0 t.dark = true

/-- A command that writes a register of a page its requester does not reach changes counters only. For every command of the table that
writes a register: where its requester does not reach the page (a tenant another page than its own, the owner a page outside its ownership
state or Lamb mode, any of them past the instances of the block), the command changes nothing but counters of register pages (HOST.PERF2,
the BAR0 accesses). -/
def Obligations.UnreachedPageTakesNoWrite : Prop :=
  ∀ (c : Instr) (s : State) (r : Requester) (b : Block) (i : Nat), pageOf c = some (r, b, i) → writeReaches s r b i = false →
    ∃ t, exec c s = .next t ∧ countersOnly s t

/-- A register read: the lowest word takes the snapshot, a higher word comes from it. For every requester that reaches a page with a
register at the address it reads, on a live node: a 4-byte read of a 32-bit register answers its value; a 4-byte read of the lowest word
of a wider register answers that word and takes a snapshot of the whole register, which the requester then holds; a 4-byte read of a
higher word answers the word of the snapshot that the requester holds, or the live word where it holds none; an 8-byte read of a 64-bit
register answers its whole value, and takes the snapshot too. The access is counted for the PF and a VF (HOST.PERF2). -/
def Obligations.RegisterReadsFollowSnapshots : Prop :=
  (∀ (s : State) (r : Requester) (addr : Nat) (b : Block) (i off : Nat) (g : RegSpec),
    live s = true → regAt r addr = some (b, i, off) → readReaches s r b i = true → specAt b i off = some g → off % 4 = 0 → off + 8 ≤ 0x1000 →
      (off = g.off → g.words = 1 → exec (.registerSnapshotRead r addr 4) s
        = .next (whenLive s (emit (bar0Count s r) (.regData (bits (regValue (bar0Count s r) b i g) 0 32)))))
      ∧ (off = g.off → 1 < g.words → exec (.registerSnapshotRead r addr 4) s
        = .next (whenLive s (emit (takeSnap (bar0Count s r) r b i g) (.regData (bits (regValue (bar0Count s r) b i g) 0 32)))))
      ∧ (off ≠ g.off → exec (.registerSnapshotRead r addr 4) s
        = .next (whenLive s (emit (bar0Count s r) (.regData
            (bits ((snapOf s r b i g.off).getD (regValue (bar0Count s r) b i g)) (8 * (off - g.off)) 32)))))
      ∧ (off = g.off → off % 8 = 0 → g.words = 2 → exec (.registerSnapshotRead r addr 8) s
        = .next (whenLive s (emit (takeSnap (bar0Count s r) r b i g) (.regData (regValue (bar0Count s r) b i g))))))
  ∧ (∀ (s : State) (r : Requester) (b : Block) (i : Nat) (g : RegSpec), snapOf (takeSnap s r b i g) r b i g.off = some (regValue s b i g))

/-- A register read changes nothing but snapshots and counters. After a register read by any requester, of any address and width, the
state differs from the one before in nothing but register pages and what the node has put out, and each page differs in nothing but its
snapshots and counters. (The counters of HOST that count accesses, PERF2 and PERF4, do count reads: Table 15.11.) -/
def Obligations.RegisterReadsChangeNothing : Prop :=
  ∀ (s t : State) (r : Requester) (addr width : Nat), exec (.registerSnapshotRead r addr width) s = .next t →
    onlyPages s t ∧ ∀ (b : Block) (i : Nat),
      ∃ n q, page t b i = { page s b i with snaps := n, perf := q }

/-- A register write stages a word, commits a register, or is turned away. For every requester whose write reaches a page, on a live node:
a 4-byte write of a word but the highest of a wider register that the requester may write stages that word for it, and nothing else; a
4-byte write of the highest word commits the register with the staged words; an 8-byte write of a 64-bit register commits both halves; a
write of a 32-bit register commits it. A commit that the requester may make does what the register's own rule says, the requester's staged
words of the register used up; one that it may not make sets ERR_STATUS with class 1 and does nothing else. A write of another width or
alignment sets ERR_STATUS and does nothing else; a write of a reserved offset does nothing. A write of an index register of R762 with a
value that it takes stores the value, drops every word that the requester had staged in the page and keeps those of others; the index
registers are those of R762's list. -/
def Obligations.WordsStagedAndCommitted : Prop :=
  (∀ (s : State) (r : Requester) (addr v : Nat) (b : Block) (i off : Nat),
    live s = true → regAt r addr = some (b, i, off) → writeReaches s r b i = true → off + 8 ≤ 0x1000 →
    (∀ g : RegSpec, specAt b i off = some g → off % 4 = 0 →
      (g.words ≠ 1 → off + 4 ≠ g.off + 4 * g.words → mayWrite (bar0Count s r) r b g = true →
        exec (.registerWrite r addr 4 v) s = .next (whenLive s (modPage (bar0Count s r) b i (fun p => { p with
          staged := { req := reqCode r, off := off, word := v % 2 ^ 32 }
            :: p.staged.filter (fun x => x.req != reqCode r || x.off != off) }))))
      ∧ (g.words ≠ 1 → off + 4 = g.off + 4 * g.words →
        exec (.registerWrite r addr 4 v) s = .next (whenLive s (commitReg s r b i g (commitValue s r b i g v))))
      ∧ (g.words = 1 → exec (.registerWrite r addr 4 v) s = .next (whenLive s (commitReg s r b i g (v % 2 ^ 32))))
      ∧ (g.words = 2 → g.off = off → off % 8 = 0 →
        exec (.registerWrite r addr 8 v) s = .next (whenLive s (commitReg s r b i g (v % 2 ^ 64))))
      ∧ (¬ (b = .host ∧ g.off = 0x108) → mayWrite (bar0Count s r) r b g = true →
        commitReg s r b i g v = putReg (dropWords (opened s r b i g.off) r b i g) r b i g v)
      ∧ (¬ (b = .host ∧ g.off = 0x108) → mayWrite s r b g = false → commitReg s r b i g v = regError (bar0Count s r) b i g.off))
    ∧ (off % 4 ≠ 0 → exec (.registerWrite r addr 4 v) s = .next (whenLive s (regError (bar0Count s r) b i off)))
    ∧ (specAt b i off = none → off % 4 = 0 → exec (.registerWrite r addr 4 v) s = .next (whenLive s (bar0Count s r))))
  ∧ (∀ (s : State) (r : Requester) (b : Block) (i off v : Nat) (g : RegSpec),
    atPage s r b i = true → specAt b i off = some g → g.off = off → 0x100 ≤ off → (indexOffs b).contains off = true →
    mayWrite (bar0Count s r) r b g = true → indexValueOk b off (v % 2 ^ 32) = true →
      exec (.indexRegisterWrite r b i off v) s = .next (whenLive s (storeReg (modPage (dropWords (opened s r b i off) r b i g) b i
        (fun p => { p with staged := p.staged.filter (fun x => x.req != reqCode r) })) b i g (v % 2 ^ 32)))
      ∧ ∀ t, exec (.indexRegisterWrite r b i off v) s = .next t →
          (∀ x ∈ (page t b i).staged, x.req ≠ reqCode r) ∧ (∀ x ∈ (page s b i).staged, x.req ≠ reqCode r → x ∈ (page t b i).staged))
  ∧ indexOffs .goose = [0x108, 0x110] ∧ indexOffs .solv = [0x108] ∧ indexOffs .spad = [0x104, 0x128] ∧ indexOffs .drake = [0x108]
  ∧ indexOffs .ledg = [0x130] ∧ indexOffs .coll = [0x108] ∧ indexOffs .xag = [0x114] ∧ indexOffs .pwr = [0x110, 0x128]
  ∧ indexOffs .hen = [0x128, 0x150] ∧ indexOffs .mgmt = [0x144]

/-- An event sets its bit and counts, saturating at 0xFF; a 1 written to the bit clears both. Raising event n of a page sets bit n of
EVENT and keeps every other bit; it adds 1 to the byte of EVENT_COUNT of the event (byte 7 for events from 7 up), up to 255. A write of
EVENT by a requester that reaches the page and may write it clears every written bit that the page defines, and that bit's count, and
changes nothing else of the page but the words that the requester had staged there for the register. -/
def Obligations.EventsMergeCountAndClear : Prop :=
  (∀ (s : State) (b : Block) (i n : Nat), i < blkCount b → n < 32 →
    (∀ k < 32, (page (raiseEvent s b i n) b i).event.getLsbD k = ((page s b i).event.getLsbD k || k == n))
    ∧ (∀ k < 8, tabGet 0 (page (raiseEvent s b i n) b i).count k
        = if k = min n 7 then min 255 (tabGet 0 (page s b i).count k + 1) else tabGet 0 (page s b i).count k))
  ∧ (∀ (s : State) (r : Requester) (b : Block) (i m : Nat), atPage s r b i = true →
    mayWrite (bar0Count s r) r b { off := 0x020, w1c := eventMask b } = true →
      ∃ t, exec (.eventWrite r b i m) s = .next t
        ∧ t = whenLive s (clearEvents (dropWords (opened s r b i 0x020) r b i { off := 0x020, w1c := eventMask b }) b i (m % 2 ^ 32))
        ∧ (∀ k < 32, (page t b i).event.getLsbD k = ((page s b i).event.getLsbD k && !(bitAt m k && bitAt (eventMask b) k)))
        ∧ (∀ k < 32, bitAt m k = true → bitAt (eventMask b) k = true → tabGet 0 (page t b i).count (min k 7) = 0)
        ∧ (∀ k < 7, bitAt m k = false → tabGet 0 (page t b i).count k = tabGet 0 (page s b i).count k))

/-- An ignored register write sets ERR_STATUS: the first error is kept, a later one sets overflow. A register write that is ignored with
an error, at offset `off` of a page: where ERR_STATUS.valid is 0, valid becomes 1 with class 1, code off / 4 modulo 256, the register's
local address, the page's tenant (0xFFF for a page that is no tenant's; both are the model's reading, entry 73) and the page's epoch;
where it is 1, overflow becomes 1 and the recorded error stays. Nothing else of the page changes, no other page changes, and nothing
outside the pages changes. -/
def Obligations.RefusedWriteSetsErrStatus : Prop :=
  ∀ (s : State) (b : Block) (i off : Nat),
    { regError s b i off with pages := s.pages } = s
    ∧ (∀ (b' : Block) (i' : Nat), pageKey b' i' ≠ pageKey b i → page (regError s b i off) b' i' = page s b' i')
    ∧ ((page s b i).errValid = true → page (regError s b i off) b i = { page s b i with errOver := true })
    ∧ ((page s b i).errValid = false → page (regError s b i off) b i = { page s b i with
        errValid := true, errClass := 1, errCode := off / 4 % 256, errTenant := if b = .ten then i else 0xFFF,
        errAddr := BitVec.ofNat 64 (0xF000000000 + blkBase b + 0x1000 * i + off),
        errEpoch := (page s b i).epoch.toNat % 2 ^ 16 })

/-- TAIL, CPL_REL, CMD_BASE and CPL_BASE writes. A requester that reaches a tenant's page writes a register of one of its eight streams on
a live node. TAIL and CPL_REL take the low 32 bits. CMD_BASE and CPL_BASE, with a base that is a multiple of 4 KiB (and, for CMD_BASE, a k
from 4 to 16), take their fields while the stream is disabled; while it is enabled, and for another base or k, the write is ignored and
sets ERR_STATUS. Nothing else of the stream changes. -/
def Obligations.StreamRegisterWrites : Prop :=
  ∀ (s : State) (r : Requester) (t st v : Nat), atPage s r .ten t = true → st < 8 →
    exec (.tailWrite r t st v) s
      = .next (whenLive s (modStream (opened s r .ten t (0x160 + 0x20 * st)) t st (fun x => { x with tail := BitVec.ofNat 32 v })))
    ∧ exec (.cplRelWrite r t st v) s
      = .next (whenLive s (modStream (opened s r .ten t (0x168 + 0x20 * st)) t st (fun x => { x with rel := BitVec.ofNat 32 v })))
    ∧ (enabled s t st = false → v % 4096 = 0 → 4 ≤ bits v 48 5 → bits v 48 5 ≤ 16 →
        exec (.cmdBaseWrite r t st v) s = .next (whenLive s (modStream (opened s r .ten t (0x150 + 0x20 * st)) t st
          (fun x => { x with cmdBase := bits v 0 48, k := bits v 48 5 }))))
    ∧ (enabled s t st = true ∨ v % 4096 ≠ 0 ∨ bits v 48 5 < 4 ∨ 16 < bits v 48 5 →
        exec (.cmdBaseWrite r t st v) s
          = .next (whenLive s (regError (opened s r .ten t (0x150 + 0x20 * st)) .ten t (0x150 + 0x20 * st))))
    ∧ (enabled s t st = false → v % 4096 = 0 →
        exec (.cplBaseWrite r t st v) s = .next (whenLive s (modStream (opened s r .ten t (0x158 + 0x20 * st)) t st
          (fun x => { x with cplBase := bits v 0 48 }))))
    ∧ (enabled s t st = true ∨ v % 4096 ≠ 0 →
        exec (.cplBaseWrite r t st v) s
          = .next (whenLive s (regError (opened s r .ten t (0x158 + 0x20 * st)) .ten t (0x158 + 0x20 * st))))

/-- The STEP register takes a write only while every stream of the tenant is disabled. A write of the STEP register by a requester that
reaches the tenant's page sets the tenant's current step where STREAM_EN in effect is zero and no change to it is held; at any other time
it is ignored and sets ERR_STATUS. -/
def Obligations.StepRegisterOnlyWhileDisabled : Prop :=
  ∀ (s : State) (r : Requester) (t v : Nat), atPage s r .ten t = true →
    ((ten s t).en = 0 → (ten s t).enWritten = 0 →
      exec (.stepRegisterWrite r t v) s
        = .next (whenLive s (modTen (opened s r .ten t 0x148) t (fun x => { x with step := BitVec.ofNat 64 v }))))
    ∧ ((ten s t).en ≠ 0 ∨ (ten s t).enWritten ≠ 0 →
      exec (.stepRegisterWrite r t v) s = .next (whenLive s (regError (opened s r .ten t 0x148) .ten t 0x148)))

/-- STREAM_EN, ARB, translation invalidation and tenant reset written in a tenant's page. STREAM_EN takes the value written: at once where
no stream-0 STEP is in progress, held until it completes otherwise. ARB, by the owner or the management controller, takes class, weight
and share where the weight is not 0 and the shares of reserved tenants stay within 192; else it is ignored with ERR_STATUS; a tenant's own
write of it is ignored with ERR_STATUS. TEN.INV with go, by the owner or the management controller, drops every cached translation of the
tenant, or those of its page range. CTRL2.reset starts the tenant's reset where none runs, and merges with one that runs. -/
def Obligations.TenantRegisterWrites : Prop :=
  ∀ (s : State) (r : Requester) (t v : Nat), atPage s r .ten t = true →
    (stepInProgress s t = false → exec (.streamEnWrite r t v) s
      = .next (whenLive s (applyEn (modTen (opened s r .ten t 0x108) t (fun x => { x with enWritten := v % 256 })) t)))
    ∧ (stepInProgress s t = true → exec (.streamEnWrite r t v) s
      = .next (whenLive s (henEnabled (modTen (opened s r .ten t 0x108) t (fun x => { x with enWritten := v % 256 })) t)))
    ∧ (isVf r = false → bits v 4 4 ≠ 0 → sharesBut s t + (if bits v 0 1 = 0 then bits v 8 8 else 0) ≤ 192 →
      exec (.arbWrite r t v) s = .next (whenLive s (modTen (opened s r .ten t 0x10C) t
        (fun x => { x with arbClass := bits v 0 1, weight := bits v 4 4, share := bits v 8 8 }))))
    ∧ (isVf r = false → bits v 4 4 = 0 ∨ 192 < sharesBut s t + (if bits v 0 1 = 0 then bits v 8 8 else 0) →
      exec (.arbWrite r t v) s = .next (whenLive s (regError (opened s r .ten t 0x10C) .ten t 0x10C)))
    ∧ (isVf r = true → exec (.arbWrite r t v) s = .next (whenLive s (regError (bar0Count s r) .ten t 0x10C)))
    ∧ (isVf r = false → exec (.translationInvalidate r t v) s = .next (whenLive s (modTen (opened s r .ten t 0x130) t
        (fun x => { x with invPages := bits v 0 32, invAll := bitAt v 32,
                           tlb := if bitAt v 32 then [] else x.tlb.filter (fun e =>
                             e.vpage < x.invAddr / 4096 || x.invAddr / 4096 + bits v 0 32 ≤ e.vpage) }))))
    ∧ ((ten s t).resetting = false → exec (.tenantReset r t) s = .next (whenLive s (startReset (opened s r .ten t 0x100) t)))
    ∧ ((ten s t).resetting = true → exec (.tenantReset r t) s = .next (whenLive s (opened s r .ten t 0x100)))

/-- Token waits compare modulo 2^32 as signed numbers; a completion signals its token. A token has reached a wait value exactly when the
counter minus the value, modulo 2^32, read as signed, is zero or positive. The effective wait value is wait_val plus the iteration times
lstep, modulo 2^32. A command with sig_en and a token from 0 to 63 adds 1 to that token's counter when it completes, and to no other; with
a status of 0x10 or higher it sets the token's error bit, and with a lower status it leaves the error bits as they are; one without
sig_en, or with a token above 63, changes nothing. -/
def Obligations.TokenWaitsAndSignals : Prop :=
  (∀ (s : State) (t n : Nat) (w : W32), reached s t n w = true ↔ 0 ≤ (token s t n - w).toInt)
  ∧ (∀ (c : Cmd) (it : Option Nat), (waitVal c it).toNat = (cWaitVal c + it.getD 0 * cLstep c) % 2 ^ 32)
  ∧ (∀ (s : State) (t : Nat) (c : Cmd) (status : Nat), cSigEn c = true → cSigTok c ≤ 63 →
      (∀ n, token (signal s t c status) t n = if n = cSigTok c then token s t n + 1 else token s t n)
      ∧ (∀ n < 64, (ten (signal s t c status) t).tokenErr.getLsbD n
          = ((ten s t).tokenErr.getLsbD n || (decide (0x10 ≤ status) && n == cSigTok c))))
  ∧ (∀ (s : State) (t : Nat) (c : Cmd) (status : Nat), cSigEn c = false ∨ 63 < cSigTok c → signal s t c status = s)

/-- GOOSE_FETCH takes the command at the head count, or stops the stream. Where a stream may fetch (its context runs, it is enabled and
not stopped, its head count differs from its tail count, and fewer than 2^k fetched commands lack a released completion slot), GOOSE_FETCH
reads the 64 bytes at its ring slot. With the slot usable and not poisoned it answers the state in which that command, with what its
checks found, has joined the stream's fetched commands behind the others, the head count has gone up by 1, and nothing else has changed
but the command's number, its ordinal in its step, what the checks read, and the waits that begin. Else the stream stops on a fetch fault
and GOOSE.EVENT.fetch_fault is raised. Where it may not fetch, nothing changes. -/
def Obligations.GooseFetchTakesHeadCommand : Prop :=
  ∀ (s : State) (t st now : Nat),
    (canFetch s t st = false → exec (.gooseFetch t st now) s = .next s)
    ∧ (live s = true → canFetch s t st = true →
        let s0 := atTime s now
        let va := cmdSlot (stream s t st) (stream s t st).head
        let u := readSpans s0 t [some (va, 64)]
        let w := withdrawNew s0 u u
        ((usable u t va 64 false && !tPoison u t va 64) = true →
          (let ws := (List.range 8).map (fun i => tNat u t (va + 8 * i) 8)
           let c : Cmd := { count := (stream s0 t st).head, words := ws, seq := (ten w t).nextSeq,
                            ord := nextOrd (stream s0 t st) (ws.getD 1 0) }
           let r := checkCmd (modTen w t (fun y => { y with nextSeq := y.nextSeq + 1 })) t st c
           exec (.gooseFetch t st now) s = .next (whenLive s (markReady (modStream r.1 t st (fun y => { y with
             fetched := y.fetched ++ [r.2], head := y.head + 1, ordStep := cStep c, ordNum := c.ord })) t)))
          ∧ ∃ v : State, exec (.gooseFetch t st now) s = .next v
            ∧ (stream v t st).head = (stream s t st).head + 1
            ∧ ∃ c : Cmd, (stream v t st).fetched = (stream s t st).fetched ++ [c] ∧ c.count = (stream s t st).head
                ∧ c.words = (List.range 8).map (fun i => tNat u t (va + 8 * i) 8))
        ∧ ((usable u t va 64 false && !tPoison u t va 64) = false → ∃ v : State, exec (.gooseFetch t st now) s = .next v
          ∧ (stream v t st).fault = 1 ∧ (stream v t st).head = (stream s t st).head
          ∧ (page v .goose (coreOf t)).event.getLsbD 0 = true))

/-- What the checks of a fetched command find, in their order. A command fetched for a tenant that is not assigned is refused
REFUSED_OWNER (0x13), whatever else it is. For an assigned tenant, one whose header or operand fields break a rule is refused
REFUSED_FORMAT (0x14), and so is one whose structures, once read, break a rule. One that passes these checks, its structures read, is
refused REFUSED_REPLAY (0x12) where it is of the V class and the tenant is in replay mode, else REFUSED_QUOTA (0x11) where it asks for
more cores than the tenant's quota or for a collective where the quota is 0; else it is not refused. A later refusal that applies is found
also where a structure reads as poison, and only where none applies is the command marked poisoned, which is the model's reading of the
order (log entry 20). -/
def Obligations.FetchChecksPrecedence : Prop :=
  ∀ (s : State) (t st : Nat) (c : Cmd),
    ((ten s t).assigned = false → (checkCmd s t st c).2.verdict = 0x13 ∧ (checkCmd s t st c).1 = s)
    ∧ ((ten s t).assigned = true → headOk s t c = false ∨ fieldsOk s t st c = false →
        (checkCmd s t st c).2.verdict = 0x14 ∧ (checkCmd s t st c).1 = s)
    ∧ ((ten s t).assigned = true → headOk s t c = true → fieldsOk s t st c = true →
        let refusal := fun (k : Cmd) =>
          if (ten s t).replay = true ∧ cVcls c = true then k.verdict = 0x12
          else if cOp c = 0x30 ∧ (ten s t).qMule < mrCores c then k.verdict = 0x11 ∧ k.code = 0x10
          else if cOp c = 0x50 ∧ (ten s t).qColl = 0 then k.verdict = 0x11 ∧ k.code = 0x11
          else k.verdict = 0
        (∀ (s1 s2 : State) (c1 c2 : Cmd), lookAt s t c (namedLines st c) = (s1, .read c1) → lookAt s1 t c1 (listedLines st c1) = (s2, .read c2) →
          (checkCmd s t st c).1 = s2
          ∧ (descsOk s2 t st c2 = false → (checkCmd s t st c).2.verdict = 0x14)
          ∧ (descsOk s2 t st c2 = true → refusal (checkCmd s t st c).2))
        ∧ (∀ s1 : State, lookAt s t c (namedLines st c) = (s1, .poisoned) →
            refusal (checkCmd s t st c).2 ∧ (checkCmd s t st c).2.poisoned = decide ((checkCmd s t st c).2.verdict = 0)))

/-- Issue decisions at a unit and at the front of a stream, completions, and the defer limit. At a unit to which one stream alone offers a
ready command, with room and energy, COMMAND_ISSUE accepts it: the command leaves the front of its stream and is a job of the unit. At the
front of a stream whose front command is refused, COMMAND_ISSUE completes it with that status and detail and the stream goes on; one that
a skip range covers, its step reached, completes with the skip bit and the range is one shorter; one whose every unit is gone completes
TARGET_GONE, with the gone event of the unit that it names. A held change of STREAM_EN then takes effect where no stream-0 STEP is left.
COMMAND_COMPLETE records the completion of an issued command whose engine has finished, and the job is gone. DEFER_LIMIT_EXPIRE completes
REFUSED_QUEUE (0x10), or REFUSED_QUOTA (0x11) for a quota, a front command held for queue longer than the tenant's DEFER_LIM. -/
def Obligations.IssueDecisions : Prop :=
  (∀ (s : State) (u : EUnit) (now : Nat) (o : Offer), live s = true →
    let s' := (tenantNums s).foldl markReady (atTime s now)
    offers s' u = [o] → arbOrder s' u [o] = [o] → roomCode s' u o = none → energyFits s' o.tenant o.stream o.cmd = true →
      exec (.commandIssue (.unit u) now) s = .next (whenLive s (markReady (accept s' u o) o.tenant)))
  ∧ (∀ (s : State) (t st now : Nat) (c : Cmd) (it : Option Nat), live s = true → st < 8 →
    let s' := markReady (atTime s now) t
    front (stream s' t st) = some (c, it) → frontLive s' t st = true → stopHolds (ten s' t) st c = false → (stream s' t st).inStep = false →
      (skipActive (stream s' t st) c = true → stepReached s' t c = true →
        exec (.commandIssue (.front t st) now) s
          = .next (whenLive s (settleEn (endFront (modStream s' t st skipLess) t st c it { skip := true }) t)))
      ∧ (skipActive (stream s' t st) c = true → stepReached s' t c = false → exec (.commandIssue (.front t st) now) s = .next s)
      ∧ (skipActive (stream s' t st) c = false → c.verdict ≠ 0 →
        exec (.commandIssue (.front t st) now) s
          = .next (whenLive s (settleEn (endFront (modStream (lostFills (noteLooked s' t st c c.verdict) t c) t st (endsSkip c)) t st c it
              { status := c.verdict, detail := c.code }) t)))
      ∧ (skipActive (stream s' t st) c = false → badAtFront s' t c = false → 0x08 ≤ cOp c → target s' t c = none →
          ready s' t st = some (c, it) →
        exec (.commandIssue (.front t st) now) s
          = .next (whenLive s (completeFront (goneNamed (lostFills s' t c) c) t st s'.gclk c it { status := 0x22, detail := goneDetail c }))))
  ∧ (∀ (s : State) (t st n i now : Nat) (j : Job) (r : Result), live s = true →
    s.jobs.find? (fun j => j.tenant == t && j.stream == st && j.cmd.count.toNat == n && j.iter.getD 0 == i && j.result.isSome) = some j →
    j.result = some r → j.orphan = false →
      exec (.commandComplete t st n i now) s = .next (whenLive s (gooseSettle (complete (atTime { s with jobs := s.jobs.erase j } now) t st
        j.cmd j.iter r { wait := j.wait, cause := j.cause } j.hold) (coreOf t))))
  ∧ (∀ (s : State) (t st now : Nat) (c : Cmd) (it : Option Nat), live s = true →
    let s' := atTime s now
    let h := holdUpTo (stream s' t st).hold s'.gclk
    ready s' t st = some (c, it) → (ten s' t).deferLim ≠ 0 → (stream s' t st).inStep = false → h.lastCause = 1 →
    (ten s' t).deferLim * 1000 ≤ tabGet 0 h.sums 1 →
      exec (.deferLimitExpire t st now) s = .next (whenLive s (complete (takeFront (modStream (lostFills s' t c) t st (endsSkip c)) t st)
        t st c it { status := if h.queueCode = 0x12 ∨ h.queueCode = 0x13 then 0x11 else 0x10, detail := h.queueCode }
        { wait := holdWait h s'.gclk, cause := 1 } (tabGet 0 h.sums 1))))

/-- NOP, WAIT, SIGNAL, FENCE, CUT and TEST run at the front of their stream. Where the front command of a stream is ready, of the row's
opcode, and its energy fits, on a live node, the command runs and completes DONE with its record, its charges made and a skip range that
it ends ended: NOP, WAIT and FENCE do nothing more; SIGNAL adds its increment to its token and clears the token's error bit where it says
so; CUT marks the tenant's step for a checkpoint cut; TEST compares its summary slot, answers whether the condition holds in its detail,
and where it does not hold starts a skip of the commands that follow. -/
def Obligations.ControlCommandsComplete : Prop :=
  ∀ (s : State) (t st now : Nat) (c : Cmd) (it : Option Nat),
    (runsNow s t st now 0x00 c it = true → exec (.nop t st now) s = .next (whenLive s (ctlDone (running s t st now c) t st c it {})))
    ∧ (runsNow s t st now 0x01 c it = true → exec (.waitTok t st now) s = .next (whenLive s (ctlDone (running s t st now c) t st c it {})))
    ∧ (runsNow s t st now 0x02 c it = true → bitAt (cw c 4) 8 = false →
        exec (.signalTok t st now) s
          = .next (whenLive s (ctlDone (tokenAdd (running s t st now c) t (cf c 4 0 8) (cf c 4 32 32)) t st c it {})))
    ∧ (runsNow s t st now 0x02 c it = true → bitAt (cw c 4) 8 = true →
        exec (.signalTok t st now) s
          = .next (whenLive s (ctlDone (clearErr (tokenAdd (running s t st now c) t (cf c 4 0 8) (cf c 4 32 32)) t (cf c 4 0 8)) t st c it {})))
    ∧ (runsNow s t st now 0x03 c it = true → exec (.fenceCmd t st now) s = .next (whenLive s (ctlDone (running s t st now c) t st c it {})))
    ∧ (runsNow s t st now 0x05 c it = true → exec (.cut t st now) s
        = .next (whenLive s (ctlDone (modTen (running s t st now c) t (fun x => { x with cutPend := true })) t st c it {})))
    ∧ (runsNow s t st now 0x06 c it = true →
        testHolds c (readSum (running s t st now c) t (cf c 4 0 4)).toNat = true →
        exec (.testSlot t st now) s = .next (whenLive s (ctlDone (running s t st now c) t st c it { detail := 1 })))
    ∧ (runsNow s t st now 0x06 c it = true →
        testHolds c (readSum (running s t st now c) t (cf c 4 0 4)).toNat = false →
        exec (.testSlot t st now) s = .next (whenLive s (ctlDone
          (modStream (running s t st now c) t st (fun x => { x with skip := cf c 4 16 8, skipAll := false })) t st c it { detail := 0 })))

/-- LOOP takes its body from the fetched commands and starts its first iteration. Where a LOOP at the front of its stream is ready, runs
outside a loop and its energy fits, the next n fetched commands (n its body length) leave the fetched commands with it and become the body
of a new loop of that stream, with the number of iterations that the LOOP gives, at iteration 0 and place 0, no iteration of any body
command issued or finished. -/
def Obligations.LoopStartsItsBody : Prop :=
  ∀ (s : State) (t st now : Nat) (c : Cmd), runsNow s t st now 0x07 c none = true →
    ∃ v, exec (.loopRun t st now) s = .next v
      ∧ (stream v t st).fetched = (stream s t st).fetched.drop (cf c 4 0 6 + 1)
      ∧ ∃ l : Looping, (stream v t st).loops = (stream s t st).loops ++ [l] ∧ l.cmd = c ∧ l.body = ((stream s t st).fetched.drop 1).take (cf c 4 0 6)
          ∧ l.times = cf c 4 16 16 ∧ l.iter = 0 ∧ l.pos = 0 ∧ l.stopAfter = none ∧ l.accs = List.replicate (cf c 4 0 6) {}

/-- STEP ends a stream's part of the step, and in stream 0 closes the step. A ready STEP of streams 1 to 7 whose energy fits completes,
its stream marked as past the step that it names. A ready STEP of stream 0 puts its entry to the ledger; while it waits for its entry, a
later STEP command of the stream writes what the ledger can write. The end of a stream-0 STEP makes the tenant's current step the old one
plus 1. -/
def Obligations.StepClosesTheStep : Prop :=
  (∀ (s : State) (t st now : Nat) (c : Cmd) (it : Option Nat), st ≠ 0 → runsNow s t st now 0x04 c it = true →
    exec (.stepClose t st now) s = .next (whenLive s (ctlDone
      (modStream (running s t st now c) t st (fun x => { x with stepDone := some (BitVec.ofNat 64 (cStep c)) })) t st c it {})))
  ∧ (∀ (s : State) (t now : Nat) (c : Cmd) (it : Option Nat), (stream s t 0).inStep = false → runsNow s t 0 now 0x04 c it = true →
    exec (.stepClose t 0 now) s = .next (whenLive s (closeStep (running s t 0 now c) t c)))
  ∧ (∀ (s : State) (t now : Nat), live s = true → (stream s t 0).inStep = true →
    exec (.stepClose t 0 now) s = .next (whenLive s (ledgerRun (atTime s now))))
  ∧ (∀ (s : State) (t : Nat) (c : Cmd), (stream s t 0).fetched.head? = some c → (ten (finishStep s t) t).step = (ten s t).step + 1)

/-- MM, MM_SPLIT and LOAD_STAT run on their array and leave their result. With no line of the node's memory held elsewhere, on a live
node, an array that serves an MM or MM_SPLIT answers the state that the command's passes and the writing of C make: where every pass can
read and every write of C is taken, the job ends DONE, DONE_FLAGS or POISONED as its flags say, with its pass count and chunk count in its
detail; where not, TARGET_GONE with OX.EVENT.gone (bit 5) raised. No tile is held after a command that ran a pass; without a parity error
every other job keeps what it was, and with one the array enters FAULT. A LOAD_STAT whose elements can all be read ends DONE, its array
holding the tile of its tenant and descriptor; else TARGET_GONE, with the event. -/
def Obligations.ArrayCommandsComplete : Prop :=
  ∀ (s : State) (a : Nat) (j : Job), live s = true → heldNowhere s = true →
    let runs := fun (i : Instr) (k : MmWork) =>
      let u := whenLive s (mmEnd s a j k)
      exec i s = .next u
      ∧ ((mmWrote k a j).gone = false → finishedAs u j (ranResult (mmFl k a j) (mmDetail k j)))
      ∧ ((mmWrote k a j).gone = true → endedGone u j .ox a 5)
      ∧ (k.run.passes ≠ 0 → (ox u a).held = none)
      ∧ (k.met = none → keepsJobs s u j)
      ∧ (k.met ≠ none → blkState u .ox a = 6)
    (∀ par errs, oxJob s a 0x10 = some j → runs (.mm a par errs) (mmWork s a par errs j))
    ∧ (∀ par errs, oxJob s a 0x11 = some j → runs (.mmSplit a par errs) (splitWork s a par errs j))
    ∧ (oxJob s a 0x12 = some j →
        let r := readSpans s j.tenant (lsSpans j.cmd)
        let misses := (lsIdx j.cmd).findSome? (fun i => (readScaled r j.tenant a (lsB j.cmd) 1 0 i).miss)
        (misses = none → ∃ u, exec (.loadStat a) s = .next u ∧ finishedAs u j { status := 0 } ∧ (ox u a).held = some (lsTile r a j)
          ∧ (lsTile r a j).tenant = j.tenant ∧ (lsTile r a j).bdesc = cf j.cmd 4 0 42 ∧ keepsJobs s u j)
        ∧ (misses ≠ none → ∃ u, exec (.loadStat a) s = .next u ∧ endedGone u j .ox a 5 ∧ keepsJobs s u j))

/-- Steer mode: entry, test, test end, departure. The management controller puts an array that is OFF or FAULT into Steer mode. GO with a
non-zero seed and count starts a test of an array in Steer mode on which none runs, on that seed, count and column, and sets ERR_STATUS
with a seed or count of zero. A test that ends leaves the signature of the seed, count and column it started on, and fails where that is
not the expected one. An array that leaves Steer mode drops its tile and has its banks, accumulator sets and bank alternation zeroed. It
returns to the state it came from where no test has ended; else to READY where the last one passed and it came from OFF, to FAULT where it
came from FAULT, and to FAULT, reported by MGMT.EVENT.fault, where the last test failed. An array fenced meanwhile stays FENCED. (That
FAULT is left through AVAIL alone, and that a fence lasts, is the model's reading, log entry 31.) Another requester that reaches the page
sets ERR_STATUS and does nothing else. -/
def Obligations.SteerModeCommands : Prop :=
  (∀ (s : State) (a : Nat), atPage s .mgmt .ox a = true →
    (blkState s .ox a = 0 ∨ blkState s .ox a = 6 → (ox s a).steer = false →
      exec (.steerEnter .mgmt a) s = .next (whenLive s (modOx (opened s .mgmt .ox a 0x118) a
        (fun x => { x with steer := true, steerFrom := blkState s .ox a, busy := false, ended := false, lastFail := false }))))
    ∧ ((ox s a).steer = true → (ox s a).busy = false → steerSeed s a ≠ 0 → steerCount s a ≠ 0 →
      exec (.steerGo .mgmt a) s = .next (whenLive s (modOx (opened s .mgmt .ox a 0x118) a (fun x => { x with
        busy := true, done := false, fail := false, tSeed := steerSeed s a, tCount := steerCount s a, tCol := steerCol s a }))))
    ∧ (steerSeed s a = 0 ∨ steerCount s a = 0 →
      exec (.steerGo .mgmt a) s = .next (whenLive s (regError (opened s .mgmt .ox a 0x118) .ox a 0x118)))
    ∧ ((ox s a).steer = true → ∃ u, exec (.steerLeave .mgmt a) s = .next u ∧ (ox u a).steer = false ∧ (ox u a).held = none
        ∧ (ox u a).bank = 0 ∧ (ox u a).bank0 = {} ∧ (ox u a).bank1 = {} ∧ (ox u a).acc0 = [] ∧ (ox u a).acc1 = [] ∧ (ox u a).recomb = []
        ∧ blkState u .ox a = (if blkState s .ox a = 4 then 4 else if (ox s a).ended = true ∧ (ox s a).lastFail = true then 6
            else if (ox s a).ended = true ∧ (ox s a).steerFrom ≠ 6 then 1 else (ox s a).steerFrom)
        ∧ ((ox s a).ended = true → (ox s a).lastFail = true → (page u .mgmt 0).event.getLsbD 2 = true)))
  ∧ (∀ (s : State) (a : Nat), live s = true → (ox s a).busy = true →
    let sig := steerSig (ox s a).tSeed (ox s a).tCount (ox s a).tCol
    ∃ u, exec (.steerTestEnd a) s = .next u ∧ (ox u a).busy = false ∧ (ox u a).done = true ∧ (ox u a).ended = true
      ∧ (ox u a).sig = BitVec.ofNat 64 sig ∧ (page u .ox a).event.getLsbD 3 = true
      ∧ ((ox u a).fail = true ↔ sig ≠ regWord2 s .ox a 0x138 0) ∧ (ox u a).lastFail = (ox u a).fail
      ∧ (sig ≠ regWord2 s .ox a 0x138 0 → (page u .ox a).event.getLsbD 4 = true))
  ∧ (∀ (s : State) (r : Requester) (a : Nat), atPage s r .ox a = true → r ≠ .mgmt →
    exec (.steerEnter r a) s = .next (whenLive s (regError (bar0Count s r) .ox a 0x118))
    ∧ exec (.steerLeave r a) s = .next (whenLive s (regError (bar0Count s r) .ox a 0x118))
    ∧ exec (.steerGo r a) s = .next (whenLive s (regError (bar0Count s r) .ox a 0x118)))

/-- VOP, VRED, VSUM and VGEN run on their slice and leave their result. With no line of the node's memory held elsewhere, on a live node,
a slice that serves a VOP, VRED, VSUM or VGEN answers the state that the command's elements, in order, make: where every element is read
and every write taken, the job ends DONE, DONE_FLAGS or POISONED as its flags say; where not, TARGET_GONE with PONY.EVENT.gone (bit 5)
raised. A VSUM whose elements are all read writes its summary word to the tenant's slot that it names and to LAST_SUM. Without a
function-table parity error every other job keeps what it was; with one, met by a command that reads the tables, the slice enters FAULT. -/
def Obligations.SliceCommandsComplete : Prop :=
  ∀ (s : State) (n : Nat) (j : Job), live s = true → heldNowhere s = true →
    let ends := fun (i : Instr) (r : PonyRun) (t : State) =>
      let u := whenLive s t
      exec i s = .next u
      ∧ (r.gone = false → finishedAs u j (ranResult r.fl 0))
      ∧ (r.gone = true → endedGone u j .pony n 5)
    let plain := fun (i : Instr) (r : PonyRun) =>
      ends i r (ponyEnd s n j r) ∧ keepsJobs s (whenLive s (ponyEnd s n j r)) j
    let tables := fun (i : Instr) (r : PonyRun) (bt : List Nat) =>
      (tableMet j.cmd bt = false → plain i r)
      ∧ (tableMet j.cmd bt = true → ends i r (ponyParity (ponyEnd s n j r) n j.tenant)
          ∧ blkState (whenLive s (ponyParity (ponyEnd s n j r) n j.tenant)) .pony n = 6)
    (∀ bt errs, ponyJob s n 0x20 = some j → tables (.vop n bt errs) (vopRun s n bt errs j) bt)
    ∧ (∀ errs, ponyJob s n 0x21 = some j → plain (.vred n errs) (vredRun s n errs j))
    ∧ (∀ errs, ponyJob s n 0x22 = some j → plain (.vsum n errs) (vsumRun s n errs j)
      ∧ (let s1 := readSpans (addErrs s errs) j.tenant (redSpans j.cmd)
         let es := (extIdx (pnX j.cmd)).map (redElem s1 j.tenant n j.cmd)
         es.all (·.miss.isNone) = true → ∃ u, exec (.vsum n errs) s = .next u ∧
           let w := BitVec.ofNat 64 (redWord j.cmd (redResult j.cmd (es.filter (·.act))).1 (es.any (·.bad)))
           (vsumRun s n errs j).gone = false
           ∧ (pony u n).lastSum = w ∧ (pony u n).lastSlot = redSlot j.cmd ∧ (pony u n).lastTenant = j.tenant
           ∧ (j.orphan = false → tabGet 0 (ten u j.tenant).sums (redSlot j.cmd) = w)))
    ∧ (∀ bt, ponyJob s n 0x23 = some j → tables (.vgen n bt) (vgenRun s n bt j) bt)

/-- Drake: MOVE, CONVERT, GATHER_WIDEN, ZERO and the parts of PREFETCH. With no line of the node's memory held elsewhere, on a live node,
a group that runs work and serves a MOVE, CONVERT, GATHER_WIDEN or ZERO answers the state that its elements, in order, make: where every
element is read and every write taken, the job ends DONE, DONE_FLAGS or POISONED as its flags say, with the lines written in its detail;
where not, TARGET_GONE with DRAKE.EVENT.gone (bit 1) raised. PREFETCH starts a run with no entry committed. A run-ahead read of an entry
within its depth, with free staging blocks within the tenant's quota, keeps the entry's elements. The commit of the next entry, once
released, signals the fill token and counts the entry as committed, and the last one ends the command; an entry whose slot cannot be
written ends it TARGET_GONE. PREFETCH_PROMOTE marks the run promoted where the front command of a stream waits on its token alone. -/
def Obligations.DataEngineCommandsComplete : Prop :=
  ∀ (s : State) (g idx : Nat) (j : Job), live s = true → heldNowhere s = true → unitRuns s .drake g = true →
    let runs := fun (i : Instr) (k : Copied) (spans : List (Option (Nat × Nat))) =>
      let u := whenLive s (drakeEnd s g j k spans)
      exec i s = .next u
      ∧ (k.gone = false → finishedAs u j (ranResult k.fl (satTo 32 k.lines)))
      ∧ (k.gone = true → endedGone u j .drake g 1)
      ∧ keepsJobs s u j
    (∀ errs, drakeJob s g idx 0x40 = some j → runs (.moveT g idx errs) (moveRun s j errs) (winSpans j.cmd ++ dstSpans j.cmd))
    ∧ (∀ errs, drakeJob s g idx 0x41 = some j → runs (.convertT g idx errs) (convertRun s j errs) (winSpans j.cmd ++ dstSpans j.cmd))
    ∧ (∀ errs, drakeJob s g idx 0x42 = some j → runs (.gatherWiden g idx errs) (gatherRun s j errs) (gatherSpans j.cmd ++ dstSpans j.cmd))
    ∧ (drakeJob s g idx 0x44 = some j → runs (.zeroT g idx) (zeroRun s j) (zeroSpans j.cmd))
    ∧ (drakeJob s g idx 0x43 = some j → pfRun s g j = none → ∃ u, exec (.prefetch g idx) s = .next u
        ∧ pfRun u g j = some { tenant := j.tenant, stream := j.stream, count := j.cmd.count, iter := j.iter })
    ∧ (∀ (r : PfRun) (e : Nat), drakeJob s g idx 0x43 = some j → pfRun s g j = some r → r.committed ≤ e → e ≤ r.committed + pfAhead j.cmd →
        e < pfCount j.cmd → tabFind r.staged e = none →
        let m := mvSrc (pfMove j.cmd e)
        let s1 := readSpans s j.tenant (copySpans m (fullBox m))
        let need := ceilDiv (pfBytes m) 65536
        let rs := (extIdx m).map (fun i => readMove s1 j.tenant m i)
        need ≤ (stageFree (drake s g)).length → stageHeld (drake s g) j.tenant + need ≤ (ten s j.tenant).qStage → rs.all (·.reach) = true →
        let x : StagedEntry := { vals := rs.map (·.bits), bad := rs.map (·.badBits), blocks := (stageFree (drake s g)).take need }
        ∃ u, exec (.prefetchRunahead g idx e) s = .next u ∧ pfRun u g j = some { r with staged := tabSet r.staged e x })
    ∧ (∀ r : PfRun, drakeJob s g idx 0x43 = some j → pfRun s g j = some r → pfReleased s j.tenant j.cmd r.committed = true →
        r.committed < pfCount j.cmd →
        let w := commitWrote s j r
        (w.gone = false → ∃ u, exec (.prefetchCommit g idx) s = .next u
          ∧ (pfFillEn j.cmd = true → token u j.tenant (pfFillTok j.cmd) = token s j.tenant (pfFillTok j.cmd) + 1)
          ∧ (r.committed + 1 < pfCount j.cmd → pfRun u g j = some { r with
              committed := r.committed + 1, staged := tabDel r.staged r.committed, poison := r.poison || w.fl.poison })
          ∧ (r.committed + 1 = pfCount j.cmd → pfRun u g j = none
              ∧ finishedAs u j (ranResult { poison := r.poison || w.fl.poison } 0)))
        ∧ (w.gone = true → ∃ u, exec (.prefetchCommit g idx) s = .next u ∧ pfRun u g j = none ∧ endedGone u j .drake g 1))
    ∧ (∀ r : PfRun, drakeJob s g idx 0x43 = some j → pfRun s g j = some r → pfFillEn j.cmd = true →
        (∃ st < 8, ∃ c it, frontLive s j.tenant st = true ∧ (stream s j.tenant st).skip = 0 ∧ front (stream s j.tenant st) = some (c, it)
          ∧ badAtFront s j.tenant c = false ∧ cStep c = (ten s j.tenant).step.toNat
          ∧ (∃ w ∈ tokenWaits s j.tenant c it, w = (pfFillTok j.cmd, false))
          ∧ (∀ w ∈ tokenWaits s j.tenant c it, w.1 = pfFillTok j.cmd ∨ w.2 = true)
          ∧ stopHolds (ten s j.tenant) st c = false ∧ orderOk s j.tenant st c = true ∧ loopBodyOk (stream s j.tenant st) c = true) →
        ∃ u, exec (.prefetchPromote g idx) s = .next u ∧ pfRun u g j = some { r with promoted := true })

/-- SOLVE_SETUP creates, measures and releases systems, SOLVE_UPD changes values. With no line of the node's memory held elsewhere, on a
live node, a unit that serves a SOLVE_SETUP or SOLVE_UPD runs it. A create that names no failed system, whose arrays pass every check, whose
areas are right, whose number no other tenant holds and whose granules fit the quota and the unit puts the system in its place, writes its
setup record and answers its granules. A measure whose arrays pass every check writes the record alone. A release of the tenant's own
system takes it away and answers its granules. SOLVE_UPD of a good system with pairs that can be read and name stored entries changes the
values in the pairs' order, marks the system stale and answers the number of pairs; a number that holds no system of the tenant completes
TARGET_GONE. -/
def Obligations.SolverSystemsComplete : Prop :=
  ∀ (s : State) (u : Nat) (j : Job), live s = true → heldNowhere s = true →
    let recorded := fun (i : Instr) (y : SolSys) (x : State) =>
      let w := tStore x j.tenant (suRec j.cmd) (setupRecord y)
      (w.2 = false → exec i s = .next (whenLive s (solvEnd s w.1 u j { detail := y.granules })))
      ∧ (w.2 = true → exec i s = .next (whenLive s (solvGone s w.1 u j)))
    (∀ y : SolSys, solvJob s u 0x33 = some j → suOp j.cmd = 0 → onFailed s j = false →
      let s1 := setupFill s j.tenant j.cmd
      setupRead s1 j.tenant j.cmd = .built y →
      let s2 := fillTlb (fillTlb s1 j.tenant y.farea (4096 * y.fpages)) j.tenant y.log (32 * y.logcap)
      areasOk s2 j.tenant j.cmd y = true → (∀ old, sysAt s2 u (svSys j.cmd) = some old → old.tenant = j.tenant) →
      quotaHit s2 u j.tenant (svSys j.cmd) y.granules = none →
        recorded (.solveSetupCreate u) y (putSys s2 u (svSys j.cmd) y))
    ∧ (∀ y : SolSys, solvJob s u 0x33 = some j → suOp j.cmd = 2 → onFailed s j = false →
        setupRead (setupFill s j.tenant j.cmd) j.tenant j.cmd = .built y →
        recorded (.solveSetupMeasure u) y (setupFill s j.tenant j.cmd))
    ∧ (∀ y : SolSys, solvJob s u 0x33 = some j → suOp j.cmd = 1 → cmdSys s j = some y →
        exec (.solveSetupRelease u) s
          = .next (whenLive s (solvEnd s (modSolv s u (fun t => tabDel t (svSys j.cmd))) u j { detail := y.granules })))
    ∧ (∀ (y : SolSys) (se : StructErr), solvJob s u 0x32 = some j → cmdSys s j = some y → y.failed = false → se.ue = false →
        let s1 := readSpans (structFixed s u se) j.tenant [some (svAddr j.cmd, 16 * upCount j.cmd)]
        let ps := (List.range (upCount j.cmd)).map (fun i =>
          (tNat s1 j.tenant (svAddr j.cmd + 16 * i) 8, tNat s1 j.tenant (svAddr j.cmd + 16 * i + 8) 8))
        let r := (ps.foldlM (updPair (upAdd j.cmd)) y.vals) {}
        lpddrXlated s1 j.tenant (svAddr j.cmd) (16 * upCount j.cmd) false = true →
        usable s1 j.tenant (svAddr j.cmd) (16 * upCount j.cmd) false = true →
        tPoison s1 j.tenant (svAddr j.cmd) (16 * upCount j.cmd) = false →
        firstBad ps.length (fun i => decide ((ps.getD i (0, 0)).1 < y.vals.length)) = none →
        ∃ t, exec (.solveUpd u se) s = .next t ∧ finishedAs t j (ranResult r.2.fl (upCount j.cmd))
          ∧ sysAt t u (svSys j.cmd) = some { y with vals := r.1, stale := true } ∧ keepsJobs s t j)
    ∧ (∀ se, solvJob s u 0x32 = some j → cmdSys s j = none →
        exec (.solveUpd u se) s = .next (whenLive s (solvEnd s s u j (failResult 0x22 {} 0))))

/-- FACTOR, DIRECT, REFINE, CG and BICGSTAB run on their unit. With no line of the node's memory held elsewhere, on a live node, a unit
that serves a SOLVE of a good system with a parameter block that no check refuses, and meets no uncorrectable structure-memory error, runs
it: the command factors where it must, and a factorisation whose writes are taken leaves the system with its factor, not stale. A
factorisation alone ends DONE, DONE_FLAGS or POISONED as its flags say, with the number of pivots replaced in its detail and in its summary
slot. The other methods, with b, x and the factor area reachable and nothing that they read poisoned, write their x and end DONE,
DONE_FLAGS or POISONED where the method stopped with its answer (always, for DIRECT), and NO_CONV (0x26) where it stopped without, with the
iterations and the reason in the detail. -/
def Obligations.SolveMethodsComplete : Prop :=
  ∀ (s : State) (u m : Nat) (j : Job) (y : SolSys) (p : SolPar) (s' : State) (se : StructErr), live s = true → heldNowhere s = true →
    solveStarts s u m j y p s' → se.ue = false →
    let s1 := structFixed s' u se
    let f : Factored := if mustFactor j.cmd y then runFactor s1 u j.tenant j.cmd y p else { st := s1, y := y }
    f.gone = false →
    (m = 0 →
      exec (.factor u se) s
        = .next (whenLive s (solvEnd s (solveSum f.st j f.count) u j (ranResult (flRec f.fl) (solveDetail 0 0 f.count))))
      ∧ ∃ t, exec (.factor u se) s = .next t ∧ finishedAs t j (ranResult (flRec f.fl) (solveDetail 0 0 f.count))
        ∧ (∃ z, sysAt t u (svSys j.cmd) = some z ∧ z.factor.isSome = true ∧ z.stale = false)
        ∧ (soSlotEn j.cmd = true → j.orphan = false → tabGet 0 (ten t j.tenant).sums (soSlot j.cmd) = BitVec.ofNat 64 f.count))
    ∧ (let s2 := solveReads f.st j p f.y
       solveServed s2 j p f.y = true → solveSpoilt s2 j p f.y = false →
       let r := solveRun s2 j p f
       let w := tStore s2 j.tenant p.x (r.1.1.x.flatMap (leBytes 8))
       w.2 = false →
       let res := solveResult f r false
       let ran := fun (i : Instr) =>
         exec i s = .next (whenLive s (solvEnd s
           (solveSum (perfAdd (perfAdd w.1 .solv u 2 r.2.ops) .solv u 3 r.1.1.k) j r.1.2) u j res))
         ∧ ∃ t, exec i s = .next t ∧ finishedAs t j res ∧ keepsJobs s t j
           ∧ (soSlotEn j.cmd = true → j.orphan = false → tabGet 0 (ten t j.tenant).sums (soSlot j.cmd) = BitVec.ofNat 64 r.1.2)
       (r.1.1.stop = 0 → res = ranResult (flRec r.2.fl) (solveDetail r.1.1.k 0 f.count))
       ∧ (r.1.1.stop ≠ 0 → res = failResult 0x26 (flRec r.2.fl) (solveDetail r.1.1.k r.1.1.stop f.count))
       ∧ (m = 1 → r.1.1.stop = 0 ∧ ran (.direct u se))
       ∧ (m = 2 → ran (.refine u se))
       ∧ (m = 3 → ran (.cg u se))
       ∧ (m = 4 → ran (.bicgstab u se)))

/-- SYS instructions, LIS and JT run on their core. A core of a started run, whose next instruction is a SYS function, LIS or JT and meets
no register-file parity error, retires it: NOP advances, HALT and a RET on an empty return stack halt, BAR waits, SUMI and SUMF set the
summary register, FSRR reads and FSRC clears bits of the sticky flags, SETVL sets vl, LIS inserts 16 bits, JT takes the entry of its table
or skips it. Nothing else of the node changes but what every retired instruction changes. -/
def Obligations.MuleControlInstructionsComplete : Prop :=
  ∀ (s : State) (n w : Nat) (ev : MuleEv), isParity ev = false →
    let c := mcore s n
    let go := fun (i : Instr) (c' : MCore) => exec i s = .next (whenLive s (ranTo (muleEvent s n ev) n c' 0 0))
    (nextIs s n 0x00 w = true →
      (mFn w = 0 → go (.sysNop n ev) (nextPc c))
      ∧ (mFn w = 1 → go (.sysHalt n ev) { nextPc c with st := 4 })
      ∧ (mFn w = 2 → go (.sysBar n ev) { nextPc c with st := 3 })
      ∧ (mFn w = 3 → c.ret = [] → go (.sysRet n ev) { nextPc c with st := 4 })
      ∧ (∀ p t, mFn w = 3 → c.ret = p :: t → go (.sysRet n ev) { c with pc := p, ret := t })
      ∧ (mFn w = 4 → go (.sysSumi n ev) { nextPc c with sr := BitVec.ofNat 64 (iReg c (mA w)) })
      ∧ (mFn w = 5 → go (.sysSumf n ev) { nextPc c with sr := BitVec.ofNat 64 (fReg c (mA w)) })
      ∧ (mFn w = 6 → go (.sysFsrr n ev) (nextPc (setI c (mD w) c.fsr.toNat)))
      ∧ (mFn w = 7 → go (.sysFsrc n ev) { nextPc c with fsr := c.fsr &&& ~~~(BitVec.ofNat 7 (iReg c (mA w))) })
      ∧ (mFn w = 8 → go (.sysSetvl n ev)
          (nextPc (setI { c with vl := min (iReg c (mA w)) (64 * 2 ^ mB w) } (mD w) (min (iReg c (mA w)) (64 * 2 ^ mB w))))))
    ∧ (nextIs s n 0x03 w = true → go (.lis n ev) (nextPc (setI c (mD w) ((iReg c (mA w) <<< 16) ||| bits w 0 16))))
    ∧ (nextIs s n 0x04 w = true →
      (iReg c (mA w) < bits w 0 9 →
        let p := c.pc + 1 + iReg c (mA w)
        go (.jt n ev) { c with pc := ((p : Int) + mOff (c.code.getD p 0).toNat).toNat })
      ∧ (bits w 0 9 ≤ iReg c (mA w) → go (.jt n ev) { c with pc := c.pc + bits w 0 9 + 1 }))

/-- Branches, J, CALL and RET go where R261 and R262 say. A core of a started run whose next instruction, at index p, meets no parity
error: BEQ and BNE compare for equality, BLT and BGE compare i[a] and i[b] as signed, BLTU and BGEU as unsigned 64-bit integers; the core
goes on at p + off where the condition holds and at p + 1 where it does not. J goes on at p + off. CALL pushes p + 1 on the return stack,
of which the 16 newest entries stay, and goes on at p + off. RET goes on at the popped index, and on an empty stack it halts. i[0] reads
as zero. -/
def Obligations.BranchesJumpsAndCalls : Prop :=
  ∀ (s : State) (n w : Nat) (ev : MuleEv), isParity ev = false →
    let c := mcore s n
    -- format B holds a in [25:21] and b in [20:16]
    let a : BitVec 64 := if bits w 21 5 = 0 then 0 else tabGet 0 c.i (bits w 21 5)
    let b : BitVec 64 := if bits w 16 5 = 0 then 0 else tabGet 0 c.i (bits w 16 5)
    let goes := fun (i : Instr) (p : Int) => ∃ u, exec i s = .next u ∧ ((mcore u n).pc : Int) = p
    let off : Int := (BitVec.ofNat 16 w).toInt
    let far : Int := (BitVec.ofNat 26 w).toInt
    let branch := fun (i : Instr) (taken : Prop) =>
      (taken → 0 ≤ (c.pc : Int) + off → goes i (c.pc + off)) ∧ (¬ taken → goes i (c.pc + 1))
    (nextIs s n 0x38 w = true → branch (.beq n ev) (a = b))
    ∧ (nextIs s n 0x39 w = true → branch (.bne n ev) (a ≠ b))
    ∧ (nextIs s n 0x3A w = true → branch (.blt n ev) (a.toInt < b.toInt))
    ∧ (nextIs s n 0x3B w = true → branch (.bge n ev) (b.toInt ≤ a.toInt))
    ∧ (nextIs s n 0x3C w = true → branch (.bltu n ev) (a.toNat < b.toNat))
    ∧ (nextIs s n 0x3D w = true → branch (.bgeu n ev) (b.toNat ≤ a.toNat))
    ∧ (nextIs s n 0x3E w = true → 0 ≤ (c.pc : Int) + far → goes (.j n ev) (c.pc + far))
    ∧ (nextIs s n 0x3F w = true → 0 ≤ (c.pc : Int) + far → goes (.call n ev) (c.pc + far)
        ∧ ∃ u, exec (.call n ev) s = .next u ∧ (mcore u n).ret = ((c.pc + 1) :: c.ret).take 16)
    ∧ (nextIs s n 0x00 w = true → mFn w = 3 →
        (∀ p t, c.ret = p :: t → goes (.sysRet n ev) p ∧ ∃ u, exec (.sysRet n ev) s = .next u ∧ (mcore u n).ret = t)
        ∧ (c.ret = [] → ∃ u, exec (.sysRet n ev) s = .next u ∧ (mcore u n).st = 4))

/-- IOP, ADDI, FOP, FMA, FCMP and FCVT leave result and flags. A core of a started run, whose next instruction is an IOP, ADDI, FOP, FMA,
FCMP or FCVT and meets no parity error, retires it: the destination holds the function's result (writes of i[0] are discarded), its flags
join the core's sticky and run flags, PERF3 of the cluster counts its FP64 operations (two for FMA; which others count is the model's reading, log
entry 45), the core goes on at the next index, and nothing
else of the core changes. -/
def Obligations.MuleArithmeticCompletes : Prop :=
  ∀ (s : State) (n w : Nat) (ev : MuleEv), isParity ev = false →
    let c := mcore s n
    let go := fun (i : Instr) (c' : MCore) (fl : Fl) (ops : Nat) =>
      exec i s = .next (whenLive s (ranTo (muleEvent s n ev) n (nextPc (orFlags c' fl)) 0 ops))
    let toI := fun (i : Instr) (r : Nat × Fl) (ops : Nat) => go i (setI c (mD w) r.1) r.2 ops
    let toF := fun (i : Instr) (r : Nat × Fl) (ops : Nat) => go i (setF c (mD w) r.1) r.2 ops
    (nextIs s n 0x01 w = true → toI (.iop n ev) (iopFn (mFn w) (mOvf w) (iReg c (mA w)) (iReg c (mB w))) 0)
    ∧ (nextIs s n 0x02 w = true → toI (.addi n ev) (iAdd true true 64 (iReg c (mA w)) (unsgn 64 (mImm w))) 0)
    ∧ (nextIs s n 0x10 w = true → toF (.fop n ev) (fpFn (mFn w) (mRm w) (fReg c (mA w)) (fReg c (mB w))) (if mFn w ≤ 6 then 1 else 0))
    ∧ (nextIs s n 0x11 w = true → toF (.fma n ev) (mFma (mRm w) (bits w 2 2) (fReg c (mA w)) (fReg c (mB w)) (fReg c (mFn w))) 2)
    ∧ (nextIs s n 0x12 w = true →
        (mFn w = 4 → toI (.fcmp n ev) (fpClass (fReg c (mA w)), Fl.none) 1)
        ∧ (mFn w ≠ 4 → toI (.fcmp n ev) (fpCmp (mFn w) (fReg c (mA w)) (fReg c (mB w))) 1))
    ∧ (nextIs s n 0x13 w = true →
        (mFn w ≤ 2 → toF (.fcvt n ev) (fpCvt (mFn w) (mRm w) (mOvf w) (iReg c (mA w))) 1)
        ∧ (mFn w = 7 → toF (.fcvt n ev) (fpCvt (mFn w) (mRm w) (mOvf w) (iReg c (mA w))) 0)
        ∧ (mFn w = 8 → toF (.fcvt n ev) (fpCvt (mFn w) (mRm w) (mOvf w) (fReg c (mA w))) 1)
        ∧ (3 ≤ mFn w → mFn w ≤ 6 → toI (.fcvt n ev) (fpCvt (mFn w) (mRm w) (mOvf w) (fReg c (mA w))) (if mFn w ≤ 5 then 1 else 0)))

/-- Vector instructions: result, zero in inactive elements, and nothing else written. A core of a started run whose next instruction is a
VFOP, VFOPS, VFCVT, VFMA, VFMAS, or an element function of VI64, VI32 or VI16 of an unchanged width, without a parity error, retires it.
Element e of the destination then holds the scalar function of the elements (VFOPS and VFMAS take f[b]) where e is below min(vl, VLMAX)
and its mask bit is 1, and zero elsewhere. No integer or mask register, no other vector register and no return entry changes, and the core
goes on at the next index. -/
def Obligations.VectorInstructionsAreElementwise : Prop :=
  ∀ (s : State) (n w : Nat) (ev : MuleEv), isParity ev = false →
    let c := mcore s n
    let el := fun (r width e : Nat) => bits (vReg c r) (width * e) width
    let on := fun (msk width e : Nat) => decide (e < min c.vl (4096 / width)) && bitAt (kReg c msk) e
    let done := fun (i : Instr) (msk width : Nat) (f : Nat → Nat) => ∃ u, exec i s = .next u
      ∧ (∀ e < 4096 / width, bits (vReg (mcore u n) (mD w)) (width * e) width = if on msk width e then f e % 2 ^ width else 0)
      ∧ (∀ r, r ≠ mD w → vReg (mcore u n) r = vReg c r)
      ∧ (mcore u n).i = c.i ∧ (mcore u n).k = c.k ∧ (mcore u n).ret = c.ret ∧ (mcore u n).vl = c.vl ∧ (mcore u n).pc = c.pc + 1
    (nextIs s n 0x20 w = true → done (.vfop n ev) (mMsk w) 64 (fun (e : Nat) => (fpFn (mFn w) (mRm w) (el (mA w) 64 e) (el (mB w) 64 e)).1))
    ∧ (nextIs s n 0x21 w = true → done (.vfops n ev) (mMsk w) 64 (fun (e : Nat) => (fpFn (mFn w) (mRm w) (el (mA w) 64 e) (fReg c (mB w))).1))
    ∧ (nextIs s n 0x26 w = true → done (.vfcvt n ev) (mMsk w) 64 (fun (e : Nat) => (fpCvt (mFn w) (mRm w) (mOvf w) (el (mA w) 64 e)).1))
    ∧ (nextIs s n 0x22 w = true → done (.vfma n ev) (bits w 0 2) 64
        (fun (e : Nat) => (mFma (mRm w) (bits w 2 2) (el (mA w) 64 e) (el (mB w) 64 e) (el (mFn w) 64 e)).1))
    ∧ (nextIs s n 0x23 w = true → done (.vfmas n ev) (bits w 0 2) 64
        (fun (e : Nat) => (mFma (mRm w) (bits w 2 2) (el (mA w) 64 e) (fReg c (mB w)) (el (mFn w) 64 e)).1))
    ∧ (mFn w ≤ 17 →
      (nextIs s n 0x28 w = true → done (.vi64 n ev) (mMsk w) 64 (fun (e : Nat) => (viFn (mFn w) (mRm w) (mOvf w) 64 (el (mA w) 64 e) (el (mB w) 64 e)).1))
      ∧ (nextIs s n 0x29 w = true → done (.vi32 n ev) (mMsk w) 32 (fun (e : Nat) => (viFn (mFn w) (mRm w) (mOvf w) 32 (el (mA w) 32 e) (el (mB w) 32 e)).1))
      ∧ (nextIs s n 0x2A w = true → done (.vi16 n ev) (mMsk w) 16 (fun (e : Nat) => (viFn (mFn w) (mRm w) (mOvf w) 16 (el (mA w) 16 e) (el (mB w) 16 e)).1)))

/-- VFCMP, integer compares, VFRED and VMISC write their mask, scalar or vector. A core of a started run, without a parity error: VFCMP
and the compares of VI64, VI32 and VI16 write bit e of mask d (d ≠ 0) with the comparison of active element e and zero elsewhere, and
leave every vector register; VFRED writes f[d] with the fixed tree's value over 64 places and leaves the rest of the register file; VMISC
writes a splat, a copy, an index vector, a mask, a count, the first active place, one element out, or one element in, as its function
says. Each goes on at the next index. -/
def Obligations.MaskResultsReductionsAndMoves : Prop :=
  ∀ (s : State) (n w : Nat) (ev : MuleEv), isParity ev = false →
    let c := mcore s n
    let el := fun (r width e : Nat) => bits (vReg c r) (width * e) width
    let on := fun (width e : Nat) => decide (e < min c.vl (4096 / width)) && bitAt (kReg c (mMsk w)) e
    let toK := fun (i : Instr) (width : Nat) (f : Nat → Nat) => mD w ≠ 0 → ∃ u, exec i s = .next u
      ∧ (∀ e < 256, bitAt (kReg (mcore u n) (mD w)) e = (on width e && decide (f e % 2 = 1)))
      ∧ (mcore u n).v = c.v ∧ (mcore u n).i = c.i ∧ (mcore u n).pc = c.pc + 1
    (nextIs s n 0x24 w = true → toK (.vfcmp n ev) 64 (fun (e : Nat) => (fpCmp (mFn w) (el (mA w) 64 e) (el (mB w) 64 e)).1))
    ∧ (20 ≤ mFn w →
      (nextIs s n 0x28 w = true → toK (.vi64 n ev) 64 (fun (e : Nat) => (viFn (mFn w) (mRm w) (mOvf w) 64 (el (mA w) 64 e) (el (mB w) 64 e)).1))
      ∧ (nextIs s n 0x29 w = true → toK (.vi32 n ev) 32 (fun (e : Nat) => (viFn (mFn w) (mRm w) (mOvf w) 32 (el (mA w) 32 e) (el (mB w) 32 e)).1))
      ∧ (nextIs s n 0x2A w = true → toK (.vi16 n ev) 16 (fun (e : Nat) => (viFn (mFn w) (mRm w) (mOvf w) 16 (el (mA w) 16 e) (el (mB w) 16 e)).1)))
    ∧ (nextIs s n 0x25 w = true → ∃ u, exec (.vfred n ev) s = .next u
      ∧ vReg (mcore u n) (mD w) = setBits (vReg c (mD w)) 0 64
          (vfRed (mFn w) (mRm w) ((List.range 64).map (fun (e : Nat) => if on 64 e then some (el (mA w) 64 e) else none))).1 % 2 ^ 4096
      ∧ (∀ r, r ≠ mD w → vReg (mcore u n) r = vReg c r) ∧ (mcore u n).i = c.i ∧ (mcore u n).k = c.k ∧ (mcore u n).pc = c.pc + 1)
    ∧ (nextIs s n 0x2C w = true → ∃ u, exec (.vmisc n ev) s = .next u ∧ (mcore u n).pc = c.pc + 1 ∧
      (let d := mcore u n
       (mFn w = 0 → ∀ e < 64, bits (vReg d (mD w)) (64 * e) 64 = if on 64 e then iReg c (mA w) % 2 ^ 64 else 0)
       ∧ (mFn w = 1 → ∀ e < 64, bits (vReg d (mD w)) (64 * e) 64 = if on 64 e then fReg c (mA w) % 2 ^ 64 else 0)
       ∧ (mFn w = 2 → ∀ e < 128, bits (vReg d (mD w)) (32 * e) 32 = if on 32 e then iReg c (mA w) % 2 ^ 32 else 0)
       ∧ (mFn w = 3 → ∀ e < 256, bits (vReg d (mD w)) (16 * e) 16 = if on 16 e then iReg c (mA w) % 2 ^ 16 else 0)
       ∧ (mFn w = 4 → vReg d (mD w) = vReg c (mA w))
       ∧ (mFn w = 5 → ∀ e < 64, bits (vReg d (mD w)) (64 * e) 64 = if on 64 e then e else 0)
       ∧ (mD w ≠ 0 → mFn w = 6 → kReg d (mD w) = kReg c (mA w) &&& kReg c (mB w))
       ∧ (mD w ≠ 0 → mFn w = 7 → kReg d (mD w) = kReg c (mA w) ||| kReg c (mB w))
       ∧ (mD w ≠ 0 → mFn w = 8 → ∀ e < 256, bitAt (kReg d (mD w)) e = (bitAt (kReg c (mA w)) e != bitAt (kReg c (mB w)) e))
       ∧ (mD w ≠ 0 → mFn w = 9 → ∀ e < 256, bitAt (kReg d (mD w)) e = !bitAt (kReg c (mA w)) e)
       ∧ (mD w ≠ 0 → c.vl ≤ 256 → mFn w = 10 → iReg d (mD w) = popCount c.vl (kReg c (mA w)))
       ∧ (mD w ≠ 0 → mFn w = 11 → ∀ e < c.vl, bitAt (kReg c (mA w)) e = true → (∀ e' < e, bitAt (kReg c (mA w)) e' = false) →
            e < 2 ^ 64 → iReg d (mD w) = e)
       ∧ (mD w ≠ 0 → mFn w = 12 → iReg d (mD w) = if iReg c (mB w) < 64 then el (mA w) 64 (iReg c (mB w)) else 0)
       ∧ (mFn w = 13 → 64 ≤ iReg c (mB w) → d.v = c.v)
       ∧ (mFn w = 13 → iReg c (mB w) < 64 → ∀ e < 64,
            bits (vReg d (mD w)) (64 * e) 64 = if e = iReg c (mB w) then iReg c (mA w) else el (mD w) 64 e)))

/-- LD, LDW, LDWU and FLD load; ST, STW and FST store their bytes. With no line of the node's memory held elsewhere, a core of a started
run whose next instruction is a scalar load or store of bytes that it may access, without a parity error, an uncorrectable error or a path
that went away, retires it. The address is i[a] + imm modulo 2^64. LD loads eight bytes, LDW four sign-extended, LDWU four zero-extended,
FLD eight into f[d], all little-endian, from memory as the load leaves it once it has met the errors in its lines. ST, STW and FST store
the low eight, four, and eight bytes: where no stored byte of the node has gone wrong, every memory byte outside the stored bytes reads as
before. -/
def Obligations.ScalarLoadsAndStoresComplete : Prop :=
  ∀ (s : State) (n w : Nat) (ev : MuleEv), ev = .ok ∨ ev = .eccCorr → heldNowhere s = true →
    let c := mcore s n
    let a := memAddr c w
    let s' := muleEvent s n ev
    let load := fun (i : Instr) (k : Nat) (c' : Nat → MCore) =>
      let x := accState s' c.tenant a k false ev
      accCause x c.tenant a k false = 0 →
        exec i s = .next (whenLive s (ranTo x n (nextPc (c' (tNat x c.tenant a k))) 0 0))
    let store := fun (i : Instr) (k v : Nat) =>
      let x := accState s' c.tenant a k true ev
      accCause x c.tenant a k true = 0 →
        exec i s = .next (whenLive s (ranTo (markDirty (tStore x c.tenant a (leBytes k v)).1 n c.tenant a k) n (nextPc c) 0 0))
        ∧ (s.hen.cuts = [] → s.memErrs = [] → ∀ b, (∀ q < k, localOf x c.tenant (a + q) ≠ b) → memByte (tStore x c.tenant a (leBytes k v)).1 b = memByte s b)
    (nextIs s n 0x05 w = true → load (.ld n ev) 8 (fun (v : Nat) => setI c (mD w) v))
    ∧ (nextIs s n 0x07 w = true → load (.ldw n ev) 4 (fun (v : Nat) => setI c (mD w) (unsgn 64 (sgn 32 v))))
    ∧ (nextIs s n 0x08 w = true → load (.ldwu n ev) 4 (fun (v : Nat) => setI c (mD w) v))
    ∧ (nextIs s n 0x0A w = true → load (.fld n ev) 8 (fun (v : Nat) => setF c (mD w) v))
    ∧ (nextIs s n 0x06 w = true → store (.st n ev) 8 (iReg c (mD w)))
    ∧ (nextIs s n 0x09 w = true → store (.stw n ev) 4 (iReg c (mD w)))
    ∧ (nextIs s n 0x0B w = true → store (.fst n ev) 8 (fReg c (mD w)))

/-- VLD and VST go on from vresume, element by element, and retire. With no line of the node's memory held elsewhere, a core of a started
run whose next instruction is a VLD or VST, without a parity error, performs its active elements in ascending order from vresume on, each
at its address of R282. Where none stops, the load's elements are in the destination with zero in inactive elements and above n, vresume
is 0 and the core goes on. Where element e stops, the elements before it have been performed, vresume is e and the core stops for the
cause of that element. -/
def Obligations.VectorLoadsAndStoresComplete : Prop :=
  ∀ (s : State) (n w : Nat) (ev : MuleEv), isParity ev = false → heldNowhere s = true →
    let c := mcore s n
    let done := fun (i : Instr) (load : Bool) (width : Nat) =>
      let k := min c.vl (4096 / width)
      let m := ((List.range (k - c.vresume)).map (· + c.vresume)).foldl
        (if load then vldElem w width k ev else vstElem n w width k ev) { st := muleEvent s n ev, core := c }
      (m.stop = none → exec i s = .next (whenLive s (ranTo m.st n
        (nextPc { (if load then setV m.core (mD w) (bits (vReg m.core (mD w)) 0 (width * k)) else m.core) with vresume := 0 })
        (max 1 ((k * width + 1023) / 1024)) 0)))
      ∧ (∀ e cause, m.stop = some (e, cause) →
          exec i s = .next (whenLive s (stopCore (setCore m.st n { m.core with vresume := e }) n cause)))
    (nextIs s n 0x30 w = true → done (.vld64 n ev) true 64) ∧ (nextIs s n 0x31 w = true → done (.vld32 n ev) true 32)
    ∧ (nextIs s n 0x32 w = true → done (.vld16 n ev) true 16) ∧ (nextIs s n 0x33 w = true → done (.vst64 n ev) false 64)
    ∧ (nextIs s n 0x34 w = true → done (.vst32 n ev) false 32) ∧ (nextIs s n 0x35 w = true → done (.vst16 n ev) false 16)

/-- MULE_RUN starts its cores, barriers release them, the run's end answers the job. With no line of the node's memory held elsewhere, on
a live node outside Lamb mode: MULE_RUN of a run that has not started, whose image and areas can be used and hold no poison, whose records
can be written and whose image the load check accepts, starts it on every core that it has kept, with the arguments, the logical core
number and the core count in i[1] to i[10]. BARRIER_RELEASE lets every core that waits at the same barrier go on once every core of the
run has reached it or halted. MULE_RUN_END of a run that is done frees its cores; where none stopped, its job has the cores' flags and the
instructions retired, and its summary slot the combined summaries; where one stopped, its job ends with a status of 0x20 or above. A
parity error stops its core with cause 4. -/
def Obligations.RunsStartMeetAndEnd : Prop :=
  ∀ (s : State) (n : Nat) (r : MuleRun) (j : Job), live s = true → s.mgmt.lamb = false → heldNowhere s = true →
    (coreRun s n = some (r, j) → r.started = false → mrResume j.cmd = false → r.cores.Nodup →
      let c := j.cmd
      let args := (mrArgs c, if mrArgs c = 0 then 0 else 64)
      let x := readSpans s j.tenant [some (mrCode c, 4 * mrNinst c), some args, some (mrSave c, mrCores c * saveBytes)]
      usable x j.tenant (mrCode c) (4 * mrNinst c) false = true → usable x j.tenant args.1 args.2 false = true →
      usable x j.tenant (mrSave c) (mrCores c * saveBytes) true = true → tPoison x j.tenant (mrCode c) (4 * mrNinst c) = false →
      tPoison x j.tenant args.1 args.2 = false → (clearRecords x j.tenant c).2 = false →
      imageOk ((List.range (mrNinst c)).map (fun (p : Nat) => tNat x j.tenant (mrCode c + 4 * p) 4)) = true → 0 < mrNinst c → 0 < mrIcap c →
      (∀ p ∈ runCores r, coreRun s p = some (r, j) ∧ (mcore s p).retired = 0 ∧ (mcore s p).pc = 0) →
      ∃ u, exec (.muleRun n) s = .next u ∧ ∀ p ∈ runCores r,
        (mcore u p).st = 2 ∧ (mcore u p).code.length = mrNinst c ∧ (mcore u p).pc = 0
        ∧ iReg (mcore u p) 9 = (mcore s p).lcore % 2 ^ 64 ∧ iReg (mcore u p) 10 = r.cores.length % 2 ^ 64
        ∧ ∀ k < 8, iReg (mcore u p) (k + 1) = if mrArgs c = 0 then 0 else tNat x j.tenant (args.1 + 8 * k) 8 % 2 ^ 64)
    ∧ (coreRun s n = some (r, j) → (mcore s n).st = 3 → barReady s r n = true → r.cores.Nodup →
      ∃ u, exec (.barrierRelease n) s = .next u
        ∧ (∀ p ∈ runCores r, (mcore s p).st = 3 → (mcore s p).passed = (mcore s n).passed →
            (mcore u p).st ≠ 3 ∧ (mcore u p).passed = (mcore s p).passed + 1 ∧ (mcore u p).pc = (mcore s p).pc)
        ∧ (∀ p, p ∉ runCores r → mcore u p = mcore s p))
    ∧ (endingRun s n = some (r, j) → runDone s r = true →
      let cs := runView s r
      ∃ u, exec (.muleRunEnd n) s = .next u ∧ (∀ p ∈ runCores r, (mcore u p).run = 0) ∧ (∀ x ∈ u.mule.runs, x.id ≠ r.id)
        ∧ ((∀ e ∈ cs, e.cause = 0) → finishedAs u j (runResult j.cmd cs)
          ∧ (mrSlotEn j.cmd = true → j.orphan = false →
            tabGet 0 (ten u j.tenant).sums (mrSlot j.cmd) = BitVec.ofNat 64 (sumsOf j.cmd cs).1))
        ∧ ((∃ e ∈ cs, e.cause ≠ 0) → ∃ res, finishedAs u j res ∧ 0x20 ≤ res.status))
    ∧ (∀ (w file reg : Nat), nextIs s n 0x01 w = true → exec (.iop n (.parity file reg)) s = .next (whenLive s (muleParity s n file reg)))

/-- ALLREDUCE begins; grants, partial sums, combinations, results and acknowledgements move its pieces. With no line of the node's memory
held elsewhere, on a live node: the oldest ALLREDUCE not begun, whose plan can be read, is not poisoned and passes its checks, takes the
first free slot. For a running operation with its command: GRANT_SEND reserves the place that R540 gives a piece; a matching GRANT marks
it granted; the data messages of a PARTIAL_SUM of a child, once all have come, join the piece's sums; PIECE_COMBINE of a placed, granted
piece with every child's sum sends it up, or at the root narrows, writes and sends the result; the data messages of a RESULT_PIECE from
the parent, once all have come, make the piece's result; an ACKNOWLEDGEMENT is noted. Where that leaves every piece done, the operation
leaves its slot and its command ends with the flags gathered and the number of pieces, or POISONED. -/
def Obligations.CollectiveOperationsComplete : Prop :=
  ∀ s : State, live s = true → heldNowhere s = true →
    (∀ (j : Job) (k : Nat), arJob s = some j → freeSlot s = some k →
      let a := arPlan j.cmd
      let s1 := readSpans s j.tenant [some (a, 64)]
      let n := planN s1 j.tenant j.cmd
      let s2 := readSpans s1 j.tenant [some (a, 64 + 8 * n)]
      let h := tNat s2 j.tenant a 64
      let ms := (List.range n).map (fun (i : Nat) => memberOf (tNat s2 j.tenant (a + 64 + 8 * i) 8))
      let key : CollKey := { tenant := j.tenant, plan := bits h 16 16, step := cStep j.cmd, opid := arOpid j.cmd }
      usable s2 j.tenant a (64 + 8 * n) false = true → tPoison s2 j.tenant a (64 + 8 * n) = false →
      (∀ x ∈ s.coll.held, x.key ≠ key) → planCheck s2 j.tenant j.cmd h ms = 0 →
      ∃ u o, exec .allreduce s = .next u ∧ collOp u k = some o ∧ o.key = key ∧ o.members = ms ∧ o.rank = bits h 64 15 ∧ o.phase = 1
        ∧ o.pieces = List.replicate (arPieces j.cmd) {} ∧ (∀ k', k' ≠ k → collOp u k' = collOp s k') ∧ (s.memErrs = [] → u.mem = s.mem))
    ∧ (∀ (k p : Nat) (o : CollOpn) (j : Job) (x : CollPiece),
      collOp s k = some o → opJob s o = some j → o.phase ≠ 3 → o.pieces[p]? = some x →
      let becomes := fun (i : Instr) (o' : CollOpn) => ∃ u, exec i s = .next u ∧ collOp u k = some o'
      let settles := fun (i : Instr) (o' : CollOpn) => ∃ u, exec i s = .next u ∧
        if o'.pieces.all (·.done) then
          collOp u k = none ∧ finishedAs u j (if bitAt o'.flags 4 then failResult 0x20 (flOfBits o'.flags) 0
            else ranResult (flOfBits o'.flags) o'.pieces.length)
        else collOp u k = some o'
      let withResult := fun (y : CollPiece) (r : PieceVal) => settle (setPiece { o with
        flags := o.flags ||| r.flags, phase := 2, sum := arSum (dFmt (arX j.cmd)) (r.vals.getD 0 0) } p { y with result := some r }) p
      (∀ pl, x.placed = false → unitRuns s .coll 0 = true → takePlace s j.cmd o = some pl →
        becomes (.grantSend k p) (setPiece o p { x with placed := true, stage := pl }))
      ∧ (∀ struck, x.placed = true → x.up = false → x.result = none → (opSelf o).root = true ∨ x.granted = true →
          (opKids o).length ≤ x.sums.length → unitRuns s .coll 0 = true →
          let r := arRead s j p
          let s1 := withdrawNew s r r
          let st := match x.stage with
            | some i =>
              let w := tStore s1 j.tenant (arStage j.cmd + i * arPiece j.cmd) (freeBytes s1 (arPiece j.cmd))
              ({ w.1 with freeCount := w.1.freeCount + arPiece j.cmd }, w.2)
            | none => (s1, false)
          arMiss r j p = none → st.2 = false →
          let v := arCombine r j o x p struck
          let nv := v.vals.map (arNarrow (dFmt (arX j.cmd)) (cOvf j.cmd))
          let fl := flAll (((List.range nv.length).zip nv).filterMap (fun (e : Nat × Nat × Fl) => if v.bad.contains e.1 then none else some e.2.2))
          let root : PieceVal := { vals := nv.map (·.1), bad := v.bad, flags := v.flags ||| flBits fl ||| (if v.bad.isEmpty then 0 else 16) }
          ((opSelf o).root = false → becomes (.pieceCombine k ⟨p, struck⟩) (setPiece o p { x with up := true }))
          ∧ ((opSelf o).root = true → (arWrite (perfAdd st.1 .coll 0 (if x.stage.isNone then 1 else 2) 1) j p root).2 = false →
              settles (.pieceCombine k ⟨p, struck⟩) (withResult x root)))
      ∧ (∀ m : CollMsg, m.piece = p → opSlot s m.key = some k →
        ((opSelf o).root = false → m.rank = (opSelf o).parent → x.granted = false →
            o.parentTag = some m.tag ∨ (o.parentTag = none ∧ m.digest = o.digest ∧ m.fmt = (arX j.cmd).fmt
              ∧ m.count = extCount (arX j.cmd).exts ∧ m.clog = arClog j.cmd ∧ m.arr = arArr j.cmd) →
          becomes (.grant m) (setPiece { o with parentTag := some m.tag } p { x with granted := true }))
        ∧ (let n := msgCount (arAcc (dFmt (arX j.cmd))) (arRange j.cmd p).length
           let q := takePart x m n
           let o' := { o with childTags := if (tabFind o.childTags m.rank).isSome then o.childTags else tabSet o.childTags m.rank m.ctag }
           m.tag = o.tag → m.rank ∈ opKids o → x.placed = true → (∀ e ∈ x.sums, e.1 ≠ m.rank) → partBad x m n = false →
           (q.2 = none → becomes (.partialSum m) (setPiece o' p q.1))
           ∧ (∀ v, q.2 = some v → becomes (.partialSum m) (setPiece o' p { q.1 with sums := q.1.sums ++ [(m.rank, v)] })))
        ∧ (let n := msgCount (dFmt (arX j.cmd)) (arRange j.cmd p).length
           let q := takePart x m n
           m.tag = o.tag → (opSelf o).root = false → m.rank = (opSelf o).parent → x.up = true → x.result = none → partBad x m n = false →
           (q.2 = none → becomes (.resultPiece m) (setPiece o p q.1))
           ∧ (∀ v, q.2 = some v → (arWrite s j p v).2 = false → settles (.resultPiece m) (withResult q.1 v)))
        ∧ (m.cause = 0 → m.tag = o.tag →
          ((opSelf o).root = false → m.rank = (opSelf o).parent → x.up = true →
            settles (.acknowledgement m) (settle (setPiece o p { x with upAck := true }) p))
          ∧ (m.rank ∈ opKids o → ((opSelf o).root = true ∨ m.rank ≠ (opSelf o).parent) → x.result.isSome = true →
            settles (.acknowledgement m) (settle (setPiece o p { x with acks := m.rank :: x.acks }) p)))))

/-- ABORT, an overdue wait and held ABORTs. On a live node: an ABORT for an operation not issued is held, once per key; for a running
operation it ends the command COLLECTIVE_ABORT with the cause and the origin rank of the message in the detail, and the operation leaves
its slot or waits for the acknowledgements of every neighbour but the sender. A wait beyond its limit aborts the operation with cause 1
and its own rank; one that only awaits acknowledgements of its ABORT leaves its slot, as it does with the last of them. A held ABORT
expires and nothing else changes. A message that matches no operation changes only counters and the event. -/
def Obligations.CollectiveAborts : Prop :=
  ∀ s : State, live s = true →
    (∀ m : CollMsg, s.coll.ops.find? (fun (e : Nat × CollOpn) => e.2.key == m.key) = none →
      ∃ u, exec (.abortMsg m) s = .next u ∧ u.coll.ops = s.coll.ops ∧ (page u .coll 0).event.getLsbD 1 = true
        ∧ u.coll.held = (if s.coll.held.any (fun (a : HeldAbort) => a.key == m.key) then s.coll.held
            else s.coll.held ++ [{ key := m.key, cause := m.cause, origin := m.origin }]))
    ∧ (∀ (m : CollMsg) (k : Nat) (o : CollOpn) (j : Job), s.coll.ops.find? (fun (e : Nat × CollOpn) => e.2.key == m.key) = some (k, o) → o.phase ≠ 3 → opJob s o = some j →
      ∃ u r, exec (.abortMsg m) s = .next u ∧ finishedAs u j r ∧ r.status = 0x23 ∧ r.detail = m.cause + m.origin * 256
        ∧ (let left := (opNeighbours o).filter (fun (x : Nat) => some x != some m.rank)
           (left = [] → collOp u k = none)
           ∧ (left ≠ [] → ∃ o', collOp u k = some o' ∧ o'.phase = 3 ∧ o'.abort = some (m.cause, m.origin) ∧ o'.awaiting = left)))
    ∧ (∀ (k : Nat) (o : CollOpn), collOp s k = some o →
        (o.phase = 3 → exec (.collectiveWaitTimeout k) s = .next (whenLive s (freeOp s k)))
        ∧ (∀ j, o.phase ≠ 3 → opJob s o = some j → ∃ u r, exec (.collectiveWaitTimeout k) s = .next u ∧ finishedAs u j r
            ∧ r.status = 0x23 ∧ r.detail = 1 + o.rank * 256
            ∧ (page u .coll 0).event.getLsbD 0 = true ∧ (page u .coll 0).event.getLsbD 2 = true))
    ∧ (∀ (m : CollMsg) (k : Nat) (o : CollOpn), m.cause ≠ 0 →
        s.coll.ops.find? (fun (e : Nat × CollOpn) => e.2.key == m.key && e.2.phase == 3) = some (k, o) →
        (let left := o.awaiting.filter (fun (x : Nat) => x != m.rank)
         (left = [] → exec (.acknowledgement m) s = .next (whenLive s (freeOp s k)))
         ∧ (left ≠ [] → exec (.acknowledgement m) s = .next (whenLive s (putOp s k { o with awaiting := left })))))
    ∧ (∀ key : CollKey, exec (.abortHoldExpire key) s = .next (whenLive s { s with coll := { s.coll with
        held := s.coll.held.filter (fun (a : HeldAbort) => a.key != key) } }))
    ∧ (∀ m : CollMsg, opSlot s m.key = none →
        (let lost := perfAdd (raiseEvent s .coll 0 6) .coll 0 7 1
         exec (.grant m) s = .next (whenLive s lost) ∧ exec (.partialSum m) s = .next (whenLive s lost)
         ∧ (heldNowhere s = true → exec (.resultPiece m) s = .next (whenLive s lost))
         ∧ (m.cause = 0 → exec (.acknowledgement m) s = .next (whenLive s lost))))

/-- XLOAD, XSTORE, XMCAST, XADD, XINVAL, LOCK and UNLOCK begin at their source. With no line of the node's memory held elsewhere, on a
live node, the oldest remote command of its kind that the agent may begin, with a target that can be reached and a local tensor that can
be read: XLOAD, XSTORE and XADD put parts for every byte of the tensor in the agent, XMCAST for every member of its group, LOCK and
UNLOCK one request for their line; a command whose parts are all answered at once has its result instead. XINVAL drops the tenant's
open-space lines in its range and completes with their number, and touches no other line. -/
def Obligations.RemoteCommandsComplete : Prop :=
  ∀ (s : State) (j : Job), live s = true → heldNowhere s = true →
    let c := j.cmd
    let d := xaDesc c
    let n := packedBytes d
    let begins := fun (i : Instr) (s' : State) (ps : List XPart) (k : Nat) => ∃ u, exec i s = .next u ∧ begun s' u j ps k
    let r := readSpans s j.tenant [boxSpan d (fullBox d)]
    let x := withdrawNew s r r
    let readable := missing r j.tenant none ((extIdx d).map (fun (i : List Nat) => (dAddr d i, elemSpan (dFmt d)))) = none ∧ herdCut x j = false
    let sent := fun (m : Nat × Nat × Nat) => storeParts c m.2.1 m.2.2 m.1 (packTensor r j.tenant d) (packBad r j.tenant d)
    (xJob s 0x51 = some j →
      let s1 := fillSpans s j.tenant [boxSpan d (fullBox d)]
      herdCut s1 j = false → begins .xload (xloadParts s1 j).1 (xloadParts s1 j).2 n)
    ∧ (xJob s 0x52 = some j → readable → begins .xstore x (sent (0, xaNode c, xaTen c)) n)
    ∧ (xJob s 0x54 = some j → readable → begins .xadd x (sent (0, xaNode c, xaTen c)) n)
    ∧ (xJob s 0x53 = some j → readable →
        let a := (xten x j.tenant).groupBase + 256 * xaNode c
        let y := readNow x (fun (l : Nat) => rangesMeet (l * 64) 64 a 256)
        let ms := groupMembers y j.tenant (xaNode c)
        servedRange y a 256 = true → anyPoison y a 256 = false →
        begins .xmcast y (((List.range ms.length).zip ms).flatMap sent) (ms.length * n))
    ∧ (xJob s 0x56 = some j → herdCut s j = false → begins .lockTake s [{ node := xaNode c, tenant := xaTen c, offset := xaOff c, len := 64 }] 64)
    ∧ (xJob s 0x57 = some j → herdCut s j = false → begins .lockRelease s [{ node := xaNode c, tenant := xaTen c, offset := xaOff c, len := 64 }] 64)
    ∧ (xJob s 0x55 = some j →
        let hit := fun (e : CacheLine) => e.st == .opened && e.tenant == j.tenant
          && (xaOrd c || (e.node == xaNode c && e.rtenant == xaTen c && rangesMeet (e.line * 64) 64 (xaOff c) (cf c 5 0 42)))
        ∃ u, exec .xinval s = .next u ∧ finishedAs u j { detail := min (s.xag.cache.filter hit).length (2 ^ 32 - 1) }
          ∧ u.xag = { s.xag with cache := s.xag.cache.filter (fun (e : CacheLine) => !hit e) })

/-- Requests at their target, responses and timeouts at their source. With no line of the node's memory held elsewhere, on a live node
outside Lamb mode: a request that no ordered one precedes and that passes the checks of R563 is served: a load answers its bytes, a store
writes its bytes and signals its token, an XADD goes before the units, one of no bytes signals at once, a LOCK takes a free lock with its
broken mark told, or waits, an UNLOCK by the owner passes the lock on and another is answered 1; one that fails a check is answered its
cause. A unit adds the line at the head of its queue in memory, which is in canonical form. A response that matches answers its part with
what it carries, and a timeout does so with cause 100. -/
def Obligations.RemoteRequestsAreServed : Prop :=
  ∀ s : State, live s = true → s.mgmt.lamb = false → heldNowhere s = true →
    (∀ q : FabReq, q.node = nodeNum s → s.xag.syncBusy = false → behind s q = false →
      let s0 := notePeer s q.srcNode q.epoch q.srcTenant q.gen
      let s1 := perfAdd s0 .xag 0 1 1
      let va := reqVa s1 q
      (reqCause s q ≠ 0 → exec (.remoteRequest q) s = .next (whenLive s (respond (refused s0 q.tenant (reqVa s0 q) q.len
          (reqWrites q.kind) (reqCause s q)) q (reqCause s q) 0 0 [] [])))
      ∧ (reqCause s q = 0 →
        (q.kind = .load →
          let r := readSpans s1 q.tenant [some (va, q.len)]
          let bad := (natsFrom 0 q.len).filter (fun (i : Nat) => linePoison r (localOf r q.tenant (va + i) / 64))
          exec (.remoteRequest q) s = .next (whenLive s (respond (withdrawNew s1 r r) q 0 (if bad.isEmpty then 0 else 16) 0
            (tBytes r q.tenant va q.len) bad)))
        ∧ (q.kind = .store ∨ q.kind = .mcast →
          let w := writeOut s1 q.tenant (((List.range q.len).zip q.data).map (fun (e : Nat × Byte) =>
            ({ addr := va + e.1, bit := 0, width := 8, val := e.2.toNat, bad := q.bad.contains e.1 } : OutElem))) []
          w.gone = false → exec (.remoteRequest q) s = .next (whenLive s (respond (remoteSignal w.st q) q 0 0 0 [] [])))
        ∧ (q.kind = .add →
          (q.len ≠ 0 → ∃ u r, exec (.remoteRequest q) s = .next u ∧ r ∈ u.xag.rmw ∧ r.req = q ∧ r.left = linesOf va q.len ∧ u.mem = s.mem)
          ∧ (q.len = 0 → exec (.remoteRequest q) s = .next (whenLive s (respond (remoteSignal s1 q) q 0 0 0 [] []))))
        ∧ (q.kind = .lock →
          (∀ l, lockOf s q.tenant (lockKey q) = some l → l.owner = none → exec (.remoteRequest q) s = .next (whenLive s (giveLock s1 l q)))
          ∧ (∀ l, lockOf s q.tenant (lockKey q) = some l → l.owner.isSome = true →
              exec (.remoteRequest q) s = .next (whenLive s (putLock s1 { l with waiters := l.waiters ++ [q] })))
          ∧ (lockOf s q.tenant (lockKey q) = none → s.xag.locks.length < 4096 →
              exec (.remoteRequest q) s = .next (whenLive s (giveLock s1 { tenant := q.tenant, offset := lockKey q } q)))
          ∧ (lockOf s q.tenant (lockKey q) = none → 4096 ≤ s.xag.locks.length →
              exec (.remoteRequest q) s = .next (whenLive s { s1 with xag := { s1.xag with lockWait := s1.xag.lockWait ++ [q] } })))
        ∧ (q.kind = .unlock →
          (∀ l, lockOf s q.tenant (lockKey q) = some l → l.owner = some (q.srcNode, q.srcTenant, q.gen) →
            exec (.remoteRequest q) s = .next (whenLive s (passLock (respond s1 q 0 0 0 [] []) { l with owner := none })))
          ∧ ((∀ l, lockOf s q.tenant (lockKey q) = some l → l.owner ≠ some (q.srcNode, q.srcTenant, q.gen)) →
            exec (.remoteRequest q) s = .next (whenLive s (respond s1 q 0 0 1 [] []))))))
    ∧ (∀ (v id line : Nat) (t : List (Nat × Nat)) (r : RmwJob), s.mem.wf = true → s.memErrs = [] → tabGet [] s.xag.queues v = (id, line) :: t →
        s.xag.rmw.find? (fun (x : RmwJob) => x.id == id) = some r → (∀ l ∈ r.left, line ≤ l) → s.xag.waiting = [] → s.hen.cuts = [] →
        usable s r.req.tenant (line * 64) 64 true = true →
        let la := localOf s r.req.tenant (line * 64)
        let f := (fmtOf r.req.fmt).getD .fp64
        let o := (List.range (r.req.len / (fmtBits f / 8))).foldl (addElem f r.req.ovf line r.req (reqVa s r.req)) (memNat s la 64, Fl.none, false)
        served s la = true → isSealed s la = false → linePoison s (la / 64) = false → o.2.2 = false → la % 64 = 0 →
        ∃ u, exec (.rmwUnitServe v) s = .next u ∧ memBytes u la 64 = leBytes 64 o.1
          ∧ (∀ a, a < la ∨ la + 64 ≤ a → memByte u a = memByte s a)
          ∧ (∀ x ∈ u.xag.rmw, x.id = id → line ∉ x.left))
    ∧ (∀ (m : FabResp) (r : XRun) (p : XPart) (j : Job), epochOld s m.node m.epoch = false → (ten s m.tenant).gen = m.gen →
        tagPart s m.tag = some (r, p) → r.tenant = m.tenant → p.node = m.node → xRunJob s r = some j →
        let got := { p with
          st := 2, cause := m.cause, flags := m.flags, val := m.val
          data := if cOp j.cmd = 0x51 then m.data else p.data
          bad := if cOp j.cmd = 0x51 then m.bad else p.bad }
        let s' := cacheResponse (notePeer s m.node m.epoch 0 (tabGet 0 s.xag.peerGen (m.node * 4096))) j p m
        ∃ u, exec (.remoteResponse m) s = .next u ∧ answered u r j p.tag m.cause
          ∧ (byLines j.cmd = false → carriesOn s' u r j (r.parts.map (fun (x : XPart) => if x = p then got else x))))
    ∧ (∀ (tag : Nat) (r : XRun) (p : XPart) (j : Job), tagPart s tag = some (r, p) → xRunJob s r = some j →
        ∃ u, exec (.fabricTimeout (nodeNum s) tag) s = .next u
          ∧ carriesOn s u r j (r.parts.map (fun (x : XPart) => if x = p then { p with st := 2, cause := 100 } else x))
          ∧ ∀ l ∈ u.xag.locks, ∀ w ∈ l.waiters, ¬ (w.srcNode = nodeNum s ∧ w.tag = tag))

/-- Herd messages at the home and at a member. On a live node outside Lamb mode: at the home, a GETS or GETM that passes its checks is
served where its line has no transaction, opens one where copies must be recalled, and queues behind one; the SRSP that a transaction last
awaits ends it and its data go to memory; a WB of the owner goes to memory and frees the line; an EVC takes a sharer off. At a member,
DATA_S and DATA_M fill the line asked for, WB_ACK frees a line written back, a snoop is answered as its line stands and moves it,
HERD_EVICT writes an owned line back and gives up a shared one. A member that leaves loses the lines it owned, which read as poison. -/
def Obligations.HerdMessages : Prop :=
  ∀ s : State, live s = true → s.mgmt.lamb = false →
    (∀ (m : HerdMsg) (v : Nat), m.line.node = nodeNum s → s.xag.syncBusy = false → herdNode s m.member = some v →
      let k := dirKey m.line.tenant m.line.line
      let e := dirLine s k
      (herdCause s false m v = 0 →
        (e.trans = none → e.queue = [] →
          (e.st ≠ 2 → ∃ u, exec (.gets m) s = .next u ∧ (dirLine u k).st = 1
              ∧ (dirLine u k).sharers = insNat m.member e.sharers ∧ (s.memErrs = [] → u.mem = s.mem))
          ∧ (e.st = 2 → ∃ u t, exec (.gets m) s = .next u ∧ (dirLine u k).trans = some t ∧ t.req = some (.gets, m) ∧ t.wait = [e.owner]))
        ∧ (e.trans.isSome = true ∨ e.queue ≠ [] → ∃ u, exec (.gets m) s = .next u ∧ (dirLine u k).queue = e.queue ++ [(.gets, m)]))
      ∧ (herdCause s true m v = 0 →
        (e.trans = none → e.queue = [] →
          let others := e.sharers.filter (fun (x : Nat) => x != m.member)
          (e.st = 0 ∨ (e.st = 1 ∧ others = []) →
            ∃ u, exec (.getm m) s = .next u ∧ (dirLine u k).st = 2 ∧ (dirLine u k).owner = m.member ∧ (dirLine u k).tag = (e.tag + 1) % 65536)
          ∧ (e.st = 1 → others ≠ [] → ∃ u t, exec (.getm m) s = .next u ∧ (dirLine u k).trans = some t ∧ t.wait = others)
          ∧ (e.st = 2 → ∃ u t, exec (.getm m) s = .next u ∧ (dirLine u k).trans = some t ∧ t.req = some (.getm, m) ∧ t.wait = [e.owner]))
        ∧ (e.trans.isSome = true ∨ e.queue ≠ [] → ∃ u, exec (.getm m) s = .next u ∧ (dirLine u k).queue = e.queue ++ [(.getm, m)])))
    ∧ (∀ m : HerdMsg, m.line.node = nodeNum s → (herdSender s m).isSome = true → s.xag.waiting = [] → s.xag.runs = [] → s.hostIf.barWait = [] →
      let k := dirKey m.line.tenant m.line.line
      let e := dirLine s k
      (∀ t, e.trans = some t → t.wait = [m.member] → e.queue = [] → m.wbif = false →
        (∀ g, t.req = some (.gets, g) → ∃ u, exec (.srsp m) s = .next u ∧ (dirLine u k).trans = none ∧ (dirLine u k).st = 1
            ∧ g.member ∈ (dirLine u k).sharers)
        ∧ (∀ g, t.req = some (.getm, g) → ∃ u, exec (.srsp m) s = .next u ∧ (dirLine u k).trans = none ∧ (dirLine u k).st = 2
            ∧ (dirLine u k).owner = g.member)
        ∧ (t.req = none → ∃ u, exec (.srsp m) s = .next u ∧ (dirLine u k).trans = none
            ∧ (∀ la, m.present = true → m.poison = false → dirLocal s k = some la → la % 64 = 0 → m.data.length = 64 → s.mem.wf = true → served s la = true →
                isSealed s la = false → s.hen.cuts = [] → memBytes u la 64 = m.data)))
      ∧ (e.trans = none → e.st = 2 → e.owner = m.member → e.tag = m.tag → ∃ u, exec (.wb m) s = .next u ∧ (dirLine u k).st = 0
          ∧ (∀ la, m.poison = false → dirLocal s k = some la → la % 64 = 0 → m.data.length = 64 → s.mem.wf = true → served s la = true →
              isSealed s la = false → s.hen.cuts = [] → memBytes u la 64 = m.data))
      ∧ (∃ u, exec (.evc m) s = .next u ∧ u.mem = s.mem ∧ (dirLine u k).trans = e.trans
          ∧ (e.st = 1 → m.member ∈ e.sharers → (dirLine u k).sharers = e.sharers.filter (fun (x : Nat) => x != m.member))))
    ∧ (∀ (m : HerdMsg) (e : CacheLine), herdSender s m = some m.line.node → herdLine s m.line = some e →
      (s.xag.runs = [] →
        (e.st = .is → exec (.dataS m) s = .next (whenLive s (modHerdLine s m.line (fun (x : CacheLine) =>
          { x with st := .s, data := m.data, poison := m.poison, tag := m.tag }))))
        ∧ (e.st = .im ∨ e.st = .sm → exec (.dataM m) s = .next (whenLive s (modHerdLine s m.line (fun (x : CacheLine) =>
          { x with st := .m, data := m.data, poison := m.poison, tag := m.tag }))))
        ∧ (e.st = .mi → e.tag = m.tag → exec (.wbAck m) s = .next (whenLive s (dropHerdLine s m.line))))
      ∧ (e.st = .m → exec (.snpi m) s = .next (whenLive s (sendSrsp (dropHerdLine s m.line) m e.tag
            (fun (x : HerdMsg) => { x with present := true, data := e.data, poison := e.poison })))
          ∧ exec (.snps m) s = .next (whenLive s (sendSrsp (modHerdLine s m.line (fun (x : CacheLine) => { x with st := .s })) m e.tag
            (fun (x : HerdMsg) => { x with present := true, data := e.data, poison := e.poison }))))
      ∧ (e.st = .s → exec (.snpi m) s = .next (whenLive s (sendSrsp (dropHerdLine s m.line) m m.tag id))
          ∧ exec (.snps m) s = .next (whenLive s (sendSrsp s m m.tag id)))
      ∧ (e.st = .sm → exec (.snpi m) s = .next (whenLive s (sendSrsp (modHerdLine s m.line (fun (x : CacheLine) => { x with st := .im })) m m.tag id))
          ∧ exec (.snps m) s = .next (whenLive s (sendSrsp s m m.tag id)))
      ∧ (e.st = .mi → exec (.snpi m) s = .next (whenLive s (sendSrsp s m e.tag (fun (x : HerdMsg) => { x with wbif := true })))
          ∧ exec (.snps m) s = .next (whenLive s (sendSrsp s m e.tag (fun (x : HerdMsg) => { x with wbif := true })))))
    ∧ (∀ m : HerdMsg, herdSender s m = some m.line.node → herdLine s m.line = none →
        exec (.snps m) s = .next (whenLive s (sendSrsp s m m.tag id)) ∧ exec (.snpi m) s = .next (whenLive s (sendSrsp s m m.tag id)))
    ∧ (∀ (l : HerdLine) (e : CacheLine), herdLine s l = some e → e.st = .m →
        exec (.herdEvict l) s = .next (whenLive s (sendHerd (modHerdLine s l (fun (x : CacheLine) => { x with st := .mi })) l.node .wb
          { herdBlank l e.tag with data := e.data, poison := e.poison, present := true })))
    ∧ (∀ (l : HerdLine) (e : CacheLine), herdLine s l = some e → e.st = .s →
        exec (.herdEvict l) s = .next (whenLive s (sendHerd (dropHerdLine s l) l.node .evc (herdBlank l e.tag))))
    ∧ (∀ (m k : Nat) (e : DirLine), (herdNode s m).isSome = true → m ≠ herdSelf s → (s.xag.dir.map (fun (x : Nat × DirLine) => x.1)).Nodup →
        (k, e) ∈ s.xag.dir → e.st = 2 → e.owner = m → e.trans = none → e.queue = [] → s.xag.waiting = [] → s.xag.runs = [] → s.hostIf.barWait = [] → s.hen.cuts = [] →
        ∃ u, exec (.herdMemberLeave m) s = .next u ∧ (dirLine u k).st = 0 ∧ (page u .xag 0).event.getLsbD 3 = true
          ∧ (∀ la, dirLocal s k = some la → served s la = true → isSealed s la = false → linePoison u (la / 64) = true))

/-- The agent's registers, the region table, and lock probes. On a live node: a request to read the region table that reaches an agent in
READY makes requests wait; at the read's end a good table takes force and a bad one leaves the previous table and sets bad. HERD and its
member registers change only while the herd is off and no herd line is cached or owned, and FAB_TMO from 100 µs to 1 s; any other value is
ignored and sets ERR_STATUS. A lock with waiters has its owner's node probed, a probe is answered with the tenant's generation, and a
notice, another generation or silence breaks the lock. -/
def Obligations.FabricAgentConfiguration : Prop :=
  ∀ s : State, live s = true →
    (∀ r, atPage s r .xag 0 = true →
      (blkReady s .xag 0 = true → ∃ u, exec (.regionSync r) s = .next u ∧ u.xag = { s.xag with syncBusy := true } ∧ u.mem = s.mem)
      ∧ (∀ v, exec (.fabTmoWrite r v) s = .next (whenLive s (if 100 ≤ v ∧ v ≤ 1000000
            then setRegWord (opened s r .xag 0 0x104) .xag 0 0x104 v else regError (opened s r .xag 0 0x104) .xag 0 0x104)))
      ∧ (∀ v, exec (.herdConfigWrite r 0x128 v) s = .next (whenLive s (if herdFree s && herdValueOk 0x128 v
            then setRegWord (opened s r .xag 0 0x128) .xag 0 0x128 (bits v 0 16) else regError (opened s r .xag 0 0x128) .xag 0 0x128)))
      ∧ (∀ v k, k < 8 → exec (.herdConfigWrite r (0x12C + 4 * k) v) s = .next (whenLive s (if herdFree s && herdValueOk (0x12C + 4 * k) v
            then setRegWord (opened s r .xag 0 (0x12C + 4 * k)) .xag 0 (0x12C + 4 * k) (bits v 0 21)
            else regError (opened s r .xag 0 (0x12C + 4 * k)) .xag 0 (0x12C + 4 * k)))))
    ∧ (s.xag.syncBusy = true → s.xag.waiting = [] → s.xag.herdWait = [] →
      let base := regWord2 s .xag 0 0x108 0 % 2 ^ 48
      let x := readNow s (fun (l : Nat) => base ≤ l * 64 && l * 64 < base + 262144)
      (∀ rs, readRegions x = some rs → ∃ u, exec .regionTableReadEnd s = .next u
        ∧ u.xag = { s.xag with regions := rs, syncBusy := false, syncBad := false })
      ∧ (readRegions x = none → ∃ u, exec .regionTableReadEnd s = .next u
        ∧ u.xag = { s.xag with syncBusy := false, syncBad := true } ∧ (page u .xag 0).event.getLsbD 5 = true))
    ∧ (∀ (t k : Nat) (l : Lock) (v ot g : Nat), lockOf s t k = some l → l.owner = some (v, ot, g) →
      (l.waiters ≠ [] → blkReady s .xag 0 = true →
        exec (.lockProbe t k) s = .next (whenLive s (sendMsg s { dst := v, vc := 0, flow := 0, msg := .lockProbe t k ot g })))
      ∧ exec (.lockReleaseNotice t k v ot .notice) s = .next (whenLive s (breakLock s l))
      ∧ exec (.lockReleaseNotice t k v ot .probeLost) s = .next (whenLive s (breakLock s l))
      ∧ (∀ h, exec (.lockReleaseNotice t k v ot (.probeGen h)) s = .next (whenLive s (if h = g then s else breakLock s l))))
    ∧ (∀ node t k owner : Nat, s.mgmt.lamb = false → blkReady s .xag 0 = true →
        exec (.ownerNodeProbe node t k owner) s
          = .next (whenLive s (sendMsg s { dst := node, vc := 2, flow := 0, msg := .lockAnswer t k owner (ten s owner).gen })))

/-- Shared sets: load, activate, retire, and the return of a withdrawn page. On a live node whose memory is in canonical form, for a
requester that reaches the scratchpad's page: SET_CMD load of an EMPTY set takes its range where it has pages, lies below the staging area, meets no other set and no tenant maps
it; activate of a LOADING set begins the copies, which, once done, make it ACTIVE; retire empties a set that no tenant maps, outside Lamb
mode. Where these conditions fail, ERR_STATUS is set and no set changes. A withdrawn page of a RESTORING set whose golden copy is good comes back with the
copy's bytes, else the owner is asked for an image once. An image with the right digest restores the page; one without, or none in time,
fails the set. -/
def Obligations.SharedSets : Prop :=
  ∀ (s : State) (d : Nat), live s = true → s.mem.wf = true →
    (∀ r, atPage s r .spad d = true →
      let k := setIdx s d
      let x := setRange s d k
      let free := (sharedSet s d k).st = 0 ∧ 0 < x.2 ∧ x.1 + x.2 ≤ 129024 ∧ anyMaps s (upperPage d x.1) (x.2 * 4096) = false
        ∧ ∀ e ∈ (spad s d).sets, e.1 ≠ k → e.2.st ≠ 0 → rangesMeet e.2.first e.2.pages x.1 x.2 = false
      (free → exec (.setLoad r d) s = .next (whenLive s (modSet (opened s r .spad d 0x118) d k (fun _ => { st := 1, first := x.1, pages := x.2 }))))
      ∧ (¬ free → exec (.setLoad r d) s = .next (whenLive s (regError (opened s r .spad d 0x118) .spad d 0x118)))
      ∧ ((sharedSet s d k).st = 1 → exec (.setActivate r d) s
          = .next (whenLive s (modSet (opened s r .spad d 0x118) d k (fun (y : SharedSet) => { y with activating := true }))))
      ∧ ((sharedSet s d k).st ≠ 1 → exec (.setActivate r d) s = .next (whenLive s (regError (opened s r .spad d 0x118) .spad d 0x118)))
      ∧ (s.mgmt.lamb = true ∨ ((sharedSet s d k).st ≠ 0 ∧ anyMaps s (upperPage d (sharedSet s d k).first) ((sharedSet s d k).pages * 4096) = true) →
          exec (.setRetire r d) s = .next (whenLive s (regError (opened s r .spad d 0x118) .spad d 0x118)))
      ∧ (s.mgmt.lamb = false → anyMaps s (upperPage d (sharedSet s d k).first) ((sharedSet s d k).pages * 4096) = false →
          ∃ u, exec (.setRetire r d) s = .next u ∧ sharedSet u d k = {} ∧ (∀ k', k' ≠ k → sharedSet u d k' = sharedSet s d k')
            ∧ ∀ w ∈ (spad u d).wd, w.setNo ≠ k))
    ∧ (∀ k, (sharedSet s d k).st = 1 → (sharedSet s d k).activating = true → blkReady s .spad d = true →
        ∃ u, exec (.setActivateDone d k) s = .next u ∧ sharedSet u d k = { sharedSet s d k with st := 2, activating := false })
    ∧ (∀ (p : Nat) (w : Withdrawn), s.mgmt.restarting = false → s.mgmt.lamb = false → blkReady s .spad d = true →
        (spad s d).wd.find? (fun (y : Withdrawn) => y.page == p) = some w → (sharedSet s d w.setNo).st = 3 →
        let x := lowerRead s (goldenLine d p)
        (goldenGood x d p = true → isSealed s (upperPage d p) = false → s.hen.cuts = [] → ∃ u, exec (.sharedPageRestore d p) s = .next u
          ∧ (∀ y ∈ (spad u d).wd, y.page ≠ p) ∧ (page u .spad d).event.getLsbD 3 = true
          ∧ memBytes u (upperPage d p) 4096 = memBytes x (goldenPage d p) 4096 ∧ anyPoison u (upperPage d p) 4096 = false
          ∧ ((∀ y ∈ (spad s d).wd, y.setNo = w.setNo → y.page = p) → (sharedSet u d w.setNo).st = 2))
        ∧ (goldenGood x d p = false → w.img = false → ∃ u, exec (.sharedPageRestore d p) s = .next u
          ∧ (spad u d).wd = (spad s d).wd.map (fun (y : Withdrawn) => if y.page == p then { y with img := true } else y)
          ∧ (page u .spad d).event.getLsbD 5 = true ∧ .notice 4 [d, w.setNo, p] ∈ u.out ∧ u.mem = x.mem)
        ∧ (goldenGood x d p = false → w.img = true → exec (.sharedPageRestore d p) s = .next (whenLive s x)))
    ∧ (∀ (k : Nat) (w : Withdrawn), s.mgmt.restarting = false →
        (spad s d).wd.find? (fun (y : Withdrawn) => y.img && y.setNo == k && (sharedSet s d k).st == 3) = some w →
        exec (.setImageTimeout d k) s = .next (whenLive s (spadSettle (failSet s d k w) d)))
    ∧ (∀ w, imagePage s d = some w → ∀ r a, atPage s r .spad d = true → a + 4095 < 0x8000000000 →
        let x := meetErrs s (fun (l : Nat) => rangesMeet (l * 64) 64 a 4128)
        let dg := (pageDigest x d w.page).getD (memBytes x (a + 4096) 32)
        let good := servedRange x a 4096 = true ∧ anyPoison x a 4096 = false ∧ sha256 (memBytes x a 4096) = dg
          ∧ ((pageDigest x d w.page).isSome = true ∨ (servedRange x (a + 4096) 32 = true ∧ anyPoison x (a + 4096) 32 = false))
        (good → isSealed s (upperPage d w.page) = false → s.hen.cuts = [] → ∃ u, exec (.hostImgSubmit r d a) s = .next u
            ∧ (∀ y ∈ (spad u d).wd, y.page ≠ w.page) ∧ memBytes u (upperPage d w.page) 4096 = memBytes x a 4096)
        ∧ (¬ good → ∃ u, exec (.hostImgSubmit r d a) s = .next u ∧ (sharedSet u d w.setNo).st = 4
            ∧ (page u .spad d).event.getLsbD 4 = true))

/-- Scrub, refresh, windows and zero fill. On a live node: a scrub read of a served line, outside Lamb mode and a management restart,
writes nothing where the line is clean, counts one wrong byte of a word, and poisons the line for two, which then reads as zero in a memory
in canonical form. The hottest MR4 report raises a port's rate at once, lowers it only after 8 reads in a row, and raises hot at code 3. A
refresh is issued with all that were postponed, or postponed up to 8, where ref_late is raised. WIN_n changes only while the windows are not locked and never to a reserved
set, and the lock is set only over a consistent window set. A port whose zero fill ends is READY and zeroed. -/
def Obligations.MemoryUpkeep : Prop :=
  ∀ s : State, live s = true →
    (∀ l bad, s.mgmt.lamb = false → s.mgmt.restarting = false → inLpddr (l * 64) = true ∨ (spadOf (l * 64)).isSome = true → backed s (l * 64) = true →
      let s1 := addErrs s [{ line := l, bad := bad }]
      let c := clrErrs s1 l
      (eccOf l (errsAt s1 l) = .clean → exec (.scrubRead l bad) s = .next (whenLive s c))
      ∧ (eccOf l (errsAt s1 l) = .corrects → exec (.scrubRead l bad) s = .next (whenLive s (corrected c (l * 64))))
      ∧ (eccOf l (errsAt s1 l) = .detects → s.mem.wf = true → inLpddr (l * 64) = true ∨ inUpper (l * 64) = true →
          ∃ u, exec (.scrubRead l bad) s = .next u ∧ linePoison u l = true ∧ (∀ k, k ≠ l → linePoison u k = linePoison s k)
            ∧ (∀ a, a / 64 = l → memByte u a = 0) ∧ (∀ a, a / 64 ≠ l → memByte u a = memByte s a))
      ∧ (eccOf l (errsAt s1 l) = .beyond → linePoison s l = false → inLpddr (l * 64) = true → ∃ u, exec (.scrubRead l bad) s = .next u
          ∧ (linePoison u l = true ∨ (linePoison u l = false ∧ u.mem = (memPut s (l * 64) ((natsFrom (s.freeCount + 1) 64).map Config.freeByte)).mem))))
    ∧ (∀ p rank0 rank1 r, (portOf s p).trained = true → p < 16 → hottest (rank0 ++ rank1) = some r → ∃ u, exec (.mr4Poll p rank0 rank1) s = .next u ∧
        let code := mr4Code r.temp
        (portOf u p).report = r.field
        ∧ ((portOf s p).rate < code → (page u .lpc p).event.getLsbD 3 = true)
        ∧ ((portOf s p).rate ≤ code → (portOf u p).rate = code ∧ (portOf u p).lower = 0)
        ∧ (code < (portOf s p).rate →
            let n := if (portOf s p).lower ≠ 0 ∧ (portOf s p).lowerCode = code then (portOf s p).lower + 1 else 1
            (8 ≤ n → (portOf u p).rate = code) ∧ (n < 8 → (portOf u p).rate = (portOf s p).rate ∧ (portOf u p).lower = n))
        ∧ (code = 3 → (page u .lpc p).event.getLsbD 4 = true))
    ∧ (∀ p rank closed busy, (portOf s p).trained = true → rank < (portOf s p).ranks →
        let n := if closed then 0 else if rank = 0 then (portOf s p).post0 else (portOf s p).post1
        ∃ u, exec (.refreshDue p rank ⟨closed, busy⟩) s = .next u
          ∧ (if rank = 0 then (portOf u p).post0 else (portOf u p).post1) = (if busy && decide (n < 8) then n + 1 else 0)
          ∧ (busy = true → n = 7 → (page u .lpc p).event.getLsbD 7 = true) ∧ u.mem = s.mem)
    ∧ (∀ r, atPage s r .lpc 0 = true →
        (∀ n v, n < 8 → exec (.winWrite r n v) s = .next (whenLive s (
          if bitAt (regWord s .lpc 0 0x180 0) 0 || decide (6 ≤ bits v 12 3) then regError (opened s r .lpc 0 (0x140 + 8 * n)) .lpc 0 (0x140 + 8 * n)
          else putWindow (opened s r .lpc 0 (0x140 + 8 * n)) n v)))
        ∧ (winValid s = true → exec (.winLock r) s = .next (whenLive s (setRegWord (opened s r .lpc 0 0x180) .lpc 0 0x180 1)))
        ∧ (winValid s = false → exec (.winLock r) s = .next (whenLive s (regError (opened s r .lpc 0 0x180) .lpc 0 0x180))))
    ∧ (∀ p, (portOf s p).filling = true → s.mgmt.lamb = false → blkState s .lpc p = 0 →
        ∃ u, exec (.zeroFillEnd p) s = .next u ∧ blkState u .lpc p = 1 ∧ (portOf u p).filling = false
          ∧ ∀ a d, inLpddr a = true → locate s a = some (p, d) → memByte u a = 0)

/-- Seals are asked for and take effect; released ranges are zeroed. On a live node: TEN.SEAL of an aligned granule that the tenant maps
whole and writable asks for its seal, and refuses another one; HOST.SEAL of an aligned granule of LPDDR or an upper tier does so for the
owner; a seal under way sets ERR_STATUS. A seal that takes effect reads and seals its granule, and writes nothing. HOST.ZREQ adds a range to the
table of 64, or sets ERR_STATUS where it is full. A range whose zeroing completes leaves the table with its event, its granules are
unsealed, and outside granules still sealed and pages of sets in use it reads as zero with no poison; nothing outside it changes, in a
memory in canonical form. -/
def Obligations.SealsAndZeroing : Prop :=
  ∀ s : State, live s = true →
    (∀ r t a, atPage s r .ten t = true →
      (a % 2 ^ 21 ≠ 0 ∨ 2 ^ 48 ≤ a ∨ (ten s t).sealBusy = true →
        exec (.tenantSeal r t a) s = .next (whenLive s (regError (opened s r .ten t 0x140) .ten t 0x140)))
      ∧ (a % 2 ^ 21 = 0 → a < 2 ^ 48 → (ten s t).sealBusy = false →
        (∀ g, tenGranule s t a = some g → ∃ u, exec (.tenantSeal r t a) s = .next u ∧ (ten u t).sealBusy = true
            ∧ (ten u t).sealRefused = false ∧ u.seals = s.seals ++ [{ addr := g, tenant := t }] ∧ u.sealedG = s.sealedG ∧ u.mem = s.mem)
        ∧ (tenGranule s t a = none → ∃ u, exec (.tenantSeal r t a) s = .next u ∧ (ten u t).sealRefused = true
            ∧ u.seals = s.seals ∧ u.sealedG = s.sealedG ∧ u.mem = s.mem)))
    ∧ (∀ r a, atPage s r .host 0 = true → asOwner s r = true →
      (a % 2 ^ 21 ≠ 0 ∨ 2 ^ 48 ≤ a ∨ s.hostIf.sealBusy = true →
        exec (.ownerSeal r a) s = .next (whenLive s (regError (opened s r .host 0 0x130) .host 0 0x130)))
      ∧ (a % 2 ^ 21 = 0 → a < 2 ^ 48 → s.hostIf.sealBusy = false → ∃ u, exec (.ownerSeal r a) s = .next u ∧ u.mem = s.mem
        ∧ (inLpddr a = true ∨ inUpper a = true → u.hostIf.sealBusy = true ∧ u.seals = s.seals ++ [{ addr := a, tenant := 512 }])
        ∧ (inLpddr a = false → inUpper a = false → u.hostIf.sealRefused = true ∧ u.seals = s.seals)))
    ∧ (∀ (g : Nat) (q : SealReq), s.seals.find? (fun (x : SealReq) => x.addr == g * 2 ^ 21) = some q →
        let x := readNow s (fun (l : Nat) => l / 32768 == g)
        ∃ u, exec (.sealTakeEffect g) s = .next u ∧ g ∈ u.sealedG ∧ (∀ h, h ≠ g → (h ∈ u.sealedG ↔ h ∈ s.sealedG)) ∧ u.mem = x.mem
          ∧ u.poison = x.poison ∧ u.seals = s.seals.erase q
          ∧ (q.tenant = 512 → u.hostIf.sealBusy = false)
          ∧ (q.tenant ≠ 512 → (ten u q.tenant).sealBusy = false ∧ (page u .ten q.tenant).event.getLsbD 3 = true))
    ∧ (∀ r n, atPage s r .host 0 = true → asOwner s r = true →
        (64 ≤ s.hostIf.zreq.length → exec (.zreqSubmit r n) s = .next (whenLive s (regError (opened s r .host 0 0x120) .host 0 0x120)))
        ∧ (s.hostIf.zreq.length < 64 → ∃ u, exec (.zreqSubmit r n) s = .next u ∧ u.mem = s.mem
            ∧ u.hostIf.zreq = s.hostIf.zreq ++ [{ addr := regWord2 s .host 0 0x118 0 % 2 ^ 48, pages := n % 2 ^ 32 }]))
    ∧ (∀ (i : Nat) (z : Zreq), s.hostIf.zreq[i]? = some z → s.mgmt.lamb = false → s.hen.cuts = [] → s.mem.wf = true →
        let kept := fun (a : Nat) => match spadOf a with
          | some (d, 0) => pageKept s d ((a - upperBase d) / 4096)
          | _ => false
        ∃ u, exec (.zeroDone i) s = .next u ∧ u.hostIf.zreq = s.hostIf.zreq.eraseIdx i ∧ (page u .host 0).event.getLsbD 5 = true
          ∧ (∀ g, g ∈ u.sealedG ↔ g ∈ s.sealedG ∧ ¬ (z.addr ≤ g * 2 ^ 21 ∧ (g + 1) * 2 ^ 21 ≤ z.addr + 4096 * z.pages))
          ∧ (∀ a, z.addr ≤ a → a < z.addr + 4096 * z.pages → a / 2 ^ 21 ∉ u.sealedG → kept a = false →
            memByte u a = 0 ∧ (z.addr % 64 = 0 → linePoison u (a / 64) = false))
          ∧ (∀ a, a < z.addr ∨ z.addr + 4096 * z.pages ≤ a ∨ kept a = true → memByte u a = memByte s a))

/-- The ledger's registers: mode, seed, seal, ring, read pointer, stop point, system time. A requester that reaches the LEDG page, on a
live node. TEN_MODE and TEN_SEED of a tenant whose streams are all disabled set its replay mode or its seed with a GENESIS entry of reason
1, and are ignored with ERR_STATUS while a stream is enabled. TEN_MODE.seal asks for a seal of the selected chain. RING_BASE and RING_LOG
take a ring that is acceptable while every written unit has been released, and are ignored with ERR_STATUS otherwise. RD_PTR takes a value
up to WR_PTR, and one above it changes nothing. TEN_STOP_STEP and TEN_STOP of a tenant set its stop point and clear its hit.
SYSTIME loads the system time. -/
def Obligations.LedgerRegisterWrites : Prop :=
  ∀ (s : State) (r : Requester) (v : Nat), atPage s r .ledg 0 = true →
    let o := fun off => opened s r .ledg 0 off
    let c := ledgSel s
    let m := if bitAt v 1 then askSeal (o 0x134) c else o 0x134
    (c ≠ nodeChain → allDisabled s c = true → exec (.tenModeWrite r v) s
      = .next (whenLive s (genesisAfter m c 1 (fun x => { x with replay := bitAt v 0 }))))
    ∧ (c ≠ nodeChain → allDisabled s c = false → exec (.tenModeWrite r v) s = .next (whenLive s (regError m .ledg 0 0x134)))
    ∧ (c = nodeChain → exec (.tenModeWrite r v) s = .next (whenLive s (if bitAt v 0 then regError m .ledg 0 0x134 else m)))
    ∧ (c ≠ nodeChain → allDisabled s c = true → exec (.tenSeedWrite r v) s
      = .next (whenLive s (genesisAfter (o 0x138) c 1 (fun x => { x with seed := BitVec.ofNat 64 v }))))
    ∧ (c = nodeChain ∨ allDisabled s c = false → exec (.tenSeedWrite r v) s = .next (whenLive s (regError (o 0x138) .ledg 0 0x138)))
    ∧ exec (.tenSealRequest r) s = .next (whenLive s (askSeal (o 0x134) c))
    ∧ (s.ledger.wr = s.ledger.rd → ringOk s (v % 2 ^ 48) (ringLog s) = true → exec (.ringConfigWrite r 0x108 v) s
      = .next (whenLive s (setRegWord (setRegWord (o 0x108) .ledg 0 0x108 (v % 2 ^ 32)) .ledg 0 0x10C (bits v 32 16))))
    ∧ (s.ledger.wr = s.ledger.rd → ringOk s (ringBase s) (bits v 0 5) = true → exec (.ringConfigWrite r 0x110 v) s
      = .next (whenLive s (nodeGenesis (setRegWord (o 0x110) .ledg 0 0x110 (bits v 0 5)))))
    ∧ (ringOk s (ringBase s) (bits v 0 5) = false → exec (.ringConfigWrite r 0x110 v) s = .next (whenLive s (regError (o 0x110) .ledg 0 0x110)))
    ∧ (ringOk s (v % 2 ^ 48) (ringLog s) = false → exec (.ringConfigWrite r 0x108 v) s = .next (whenLive s (regError (o 0x108) .ledg 0 0x108)))
    ∧ (s.ledger.wr ≠ s.ledger.rd → exec (.ringConfigWrite r 0x110 v) s = .next (whenLive s (regError (o 0x110) .ledg 0 0x110))
        ∧ exec (.ringConfigWrite r 0x108 v) s = .next (whenLive s (regError (o 0x108) .ledg 0 0x108)))
    ∧ (v ≤ s.ledger.wr.toNat → exec (.rdPtrWrite r v) s
      = .next (whenLive s { o 0x120 with ledger := { s.ledger with rd := BitVec.ofNat 64 v } }))
    ∧ (s.ledger.wr.toNat < v → exec (.rdPtrWrite r v) s = .next (whenLive s (o 0x120)))
    ∧ (c ≠ nodeChain → exec (.tenStopWrite r 0x168 v) s
      = .next (whenLive s (markReady (modTen (o 0x168) c (fun x => { x with stopStep := BitVec.ofNat 64 v, stopHit := false })) c)))
    ∧ (c ≠ nodeChain → exec (.tenStopWrite r 0x170 v) s = .next (whenLive s (markReady (modTen (o 0x170) c
        (fun x => { x with stopOrd := bits v 0 16, stopStream := bits v 16 3, stopEn := bitAt v 19, stopHit := false })) c)))
    ∧ exec (.systimeWrite r v) s
      = .next (whenLive s { o 0x128 with mgmt := { s.mgmt with systime := BitVec.ofNat 64 v, systimeSet := true } })

/-- Entries are written whole, in order, and chained; seals are due for chains that gained entries. LEDGER_ENTRY_WRITE, with the ledger
READY and not stopped on a unit, writes the front waiting entry if the ring has room, and completes the STEPs whose entries have been
written; RING_UNIT_RETRY does so after a unit that completed TARGET_GONE. When an entry's last unit is written, its chain's next index
goes up by 1, its head becomes the entry's hash, and the entry no longer waits. Unless a management restart stops it or the period is 0, SEAL_PERIOD makes a seal due for every chain that has gained entries. STOP_HIT marks a reached stop point of a replaying
tenant and raises LEDG.EVENT bit 5. -/
def Obligations.LedgerEntriesReachTheRing : Prop :=
  (∀ s : State, live s = true → blkReady s .ledg 0 = true →
    (s.ledger.stuck = false → exec .ledgerEntryWrite s = .next (whenLive s (finishSteps (ledgerWrite s))))
    ∧ (s.ledger.stuck = true →
        exec .ringUnitRetry s = .next (whenLive s (finishSteps (ledgerWrite { s with ledger := { s.ledger with stuck := false } })))))
  ∧ (∀ (s : State) (e : Entry) (h : Nat), let t := entryDone s e h
      (chainOf t e.chain).next = (chainOf s e.chain).next + 1 ∧ (chainOf t e.chain).head = h
      ∧ t.ledger.waiting = s.ledger.waiting.drop 1 ∧ t.ledger.wr = s.ledger.wr
      ∧ (∀ c, c ≠ e.chain → chainOf t c = chainOf s c))
  ∧ (∀ (s : State) (fail : Bool), live s = true → s.mgmt.restarting = false →
      bits (regWord s .ledg 0 0x104 0x3E8) 0 16 ≠ 0 → exec (.sealPeriod fail) s = .next (whenLive s (sealAll s fail)))
  ∧ (∀ (s : State) (t : Nat), live s = true → (ten s t).replay = true → (ten s t).stopEn = true → (ten s t).stopHit = false →
      stopReached s t = true → exec (.stopHit t) s
        = .next (whenLive s (perfAdd (raiseEvent (modTen s t (fun x => { x with stopHit := true })) .ledg 0 5) .ledg 0 7 1)))

/-- A link's states from DISABLED to ACTIVE, and what a failed attempt leaves. On a live node: CTRL.enable takes a DISABLED link to DOWN
outside Lamb mode; activity, the end of a wait after a failed attempt, and a retry from FAILED take a link to DETECT; the states' work
takes it on to NEGOTIATE, where it sends CAP and repeats it until its partner's comes; two CAP flits that agree put it in TRAIN at the
mode agreed, others fail the attempt; VERIFY, which sends its test flits, makes it ACTIVE in that mode where all of the partner's are
sound, else tries the next mode down, and fails the attempt where there is none. A third failed attempt in a row ends in FAILED with its event, an earlier one in DOWN. A retrain that ends is ACTIVE
in its target mode. -/
def Obligations.LinkBringUp : Prop :=
  ∀ (s : State) (n : Nat), live s = true →
    let l := lnk s n
    let lost := fun (i : Instr) => ∃ u, exec i s = .next u ∧ (lnk u n).failState = l.st
      ∧ (if 3 ≤ l.attempts + 1 then (lnk u n).st = 9 ∧ (page u .wlink n).event.getLsbD 4 = true
         else (lnk u n).st = 1 ∧ (lnk u n).backoff = true ∧ (lnk u n).attempts = l.attempts + 1)
    (∀ r, atPage s r .wlink n = true → isVf r = false → l.st = 0 → s.mgmt.lamb = false →
      exec (.linkEnable r n) s = .next (whenLive s (modLink (opened s r .wlink n 0x10) n (fun (x : Link) => { x with st := 1, backoff := false }))))
    ∧ (l.st = 1 → l.backoff = false →
        exec (.linkDetect n) s = .next (whenLive s (modLink s n (fun (x : Link) => { x with st := 2, cap := none }))))
    ∧ (l.st = 1 → l.backoff = true →
        exec (.attemptBackoffEnd n) s = .next (whenLive s (modLink s n (fun (x : Link) => { x with st := 2, backoff := false, cap := none }))))
    ∧ (l.st = 9 →
        exec (.linkFailedRetry n) s = .next (whenLive s (modLink s n (fun (x : Link) => { x with st := 2, attempts := 0, cap := none }))))
    ∧ (∀ k, (l.st = 2 → exec (.linkStateAdvance n k) s = .next (whenLive s (modLink s n (fun (x : Link) => { x with st := 3 }))))
        ∧ (l.st = 3 → exec (.linkStateAdvance n k) s
            = .next (whenLive s (sendCap (modLink s n (fun (x : Link) => { x with st := 4, rxLanes := k % 4, cap := none, sent := none })) n)))
        ∧ (l.st = 5 → exec (.linkStateAdvance n k) s = .next (whenLive s (sendTests (modLink s n (fun (x : Link) => { x with st := 6 })) n))))
    ∧ (l.st = 4 → l.cap = none → exec (.capRepeat n) s = .next (whenLive s (sendCap s n)))
    ∧ (∀ c, l.st = 4 →
        (∀ m, agreeMode (sentCap s n) c = some m →
          ∃ u, exec (.cap n c) s = .next u ∧ (lnk u n).st = 5 ∧ (lnk u n).target = m ∧ (lnk u n).agreed = m ∧ (lnk u n).cap = some c)
        ∧ (agreeMode (sentCap s n) c = none → lost (.cap n c)))
    ∧ (2 ≤ l.st → l.st ≤ 6 ∨ l.st = 8 → lost (.linkStateTimeout n))
    ∧ (∀ got, l.st = 6 →
        (∀ c, verifyPasses got = true → l.cap = some c → ∃ u, exec (.verifyEnd n got) s = .next u ∧ (lnk u n).st = 7 ∧ (lnk u n).mode = l.target
          ∧ (lnk u n).attempts = 0 ∧ (page u .wlink n).event.getLsbD 0 = true
          ∧ (l.agreed.gen < genFloor s n → reachesFloor s n (sentCap s n) = true → (page u .wlink n).event.getLsbD 6 = true))
        ∧ (∀ m, verifyPasses got = false → modeDown s n l.target = some m → ∃ u, exec (.verifyEnd n got) s = .next u ∧ (lnk u n).st = 5 ∧ (lnk u n).target = m)
        ∧ (verifyPasses got = false → modeDown s n l.target = none → lost (.verifyEnd n got)))
    ∧ (l.st = 8 → ∃ u, exec (.retrainEnd n) s = .next u ∧ (lnk u n).st = 7 ∧ (lnk u n).mode = l.target
        ∧ (page u .wlink n).event.getLsbD 2 = true)

/-- Data, idle and retry flits, another node's messages, and the end of a route's hold. On a live node with an ACTIVE link: a data flit
that passes its CRC with the expected sequence number is passed to the switch once, and the next number is expected; the switch passes it
on unless a parity error strikes it; where it begins another node's message, and no hold stands, it waits at or has been sent on the next
link of its route, a level up after a global link; a data flit with a bad CRC or another number is not passed on, and the first of a run
sends a retry request, which the timer repeats. An idle flit carries its acknowledgement and credits alone. A retry request has the replay
buffer sent again from the number it names. The end of a route's hold sends what was held, in order. -/
def Obligations.FlitsAreDeliveredInOrder : Prop :=
  ∀ (s : State) (n : Nat), live s = true →
    let l := lnk s n
    let switched := fun (x : State) (f : Flit) => (x.out.filter (fun (o : Out) => o == .toSwitch n f)).length
    (∀ f : Flit, l.st = 7 →
      let s1 := countFixed s n f
      (flitSound 1 f = true → f.seq = l.rxSeq → ∃ u, exec (.dataFlit n f) s = .next u ∧ (lnk u n).rxSeq = (l.rxSeq + 1) % 4096
        ∧ (lnk u n).discarding = false ∧ switched u f = switched s f + 1
        ∧ (f.struck = true → (page u .wsw 0).event.getLsbD 2 = true)
        ∧ (f.struck = false → ∃ v, u = whenLive s (tellAll (passOn v n f) n) ∧ v.sw = s.sw ∧ routeLinks v = routeLinks s ∧ nodeNum v = nodeNum s))
      ∧ (∀ x m, x.dst ≠ nodeNum s → blkReady s .wsw 0 = true →
          (if fixedVc f.vc then s.sw.holds = [] ∧ transitLink s (routeLinks s) (featOk s f.vc) false x = some m
            else transitLink s (activeLinks s) (featOk s f.vc) true x = some m) →
          let u := passTo s n f x
          ∃ q : TxFlit, q.level = min 2 (f.level + b2n (isGlobal s n)) ∧ q.p.dst = x.dst ∧ q.p.msg = (transitParcel s n f x).msg
            ∧ (q ∈ (lnk u m).queue ∨ ∃ k, (k, q) ∈ (lnk u m).replay))
      ∧ (flitSound 1 f = false ∨ f.seq ≠ l.rxSeq → ∃ u, exec (.dataFlit n f) s = .next u ∧ (lnk u n).rxSeq = l.rxSeq
        ∧ (lnk u n).discarding = true ∧ switched u f = switched s f
        ∧ ∃ v, u = whenLive s (discardFlit v n) ∧ (lnk v n).discarding = l.discarding)
      ∧ (flitSound 0 f = true → exec (.idleFlit n f) s = .next (whenLive s (takeHead s1 n f)))
      ∧ (flitSound 0 f = false → exec (.idleFlit n f) s = .next (whenLive s (discardFlit (crcFailed s1 n) n)))
      ∧ (flitSound 3 f = true → ∃ u, exec (.retryRequest n f) s = .next u ∧ (lnk u n).retries = min (l.retries + 1) (2 ^ 32 - 1)
        ∧ (∀ e ∈ (lnk (takeHead s1 n f) n).replay.dropWhile (fun (x : Nat × TxFlit) => x.1 != leNat (f.body.take 2) % 4096),
            ∃ bs, .send n e.1 e.2 bs ∈ u.out))
      ∧ (flitSound 3 f = false → exec (.retryRequest n f) s = .next (whenLive s (discardFlit (crcFailed s1 n) n))))
    ∧ (l.st = 7 → l.discarding = true → exec (.retryRequestRepeat n) s = .next (whenLive s (sendRetry s n)))
    ∧ (∀ (id : Nat) (h : RouteHold), s.sw.holds.find? (fun (x : RouteHold) => x.id == id) = some h →
        exec (.routeHoldEnd id) s = .next (whenLive s (sendAll { s with sw := { s.sw with
          holds := s.sw.holds.filter (fun (x : RouteHold) => x.id != id) } } h.held)))

/-- Protection, adaptation, override, loss of a link, and the node's configuration. On a live node: a window with more than one bad flit
in 10^4, or a lane that loses lock, takes an ACTIVE link one mode down whatever its policy, sets the override with its event where the
mode left policy, and fails the link below the lowest mode; more than one in 10^6 takes it one mode down within policy. It steps up after
a second without a trigger, down to its floor when idle under psave, and retrains to the lowest mode within policy when its hysteresis
ends; back within policy, its override ends with the time outside policy counted. A link that leaves ACTIVE for DOWN or FAILED loses its flits (said where no herd message can follow) and its epoch increments.
NODE_CFG and GRP_SIZE change only while no link is ACTIVE. -/
def Obligations.LinksAdaptAndFail : Prop :=
  ∀ (s : State) (n : Nat), live s = true →
    let l := lnk s n
    let down := fun (i : Instr) (m : Option LinkMode) => ∃ u, exec i s = .next u
      ∧ (∀ x, m = some x → (lnk u n).st = 8 ∧ (lnk u n).target = x
          ∧ (l.ovr = false → inPolicy s n l.mode = true → inPolicy s n x = false →
              (lnk u n).ovr = true ∧ (page u .wlink n).event.getLsbD 3 = true))
      ∧ (m = none → (lnk u n).st = 9 ∧ (herdOn s = false → (lnk u n).replay = []) ∧ (page u .wlink n).event.getLsbD 4 = true)
    (l.st = 7 → l.winFlits < l.winBad * 10000 → down (.linkErrorWindow n) (modeDown s n l.mode))
    ∧ (l.st = 7 → l.winBad * 10000 ≤ l.winFlits → l.winFlits < l.winBad * 1000000 →
        ∀ m, modeDown s n l.mode = some m → inPolicy s n m = true →
          ∃ u, exec (.linkErrorWindow n) s = .next u ∧ (lnk u n).st = 8 ∧ (lnk u n).target = m ∧ (lnk u n).replay = l.replay)
    ∧ (l.st = 7 → l.winBad * 1000000 ≤ l.winFlits → ∃ u, exec (.linkErrorWindow n) s = .next u ∧ (lnk u n).st = 7
        ∧ (lnk u n).calmMs = min 1000 (l.calmMs + 1) ∧ (lnk u n).winFlits = 0 ∧ (lnk u n).winBad = 0 ∧ u.out = s.out)
    ∧ (∀ k, k < 2 → l.st = 7 → down (.laneLockLoss n k) (modeDown s n l.mode))
    ∧ (∀ m, l.st = 7 → l.ovr = false → 1000 ≤ l.calmMs → modeUp s n = some m →
        exec (.linkStepUp n) s = .next (whenLive s (modLink s n (fun (x : Link) => { x with st := 8, target := m, calmMs := 0 }))))
    ∧ (let m : LinkMode := { gen := genFloor s n, width := l.mode.width }
       l.st = 7 → l.ovr = false → polPsave s n = true → l.queue = [] → l.replay = [] → m.gen < l.mode.gen →
       (fecOf m.gen (commonFec s n)).isSome = true → inPolicy s n m = true →
        exec (.linkIdleStepdown n) s
          = .next (whenLive s (modLink s n (fun (x : Link) => { x with st := 8, target := m, stepped := true, calmMs := 0 }))))
    ∧ (∀ (us : Nat) (m : LinkMode), l.st = 7 → l.ovr = true → lowestMode s n = some m →
        ∃ u, exec (.linkOverrideReturn n us) s = .next u ∧ (lnk u n).st = 8 ∧ (lnk u n).target = m ∧ (lnk u n).outUs = us)
    ∧ (l.st = 8 → l.ovr = true → inPolicy s n l.target = true → ∃ u, exec (.retrainEnd n) s = .next u ∧ (lnk u n).mode = l.target
        ∧ (lnk u n).ovr = false ∧ (lnk u n).ovrTime = l.ovrTime + BitVec.ofNat 64 l.outUs)
    ∧ (∀ failed, l.st = 7 ∨ l.st = 8 → ∃ u, exec (.linkDown n failed) s = .next u ∧ (lnk u n).st = (if failed then 9 else 1)
        ∧ (herdOn s = false → (lnk u n).replay = [] ∧ (lnk u n).queue = []) ∧ (page u .wlink n).epoch = (page s .wlink n).epoch + 1
        ∧ (page u .wlink n).event.getLsbD 1 = true)
    ∧ (∀ r v, atPage s r .wsw 0 = true → isVf r = false →
        let busy := s.links.any (fun (x : Nat × Link) => x.2.st == 7 || x.2.st == 8)
        exec (.nodeCfgWrite r 0x100 v) s = .next (whenLive s (if busy then regError (opened s r .wsw 0 0x100) .wsw 0 0x100
          else lockChecked (setRegWord (opened s r .wsw 0 0x100) .wsw 0 0x100 (v % 2 ^ 32))))
        ∧ exec (.nodeCfgWrite r 0x128 v) s = .next (whenLive s (if busy then regError (opened s r .wsw 0 0x128) .wsw 0 0x128
          else lockChecked (setRegWord (opened s r .wsw 0 0x128) .wsw 0 0x128 (bits v 0 6)))))

/-- BAR2: what a read returns, what a write stores, and what neither touches. On a live node outside Lamb mode, with memory in
canonical form, no line held elsewhere, no access waiting and no cut running: a PF BAR2 read of reachable lines, while the node is OWNED or RELEASING, returns the
bytes in memory and the offsets of its poisoned lines, after the errors that it meets; in another state of ownership it is answered UR. A PF write while OWNED, and a VF
access within its window to pages it may use, likewise reach local or translated memory. Where no stored byte has gone
wrong, a written byte reads back unless its granule is sealed or its line is poisoned, and every byte outside the range written keeps its
value. A VF access that fails is recorded, a read
answered UR. -/
def Obligations.Bar2ReadsAndWrites : Prop :=
  ∀ s : State, live s = true → s.mgmt.lamb = false → heldNowhere s = true → s.hostIf.barWait = [] → s.hen.cuts = [] → s.mem.wf = true →
    (∀ a n errs, fnUp s 0 = true →
      (s.hostIf.own = 1 ∨ s.hostIf.own = 2 → pfReach s a n = true →
        let x := readNow (addErrs s errs) (fun (l : Nat) => rangesMeet (l * 64) 64 a n)
        ∃ u, exec (.pfBar2Read a n errs) s = .next u ∧ u.mem = x.mem ∧ u.poison = x.poison
        ∧ u.out = x.out ++ [.data (memBytes x a n) (((linesOf a n).filter (linePoison x)).map (fun (l : Nat) => l * 64 - a))])
      ∧ (s.hostIf.own ≠ 1 → s.hostIf.own ≠ 2 → exec (.pfBar2Read a n errs) s = .next (whenLive s (answerUr s))))
    ∧ (∀ a bs, s.memErrs = [] → fnUp s 0 = true → s.hostIf.own = 1 → pfReach s a bs.length = true → ∃ u, exec (.pfBar2Write a bs) s = .next u
        ∧ (∀ b, b < a ∨ a + bs.length ≤ b → memByte u b = memByte s b)
        ∧ (∀ i < bs.length, served s ((a + i) / 64 * 64) = true →
            (isSealed s (a + i) = true → memByte u (a + i) = memByte s (a + i))
            ∧ (isSealed s (a + i) = false → linePoison s ((a + i) / 64) = false → memByte u (a + i) = bs.getD i 0)))
    ∧ (∀ t a n errs, t < 512 → fnUp s (t + 1) = true → vfWindow s t a n = true →
        let x := fillTlb s t a n
        let y := readNow (addErrs x errs) (spansHave (addErrs x errs) t [some (a, n)])
        (usable x t a n false = true → ∃ u, exec (.vfBar2Read t a n errs) s = .next u ∧ u.mem = y.mem ∧ u.poison = y.poison
          ∧ u.out.getLast? = some (.data (tBytes y t a n) (epLines y (fun (l : Nat) => localOf y t (l * 64) / 64) a n)))
        ∧ (usable x t a n false = false → exec (.vfBar2Read t a n errs) s = .next (whenLive s (barFault (answerUr x) t a n false))))
    ∧ (∀ t a bs, t < 512 → fnUp s (t + 1) = true → vfWindow s t a bs.length = true →
        let x := fillTlb s t a bs.length
        (s.memErrs = [] → usable x t a bs.length true = true → ∃ u, exec (.vfBar2Write t a bs) s = .next u
          ∧ (∀ b, (∀ i < bs.length, localOf x t (a + i) ≠ b) → memByte u b = memByte s b))
        ∧ (usable x t a bs.length true = false → exec (.vfBar2Write t a bs) s = .next (whenLive s (barFault x t a bs.length true))))

/-- The PCIe link, functions, interrupt vectors, and tenant resets. On a live node: unmasking a vector that is pending sends it where the
function can send and keeps it otherwise; a PCIe reset takes the link down, disables the VFs and advances HOST.EPOCH; the link's training
brings it up with its event; VF Enable of 1 to 512 functions takes effect while OWNED; a function enters D3hot. TEN.CTRL2.reset, a VF's
FLR, and for every tenant the PF's FLR and the clearing of VF Enable begin a tenant reset: the tenant is resetting in a new generation and
no command of it is left; a second trigger changes nothing. A reset that no collective holds up ends. -/
def Obligations.FunctionsVectorsAndResets : Prop :=
  ∀ s : State, live s = true →
    (∀ fn v, fnUp s fn = true → hasVec fn v = true → bitAt (msixOf s fn).pend v = true →
      let m := { msixOf s fn with mask := setBits (msixOf s fn).mask v 1 0 }
      let s' := { s with hostIf := { s.hostIf with msix := tabSet s.hostIf.msix fn m } }
      (msixOpen s' fn v = true → ∃ u, exec (.msixUnmask fn v) s = .next u ∧ .msix fn v ∈ u.out ∧ u.mem = s.mem ∧ u.jobs = s.jobs))
    ∧ (∀ lost, ∃ u, exec (.pcieReset lost) s = .next u ∧ u.hostIf.gen = 0 ∧ u.hostIf.vfEnable = false ∧ u.hostIf.numVfs = 0
        ∧ u.hostIf.own = s.hostIf.own ∧ (page u .host 0).epoch = (page s .host 0).epoch + 1 ∧ u.mem = s.mem ∧ u.jobs = s.jobs)
    ∧ (∀ g w f, s.hostIf.gen = 0 → 1 ≤ g → g ≤ 6 → w ∈ [1, 2, 4, 8, 16] → exec (.pcieLinkUp g w f) s
        = .next (whenLive s (raiseEvent { s with hostIf := { s.hostIf with gen := g, width := w, flit := f } } .host 0 0)))
    ∧ (∀ n, s.hostIf.own = 1 → s.hostIf.vfEnable = false → s.hostIf.gen ≠ 0 → s.hostIf.crs = false → 1 ≤ n → n ≤ 512 →
        exec (.vfEnableSet n) s = .next (whenLive s { s with hostIf := { s.hostIf with vfEnable := true, numVfs := n } }))
    ∧ (∀ fn, fnUp s fn = true → ∃ u, exec (.d3hot fn true) s = .next u ∧ fn ∈ u.hostIf.d3 ∧ fnUp u fn = false ∧ u.mem = s.mem)
    ∧ (let resets := fun (i : Instr) (ts : Nat → Bool) => ∃ u, exec i s = .next u
         ∧ ∀ t, ts t = true → (ten s t).resetting = false →
             (ten u t).resetting = true ∧ (ten u t).done = false ∧ (ten u t).gen = ((ten s t).gen + 1) % 2 ^ 16 ∧ ∀ j ∈ u.jobs, j.tenant ≠ t
       (∀ r t, t < 512 → atPage s r .ten t = true → resets (.tenantReset r t) (fun (x : Nat) => x == t))
       ∧ (∀ r t, atPage s r .ten t = true → (ten s t).resetting = true →
           exec (.tenantReset r t) s = .next (whenLive s (opened s r .ten t 0x100)))
       ∧ (∀ t, t < 512 → s.hostIf.vfEnable = true → t < s.hostIf.numVfs → s.hostIf.gen ≠ 0 → resets (.vfFlr t) (fun (x : Nat) => x == t))
       ∧ (s.hostIf.gen ≠ 0 → s.hostIf.crs = false → resets .pfFlr (fun (x : Nat) => decide (x < 512)))
       ∧ (s.hostIf.vfEnable = true → s.hostIf.own = 1 → s.hostIf.gen ≠ 0 → resets .vfEnableClear (fun (x : Nat) => decide (x < 512))))
    ∧ (∀ t, (ten s t).resetting = true → collClear s t = true →
        ∃ u, exec (.tenantResetDone t) s = .next u ∧ (ten u t).resetting = false ∧ (ten u t).done = true)

/-- Claim, release, force, and the end of a release. On a live node: the first claim of an UNOWNED node, by the PF or over MCTP, makes its
sender the owner, raises own_change and answers SUCCESS; a claim of an owned node is refused, and so is a release by another than the
owner or a force by another than the board authority (NOT_OWNER, HOST.EVENT.not_owner). OWN_STATUS answers the ownership and changes
nothing else. A release makes the node RELEASING and resets every tenant. Once the chains are sealed and written or the time is over, it
is ZEROING with its shared sets gone; then memory, seals and every tenant's settings are cleared and the node is UNOWNED. -/
def Obligations.OwnershipChanges : Prop :=
  ∀ s : State, live s = true →
    (∀ r, atPage s r .host 0 = true → r = .pf →
      (s.hostIf.own = 0 → s.mgmt.lamb = false → exec (.ownCtrlClaim r) s = .next (whenLive s (claimFor (opened s r .host 0 0x108) true 0 false)))
      ∧ (s.hostIf.own ≠ 0 → ∃ u, exec (.ownCtrlClaim r) s = .next u ∧ u.hostIf.own = s.hostIf.own ∧ u.hostIf.eid = s.hostIf.eid
          ∧ (page u .host 0).event.getLsbD 6 = true ∧ (page u .host 0).errValid = true)
      ∧ (s.hostIf.own = 1 → s.mgmt.lamb = false → ∃ u, exec (.ownCtrlRelease r) s = .next u ∧ u.hostIf.own = 2
          ∧ ∀ t < 512, (ten s t).resetting = false → (ten u t).resetting = true)
      ∧ (2 ≤ s.hostIf.own → s.mgmt.lamb = false → exec (.ownCtrlRelease r) s = .next (whenLive s (opened s r .host 0 0x108))))
    ∧ (∀ src : McSender, mctpUp s src.smbus = true → s.mgmt.restarting = false →
      let s1 := perfAdd s .host 0 7 1
      (s.hostIf.own = 0 → s.mgmt.lamb = false → exec (.ownClaim src) s
          = .next (whenLive s (reply (claimFor s1 false src.eid src.smbus) src 0 [])))
      ∧ (s.hostIf.own ≠ 0 → exec (.ownClaim src) s = .next (whenLive s (refuseOwner s1 src)))
      ∧ exec (.ownStatus src) s = .next (whenLive s (reply s1 src 0 [s.hostIf.own, (if s.hostIf.viaPf then 1 else 0), s.hostIf.eid,
          (if s.hostIf.smbus then 1 else 0)]))
      ∧ (isOwner s src = false → exec (.ownRelease src) s = .next (whenLive s (refuseOwner s1 src)))
      ∧ (isOwner s src = true → s.hostIf.own = 1 → s.mgmt.lamb = false → ∃ u, exec (.ownRelease src) s = .next u ∧ u.hostIf.own = 2)
      ∧ (isAuthority s src = false → exec (.ownForce src) s = .next (whenLive s (refuseOwner s1 src)))
      ∧ (isAuthority s src = true → s.hostIf.own = 1 → s.mgmt.lamb = false → ∃ u, exec (.ownForce src) s = .next u ∧ u.hostIf.own = 2))
    ∧ (∀ timedOut, s.hostIf.own = 2 → s.hostIf.relSealed = true → s.mgmt.lamb = false → timedOut = true ∨ s.ledger.wr = s.ledger.rd →
        ∃ u, exec (.releaseLedgerWaitEnd timedOut) s = .next u ∧ u.hostIf.own = 3 ∧ u.hostIf.vfEnable = false
          ∧ (∀ d < 2, ∀ e ∈ (spad s d).sets, sharedSet u d e.1 = {}))
    ∧ (s.hostIf.own = 3 → s.mgmt.lamb = false → ∃ u, exec .releaseZeroingEnd s = .next u ∧ u.hostIf.own = 0
        ∧ (∀ a, memByte u a = 0) ∧ u.poison = [] ∧ u.sealedG = [] ∧ u.hostIf.zreq = []
        ∧ (∀ t, ten u t = { gen := (ten s t).gen, done := (ten s t).done })
        ∧ .notice 1 [0] ∈ u.out ∧ (page u .host 0).event.getLsbD 2 = true)

/-- MCTP control, PLDM and SPDM answer their sender. On a live node whose endpoint answers, outside a management restart: Set Endpoint ID
of a real ID sets the binding's; PLDM discovery lists the types, a sensor answers a value that nothing fixes, and an unknown sensor is
refused; a value set, or firmware updated, by one who may not is refused with NOT_OWNER; an image goes to the slot not in use and is
staged where it authenticates; SPDM answers version 1.2, capabilities, algorithms, the digests and chains of its slots, a signed challenge
and the measurements. None of these changes memory, jobs or ownership but for what a set value starts. The codes are the model's (log
entries 70 and 71). -/
def Obligations.ManagementMessages : Prop :=
  ∀ (s : State) (src : McSender), live s = true → mctpUp s src.smbus = true → s.mgmt.restarting = false →
    let s1 := perfAdd s .host 0 7 1
    let tells := fun (i : Instr) (code : Nat) (data : List Nat) => exec i s = .next (whenLive s (emit s1 (.mctp src code data)))
    (∀ eid, src.eid = 0 → 0 < eid → eid < 255 → ∃ u, exec (.setEndpointId src.smbus eid) s = .next u ∧ u.out = s.out ++ [.mctp src 0 [eid]]
        ∧ (if src.smbus then u.hostIf.eidSmbus else u.hostIf.eidPcie) = eid)
    ∧ tells (.pldmDiscovery src) 0 [0, 2, 5]
    ∧ (∀ k, k < 17 → ∃ u v, exec (.pldmSensorRead src k) s = .next u ∧ u.out = s.out ++ [.mctp src 0 [v]] ∧ u.mem = s.mem ∧ u.hostIf = s.hostIf)
    ∧ (∀ k, 17 ≤ k → tells (.pldmSensorRead src k) 0x80 [])
    ∧ (∀ reg v, maySet s src = false → exec (.pldmSetValue src reg v) s = .next (whenLive s (refuseOwner s1 src)))
    ∧ (∀ reg v, maySet s src = true → bitAt v 0 = false → tells (.pldmSetValue src reg v) 0 [])
    ∧ (∀ v, maySet s src = true → bitAt v 0 = true → bootRom s = false →
        exec (.pldmSetValue src 0x114 v) s = .next (whenLive s (startRestart (emit s1 (.mctp src 0 []))))
        ∧ exec (.pldmSetValue src 0x11C v) s = .next (whenLive s (enterLamb (emit s1 (.mctp src 0 [])) 5)))
    ∧ (∀ v, maySet s src = true → bitAt v 0 = true → exec (.pldmSetValue src 0x118 v) s = .next (whenLive s (startNodeReset (emit s1 (.mctp src 0 [])))))
    ∧ (∀ m, maySet s src = true → s.mgmt.fw.length = 2 → ∃ u, exec (.pldmFirmwareUpdate src m) s = .next u
        ∧ u.mgmt.staged = m.authentic ∧ u.mgmt.slotB = s.mgmt.slotB
        ∧ u.mgmt.fw[(if s.mgmt.slotB then 0 else 1)]? = some { good := m.authentic, version := m.version % 2 ^ 32, digest := m.digest }
        ∧ u.mgmt.fw[(if s.mgmt.slotB then 1 else 0)]? = s.mgmt.fw[(if s.mgmt.slotB then 1 else 0)]?
        ∧ (m.authentic = true → (page u .mgmt 0).event.getLsbD 4 = true))
    ∧ tells (.getVersion src) 0 [0x12] ∧ tells (.getCapabilities src) 0 [0x16] ∧ tells (.negotiateAlgorithms src) 0 [384, 384]
    ∧ tells (.getDigests src) 0 (natsOf (sha384 (certChain s 0) ++ sha384 (certChain s 1)))
    ∧ (∀ k, k ≤ 1 → tells (.getCertificate src k) 0 (natsOf (certChain s k)))
    ∧ (∀ k nonce, k ≤ 1 → let body := sha384 (certChain s k) ++ beBytes 32 nonce
        let sig := ecdsaSign (slotKey k) body
        tells (.challenge src k nonce) 0 (natsOf (body ++ beBytes 48 sig.1 ++ beBytes 48 sig.2)))
    ∧ (∀ k, 1 ≤ k → k ≤ 4 → tells (.getMeasurements src k) 0 (natsOf (measurement s1 k)))

/-- Limits, policies, the 10 µs boundary, clock changes, and protection. On a live node, for a requester that reaches the PWR page: LIMIT
takes 600 W up to the grade's maximum, GRP_POL floors that fit the limit less 140 W, CLK_POL ordered multiples of 50 MHz; another value is
refused. A boundary puts the floors and ceilings written in force where protection holds no grant, gives each group the grant of R654 as
cut by protection, adds its energy to the balance (a debt is carried, a rest is
not) and begins the demand again. A clock change takes effect at its switch edge. A current limit and BRAKE_N open their episode and lower
every domain, 105 °C opens the episode of its die, and a trip stops the node. An episode that ends is counted, and the owner is told its
cause and time. -/
def Obligations.PowerPolicyAndProtection : Prop :=
  ∀ s : State, live s = true →
    (∀ r v, atPage s r .pwr 0 = true → isVf r = false →
      (let w := bits v 0 11
       exec (.limitWrite r v) s = .next (whenLive s (if 600 ≤ w ∧ w ≤ limMax s then setRegWord (opened s r .pwr 0 0x100) .pwr 0 0x100 w
         else policyRefused (opened s r .pwr 0 0x100) 0x100)))
      ∧ (let o := opened s r .pwr 0 0x114
         let g := grpIdx s
         let others := sumOf ((pwrGroups.filter (fun (x : Nat) => x != g)).map (fun (k : Nat) => (pwrGrp s k).floor))
         exec (.grpPolWrite r v) s = .next (whenLive s (if pwrLimit s < others + bits v 0 9 + 140 then policyRefused o 0x114
           else modGrp o g (fun (x : PwrGrp) => { x with floor := bits v 0 9, ceil := some (bits v 16 9) }))))
      ∧ (let o := opened s r .pwr 0 0x12C
         exec (.clkPolWrite r v) s = .next (whenLive s (
           if bits v 0 12 ≤ bits v 16 12 ∧ bits v 0 12 % 50 = 0 ∧ bits v 16 12 % 50 = 0
           then modDom o (clkIdx s) (fun (x : PwrDom) => { x with floor := some (bits v 0 12), ceil := some (bits v 16 12), pin := bitAt v 28 })
           else policyRefused o 0x12C))))
    ∧ (∀ m : PowerMeas, ∃ u, exec (.grantBoundary m) s = .next u
        ∧ (let x := latchGroups s
           let l := effLimit x m
           let full := grantsFor x l m.leakage (fun (g : Nat) => m.draw.getD g 0)
           u.pwr.limEff = l ∧ ∀ g < 11, (pwrGrp u g).grant = lambGrant s g (cutGrant x l g (full.getD g 0))
             ∧ (pwrGrp u g).bal = min (pwrGrp s g).bal 0 + ((pwrGrp u g).grant * 10000 : Nat) ∧ (pwrGrp u g).demand = 0
             ∧ (pwrGrp u g).floor = (pwrGrp s g).floor ∧ (pwrGrp u g).ceil = (pwrGrp s g).ceil
             ∧ (grpHeld s g = false → (pwrGrp u g).floorIn = (pwrGrp s g).floor ∧ (pwrGrp u g).ceilIn = (pwrGrp s g).ceil))
        ∧ u.mem = s.mem ∧ u.jobs = s.jobs)
    ∧ (∀ d f, (pwrDom s d).next = some f → ∃ u, exec (.clockSwitch d) s = .next u ∧ domMhz u d = f ∧ (pwrDom u d).next = none
        ∧ ∀ e, e ≠ d → pwrDom u e = pwrDom s e)
    ∧ (let falls := fun (u : State) (goal : Nat → Nat) => s.pwr.enabled = true → s.mgmt.lamb = false →
         ∀ d < 3, domDecided u d = min (domDecided s d) (max (goal d) (domMin d))
       (∀ rail, rail < 4 → ∃ u, exec (.currentLimit rail) s = .next u ∧ epOpen u 1 = true ∧ (page u .pwr 0).event.getLsbD 4 = true
         ∧ ((1, rail) ∉ s.pwr.eps → falls u (fun (d : Nat) => domDecided s d - 200)))
       ∧ (∃ u, exec .brakeAssert s = .next u ∧ epOpen u 3 = true ∧ (page u .pwr 0).event.getLsbD 1 = true
         ∧ falls u (fun (d : Nat) => domDecided s d / 2 / 50 * 50)))
    ∧ (∀ die temp, die < 4 → 105 ≤ temp → ∃ u, exec (.thermWarn die temp) s = .next u ∧ (2, die) ∈ u.pwr.eps
        ∧ (page u .pwr 0).event.getLsbD 2 = true ∧ u.pwr.doms = s.pwr.doms)
    ∧ (∀ die, die < 4 → ∃ u, exec (.thermalTrip die) s = .next u ∧ live u = false ∧ u = { s with mgmt := { s.mgmt with tripped := true } })
    ∧ (∀ cause us, 1 ≤ cause → cause ≤ 4 → epOpen s cause = true → (cause = 4 → refreshHeld s = false) →
        ∃ u, exec (.overrideEpisodeEnd cause us) s = .next u ∧ epOpen u cause = false ∧ .notice 2 [cause, us] ∈ u.out
          ∧ tabGet 0 u.pwr.ovrTime cause = tabGet 0 s.pwr.ovrTime cause + BitVec.ofNat 64 us)

/-- Hen: copy area and triggers, copying and completing a cut, draining to the buddy. A requester that reaches the HEN page sets a
tenant's copy area where its slots fit COPY_SIZE and overlap no other tenant's, and its triggers, a non-zero period restarting its timer.
With the engine working: CHUNK_COPY copies the lowest chunk left of the tenant's cut, and
a line that its read finds past correction withdraws its page (R385); CUT_COMPLETE, when no chunk is left, completes the
slot, which becomes the tenant's newest; BUDDY_DRAIN_CHUNK sends the next part of the drain under way or of the first cut that the buddy
has not acknowledged; BUDDY_ACK of the drained cut marks it acknowledged, or fails the drain where the buddy refused; a chunk asked for
again is sent once more; DRAIN_RESTART starts a failed drain again from the manifest. -/
def Obligations.CheckpointCommands : Prop :=
  (∀ (s : State) (r : Requester) (v : Nat), atPage s r .hen 0 = true →
    (bits v 0 24 + 2 * bits v 24 24 ≤ bits (regWord s .hen 0 0x110 0) 0 24 →
      s.hen.tens.any (fun e => e.1 != henSel s && rangesMeet (bits v 0 24) (2 * bits v 24 24) e.2.copyOff (2 * e.2.copySize)) = false →
      exec (.tenCopyWrite r v) s = .next (whenLive s (modHenTen (opened s r .hen 0 0x138) (henSel s)
        (fun h => { h with copyOff := bits v 0 24, copySize := bits v 24 24 }))))
    ∧ (bits v 16 16 = 0 → exec (.tenTrigWrite r v) s = .next (whenLive s (modHenTen (opened s r .hen 0 0x140) (henSel s)
        (fun h => { h with steps := bits v 0 16, secs := 0 }))))
    ∧ (bits v 16 16 ≠ 0 → exec (.tenTrigWrite r v) s = .next (whenLive s (modHenTen (opened s r .hen 0 0x140) (henSel s)
        (fun h => { h with steps := bits v 0 16, secs := bits v 16 16, base := s.mgmt.ticks })))))
  ∧ (∀ s : State, live s = true → henOn s = true →
    (∀ (t i : Nat) (c : Cutting) (l : List Nat), cutOf s t = some c → c.left = i :: l →
      exec (.chunkCopy t) s = .next (whenLive s (withdrawNew s (pageRead s (c.pages.getD i 0)) (copyChunk s c i))))
    ∧ (∀ (t : Nat) (c : Cutting), cutOf s t = some c → c.left = [] → ∃ u, exec (.cutComplete t) s = .next u
        ∧ (slotOf u t c.slot).complete = true ∧ (slotOf u t c.slot).cut = c.cut ∧ (slotOf u t c.slot).step = c.step
        ∧ (slotOf u t c.slot).digest = beNat (sha256 (manifestOf s c)) ∧ (henTen u t).newest = some c.slot ∧ cutOf u t = none)
    ∧ (∀ d : Drain, buddyEn s = true → s.hen.drain.or (drainNext s) = some d → d.failed = false → d.next ≤ slotChunks s d.tenant d.slot →
        exec .buddyDrainChunk s
          = .next (whenLive s (modHen (sendDrainPart s d d.next) (fun h => { h with drain := some { d with next := d.next + 1 } }))))
    ∧ (∀ (m : HenMsg) (d : Drain), drainFor s m = some d →
        (m.refused = false → exec (.buddyAck m) s = .next (whenLive s
          (raiseEvent (modHen (modSlot s d.tenant d.slot (fun x => { x with buddy := true })) (fun h => { h with drain := none })) .hen 0 3)))
        ∧ (m.refused = true → exec (.buddyAck m) s = .next (whenLive s (drainFails s)))
        ∧ (d.again.contains m.chunk = false → exec (.chunkRequestedAgain m) s = .next (whenLive s
            (modHen (sendDrainPart s d m.chunk) (fun h => { h with drain := some { d with again := d.again ++ [m.chunk] } })))))
    ∧ (∀ d : Drain, s.hen.drain = some d → d.failed = true →
        exec .drainRestart s
          = .next (whenLive s (modHen s (fun h => { h with drain := some { d with next := 0, again := [], failed := false } })))))

/-- Hen: holding for another node, and a restore from its start to its application. With the engine working: a part of a drain from the
node that this one holds for is received, its manifest choosing a place; a buddy that holds the complete cut asked for sends its manifest
and every chunk, and refuses otherwise. REST_GO starts a restore where the target tenant allows it, from the host as FILLING or at once to
CHECKING, and is ignored with ERR_STATUS where it does not. A chunk from the buddy that passes its check is written to the slot.
REST_CHECK checks the slot; REST_HOST_DONE checks again what the host has supplied; REST_ABORT and, while the host is waited for,
REST_TIMEOUT abort a running restore with cause 2 and raise HEN.EVENT bit 7. REST_APPLY of a checked cut gives the tenant the manifest's
step plus 1 as its current step and ends the restore well. -/
def Obligations.HeldCutsAndRestores : Prop :=
  (∀ s : State, live s = true → henOn s = true →
    (∀ m : HenMsg, bitAt (regWord s .hen 0 0x118 0) 20 = true → bits (regWord s .hen 0 0x118 0) 0 20 = m.node → m.origin = m.node →
      (m.chunk = 0 → exec (.buddyChunkReceive m) s = .next (whenLive s (holdManifest (perfAdd s .hen 0 5 m.data.length) m)))
      ∧ (m.chunk ≠ 0 → exec (.buddyChunkReceive m) s = .next (whenLive s (holdChunk (perfAdd s .hen 0 5 m.data.length) m))))
    ∧ (∀ m : HenMsg, bitAt (regWord s .hen 0 0x118 0) 20 = true → bits (regWord s .hen 0 0x118 0) 0 20 = m.origin →
        bitAt (regWord s .hen 0 0x11C 0) 20 = true → bits (regWord s .hen 0 0x11C 0) 0 20 = m.node →
        (∀ d, heldAt s true m.origin m.tenant m.cut = some d → exec (.rebuildRequest m) s
          = .next (whenLive s ((List.range (d.chunks + 1)).foldl (sendHeldPart m d) s)))
        ∧ (heldAt s true m.origin m.tenant m.cut = none → exec (.rebuildRequest m) s = .next (whenLive s (answerHen s .restore m 0 true))))
    ∧ (s.hen.rest.st = 2 → exec .restCheck s = .next (whenLive s (restChecked s (!s.hen.rest.listed.isEmpty))))
    ∧ (∀ (m : HenMsg) (f : Manifest), s.hen.rest.st = 1 → s.hen.rest.source = 1 → m.node = bits (restSrc s) 0 20 → m.epoch = henEpoch s →
        m.cut = restCut s → m.origin = bits (restSrc s) 20 20 → m.tenant = bits (restSrc s) 40 12 →
        (m.refused = true → exec (.rebuildChunkReceive m) s = .next (whenLive s (modRest s (fun r => { r with st := 2 }))))
        ∧ (m.refused = false → (slotOf s s.hen.rest.tenant s.hen.rest.slot).hostLock = false → m.chunk = 0 → parseManifest m.data = some f →
            sha256 f.bytes = restDigest s → (manifestPages f.entries f.chunks + f.chunks) * 4096 ≤ slotBytes s s.hen.rest.tenant →
            exec (.rebuildChunkReceive m) s
              = .next (whenLive s (modRest (henWrite s (restBase s) f.bytes) (fun r => { r with manifest := true })))))
    ∧ (∀ m : Manifest, s.hen.rest.st = 4 → allDisabled s s.hen.rest.tenant = true → (ten s s.hen.rest.tenant).resetting = false →
        restManifest s = some m →
        ((manifestEntries m).all (fun e => entryMapped s s.hen.rest.tenant e true) = false →
          exec .restApply s = .next (whenLive s (restAborts s 3)))
        ∧ (∀ u, (manifestEntries m).all (fun e => entryMapped s s.hen.rest.tenant e true) = true →
          applyEntries s.hen.rest.tenant m (manifestEntries m) s = some u →
          ∃ v, exec .restApply s = .next v ∧ v.hen.rest.st = 5
            ∧ (ten v s.hen.rest.tenant).step = BitVec.ofNat 64 (leNat ((m.bytes.drop 16).take 8) + 1))))
  ∧ (∀ s : State, live s = true → s.hen.rest.st = 3 → exec .restTimeout s = .next (whenLive s (restAborts s 2)))
  ∧ (∀ (s : State) (r : Requester) (v : Nat), atPage s r .hen 0 = true →
    exec (.restAbort r) s = .next (whenLive s (restAborts (opened s r .hen 0 0x188) 2))
    ∧ (henOn s = true → s.hen.rest.st = 1 → s.hen.rest.source = 2 →
        exec (.restHostDone r) s = .next (whenLive s (modRest (opened s r .hen 0 0x188) (fun x => { x with st := 2 }))))
    ∧ (henOn s = true → s.hen.rest.st = 3 → exec (.restHostDone r) s = .next (whenLive s (restChecked (opened s r .hen 0 0x188) true)))
    ∧ (henOn s = true → resting s = false → bits v 0 12 < 512 → bits v 12 2 ≠ 3 → allDisabled s (bits v 0 12) = true →
        (ten s (bits v 0 12)).resetting = false → cutOf s (bits v 0 12) = none →
        ∃ u, exec (.restGo r v) s = .next u ∧ u.hen.rest.tenant = bits v 0 12 ∧ u.hen.rest.source = bits v 12 2
          ∧ u.hen.rest.st = (if bits v 12 2 = 0 then 2 else 1))
    ∧ (resting s = true → exec (.restGo r v) s = .next (whenLive s (regError (opened s r .hen 0 0x188) .hen 0 0x188))))
  ∧ (∀ (s : State) (cause : Nat), (resting s = true → restAborts s cause
        = raiseEvent (modRest s (fun r => { r with st := 6, cause := cause })) .hen 0 7) ∧ (resting s = false → restAborts s cause = s))

/-- CTRL.quiesce and reset, the AVAIL actions, and two timeouts. On a live node, for a requester that may write CTRL of a block's page: a
quiesce of a READY block ends OFF (a Goose core may still quiesce), one of a block that is OFF, FENCED, in LAMB or FAULT sets ERR_STATUS;
a reset leaves the STATE of its rule, or a scratchpad QUIESCING while it waits for images (R397), advances EPOCH once and keeps every RW
word of the page. An AVAIL action on a block in the state
expected acts; in another state the block becomes FENCED. A Goose core that has not quiesced in time ends at once. A command whose
die-to-die request times out has its result, and a host read returns ones. -/
def Obligations.BlocksQuiesceResetAndAvailability : Prop :=
  ∀ s : State, live s = true →
    (∀ r b i, atPage s r b i = true → isVf r = false → noQuiesce b = false → availOn s b i = false →
      let st := blkState s b i
      (st = 1 → b ≠ .goose → ∃ u, exec (.blockQuiesce r b i) s = .next u ∧ blkState u b i = 0)
      ∧ (st = 1 → b = .goose → ∃ u, exec (.blockQuiesce r b i) s = .next u ∧ (blkState u b i = 0 ∨ blkState u b i = 3))
      ∧ (st = 3 → exec (.blockQuiesce r b i) s = .next (whenLive s (opened s r b i 0x10)))
      ∧ (st = 0 ∨ st = 4 ∨ st = 5 ∨ st = 6 → exec (.blockQuiesce r b i) s = .next (whenLive s (regError (opened s r b i 0x10) b i 0x10)))
      ∧ (st ≠ 3 → st ≠ 5 → b ≠ .goose → ∃ u, exec (.blockReset r b i) s = .next u
          ∧ (blkState u b i = resetTo b st ∨ b = .spad ∧ blkState u b i = 3 ∧ (spad u i).wd.any (·.img) = true)
          ∧ (page u b i).epoch = (page s b i).epoch + 1 ∧ (page u b i).staged = [] ∧ (page u b i).regs = (page s b i).regs)
      ∧ (st ≠ 3 → st ≠ 5 → b = .goose → ∃ u, exec (.blockReset r b i) s = .next u ∧ (blkState u b i = 3 ∨ blkState u b i = resetTo b st)))
    ∧ (∀ b i e, s.mgmt.lamb = false → s.mgmt.restarting = false → availBusy s = false → e < 7 → availBlock s = some (b, i) → noQuiesce b = false →
      let go := fun (c : Instr) (k : Nat) (f : State → Block → Nat → State) =>
        let x := setRegWord s .mgmt 0 0x138 (k + e * 16)
        (liveState s b i = e → exec c s = .next (whenLive s (f (perfAdd { x with mgmt := { x.mgmt with mismatch := false, mmBusy := b == .goose || b == .spad } }
          .mgmt 0 5 1) b i)))
        ∧ (liveState s b i ≠ e → ∃ u, exec c s = .next u ∧ u.mgmt.mismatch = true ∧ (page u .mgmt 0).event.getLsbD 1 = true
            ∧ (blkState s b i ≠ 3 → blkState s b i ≠ 6 → blkState u b i = 4 ∧ pageKey b i ∈ u.mgmt.fenced))
      go (.availMakeReady e) 1 makeReady ∧ go (.availQuiesceOff e) 2 makeOff ∧ go (.availLeaveFenced e) 4 leaveFenced
      ∧ (∀ bad, go (.availResetCheck e bad) 3 (fun (x : State) (c : Block) (k : Nat) => resetCheck x c k bad)))
    ∧ (∀ i f, gooseFollow s i = some f → exec (.quiesceTimeout .goose i) s = .next (whenLive s (gooseEnd (perfAdd s .mgmt 0 7 1) i f)))
    ∧ (∀ b i, i < blkCount b → s.mgmt.lamb = false →
        ((b = .host ∨ b = .mgmt) → ∀ v k, ∃ u, exec (.d2dTimeout b i v k) s = .next u ∧ u.out.getLast? = some (.regData 0xFFFFFFFF))
        ∧ (b ≠ .host → b ≠ .mgmt → ∀ (v : EUnit) (k : Nat) (j : Job), v ≠ .mule → (s.jobs.filter (fun (x : Job) => decide (x.unit = v)))[k]? = some j →
            ∃ u, exec (.d2dTimeout b i v k) s = .next u ∧ finished u j ∧ (page u b i).errValid = true))

/-- Power-on, the start-up phases, node and firmware resets, ticks, and Lamb mode. POWER_ON_RESET blanks the node and asserts reset; its
release begins phase 1 and tells a trip. On a live node, phases end in order; phase 2 picks the slot that authenticates, phase 3 needs the
board configuration, phase 6 leaves each checked block READY or in FAULT, phase 8 lets the host in; with no good slot Lamb mode of cause 4
follows. A control-state fault, the owner's request, 110 °C or a rail enter Lamb mode: no job is left, every link is DISABLED and the
stopped blocks read LAMB. A node reset runs from phase 2 with memory zeroed. The firmware restarts from a good slot, ends its restart with
its event, and its tick counts and advances the time. -/
def Obligations.StartupResetsAndLambMode : Prop :=
  (∀ s : State, exec .powerOnReset s = .next (powerOn s) ∧ (powerOn s).mgmt.por = true ∧ (powerOn s).mem = {} ∧ (powerOn s).jobs = []
      ∧ (powerOn s).part = s.part ∧ (powerOn s).pending = s.pending ∧ (powerOn s).tap = .idcode
      ∧ (s.mgmt.por = true → ∃ u, exec .porRelease s = .next u ∧ u.mgmt.por = false ∧ u.mgmt.tripped = false ∧ u.mgmt.phase = 1
          ∧ u.mgmt.rstKind = if s.mgmt.tripped then 1 else 0)
      ∧ (s.mgmt.por = false → exec (.railFault 11) s = .next (powerOn s)
          ∧ exec (.railFault 10) s = .next (powerOn { s with mgmt := { s.mgmt with tripped := false } })))
  ∧ (∀ s : State, live s = true →
    let lambs := fun (i : Instr) (c : Nat) => s.mgmt.lamb = false → ∃ u, exec i s = .next u ∧ u.mgmt.lamb = true ∧ u.mgmt.lambCause = c
      ∧ u.jobs = [] ∧ (∀ n, (lnk u n).st = 0) ∧ (∀ d < 3, (pwrDom u d).mhz = some 0)
      ∧ (s.mgmt.restarting = false → ∀ b i, lambKeeps b = false → i < blkCount b → blkState s b i ≠ 0 → blkState s b i ≠ 6 → blkState u b i = 5)
    (∀ b i, i < blkCount b → lambs (.controlFault b i) 1)
    ∧ (∀ r, atPage s r .mgmt 0 = true → asOwner s r = true → lambs (.lambCtrlEnter r) 5)
    ∧ (∀ die temp, die < 4 → 110 ≤ temp → lambs (.thermalHoldExpire die temp) 2)
    ∧ (∀ rail, rail < 10 → lambs (.railFault rail) 3)
    ∧ (∀ rs, s.mgmt.startDone = false → s.mgmt.lamb = false →
        (s.mgmt.phase = 1 → exec (.startupPhaseEnd rs) s = .next (whenLive s (toPhase s 2)))
        ∧ (s.mgmt.phase = 2 → s.mgmt.staged = false →
            (fwGood s false = true → ∃ u, exec (.startupPhaseEnd rs) s = .next u ∧ u.mgmt.phase = 3 ∧ u.mgmt.slotB = false)
            ∧ (fwGood s false = false → fwGood s true = true → ∃ u, exec (.startupPhaseEnd rs) s = .next u ∧ u.mgmt.phase = 3 ∧ u.mgmt.slotB = true)
            ∧ (fwGood s false = false → fwGood s true = false → lambs (.startupPhaseEnd rs) 4))
        ∧ (s.mgmt.phase = 3 → (s.mgmt.board.good = true → exec (.startupPhaseEnd rs) s = .next (whenLive s (toPhase s 4)))
            ∧ (s.mgmt.board.good = false → lambs (.startupPhaseEnd rs) 4))
        ∧ (s.mgmt.phase = 6 → ∃ u, exec (.startupPhaseEnd rs) s = .next u ∧ u.mgmt.phase = 7
            ∧ ∀ b ∈ checkedBlocks, ∀ i < blkCount b, blkState u b i = if failed rs b i then 6 else 1)
        ∧ (s.mgmt.phase = 7 → ∃ u, exec (.startupPhaseEnd rs) s = .next u ∧ u.mgmt.phase = 8 ∧ u.pwr.enabled = true ∧ blkState u .wsw 0 = 1)
        ∧ (s.mgmt.phase = 8 → ∃ u, exec (.startupPhaseEnd rs) s = .next u ∧ u.mgmt.startDone = true ∧ u.hostIf.crs = false ∧ blkState u .host 0 = 1))
    ∧ (∀ r, atPage s r .mgmt 0 = true → asOwner s r = true →
        (s.mgmt.lambOwed = false → ∃ u, exec (.nodeReset r) s = .next u ∧ u.mgmt.phase = 2 ∧ u.mgmt.startDone = false ∧ u.mem = {} ∧ u.poison = []
          ∧ u.jobs = [] ∧ u.mgmt.log = s.mgmt.log ∧ u.mgmt.rstKind = (if s.mgmt.lamb then 3 else 2) ∧ u.mgmt.fw = s.mgmt.fw ∧ u.hostIf.own = 0)
        ∧ (s.mgmt.restarting = false → bootRom s = false → s.mgmt.staged = false → fwGood s s.mgmt.slotB = true → ∃ u, exec (.mgmtRestart r) s = .next u
          ∧ u.mgmt.restarting = true ∧ u.mgmt.slotB = s.mgmt.slotB ∧ u.mem = s.mem ∧ u.jobs = s.jobs ∧ u.tenants = s.tenants)
        ∧ (s.mgmt.restarting = false → bootRom s = false → s.mgmt.staged = true → fwGood s (!s.mgmt.slotB) = true → ∃ u,
          exec (.mgmtRestart r) s = .next u ∧ u.mgmt.restarting = true ∧ u.mgmt.slotB = !s.mgmt.slotB ∧ u.mgmt.staged = false)
        ∧ (s.mgmt.restarting = true → exec (.mgmtRestart r) s = .next (whenLive s (regError (opened s r .mgmt 0 0x114) .mgmt 0 0x114))))
    ∧ (s.mgmt.restarting = true → s.mgmt.lambOwed = false → s.mgmt.nodeRstOwed = false → ∃ u, exec .mgmtRestartEnd s = .next u
        ∧ u.mgmt.restarting = false ∧ u.mgmt.owed = [] ∧ (page u .mgmt 0).event.getLsbD 6 = true)
    ∧ (bootRom s = false → 3 ≤ s.mgmt.phase → fwGood s (!s.mgmt.slotB) = true → fwGood s s.mgmt.slotB = true → s.mgmt.staged = false →
        ∃ u, exec .watchdogExpire s = .next u ∧ u.mgmt.restarting = true ∧ u.mgmt.slotB = (if s.mgmt.restartTicked then s.mgmt.slotB else !s.mgmt.slotB)
          ∧ (s.mgmt.restartTicked = false → (page u .mgmt 0).event.getLsbD 5 = true))
    ∧ (s.mgmt.restarting = false → s.mgmt.startDone = true → s.mgmt.lamb = false → ∃ u, exec .mgmtTick s = .next u
        ∧ u.mgmt.ticks = s.mgmt.ticks + 1 ∧ u.mgmt.systime = (if s.mgmt.systimeSet then s.mgmt.systime + 1000 else s.mgmt.systime)))

/-- The instructions of the test access port, and its reset. While POR_N is high, IDCODE puts out 0x05C1_056F on stepping A0 and
0x15C1_056F on B0, and BYPASS captures 0. SAMPLE/PRELOAD, EXTEST, EXTEST_PULSE and EXTEST_TRAIN are taken while the node is UNOWNED and
act as BYPASS in any other state. TRST_N resets the port to IDCODE, and so does POR_N. No instruction of the port changes anything else of
the node. -/
def Obligations.TestAccessPort : Prop :=
  ∀ s : State,
    exec .tapReset s = .next { s with tap := .idcode } ∧ (powerOn s).tap = .idcode
    ∧ (s.mgmt.por = false →
      (s.part.stepping = 0xA0 → exec .idcode s = .next { s with tap := .idcode, out := s.out ++ [.tdo 0x05C1056F] })
      ∧ (s.part.stepping = 0xB0 → exec .idcode s = .next { s with tap := .idcode, out := s.out ++ [.tdo 0x15C1056F] })
      ∧ exec .bypassTap s = .next { s with tap := .bypass, out := s.out ++ [.tdo 0] }
      ∧ (let takes := fun (i : Instr) (t : TapInstr) => exec i s = .next (if s.hostIf.own = 0 then { s with tap := t }
           else { s with tap := .bypass, out := s.out ++ [.tdo 0] })
         takes .samplePreload .sample ∧ takes .extestTap .extest ∧ takes .extestPulse .pulse ∧ takes .extestTrain .train))
end

