-- ==== Sys2Proof/Laws/State.lean ====
section
/-! SUPPORT. What each named update of the state leaves as it is, field by field. -/

namespace Sys2Proof.Machine

variable (s : State)

/-! A page changed. -/

@[simp] theorem modPage_part (b : Block) (i : Nat) (f : Page → Page) : (modPage s b i f).part = s.part := rfl
@[simp] theorem modPage_mem (b : Block) (i : Nat) (f : Page → Page) : (modPage s b i f).mem = s.mem := rfl
@[simp] theorem modPage_poison (b : Block) (i : Nat) (f : Page → Page) : (modPage s b i f).poison = s.poison := rfl
@[simp] theorem modPage_dark (b : Block) (i : Nat) (f : Page → Page) : (modPage s b i f).dark = s.dark := rfl
@[simp] theorem modPage_darkPoison (b : Block) (i : Nat) (f : Page → Page) : (modPage s b i f).darkPoison = s.darkPoison := rfl
@[simp] theorem modPage_darkErrs (b : Block) (i : Nat) (f : Page → Page) : (modPage s b i f).darkErrs = s.darkErrs := rfl
@[simp] theorem modPage_memErrs (b : Block) (i : Nat) (f : Page → Page) : (modPage s b i f).memErrs = s.memErrs := rfl
@[simp] theorem modPage_sealedG (b : Block) (i : Nat) (f : Page → Page) : (modPage s b i f).sealedG = s.sealedG := rfl
@[simp] theorem modPage_seals (b : Block) (i : Nat) (f : Page → Page) : (modPage s b i f).seals = s.seals := rfl
@[simp] theorem modPage_spads (b : Block) (i : Nat) (f : Page → Page) : (modPage s b i f).spads = s.spads := rfl
@[simp] theorem modPage_ports (b : Block) (i : Nat) (f : Page → Page) : (modPage s b i f).ports = s.ports := rfl
@[simp] theorem modPage_tenants (b : Block) (i : Nat) (f : Page → Page) : (modPage s b i f).tenants = s.tenants := rfl
@[simp] theorem modPage_jobs (b : Block) (i : Nat) (f : Page → Page) : (modPage s b i f).jobs = s.jobs := rfl
@[simp] theorem modPage_hostIf (b : Block) (i : Nat) (f : Page → Page) : (modPage s b i f).hostIf = s.hostIf := rfl
@[simp] theorem modPage_hen (b : Block) (i : Nat) (f : Page → Page) : (modPage s b i f).hen = s.hen := rfl
@[simp] theorem modPage_ledger (b : Block) (i : Nat) (f : Page → Page) : (modPage s b i f).ledger = s.ledger := rfl
@[simp] theorem modPage_drakes (b : Block) (i : Nat) (f : Page → Page) : (modPage s b i f).drakes = s.drakes := rfl
@[simp] theorem modPage_oxs (b : Block) (i : Nat) (f : Page → Page) : (modPage s b i f).oxs = s.oxs := rfl
@[simp] theorem modPage_ponys (b : Block) (i : Nat) (f : Page → Page) : (modPage s b i f).ponys = s.ponys := rfl
@[simp] theorem modPage_mule (b : Block) (i : Nat) (f : Page → Page) : (modPage s b i f).mule = s.mule := rfl
@[simp] theorem modPage_solvs (b : Block) (i : Nat) (f : Page → Page) : (modPage s b i f).solvs = s.solvs := rfl
@[simp] theorem modPage_links (b : Block) (i : Nat) (f : Page → Page) : (modPage s b i f).links = s.links := rfl
@[simp] theorem modPage_sw (b : Block) (i : Nat) (f : Page → Page) : (modPage s b i f).sw = s.sw := rfl
@[simp] theorem modPage_coll (b : Block) (i : Nat) (f : Page → Page) : (modPage s b i f).coll = s.coll := rfl
@[simp] theorem modPage_xag (b : Block) (i : Nat) (f : Page → Page) : (modPage s b i f).xag = s.xag := rfl
@[simp] theorem modPage_mgmt (b : Block) (i : Nat) (f : Page → Page) : (modPage s b i f).mgmt = s.mgmt := rfl
@[simp] theorem modPage_pwr (b : Block) (i : Nat) (f : Page → Page) : (modPage s b i f).pwr = s.pwr := rfl
@[simp] theorem modPage_arbs (b : Block) (i : Nat) (f : Page → Page) : (modPage s b i f).arbs = s.arbs := rfl
@[simp] theorem modPage_tap (b : Block) (i : Nat) (f : Page → Page) : (modPage s b i f).tap = s.tap := rfl
@[simp] theorem modPage_gclk (b : Block) (i : Nat) (f : Page → Page) : (modPage s b i f).gclk = s.gclk := rfl
@[simp] theorem modPage_out (b : Block) (i : Nat) (f : Page → Page) : (modPage s b i f).out = s.out := rfl
@[simp] theorem modPage_freeCount (b : Block) (i : Nat) (f : Page → Page) : (modPage s b i f).freeCount = s.freeCount := rfl
@[simp] theorem modPage_pending (b : Block) (i : Nat) (f : Page → Page) : (modPage s b i f).pending = s.pending := rfl

/-! A counter of a page raised. -/

@[simp] theorem perfAdd_part (b : Block) (i k n : Nat) : (perfAdd s b i k n).part = s.part := rfl
@[simp] theorem perfAdd_mem (b : Block) (i k n : Nat) : (perfAdd s b i k n).mem = s.mem := rfl
@[simp] theorem perfAdd_poison (b : Block) (i k n : Nat) : (perfAdd s b i k n).poison = s.poison := rfl
@[simp] theorem perfAdd_dark (b : Block) (i k n : Nat) : (perfAdd s b i k n).dark = s.dark := rfl
@[simp] theorem perfAdd_darkPoison (b : Block) (i k n : Nat) : (perfAdd s b i k n).darkPoison = s.darkPoison := rfl
@[simp] theorem perfAdd_darkErrs (b : Block) (i k n : Nat) : (perfAdd s b i k n).darkErrs = s.darkErrs := rfl
@[simp] theorem perfAdd_memErrs (b : Block) (i k n : Nat) : (perfAdd s b i k n).memErrs = s.memErrs := rfl
@[simp] theorem perfAdd_sealedG (b : Block) (i k n : Nat) : (perfAdd s b i k n).sealedG = s.sealedG := rfl
@[simp] theorem perfAdd_seals (b : Block) (i k n : Nat) : (perfAdd s b i k n).seals = s.seals := rfl
@[simp] theorem perfAdd_spads (b : Block) (i k n : Nat) : (perfAdd s b i k n).spads = s.spads := rfl
@[simp] theorem perfAdd_ports (b : Block) (i k n : Nat) : (perfAdd s b i k n).ports = s.ports := rfl
@[simp] theorem perfAdd_tenants (b : Block) (i k n : Nat) : (perfAdd s b i k n).tenants = s.tenants := rfl
@[simp] theorem perfAdd_jobs (b : Block) (i k n : Nat) : (perfAdd s b i k n).jobs = s.jobs := rfl
@[simp] theorem perfAdd_hostIf (b : Block) (i k n : Nat) : (perfAdd s b i k n).hostIf = s.hostIf := rfl
@[simp] theorem perfAdd_hen (b : Block) (i k n : Nat) : (perfAdd s b i k n).hen = s.hen := rfl
@[simp] theorem perfAdd_ledger (b : Block) (i k n : Nat) : (perfAdd s b i k n).ledger = s.ledger := rfl
@[simp] theorem perfAdd_drakes (b : Block) (i k n : Nat) : (perfAdd s b i k n).drakes = s.drakes := rfl
@[simp] theorem perfAdd_oxs (b : Block) (i k n : Nat) : (perfAdd s b i k n).oxs = s.oxs := rfl
@[simp] theorem perfAdd_ponys (b : Block) (i k n : Nat) : (perfAdd s b i k n).ponys = s.ponys := rfl
@[simp] theorem perfAdd_mule (b : Block) (i k n : Nat) : (perfAdd s b i k n).mule = s.mule := rfl
@[simp] theorem perfAdd_solvs (b : Block) (i k n : Nat) : (perfAdd s b i k n).solvs = s.solvs := rfl
@[simp] theorem perfAdd_links (b : Block) (i k n : Nat) : (perfAdd s b i k n).links = s.links := rfl
@[simp] theorem perfAdd_sw (b : Block) (i k n : Nat) : (perfAdd s b i k n).sw = s.sw := rfl
@[simp] theorem perfAdd_coll (b : Block) (i k n : Nat) : (perfAdd s b i k n).coll = s.coll := rfl
@[simp] theorem perfAdd_xag (b : Block) (i k n : Nat) : (perfAdd s b i k n).xag = s.xag := rfl
@[simp] theorem perfAdd_mgmt (b : Block) (i k n : Nat) : (perfAdd s b i k n).mgmt = s.mgmt := rfl
@[simp] theorem perfAdd_pwr (b : Block) (i k n : Nat) : (perfAdd s b i k n).pwr = s.pwr := rfl
@[simp] theorem perfAdd_arbs (b : Block) (i k n : Nat) : (perfAdd s b i k n).arbs = s.arbs := rfl
@[simp] theorem perfAdd_tap (b : Block) (i k n : Nat) : (perfAdd s b i k n).tap = s.tap := rfl
@[simp] theorem perfAdd_gclk (b : Block) (i k n : Nat) : (perfAdd s b i k n).gclk = s.gclk := rfl
@[simp] theorem perfAdd_out (b : Block) (i k n : Nat) : (perfAdd s b i k n).out = s.out := rfl
@[simp] theorem perfAdd_freeCount (b : Block) (i k n : Nat) : (perfAdd s b i k n).freeCount = s.freeCount := rfl
@[simp] theorem perfAdd_pending (b : Block) (i k n : Nat) : (perfAdd s b i k n).pending = s.pending := rfl

/-! An instance's STATE set. -/

@[simp] theorem setBlkState_part (b : Block) (i n : Nat) : (setBlkState s b i n).part = s.part := rfl
@[simp] theorem setBlkState_mem (b : Block) (i n : Nat) : (setBlkState s b i n).mem = s.mem := rfl
@[simp] theorem setBlkState_poison (b : Block) (i n : Nat) : (setBlkState s b i n).poison = s.poison := rfl
@[simp] theorem setBlkState_dark (b : Block) (i n : Nat) : (setBlkState s b i n).dark = s.dark := rfl
@[simp] theorem setBlkState_darkPoison (b : Block) (i n : Nat) : (setBlkState s b i n).darkPoison = s.darkPoison := rfl
@[simp] theorem setBlkState_darkErrs (b : Block) (i n : Nat) : (setBlkState s b i n).darkErrs = s.darkErrs := rfl
@[simp] theorem setBlkState_memErrs (b : Block) (i n : Nat) : (setBlkState s b i n).memErrs = s.memErrs := rfl
@[simp] theorem setBlkState_sealedG (b : Block) (i n : Nat) : (setBlkState s b i n).sealedG = s.sealedG := rfl
@[simp] theorem setBlkState_seals (b : Block) (i n : Nat) : (setBlkState s b i n).seals = s.seals := rfl
@[simp] theorem setBlkState_spads (b : Block) (i n : Nat) : (setBlkState s b i n).spads = s.spads := rfl
@[simp] theorem setBlkState_ports (b : Block) (i n : Nat) : (setBlkState s b i n).ports = s.ports := rfl
@[simp] theorem setBlkState_tenants (b : Block) (i n : Nat) : (setBlkState s b i n).tenants = s.tenants := rfl
@[simp] theorem setBlkState_jobs (b : Block) (i n : Nat) : (setBlkState s b i n).jobs = s.jobs := rfl
@[simp] theorem setBlkState_hostIf (b : Block) (i n : Nat) : (setBlkState s b i n).hostIf = s.hostIf := rfl
@[simp] theorem setBlkState_hen (b : Block) (i n : Nat) : (setBlkState s b i n).hen = s.hen := rfl
@[simp] theorem setBlkState_ledger (b : Block) (i n : Nat) : (setBlkState s b i n).ledger = s.ledger := rfl
@[simp] theorem setBlkState_drakes (b : Block) (i n : Nat) : (setBlkState s b i n).drakes = s.drakes := rfl
@[simp] theorem setBlkState_oxs (b : Block) (i n : Nat) : (setBlkState s b i n).oxs = s.oxs := rfl
@[simp] theorem setBlkState_ponys (b : Block) (i n : Nat) : (setBlkState s b i n).ponys = s.ponys := rfl
@[simp] theorem setBlkState_mule (b : Block) (i n : Nat) : (setBlkState s b i n).mule = s.mule := rfl
@[simp] theorem setBlkState_solvs (b : Block) (i n : Nat) : (setBlkState s b i n).solvs = s.solvs := rfl
@[simp] theorem setBlkState_links (b : Block) (i n : Nat) : (setBlkState s b i n).links = s.links := rfl
@[simp] theorem setBlkState_sw (b : Block) (i n : Nat) : (setBlkState s b i n).sw = s.sw := rfl
@[simp] theorem setBlkState_coll (b : Block) (i n : Nat) : (setBlkState s b i n).coll = s.coll := rfl
@[simp] theorem setBlkState_xag (b : Block) (i n : Nat) : (setBlkState s b i n).xag = s.xag := rfl
@[simp] theorem setBlkState_mgmt (b : Block) (i n : Nat) : (setBlkState s b i n).mgmt = s.mgmt := rfl
@[simp] theorem setBlkState_pwr (b : Block) (i n : Nat) : (setBlkState s b i n).pwr = s.pwr := rfl
@[simp] theorem setBlkState_arbs (b : Block) (i n : Nat) : (setBlkState s b i n).arbs = s.arbs := rfl
@[simp] theorem setBlkState_tap (b : Block) (i n : Nat) : (setBlkState s b i n).tap = s.tap := rfl
@[simp] theorem setBlkState_gclk (b : Block) (i n : Nat) : (setBlkState s b i n).gclk = s.gclk := rfl
@[simp] theorem setBlkState_out (b : Block) (i n : Nat) : (setBlkState s b i n).out = s.out := rfl
@[simp] theorem setBlkState_freeCount (b : Block) (i n : Nat) : (setBlkState s b i n).freeCount = s.freeCount := rfl
@[simp] theorem setBlkState_pending (b : Block) (i n : Nat) : (setBlkState s b i n).pending = s.pending := rfl

/-! A register word set. -/

@[simp] theorem setRegWord_part (b : Block) (i off v : Nat) : (setRegWord s b i off v).part = s.part := rfl
@[simp] theorem setRegWord_mem (b : Block) (i off v : Nat) : (setRegWord s b i off v).mem = s.mem := rfl
@[simp] theorem setRegWord_poison (b : Block) (i off v : Nat) : (setRegWord s b i off v).poison = s.poison := rfl
@[simp] theorem setRegWord_dark (b : Block) (i off v : Nat) : (setRegWord s b i off v).dark = s.dark := rfl
@[simp] theorem setRegWord_darkPoison (b : Block) (i off v : Nat) : (setRegWord s b i off v).darkPoison = s.darkPoison := rfl
@[simp] theorem setRegWord_darkErrs (b : Block) (i off v : Nat) : (setRegWord s b i off v).darkErrs = s.darkErrs := rfl
@[simp] theorem setRegWord_memErrs (b : Block) (i off v : Nat) : (setRegWord s b i off v).memErrs = s.memErrs := rfl
@[simp] theorem setRegWord_sealedG (b : Block) (i off v : Nat) : (setRegWord s b i off v).sealedG = s.sealedG := rfl
@[simp] theorem setRegWord_seals (b : Block) (i off v : Nat) : (setRegWord s b i off v).seals = s.seals := rfl
@[simp] theorem setRegWord_spads (b : Block) (i off v : Nat) : (setRegWord s b i off v).spads = s.spads := rfl
@[simp] theorem setRegWord_ports (b : Block) (i off v : Nat) : (setRegWord s b i off v).ports = s.ports := rfl
@[simp] theorem setRegWord_tenants (b : Block) (i off v : Nat) : (setRegWord s b i off v).tenants = s.tenants := rfl
@[simp] theorem setRegWord_jobs (b : Block) (i off v : Nat) : (setRegWord s b i off v).jobs = s.jobs := rfl
@[simp] theorem setRegWord_hostIf (b : Block) (i off v : Nat) : (setRegWord s b i off v).hostIf = s.hostIf := rfl
@[simp] theorem setRegWord_hen (b : Block) (i off v : Nat) : (setRegWord s b i off v).hen = s.hen := rfl
@[simp] theorem setRegWord_ledger (b : Block) (i off v : Nat) : (setRegWord s b i off v).ledger = s.ledger := rfl
@[simp] theorem setRegWord_drakes (b : Block) (i off v : Nat) : (setRegWord s b i off v).drakes = s.drakes := rfl
@[simp] theorem setRegWord_oxs (b : Block) (i off v : Nat) : (setRegWord s b i off v).oxs = s.oxs := rfl
@[simp] theorem setRegWord_ponys (b : Block) (i off v : Nat) : (setRegWord s b i off v).ponys = s.ponys := rfl
@[simp] theorem setRegWord_mule (b : Block) (i off v : Nat) : (setRegWord s b i off v).mule = s.mule := rfl
@[simp] theorem setRegWord_solvs (b : Block) (i off v : Nat) : (setRegWord s b i off v).solvs = s.solvs := rfl
@[simp] theorem setRegWord_links (b : Block) (i off v : Nat) : (setRegWord s b i off v).links = s.links := rfl
@[simp] theorem setRegWord_sw (b : Block) (i off v : Nat) : (setRegWord s b i off v).sw = s.sw := rfl
@[simp] theorem setRegWord_coll (b : Block) (i off v : Nat) : (setRegWord s b i off v).coll = s.coll := rfl
@[simp] theorem setRegWord_xag (b : Block) (i off v : Nat) : (setRegWord s b i off v).xag = s.xag := rfl
@[simp] theorem setRegWord_mgmt (b : Block) (i off v : Nat) : (setRegWord s b i off v).mgmt = s.mgmt := rfl
@[simp] theorem setRegWord_pwr (b : Block) (i off v : Nat) : (setRegWord s b i off v).pwr = s.pwr := rfl
@[simp] theorem setRegWord_arbs (b : Block) (i off v : Nat) : (setRegWord s b i off v).arbs = s.arbs := rfl
@[simp] theorem setRegWord_tap (b : Block) (i off v : Nat) : (setRegWord s b i off v).tap = s.tap := rfl
@[simp] theorem setRegWord_gclk (b : Block) (i off v : Nat) : (setRegWord s b i off v).gclk = s.gclk := rfl
@[simp] theorem setRegWord_out (b : Block) (i off v : Nat) : (setRegWord s b i off v).out = s.out := rfl
@[simp] theorem setRegWord_freeCount (b : Block) (i off v : Nat) : (setRegWord s b i off v).freeCount = s.freeCount := rfl
@[simp] theorem setRegWord_pending (b : Block) (i off v : Nat) : (setRegWord s b i off v).pending = s.pending := rfl

/-! A page's EPOCH raised. -/

@[simp] theorem bumpEpoch_part (b : Block) (i : Nat) : (bumpEpoch s b i).part = s.part := rfl
@[simp] theorem bumpEpoch_mem (b : Block) (i : Nat) : (bumpEpoch s b i).mem = s.mem := rfl
@[simp] theorem bumpEpoch_poison (b : Block) (i : Nat) : (bumpEpoch s b i).poison = s.poison := rfl
@[simp] theorem bumpEpoch_dark (b : Block) (i : Nat) : (bumpEpoch s b i).dark = s.dark := rfl
@[simp] theorem bumpEpoch_darkPoison (b : Block) (i : Nat) : (bumpEpoch s b i).darkPoison = s.darkPoison := rfl
@[simp] theorem bumpEpoch_darkErrs (b : Block) (i : Nat) : (bumpEpoch s b i).darkErrs = s.darkErrs := rfl
@[simp] theorem bumpEpoch_memErrs (b : Block) (i : Nat) : (bumpEpoch s b i).memErrs = s.memErrs := rfl
@[simp] theorem bumpEpoch_sealedG (b : Block) (i : Nat) : (bumpEpoch s b i).sealedG = s.sealedG := rfl
@[simp] theorem bumpEpoch_seals (b : Block) (i : Nat) : (bumpEpoch s b i).seals = s.seals := rfl
@[simp] theorem bumpEpoch_spads (b : Block) (i : Nat) : (bumpEpoch s b i).spads = s.spads := rfl
@[simp] theorem bumpEpoch_ports (b : Block) (i : Nat) : (bumpEpoch s b i).ports = s.ports := rfl
@[simp] theorem bumpEpoch_tenants (b : Block) (i : Nat) : (bumpEpoch s b i).tenants = s.tenants := rfl
@[simp] theorem bumpEpoch_jobs (b : Block) (i : Nat) : (bumpEpoch s b i).jobs = s.jobs := rfl
@[simp] theorem bumpEpoch_hostIf (b : Block) (i : Nat) : (bumpEpoch s b i).hostIf = s.hostIf := rfl
@[simp] theorem bumpEpoch_hen (b : Block) (i : Nat) : (bumpEpoch s b i).hen = s.hen := rfl
@[simp] theorem bumpEpoch_ledger (b : Block) (i : Nat) : (bumpEpoch s b i).ledger = s.ledger := rfl
@[simp] theorem bumpEpoch_drakes (b : Block) (i : Nat) : (bumpEpoch s b i).drakes = s.drakes := rfl
@[simp] theorem bumpEpoch_oxs (b : Block) (i : Nat) : (bumpEpoch s b i).oxs = s.oxs := rfl
@[simp] theorem bumpEpoch_ponys (b : Block) (i : Nat) : (bumpEpoch s b i).ponys = s.ponys := rfl
@[simp] theorem bumpEpoch_mule (b : Block) (i : Nat) : (bumpEpoch s b i).mule = s.mule := rfl
@[simp] theorem bumpEpoch_solvs (b : Block) (i : Nat) : (bumpEpoch s b i).solvs = s.solvs := rfl
@[simp] theorem bumpEpoch_links (b : Block) (i : Nat) : (bumpEpoch s b i).links = s.links := rfl
@[simp] theorem bumpEpoch_sw (b : Block) (i : Nat) : (bumpEpoch s b i).sw = s.sw := rfl
@[simp] theorem bumpEpoch_coll (b : Block) (i : Nat) : (bumpEpoch s b i).coll = s.coll := rfl
@[simp] theorem bumpEpoch_xag (b : Block) (i : Nat) : (bumpEpoch s b i).xag = s.xag := rfl
@[simp] theorem bumpEpoch_mgmt (b : Block) (i : Nat) : (bumpEpoch s b i).mgmt = s.mgmt := rfl
@[simp] theorem bumpEpoch_pwr (b : Block) (i : Nat) : (bumpEpoch s b i).pwr = s.pwr := rfl
@[simp] theorem bumpEpoch_arbs (b : Block) (i : Nat) : (bumpEpoch s b i).arbs = s.arbs := rfl
@[simp] theorem bumpEpoch_tap (b : Block) (i : Nat) : (bumpEpoch s b i).tap = s.tap := rfl
@[simp] theorem bumpEpoch_gclk (b : Block) (i : Nat) : (bumpEpoch s b i).gclk = s.gclk := rfl
@[simp] theorem bumpEpoch_out (b : Block) (i : Nat) : (bumpEpoch s b i).out = s.out := rfl
@[simp] theorem bumpEpoch_freeCount (b : Block) (i : Nat) : (bumpEpoch s b i).freeCount = s.freeCount := rfl
@[simp] theorem bumpEpoch_pending (b : Block) (i : Nat) : (bumpEpoch s b i).pending = s.pending := rfl

/-! A message put out. -/

@[simp] theorem emit_part (o : Out) : (emit s o).part = s.part := rfl
@[simp] theorem emit_pages (o : Out) : (emit s o).pages = s.pages := rfl
@[simp] theorem emit_mem (o : Out) : (emit s o).mem = s.mem := rfl
@[simp] theorem emit_poison (o : Out) : (emit s o).poison = s.poison := rfl
@[simp] theorem emit_dark (o : Out) : (emit s o).dark = s.dark := rfl
@[simp] theorem emit_darkPoison (o : Out) : (emit s o).darkPoison = s.darkPoison := rfl
@[simp] theorem emit_darkErrs (o : Out) : (emit s o).darkErrs = s.darkErrs := rfl
@[simp] theorem emit_memErrs (o : Out) : (emit s o).memErrs = s.memErrs := rfl
@[simp] theorem emit_sealedG (o : Out) : (emit s o).sealedG = s.sealedG := rfl
@[simp] theorem emit_seals (o : Out) : (emit s o).seals = s.seals := rfl
@[simp] theorem emit_spads (o : Out) : (emit s o).spads = s.spads := rfl
@[simp] theorem emit_ports (o : Out) : (emit s o).ports = s.ports := rfl
@[simp] theorem emit_tenants (o : Out) : (emit s o).tenants = s.tenants := rfl
@[simp] theorem emit_jobs (o : Out) : (emit s o).jobs = s.jobs := rfl
@[simp] theorem emit_hostIf (o : Out) : (emit s o).hostIf = s.hostIf := rfl
@[simp] theorem emit_hen (o : Out) : (emit s o).hen = s.hen := rfl
@[simp] theorem emit_ledger (o : Out) : (emit s o).ledger = s.ledger := rfl
@[simp] theorem emit_drakes (o : Out) : (emit s o).drakes = s.drakes := rfl
@[simp] theorem emit_oxs (o : Out) : (emit s o).oxs = s.oxs := rfl
@[simp] theorem emit_ponys (o : Out) : (emit s o).ponys = s.ponys := rfl
@[simp] theorem emit_mule (o : Out) : (emit s o).mule = s.mule := rfl
@[simp] theorem emit_solvs (o : Out) : (emit s o).solvs = s.solvs := rfl
@[simp] theorem emit_links (o : Out) : (emit s o).links = s.links := rfl
@[simp] theorem emit_sw (o : Out) : (emit s o).sw = s.sw := rfl
@[simp] theorem emit_coll (o : Out) : (emit s o).coll = s.coll := rfl
@[simp] theorem emit_xag (o : Out) : (emit s o).xag = s.xag := rfl
@[simp] theorem emit_mgmt (o : Out) : (emit s o).mgmt = s.mgmt := rfl
@[simp] theorem emit_pwr (o : Out) : (emit s o).pwr = s.pwr := rfl
@[simp] theorem emit_arbs (o : Out) : (emit s o).arbs = s.arbs := rfl
@[simp] theorem emit_tap (o : Out) : (emit s o).tap = s.tap := rfl
@[simp] theorem emit_gclk (o : Out) : (emit s o).gclk = s.gclk := rfl
@[simp] theorem emit_freeCount (o : Out) : (emit s o).freeCount = s.freeCount := rfl
@[simp] theorem emit_pending (o : Out) : (emit s o).pending = s.pending := rfl

/-! An entry of the RAS log put in. -/

@[simp] theorem putRas_part (e : Nat) : (putRas s e).part = s.part := rfl
@[simp] theorem putRas_pages (e : Nat) : (putRas s e).pages = s.pages := rfl
@[simp] theorem putRas_mem (e : Nat) : (putRas s e).mem = s.mem := rfl
@[simp] theorem putRas_poison (e : Nat) : (putRas s e).poison = s.poison := rfl
@[simp] theorem putRas_dark (e : Nat) : (putRas s e).dark = s.dark := rfl
@[simp] theorem putRas_darkPoison (e : Nat) : (putRas s e).darkPoison = s.darkPoison := rfl
@[simp] theorem putRas_darkErrs (e : Nat) : (putRas s e).darkErrs = s.darkErrs := rfl
@[simp] theorem putRas_memErrs (e : Nat) : (putRas s e).memErrs = s.memErrs := rfl
@[simp] theorem putRas_sealedG (e : Nat) : (putRas s e).sealedG = s.sealedG := rfl
@[simp] theorem putRas_seals (e : Nat) : (putRas s e).seals = s.seals := rfl
@[simp] theorem putRas_spads (e : Nat) : (putRas s e).spads = s.spads := rfl
@[simp] theorem putRas_ports (e : Nat) : (putRas s e).ports = s.ports := rfl
@[simp] theorem putRas_tenants (e : Nat) : (putRas s e).tenants = s.tenants := rfl
@[simp] theorem putRas_jobs (e : Nat) : (putRas s e).jobs = s.jobs := rfl
@[simp] theorem putRas_hostIf (e : Nat) : (putRas s e).hostIf = s.hostIf := rfl
@[simp] theorem putRas_hen (e : Nat) : (putRas s e).hen = s.hen := rfl
@[simp] theorem putRas_ledger (e : Nat) : (putRas s e).ledger = s.ledger := rfl
@[simp] theorem putRas_drakes (e : Nat) : (putRas s e).drakes = s.drakes := rfl
@[simp] theorem putRas_oxs (e : Nat) : (putRas s e).oxs = s.oxs := rfl
@[simp] theorem putRas_ponys (e : Nat) : (putRas s e).ponys = s.ponys := rfl
@[simp] theorem putRas_mule (e : Nat) : (putRas s e).mule = s.mule := rfl
@[simp] theorem putRas_solvs (e : Nat) : (putRas s e).solvs = s.solvs := rfl
@[simp] theorem putRas_links (e : Nat) : (putRas s e).links = s.links := rfl
@[simp] theorem putRas_sw (e : Nat) : (putRas s e).sw = s.sw := rfl
@[simp] theorem putRas_coll (e : Nat) : (putRas s e).coll = s.coll := rfl
@[simp] theorem putRas_xag (e : Nat) : (putRas s e).xag = s.xag := rfl
@[simp] theorem putRas_pwr (e : Nat) : (putRas s e).pwr = s.pwr := rfl
@[simp] theorem putRas_arbs (e : Nat) : (putRas s e).arbs = s.arbs := rfl
@[simp] theorem putRas_tap (e : Nat) : (putRas s e).tap = s.tap := rfl
@[simp] theorem putRas_gclk (e : Nat) : (putRas s e).gclk = s.gclk := rfl
@[simp] theorem putRas_out (e : Nat) : (putRas s e).out = s.out := rfl
@[simp] theorem putRas_freeCount (e : Nat) : (putRas s e).freeCount = s.freeCount := rfl
@[simp] theorem putRas_pending (e : Nat) : (putRas s e).pending = s.pending := rfl

/-! Bytes put into memory. -/

@[simp] theorem memPut_part (a : Nat) (bs : List Byte) : (memPut s a bs).part = s.part := rfl
@[simp] theorem memPut_pages (a : Nat) (bs : List Byte) : (memPut s a bs).pages = s.pages := rfl
@[simp] theorem memPut_poison (a : Nat) (bs : List Byte) : (memPut s a bs).poison = s.poison := rfl
@[simp] theorem memPut_dark (a : Nat) (bs : List Byte) : (memPut s a bs).dark = s.dark := rfl
@[simp] theorem memPut_darkPoison (a : Nat) (bs : List Byte) : (memPut s a bs).darkPoison = s.darkPoison := rfl
@[simp] theorem memPut_darkErrs (a : Nat) (bs : List Byte) : (memPut s a bs).darkErrs = s.darkErrs := rfl
@[simp] theorem memPut_memErrs (a : Nat) (bs : List Byte) : (memPut s a bs).memErrs = s.memErrs := rfl
@[simp] theorem memPut_sealedG (a : Nat) (bs : List Byte) : (memPut s a bs).sealedG = s.sealedG := rfl
@[simp] theorem memPut_seals (a : Nat) (bs : List Byte) : (memPut s a bs).seals = s.seals := rfl
@[simp] theorem memPut_spads (a : Nat) (bs : List Byte) : (memPut s a bs).spads = s.spads := rfl
@[simp] theorem memPut_ports (a : Nat) (bs : List Byte) : (memPut s a bs).ports = s.ports := rfl
@[simp] theorem memPut_tenants (a : Nat) (bs : List Byte) : (memPut s a bs).tenants = s.tenants := rfl
@[simp] theorem memPut_jobs (a : Nat) (bs : List Byte) : (memPut s a bs).jobs = s.jobs := rfl
@[simp] theorem memPut_hostIf (a : Nat) (bs : List Byte) : (memPut s a bs).hostIf = s.hostIf := rfl
@[simp] theorem memPut_hen (a : Nat) (bs : List Byte) : (memPut s a bs).hen = s.hen := rfl
@[simp] theorem memPut_ledger (a : Nat) (bs : List Byte) : (memPut s a bs).ledger = s.ledger := rfl
@[simp] theorem memPut_drakes (a : Nat) (bs : List Byte) : (memPut s a bs).drakes = s.drakes := rfl
@[simp] theorem memPut_oxs (a : Nat) (bs : List Byte) : (memPut s a bs).oxs = s.oxs := rfl
@[simp] theorem memPut_ponys (a : Nat) (bs : List Byte) : (memPut s a bs).ponys = s.ponys := rfl
@[simp] theorem memPut_mule_cores (a : Nat) (bs : List Byte) : (memPut s a bs).mule.cores = s.mule.cores := rfl
@[simp] theorem memPut_mule_runs (a : Nat) (bs : List Byte) : (memPut s a bs).mule.runs = s.mule.runs := rfl
@[simp] theorem memPut_mule_nextRun (a : Nat) (bs : List Byte) : (memPut s a bs).mule.nextRun = s.mule.nextRun := rfl
@[simp] theorem memPut_mule_logs (a : Nat) (bs : List Byte) : (memPut s a bs).mule.logs = s.mule.logs := rfl
@[simp] theorem memPut_solvs (a : Nat) (bs : List Byte) : (memPut s a bs).solvs = s.solvs := rfl
@[simp] theorem memPut_links (a : Nat) (bs : List Byte) : (memPut s a bs).links = s.links := rfl
@[simp] theorem memPut_sw (a : Nat) (bs : List Byte) : (memPut s a bs).sw = s.sw := rfl
@[simp] theorem memPut_coll (a : Nat) (bs : List Byte) : (memPut s a bs).coll = s.coll := rfl
@[simp] theorem memPut_xag (a : Nat) (bs : List Byte) : (memPut s a bs).xag = s.xag := rfl
@[simp] theorem memPut_mgmt (a : Nat) (bs : List Byte) : (memPut s a bs).mgmt = s.mgmt := rfl
@[simp] theorem memPut_pwr (a : Nat) (bs : List Byte) : (memPut s a bs).pwr = s.pwr := rfl
@[simp] theorem memPut_arbs (a : Nat) (bs : List Byte) : (memPut s a bs).arbs = s.arbs := rfl
@[simp] theorem memPut_tap (a : Nat) (bs : List Byte) : (memPut s a bs).tap = s.tap := rfl
@[simp] theorem memPut_gclk (a : Nat) (bs : List Byte) : (memPut s a bs).gclk = s.gclk := rfl
@[simp] theorem memPut_out (a : Nat) (bs : List Byte) : (memPut s a bs).out = s.out := rfl
@[simp] theorem memPut_freeCount (a : Nat) (bs : List Byte) : (memPut s a bs).freeCount = s.freeCount := rfl
@[simp] theorem memPut_pending (a : Nat) (bs : List Byte) : (memPut s a bs).pending = s.pending := rfl

/-! A line poisoned. -/

@[simp] theorem setPoison_part (l : Nat) : (setPoison s l).part = s.part := rfl
@[simp] theorem setPoison_pages (l : Nat) : (setPoison s l).pages = s.pages := rfl
@[simp] theorem setPoison_dark (l : Nat) : (setPoison s l).dark = s.dark := rfl
@[simp] theorem setPoison_darkPoison (l : Nat) : (setPoison s l).darkPoison = s.darkPoison := rfl
@[simp] theorem setPoison_darkErrs (l : Nat) : (setPoison s l).darkErrs = s.darkErrs := rfl
@[simp] theorem setPoison_sealedG (l : Nat) : (setPoison s l).sealedG = s.sealedG := rfl
@[simp] theorem setPoison_seals (l : Nat) : (setPoison s l).seals = s.seals := rfl
@[simp] theorem setPoison_spads (l : Nat) : (setPoison s l).spads = s.spads := rfl
@[simp] theorem setPoison_ports (l : Nat) : (setPoison s l).ports = s.ports := rfl
@[simp] theorem setPoison_tenants (l : Nat) : (setPoison s l).tenants = s.tenants := rfl
@[simp] theorem setPoison_jobs (l : Nat) : (setPoison s l).jobs = s.jobs := rfl
@[simp] theorem setPoison_hostIf (l : Nat) : (setPoison s l).hostIf = s.hostIf := rfl
@[simp] theorem setPoison_hen (l : Nat) : (setPoison s l).hen = s.hen := rfl
@[simp] theorem setPoison_ledger (l : Nat) : (setPoison s l).ledger = s.ledger := rfl
@[simp] theorem setPoison_drakes (l : Nat) : (setPoison s l).drakes = s.drakes := rfl
@[simp] theorem setPoison_oxs (l : Nat) : (setPoison s l).oxs = s.oxs := rfl
@[simp] theorem setPoison_ponys (l : Nat) : (setPoison s l).ponys = s.ponys := rfl
@[simp] theorem setPoison_mule (l : Nat) : (setPoison s l).mule = s.mule := rfl
@[simp] theorem setPoison_solvs (l : Nat) : (setPoison s l).solvs = s.solvs := rfl
@[simp] theorem setPoison_links (l : Nat) : (setPoison s l).links = s.links := rfl
@[simp] theorem setPoison_sw (l : Nat) : (setPoison s l).sw = s.sw := rfl
@[simp] theorem setPoison_coll (l : Nat) : (setPoison s l).coll = s.coll := rfl
@[simp] theorem setPoison_xag (l : Nat) : (setPoison s l).xag = s.xag := rfl
@[simp] theorem setPoison_mgmt (l : Nat) : (setPoison s l).mgmt = s.mgmt := rfl
@[simp] theorem setPoison_pwr (l : Nat) : (setPoison s l).pwr = s.pwr := rfl
@[simp] theorem setPoison_arbs (l : Nat) : (setPoison s l).arbs = s.arbs := rfl
@[simp] theorem setPoison_tap (l : Nat) : (setPoison s l).tap = s.tap := rfl
@[simp] theorem setPoison_gclk (l : Nat) : (setPoison s l).gclk = s.gclk := rfl
@[simp] theorem setPoison_out (l : Nat) : (setPoison s l).out = s.out := rfl
@[simp] theorem setPoison_freeCount (l : Nat) : (setPoison s l).freeCount = s.freeCount := rfl
@[simp] theorem setPoison_pending (l : Nat) : (setPoison s l).pending = s.pending := rfl

/-! A line marked good. -/

@[simp] theorem clrPoison_part (l : Nat) : (clrPoison s l).part = s.part := rfl
@[simp] theorem clrPoison_pages (l : Nat) : (clrPoison s l).pages = s.pages := rfl
@[simp] theorem clrPoison_mem (l : Nat) : (clrPoison s l).mem = s.mem := rfl
@[simp] theorem clrPoison_dark (l : Nat) : (clrPoison s l).dark = s.dark := rfl
@[simp] theorem clrPoison_darkPoison (l : Nat) : (clrPoison s l).darkPoison = s.darkPoison := rfl
@[simp] theorem clrPoison_darkErrs (l : Nat) : (clrPoison s l).darkErrs = s.darkErrs := rfl
@[simp] theorem clrPoison_sealedG (l : Nat) : (clrPoison s l).sealedG = s.sealedG := rfl
@[simp] theorem clrPoison_seals (l : Nat) : (clrPoison s l).seals = s.seals := rfl
@[simp] theorem clrPoison_spads (l : Nat) : (clrPoison s l).spads = s.spads := rfl
@[simp] theorem clrPoison_ports (l : Nat) : (clrPoison s l).ports = s.ports := rfl
@[simp] theorem clrPoison_tenants (l : Nat) : (clrPoison s l).tenants = s.tenants := rfl
@[simp] theorem clrPoison_jobs (l : Nat) : (clrPoison s l).jobs = s.jobs := rfl
@[simp] theorem clrPoison_hostIf (l : Nat) : (clrPoison s l).hostIf = s.hostIf := rfl
@[simp] theorem clrPoison_hen (l : Nat) : (clrPoison s l).hen = s.hen := rfl
@[simp] theorem clrPoison_ledger (l : Nat) : (clrPoison s l).ledger = s.ledger := rfl
@[simp] theorem clrPoison_drakes (l : Nat) : (clrPoison s l).drakes = s.drakes := rfl
@[simp] theorem clrPoison_oxs (l : Nat) : (clrPoison s l).oxs = s.oxs := rfl
@[simp] theorem clrPoison_ponys (l : Nat) : (clrPoison s l).ponys = s.ponys := rfl
@[simp] theorem clrPoison_mule (l : Nat) : (clrPoison s l).mule = s.mule := rfl
@[simp] theorem clrPoison_solvs (l : Nat) : (clrPoison s l).solvs = s.solvs := rfl
@[simp] theorem clrPoison_links (l : Nat) : (clrPoison s l).links = s.links := rfl
@[simp] theorem clrPoison_sw (l : Nat) : (clrPoison s l).sw = s.sw := rfl
@[simp] theorem clrPoison_coll (l : Nat) : (clrPoison s l).coll = s.coll := rfl
@[simp] theorem clrPoison_xag (l : Nat) : (clrPoison s l).xag = s.xag := rfl
@[simp] theorem clrPoison_mgmt (l : Nat) : (clrPoison s l).mgmt = s.mgmt := rfl
@[simp] theorem clrPoison_pwr (l : Nat) : (clrPoison s l).pwr = s.pwr := rfl
@[simp] theorem clrPoison_arbs (l : Nat) : (clrPoison s l).arbs = s.arbs := rfl
@[simp] theorem clrPoison_tap (l : Nat) : (clrPoison s l).tap = s.tap := rfl
@[simp] theorem clrPoison_gclk (l : Nat) : (clrPoison s l).gclk = s.gclk := rfl
@[simp] theorem clrPoison_out (l : Nat) : (clrPoison s l).out = s.out := rfl
@[simp] theorem clrPoison_freeCount (l : Nat) : (clrPoison s l).freeCount = s.freeCount := rfl
@[simp] theorem clrPoison_pending (l : Nat) : (clrPoison s l).pending = s.pending := rfl

/-! A range zeroed. -/

@[simp] theorem zeroRange_part (a n : Nat) : (zeroRange s a n).part = s.part := rfl
@[simp] theorem zeroRange_pages (a n : Nat) : (zeroRange s a n).pages = s.pages := rfl
@[simp] theorem zeroRange_dark (a n : Nat) : (zeroRange s a n).dark = s.dark := rfl
@[simp] theorem zeroRange_darkPoison (a n : Nat) : (zeroRange s a n).darkPoison = s.darkPoison := rfl
@[simp] theorem zeroRange_darkErrs (a n : Nat) : (zeroRange s a n).darkErrs = s.darkErrs := rfl
@[simp] theorem zeroRange_sealedG (a n : Nat) : (zeroRange s a n).sealedG = s.sealedG := rfl
@[simp] theorem zeroRange_seals (a n : Nat) : (zeroRange s a n).seals = s.seals := rfl
@[simp] theorem zeroRange_spads (a n : Nat) : (zeroRange s a n).spads = s.spads := rfl
@[simp] theorem zeroRange_ports (a n : Nat) : (zeroRange s a n).ports = s.ports := rfl
@[simp] theorem zeroRange_tenants (a n : Nat) : (zeroRange s a n).tenants = s.tenants := rfl
@[simp] theorem zeroRange_jobs (a n : Nat) : (zeroRange s a n).jobs = s.jobs := rfl
@[simp] theorem zeroRange_hostIf (a n : Nat) : (zeroRange s a n).hostIf = s.hostIf := rfl
@[simp] theorem zeroRange_hen (a n : Nat) : (zeroRange s a n).hen = s.hen := rfl
@[simp] theorem zeroRange_ledger (a n : Nat) : (zeroRange s a n).ledger = s.ledger := rfl
@[simp] theorem zeroRange_drakes (a n : Nat) : (zeroRange s a n).drakes = s.drakes := rfl
@[simp] theorem zeroRange_oxs (a n : Nat) : (zeroRange s a n).oxs = s.oxs := rfl
@[simp] theorem zeroRange_ponys (a n : Nat) : (zeroRange s a n).ponys = s.ponys := rfl
@[simp] theorem zeroRange_mule_cores (a n : Nat) : (zeroRange s a n).mule.cores = s.mule.cores := rfl
@[simp] theorem zeroRange_mule_runs (a n : Nat) : (zeroRange s a n).mule.runs = s.mule.runs := rfl
@[simp] theorem zeroRange_mule_nextRun (a n : Nat) : (zeroRange s a n).mule.nextRun = s.mule.nextRun := rfl
@[simp] theorem zeroRange_mule_logs (a n : Nat) : (zeroRange s a n).mule.logs = s.mule.logs := rfl
@[simp] theorem zeroRange_solvs (a n : Nat) : (zeroRange s a n).solvs = s.solvs := rfl
@[simp] theorem zeroRange_links (a n : Nat) : (zeroRange s a n).links = s.links := rfl
@[simp] theorem zeroRange_sw (a n : Nat) : (zeroRange s a n).sw = s.sw := rfl
@[simp] theorem zeroRange_coll (a n : Nat) : (zeroRange s a n).coll = s.coll := rfl
@[simp] theorem zeroRange_xag (a n : Nat) : (zeroRange s a n).xag = s.xag := rfl
@[simp] theorem zeroRange_mgmt (a n : Nat) : (zeroRange s a n).mgmt = s.mgmt := rfl
@[simp] theorem zeroRange_pwr (a n : Nat) : (zeroRange s a n).pwr = s.pwr := rfl
@[simp] theorem zeroRange_arbs (a n : Nat) : (zeroRange s a n).arbs = s.arbs := rfl
@[simp] theorem zeroRange_tap (a n : Nat) : (zeroRange s a n).tap = s.tap := rfl
@[simp] theorem zeroRange_gclk (a n : Nat) : (zeroRange s a n).gclk = s.gclk := rfl
@[simp] theorem zeroRange_out (a n : Nat) : (zeroRange s a n).out = s.out := rfl
@[simp] theorem zeroRange_freeCount (a n : Nat) : (zeroRange s a n).freeCount = s.freeCount := rfl
@[simp] theorem zeroRange_pending (a n : Nat) : (zeroRange s a n).pending = s.pending := rfl

/-! A tenant changed. -/

@[simp] theorem modTen_part (t : Nat) (f : Tenant → Tenant) : (modTen s t f).part = s.part := rfl
@[simp] theorem modTen_pages (t : Nat) (f : Tenant → Tenant) : (modTen s t f).pages = s.pages := rfl
@[simp] theorem modTen_mem (t : Nat) (f : Tenant → Tenant) : (modTen s t f).mem = s.mem := rfl
@[simp] theorem modTen_poison (t : Nat) (f : Tenant → Tenant) : (modTen s t f).poison = s.poison := rfl
@[simp] theorem modTen_dark (t : Nat) (f : Tenant → Tenant) : (modTen s t f).dark = s.dark := rfl
@[simp] theorem modTen_darkPoison (t : Nat) (f : Tenant → Tenant) : (modTen s t f).darkPoison = s.darkPoison := rfl
@[simp] theorem modTen_darkErrs (t : Nat) (f : Tenant → Tenant) : (modTen s t f).darkErrs = s.darkErrs := rfl
@[simp] theorem modTen_memErrs (t : Nat) (f : Tenant → Tenant) : (modTen s t f).memErrs = s.memErrs := rfl
@[simp] theorem modTen_sealedG (t : Nat) (f : Tenant → Tenant) : (modTen s t f).sealedG = s.sealedG := rfl
@[simp] theorem modTen_seals (t : Nat) (f : Tenant → Tenant) : (modTen s t f).seals = s.seals := rfl
@[simp] theorem modTen_spads (t : Nat) (f : Tenant → Tenant) : (modTen s t f).spads = s.spads := rfl
@[simp] theorem modTen_ports (t : Nat) (f : Tenant → Tenant) : (modTen s t f).ports = s.ports := rfl
@[simp] theorem modTen_jobs (t : Nat) (f : Tenant → Tenant) : (modTen s t f).jobs = s.jobs := rfl
@[simp] theorem modTen_hostIf (t : Nat) (f : Tenant → Tenant) : (modTen s t f).hostIf = s.hostIf := rfl
@[simp] theorem modTen_hen (t : Nat) (f : Tenant → Tenant) : (modTen s t f).hen = s.hen := rfl
@[simp] theorem modTen_ledger (t : Nat) (f : Tenant → Tenant) : (modTen s t f).ledger = s.ledger := rfl
@[simp] theorem modTen_drakes (t : Nat) (f : Tenant → Tenant) : (modTen s t f).drakes = s.drakes := rfl
@[simp] theorem modTen_oxs (t : Nat) (f : Tenant → Tenant) : (modTen s t f).oxs = s.oxs := rfl
@[simp] theorem modTen_ponys (t : Nat) (f : Tenant → Tenant) : (modTen s t f).ponys = s.ponys := rfl
@[simp] theorem modTen_mule (t : Nat) (f : Tenant → Tenant) : (modTen s t f).mule = s.mule := rfl
@[simp] theorem modTen_solvs (t : Nat) (f : Tenant → Tenant) : (modTen s t f).solvs = s.solvs := rfl
@[simp] theorem modTen_links (t : Nat) (f : Tenant → Tenant) : (modTen s t f).links = s.links := rfl
@[simp] theorem modTen_sw (t : Nat) (f : Tenant → Tenant) : (modTen s t f).sw = s.sw := rfl
@[simp] theorem modTen_coll (t : Nat) (f : Tenant → Tenant) : (modTen s t f).coll = s.coll := rfl
@[simp] theorem modTen_xag (t : Nat) (f : Tenant → Tenant) : (modTen s t f).xag = s.xag := rfl
@[simp] theorem modTen_mgmt (t : Nat) (f : Tenant → Tenant) : (modTen s t f).mgmt = s.mgmt := rfl
@[simp] theorem modTen_pwr (t : Nat) (f : Tenant → Tenant) : (modTen s t f).pwr = s.pwr := rfl
@[simp] theorem modTen_arbs (t : Nat) (f : Tenant → Tenant) : (modTen s t f).arbs = s.arbs := rfl
@[simp] theorem modTen_tap (t : Nat) (f : Tenant → Tenant) : (modTen s t f).tap = s.tap := rfl
@[simp] theorem modTen_gclk (t : Nat) (f : Tenant → Tenant) : (modTen s t f).gclk = s.gclk := rfl
@[simp] theorem modTen_out (t : Nat) (f : Tenant → Tenant) : (modTen s t f).out = s.out := rfl
@[simp] theorem modTen_freeCount (t : Nat) (f : Tenant → Tenant) : (modTen s t f).freeCount = s.freeCount := rfl
@[simp] theorem modTen_pending (t : Nat) (f : Tenant → Tenant) : (modTen s t f).pending = s.pending := rfl

/-! A port changed. -/

@[simp] theorem modPort_part (p : Nat) (f : Port → Port) : (modPort s p f).part = s.part := rfl
@[simp] theorem modPort_pages (p : Nat) (f : Port → Port) : (modPort s p f).pages = s.pages := rfl
@[simp] theorem modPort_mem (p : Nat) (f : Port → Port) : (modPort s p f).mem = s.mem := rfl
@[simp] theorem modPort_poison (p : Nat) (f : Port → Port) : (modPort s p f).poison = s.poison := rfl
@[simp] theorem modPort_dark (p : Nat) (f : Port → Port) : (modPort s p f).dark = s.dark := rfl
@[simp] theorem modPort_darkPoison (p : Nat) (f : Port → Port) : (modPort s p f).darkPoison = s.darkPoison := rfl
@[simp] theorem modPort_darkErrs (p : Nat) (f : Port → Port) : (modPort s p f).darkErrs = s.darkErrs := rfl
@[simp] theorem modPort_memErrs (p : Nat) (f : Port → Port) : (modPort s p f).memErrs = s.memErrs := rfl
@[simp] theorem modPort_sealedG (p : Nat) (f : Port → Port) : (modPort s p f).sealedG = s.sealedG := rfl
@[simp] theorem modPort_seals (p : Nat) (f : Port → Port) : (modPort s p f).seals = s.seals := rfl
@[simp] theorem modPort_spads (p : Nat) (f : Port → Port) : (modPort s p f).spads = s.spads := rfl
@[simp] theorem modPort_tenants (p : Nat) (f : Port → Port) : (modPort s p f).tenants = s.tenants := rfl
@[simp] theorem modPort_jobs (p : Nat) (f : Port → Port) : (modPort s p f).jobs = s.jobs := rfl
@[simp] theorem modPort_hostIf (p : Nat) (f : Port → Port) : (modPort s p f).hostIf = s.hostIf := rfl
@[simp] theorem modPort_hen (p : Nat) (f : Port → Port) : (modPort s p f).hen = s.hen := rfl
@[simp] theorem modPort_ledger (p : Nat) (f : Port → Port) : (modPort s p f).ledger = s.ledger := rfl
@[simp] theorem modPort_drakes (p : Nat) (f : Port → Port) : (modPort s p f).drakes = s.drakes := rfl
@[simp] theorem modPort_oxs (p : Nat) (f : Port → Port) : (modPort s p f).oxs = s.oxs := rfl
@[simp] theorem modPort_ponys (p : Nat) (f : Port → Port) : (modPort s p f).ponys = s.ponys := rfl
@[simp] theorem modPort_mule (p : Nat) (f : Port → Port) : (modPort s p f).mule = s.mule := rfl
@[simp] theorem modPort_solvs (p : Nat) (f : Port → Port) : (modPort s p f).solvs = s.solvs := rfl
@[simp] theorem modPort_links (p : Nat) (f : Port → Port) : (modPort s p f).links = s.links := rfl
@[simp] theorem modPort_sw (p : Nat) (f : Port → Port) : (modPort s p f).sw = s.sw := rfl
@[simp] theorem modPort_coll (p : Nat) (f : Port → Port) : (modPort s p f).coll = s.coll := rfl
@[simp] theorem modPort_xag (p : Nat) (f : Port → Port) : (modPort s p f).xag = s.xag := rfl
@[simp] theorem modPort_mgmt (p : Nat) (f : Port → Port) : (modPort s p f).mgmt = s.mgmt := rfl
@[simp] theorem modPort_pwr (p : Nat) (f : Port → Port) : (modPort s p f).pwr = s.pwr := rfl
@[simp] theorem modPort_arbs (p : Nat) (f : Port → Port) : (modPort s p f).arbs = s.arbs := rfl
@[simp] theorem modPort_tap (p : Nat) (f : Port → Port) : (modPort s p f).tap = s.tap := rfl
@[simp] theorem modPort_gclk (p : Nat) (f : Port → Port) : (modPort s p f).gclk = s.gclk := rfl
@[simp] theorem modPort_out (p : Nat) (f : Port → Port) : (modPort s p f).out = s.out := rfl
@[simp] theorem modPort_freeCount (p : Nat) (f : Port → Port) : (modPort s p f).freeCount = s.freeCount := rfl
@[simp] theorem modPort_pending (p : Nat) (f : Port → Port) : (modPort s p f).pending = s.pending := rfl

/-! A scratchpad changed. -/

@[simp] theorem modSpad_part (d : Nat) (f : Spad → Spad) : (modSpad s d f).part = s.part := rfl
@[simp] theorem modSpad_pages (d : Nat) (f : Spad → Spad) : (modSpad s d f).pages = s.pages := rfl
@[simp] theorem modSpad_mem (d : Nat) (f : Spad → Spad) : (modSpad s d f).mem = s.mem := rfl
@[simp] theorem modSpad_poison (d : Nat) (f : Spad → Spad) : (modSpad s d f).poison = s.poison := rfl
@[simp] theorem modSpad_dark (d : Nat) (f : Spad → Spad) : (modSpad s d f).dark = s.dark := rfl
@[simp] theorem modSpad_darkPoison (d : Nat) (f : Spad → Spad) : (modSpad s d f).darkPoison = s.darkPoison := rfl
@[simp] theorem modSpad_darkErrs (d : Nat) (f : Spad → Spad) : (modSpad s d f).darkErrs = s.darkErrs := rfl
@[simp] theorem modSpad_memErrs (d : Nat) (f : Spad → Spad) : (modSpad s d f).memErrs = s.memErrs := rfl
@[simp] theorem modSpad_sealedG (d : Nat) (f : Spad → Spad) : (modSpad s d f).sealedG = s.sealedG := rfl
@[simp] theorem modSpad_seals (d : Nat) (f : Spad → Spad) : (modSpad s d f).seals = s.seals := rfl
@[simp] theorem modSpad_ports (d : Nat) (f : Spad → Spad) : (modSpad s d f).ports = s.ports := rfl
@[simp] theorem modSpad_tenants (d : Nat) (f : Spad → Spad) : (modSpad s d f).tenants = s.tenants := rfl
@[simp] theorem modSpad_jobs (d : Nat) (f : Spad → Spad) : (modSpad s d f).jobs = s.jobs := rfl
@[simp] theorem modSpad_hostIf (d : Nat) (f : Spad → Spad) : (modSpad s d f).hostIf = s.hostIf := rfl
@[simp] theorem modSpad_hen (d : Nat) (f : Spad → Spad) : (modSpad s d f).hen = s.hen := rfl
@[simp] theorem modSpad_ledger (d : Nat) (f : Spad → Spad) : (modSpad s d f).ledger = s.ledger := rfl
@[simp] theorem modSpad_drakes (d : Nat) (f : Spad → Spad) : (modSpad s d f).drakes = s.drakes := rfl
@[simp] theorem modSpad_oxs (d : Nat) (f : Spad → Spad) : (modSpad s d f).oxs = s.oxs := rfl
@[simp] theorem modSpad_ponys (d : Nat) (f : Spad → Spad) : (modSpad s d f).ponys = s.ponys := rfl
@[simp] theorem modSpad_mule (d : Nat) (f : Spad → Spad) : (modSpad s d f).mule = s.mule := rfl
@[simp] theorem modSpad_solvs (d : Nat) (f : Spad → Spad) : (modSpad s d f).solvs = s.solvs := rfl
@[simp] theorem modSpad_links (d : Nat) (f : Spad → Spad) : (modSpad s d f).links = s.links := rfl
@[simp] theorem modSpad_sw (d : Nat) (f : Spad → Spad) : (modSpad s d f).sw = s.sw := rfl
@[simp] theorem modSpad_coll (d : Nat) (f : Spad → Spad) : (modSpad s d f).coll = s.coll := rfl
@[simp] theorem modSpad_xag (d : Nat) (f : Spad → Spad) : (modSpad s d f).xag = s.xag := rfl
@[simp] theorem modSpad_mgmt (d : Nat) (f : Spad → Spad) : (modSpad s d f).mgmt = s.mgmt := rfl
@[simp] theorem modSpad_pwr (d : Nat) (f : Spad → Spad) : (modSpad s d f).pwr = s.pwr := rfl
@[simp] theorem modSpad_arbs (d : Nat) (f : Spad → Spad) : (modSpad s d f).arbs = s.arbs := rfl
@[simp] theorem modSpad_tap (d : Nat) (f : Spad → Spad) : (modSpad s d f).tap = s.tap := rfl
@[simp] theorem modSpad_gclk (d : Nat) (f : Spad → Spad) : (modSpad s d f).gclk = s.gclk := rfl
@[simp] theorem modSpad_out (d : Nat) (f : Spad → Spad) : (modSpad s d f).out = s.out := rfl
@[simp] theorem modSpad_freeCount (d : Nat) (f : Spad → Spad) : (modSpad s d f).freeCount = s.freeCount := rfl
@[simp] theorem modSpad_pending (d : Nat) (f : Spad → Spad) : (modSpad s d f).pending = s.pending := rfl

/-! A shared set changed. -/

@[simp] theorem modSet_part (d k : Nat) (f : SharedSet → SharedSet) : (modSet s d k f).part = s.part := rfl
@[simp] theorem modSet_pages (d k : Nat) (f : SharedSet → SharedSet) : (modSet s d k f).pages = s.pages := rfl
@[simp] theorem modSet_mem (d k : Nat) (f : SharedSet → SharedSet) : (modSet s d k f).mem = s.mem := rfl
@[simp] theorem modSet_poison (d k : Nat) (f : SharedSet → SharedSet) : (modSet s d k f).poison = s.poison := rfl
@[simp] theorem modSet_dark (d k : Nat) (f : SharedSet → SharedSet) : (modSet s d k f).dark = s.dark := rfl
@[simp] theorem modSet_darkPoison (d k : Nat) (f : SharedSet → SharedSet) : (modSet s d k f).darkPoison = s.darkPoison := rfl
@[simp] theorem modSet_darkErrs (d k : Nat) (f : SharedSet → SharedSet) : (modSet s d k f).darkErrs = s.darkErrs := rfl
@[simp] theorem modSet_memErrs (d k : Nat) (f : SharedSet → SharedSet) : (modSet s d k f).memErrs = s.memErrs := rfl
@[simp] theorem modSet_sealedG (d k : Nat) (f : SharedSet → SharedSet) : (modSet s d k f).sealedG = s.sealedG := rfl
@[simp] theorem modSet_seals (d k : Nat) (f : SharedSet → SharedSet) : (modSet s d k f).seals = s.seals := rfl
@[simp] theorem modSet_ports (d k : Nat) (f : SharedSet → SharedSet) : (modSet s d k f).ports = s.ports := rfl
@[simp] theorem modSet_tenants (d k : Nat) (f : SharedSet → SharedSet) : (modSet s d k f).tenants = s.tenants := rfl
@[simp] theorem modSet_jobs (d k : Nat) (f : SharedSet → SharedSet) : (modSet s d k f).jobs = s.jobs := rfl
@[simp] theorem modSet_hostIf (d k : Nat) (f : SharedSet → SharedSet) : (modSet s d k f).hostIf = s.hostIf := rfl
@[simp] theorem modSet_hen (d k : Nat) (f : SharedSet → SharedSet) : (modSet s d k f).hen = s.hen := rfl
@[simp] theorem modSet_ledger (d k : Nat) (f : SharedSet → SharedSet) : (modSet s d k f).ledger = s.ledger := rfl
@[simp] theorem modSet_drakes (d k : Nat) (f : SharedSet → SharedSet) : (modSet s d k f).drakes = s.drakes := rfl
@[simp] theorem modSet_oxs (d k : Nat) (f : SharedSet → SharedSet) : (modSet s d k f).oxs = s.oxs := rfl
@[simp] theorem modSet_ponys (d k : Nat) (f : SharedSet → SharedSet) : (modSet s d k f).ponys = s.ponys := rfl
@[simp] theorem modSet_mule (d k : Nat) (f : SharedSet → SharedSet) : (modSet s d k f).mule = s.mule := rfl
@[simp] theorem modSet_solvs (d k : Nat) (f : SharedSet → SharedSet) : (modSet s d k f).solvs = s.solvs := rfl
@[simp] theorem modSet_links (d k : Nat) (f : SharedSet → SharedSet) : (modSet s d k f).links = s.links := rfl
@[simp] theorem modSet_sw (d k : Nat) (f : SharedSet → SharedSet) : (modSet s d k f).sw = s.sw := rfl
@[simp] theorem modSet_coll (d k : Nat) (f : SharedSet → SharedSet) : (modSet s d k f).coll = s.coll := rfl
@[simp] theorem modSet_xag (d k : Nat) (f : SharedSet → SharedSet) : (modSet s d k f).xag = s.xag := rfl
@[simp] theorem modSet_mgmt (d k : Nat) (f : SharedSet → SharedSet) : (modSet s d k f).mgmt = s.mgmt := rfl
@[simp] theorem modSet_pwr (d k : Nat) (f : SharedSet → SharedSet) : (modSet s d k f).pwr = s.pwr := rfl
@[simp] theorem modSet_arbs (d k : Nat) (f : SharedSet → SharedSet) : (modSet s d k f).arbs = s.arbs := rfl
@[simp] theorem modSet_tap (d k : Nat) (f : SharedSet → SharedSet) : (modSet s d k f).tap = s.tap := rfl
@[simp] theorem modSet_gclk (d k : Nat) (f : SharedSet → SharedSet) : (modSet s d k f).gclk = s.gclk := rfl
@[simp] theorem modSet_out (d k : Nat) (f : SharedSet → SharedSet) : (modSet s d k f).out = s.out := rfl
@[simp] theorem modSet_freeCount (d k : Nat) (f : SharedSet → SharedSet) : (modSet s d k f).freeCount = s.freeCount := rfl
@[simp] theorem modSet_pending (d k : Nat) (f : SharedSet → SharedSet) : (modSet s d k f).pending = s.pending := rfl

/-! A job changed. -/

@[simp] theorem modJob_part (j : Job) (f : Job → Job) : (modJob s j f).part = s.part := rfl
@[simp] theorem modJob_pages (j : Job) (f : Job → Job) : (modJob s j f).pages = s.pages := rfl
@[simp] theorem modJob_mem (j : Job) (f : Job → Job) : (modJob s j f).mem = s.mem := rfl
@[simp] theorem modJob_poison (j : Job) (f : Job → Job) : (modJob s j f).poison = s.poison := rfl
@[simp] theorem modJob_dark (j : Job) (f : Job → Job) : (modJob s j f).dark = s.dark := rfl
@[simp] theorem modJob_darkPoison (j : Job) (f : Job → Job) : (modJob s j f).darkPoison = s.darkPoison := rfl
@[simp] theorem modJob_darkErrs (j : Job) (f : Job → Job) : (modJob s j f).darkErrs = s.darkErrs := rfl
@[simp] theorem modJob_memErrs (j : Job) (f : Job → Job) : (modJob s j f).memErrs = s.memErrs := rfl
@[simp] theorem modJob_sealedG (j : Job) (f : Job → Job) : (modJob s j f).sealedG = s.sealedG := rfl
@[simp] theorem modJob_seals (j : Job) (f : Job → Job) : (modJob s j f).seals = s.seals := rfl
@[simp] theorem modJob_spads (j : Job) (f : Job → Job) : (modJob s j f).spads = s.spads := rfl
@[simp] theorem modJob_ports (j : Job) (f : Job → Job) : (modJob s j f).ports = s.ports := rfl
@[simp] theorem modJob_tenants (j : Job) (f : Job → Job) : (modJob s j f).tenants = s.tenants := rfl
@[simp] theorem modJob_hostIf (j : Job) (f : Job → Job) : (modJob s j f).hostIf = s.hostIf := rfl
@[simp] theorem modJob_hen (j : Job) (f : Job → Job) : (modJob s j f).hen = s.hen := rfl
@[simp] theorem modJob_ledger (j : Job) (f : Job → Job) : (modJob s j f).ledger = s.ledger := rfl
@[simp] theorem modJob_drakes (j : Job) (f : Job → Job) : (modJob s j f).drakes = s.drakes := rfl
@[simp] theorem modJob_oxs (j : Job) (f : Job → Job) : (modJob s j f).oxs = s.oxs := rfl
@[simp] theorem modJob_ponys (j : Job) (f : Job → Job) : (modJob s j f).ponys = s.ponys := rfl
@[simp] theorem modJob_mule (j : Job) (f : Job → Job) : (modJob s j f).mule = s.mule := rfl
@[simp] theorem modJob_solvs (j : Job) (f : Job → Job) : (modJob s j f).solvs = s.solvs := rfl
@[simp] theorem modJob_links (j : Job) (f : Job → Job) : (modJob s j f).links = s.links := rfl
@[simp] theorem modJob_sw (j : Job) (f : Job → Job) : (modJob s j f).sw = s.sw := rfl
@[simp] theorem modJob_coll (j : Job) (f : Job → Job) : (modJob s j f).coll = s.coll := rfl
@[simp] theorem modJob_xag (j : Job) (f : Job → Job) : (modJob s j f).xag = s.xag := rfl
@[simp] theorem modJob_mgmt (j : Job) (f : Job → Job) : (modJob s j f).mgmt = s.mgmt := rfl
@[simp] theorem modJob_pwr (j : Job) (f : Job → Job) : (modJob s j f).pwr = s.pwr := rfl
@[simp] theorem modJob_arbs (j : Job) (f : Job → Job) : (modJob s j f).arbs = s.arbs := rfl
@[simp] theorem modJob_tap (j : Job) (f : Job → Job) : (modJob s j f).tap = s.tap := rfl
@[simp] theorem modJob_gclk (j : Job) (f : Job → Job) : (modJob s j f).gclk = s.gclk := rfl
@[simp] theorem modJob_out (j : Job) (f : Job → Job) : (modJob s j f).out = s.out := rfl
@[simp] theorem modJob_freeCount (j : Job) (f : Job → Job) : (modJob s j f).freeCount = s.freeCount := rfl
@[simp] theorem modJob_pending (j : Job) (f : Job → Job) : (modJob s j f).pending = s.pending := rfl

/-! The time of a step noted. -/

@[simp] theorem atTime_part (now : Nat) : (atTime s now).part = s.part := rfl
@[simp] theorem atTime_pages (now : Nat) : (atTime s now).pages = s.pages := rfl
@[simp] theorem atTime_mem (now : Nat) : (atTime s now).mem = s.mem := rfl
@[simp] theorem atTime_poison (now : Nat) : (atTime s now).poison = s.poison := rfl
@[simp] theorem atTime_dark (now : Nat) : (atTime s now).dark = s.dark := rfl
@[simp] theorem atTime_darkPoison (now : Nat) : (atTime s now).darkPoison = s.darkPoison := rfl
@[simp] theorem atTime_darkErrs (now : Nat) : (atTime s now).darkErrs = s.darkErrs := rfl
@[simp] theorem atTime_memErrs (now : Nat) : (atTime s now).memErrs = s.memErrs := rfl
@[simp] theorem atTime_sealedG (now : Nat) : (atTime s now).sealedG = s.sealedG := rfl
@[simp] theorem atTime_seals (now : Nat) : (atTime s now).seals = s.seals := rfl
@[simp] theorem atTime_spads (now : Nat) : (atTime s now).spads = s.spads := rfl
@[simp] theorem atTime_ports (now : Nat) : (atTime s now).ports = s.ports := rfl
@[simp] theorem atTime_tenants (now : Nat) : (atTime s now).tenants = s.tenants := rfl
@[simp] theorem atTime_jobs (now : Nat) : (atTime s now).jobs = s.jobs := rfl
@[simp] theorem atTime_hostIf (now : Nat) : (atTime s now).hostIf = s.hostIf := rfl
@[simp] theorem atTime_hen (now : Nat) : (atTime s now).hen = s.hen := rfl
@[simp] theorem atTime_ledger (now : Nat) : (atTime s now).ledger = s.ledger := rfl
@[simp] theorem atTime_drakes (now : Nat) : (atTime s now).drakes = s.drakes := rfl
@[simp] theorem atTime_oxs (now : Nat) : (atTime s now).oxs = s.oxs := rfl
@[simp] theorem atTime_ponys (now : Nat) : (atTime s now).ponys = s.ponys := rfl
@[simp] theorem atTime_mule (now : Nat) : (atTime s now).mule = s.mule := rfl
@[simp] theorem atTime_solvs (now : Nat) : (atTime s now).solvs = s.solvs := rfl
@[simp] theorem atTime_links (now : Nat) : (atTime s now).links = s.links := rfl
@[simp] theorem atTime_sw (now : Nat) : (atTime s now).sw = s.sw := rfl
@[simp] theorem atTime_coll (now : Nat) : (atTime s now).coll = s.coll := rfl
@[simp] theorem atTime_xag (now : Nat) : (atTime s now).xag = s.xag := rfl
@[simp] theorem atTime_mgmt (now : Nat) : (atTime s now).mgmt = s.mgmt := rfl
@[simp] theorem atTime_pwr (now : Nat) : (atTime s now).pwr = s.pwr := rfl
@[simp] theorem atTime_arbs (now : Nat) : (atTime s now).arbs = s.arbs := rfl
@[simp] theorem atTime_tap (now : Nat) : (atTime s now).tap = s.tap := rfl
@[simp] theorem atTime_out (now : Nat) : (atTime s now).out = s.out := rfl
@[simp] theorem atTime_freeCount (now : Nat) : (atTime s now).freeCount = s.freeCount := rfl
@[simp] theorem atTime_pending (now : Nat) : (atTime s now).pending = s.pending := rfl

/-! A Drake group changed. -/

@[simp] theorem modDrake_part (g : Nat) (f : DrakeGrp → DrakeGrp) : (modDrake s g f).part = s.part := rfl
@[simp] theorem modDrake_pages (g : Nat) (f : DrakeGrp → DrakeGrp) : (modDrake s g f).pages = s.pages := rfl
@[simp] theorem modDrake_mem (g : Nat) (f : DrakeGrp → DrakeGrp) : (modDrake s g f).mem = s.mem := rfl
@[simp] theorem modDrake_poison (g : Nat) (f : DrakeGrp → DrakeGrp) : (modDrake s g f).poison = s.poison := rfl
@[simp] theorem modDrake_dark (g : Nat) (f : DrakeGrp → DrakeGrp) : (modDrake s g f).dark = s.dark := rfl
@[simp] theorem modDrake_darkPoison (g : Nat) (f : DrakeGrp → DrakeGrp) : (modDrake s g f).darkPoison = s.darkPoison := rfl
@[simp] theorem modDrake_darkErrs (g : Nat) (f : DrakeGrp → DrakeGrp) : (modDrake s g f).darkErrs = s.darkErrs := rfl
@[simp] theorem modDrake_memErrs (g : Nat) (f : DrakeGrp → DrakeGrp) : (modDrake s g f).memErrs = s.memErrs := rfl
@[simp] theorem modDrake_sealedG (g : Nat) (f : DrakeGrp → DrakeGrp) : (modDrake s g f).sealedG = s.sealedG := rfl
@[simp] theorem modDrake_seals (g : Nat) (f : DrakeGrp → DrakeGrp) : (modDrake s g f).seals = s.seals := rfl
@[simp] theorem modDrake_spads (g : Nat) (f : DrakeGrp → DrakeGrp) : (modDrake s g f).spads = s.spads := rfl
@[simp] theorem modDrake_ports (g : Nat) (f : DrakeGrp → DrakeGrp) : (modDrake s g f).ports = s.ports := rfl
@[simp] theorem modDrake_tenants (g : Nat) (f : DrakeGrp → DrakeGrp) : (modDrake s g f).tenants = s.tenants := rfl
@[simp] theorem modDrake_jobs (g : Nat) (f : DrakeGrp → DrakeGrp) : (modDrake s g f).jobs = s.jobs := rfl
@[simp] theorem modDrake_hostIf (g : Nat) (f : DrakeGrp → DrakeGrp) : (modDrake s g f).hostIf = s.hostIf := rfl
@[simp] theorem modDrake_hen (g : Nat) (f : DrakeGrp → DrakeGrp) : (modDrake s g f).hen = s.hen := rfl
@[simp] theorem modDrake_ledger (g : Nat) (f : DrakeGrp → DrakeGrp) : (modDrake s g f).ledger = s.ledger := rfl
@[simp] theorem modDrake_oxs (g : Nat) (f : DrakeGrp → DrakeGrp) : (modDrake s g f).oxs = s.oxs := rfl
@[simp] theorem modDrake_ponys (g : Nat) (f : DrakeGrp → DrakeGrp) : (modDrake s g f).ponys = s.ponys := rfl
@[simp] theorem modDrake_mule (g : Nat) (f : DrakeGrp → DrakeGrp) : (modDrake s g f).mule = s.mule := rfl
@[simp] theorem modDrake_solvs (g : Nat) (f : DrakeGrp → DrakeGrp) : (modDrake s g f).solvs = s.solvs := rfl
@[simp] theorem modDrake_links (g : Nat) (f : DrakeGrp → DrakeGrp) : (modDrake s g f).links = s.links := rfl
@[simp] theorem modDrake_sw (g : Nat) (f : DrakeGrp → DrakeGrp) : (modDrake s g f).sw = s.sw := rfl
@[simp] theorem modDrake_coll (g : Nat) (f : DrakeGrp → DrakeGrp) : (modDrake s g f).coll = s.coll := rfl
@[simp] theorem modDrake_xag (g : Nat) (f : DrakeGrp → DrakeGrp) : (modDrake s g f).xag = s.xag := rfl
@[simp] theorem modDrake_mgmt (g : Nat) (f : DrakeGrp → DrakeGrp) : (modDrake s g f).mgmt = s.mgmt := rfl
@[simp] theorem modDrake_pwr (g : Nat) (f : DrakeGrp → DrakeGrp) : (modDrake s g f).pwr = s.pwr := rfl
@[simp] theorem modDrake_arbs (g : Nat) (f : DrakeGrp → DrakeGrp) : (modDrake s g f).arbs = s.arbs := rfl
@[simp] theorem modDrake_tap (g : Nat) (f : DrakeGrp → DrakeGrp) : (modDrake s g f).tap = s.tap := rfl
@[simp] theorem modDrake_gclk (g : Nat) (f : DrakeGrp → DrakeGrp) : (modDrake s g f).gclk = s.gclk := rfl
@[simp] theorem modDrake_out (g : Nat) (f : DrakeGrp → DrakeGrp) : (modDrake s g f).out = s.out := rfl
@[simp] theorem modDrake_freeCount (g : Nat) (f : DrakeGrp → DrakeGrp) : (modDrake s g f).freeCount = s.freeCount := rfl
@[simp] theorem modDrake_pending (g : Nat) (f : DrakeGrp → DrakeGrp) : (modDrake s g f).pending = s.pending := rfl

/-! An array changed. -/

@[simp] theorem modOx_part (a : Nat) (f : OxArr → OxArr) : (modOx s a f).part = s.part := rfl
@[simp] theorem modOx_pages (a : Nat) (f : OxArr → OxArr) : (modOx s a f).pages = s.pages := rfl
@[simp] theorem modOx_mem (a : Nat) (f : OxArr → OxArr) : (modOx s a f).mem = s.mem := rfl
@[simp] theorem modOx_poison (a : Nat) (f : OxArr → OxArr) : (modOx s a f).poison = s.poison := rfl
@[simp] theorem modOx_dark (a : Nat) (f : OxArr → OxArr) : (modOx s a f).dark = s.dark := rfl
@[simp] theorem modOx_darkPoison (a : Nat) (f : OxArr → OxArr) : (modOx s a f).darkPoison = s.darkPoison := rfl
@[simp] theorem modOx_darkErrs (a : Nat) (f : OxArr → OxArr) : (modOx s a f).darkErrs = s.darkErrs := rfl
@[simp] theorem modOx_memErrs (a : Nat) (f : OxArr → OxArr) : (modOx s a f).memErrs = s.memErrs := rfl
@[simp] theorem modOx_sealedG (a : Nat) (f : OxArr → OxArr) : (modOx s a f).sealedG = s.sealedG := rfl
@[simp] theorem modOx_seals (a : Nat) (f : OxArr → OxArr) : (modOx s a f).seals = s.seals := rfl
@[simp] theorem modOx_spads (a : Nat) (f : OxArr → OxArr) : (modOx s a f).spads = s.spads := rfl
@[simp] theorem modOx_ports (a : Nat) (f : OxArr → OxArr) : (modOx s a f).ports = s.ports := rfl
@[simp] theorem modOx_tenants (a : Nat) (f : OxArr → OxArr) : (modOx s a f).tenants = s.tenants := rfl
@[simp] theorem modOx_jobs (a : Nat) (f : OxArr → OxArr) : (modOx s a f).jobs = s.jobs := rfl
@[simp] theorem modOx_hostIf (a : Nat) (f : OxArr → OxArr) : (modOx s a f).hostIf = s.hostIf := rfl
@[simp] theorem modOx_hen (a : Nat) (f : OxArr → OxArr) : (modOx s a f).hen = s.hen := rfl
@[simp] theorem modOx_ledger (a : Nat) (f : OxArr → OxArr) : (modOx s a f).ledger = s.ledger := rfl
@[simp] theorem modOx_drakes (a : Nat) (f : OxArr → OxArr) : (modOx s a f).drakes = s.drakes := rfl
@[simp] theorem modOx_ponys (a : Nat) (f : OxArr → OxArr) : (modOx s a f).ponys = s.ponys := rfl
@[simp] theorem modOx_mule (a : Nat) (f : OxArr → OxArr) : (modOx s a f).mule = s.mule := rfl
@[simp] theorem modOx_solvs (a : Nat) (f : OxArr → OxArr) : (modOx s a f).solvs = s.solvs := rfl
@[simp] theorem modOx_links (a : Nat) (f : OxArr → OxArr) : (modOx s a f).links = s.links := rfl
@[simp] theorem modOx_sw (a : Nat) (f : OxArr → OxArr) : (modOx s a f).sw = s.sw := rfl
@[simp] theorem modOx_coll (a : Nat) (f : OxArr → OxArr) : (modOx s a f).coll = s.coll := rfl
@[simp] theorem modOx_xag (a : Nat) (f : OxArr → OxArr) : (modOx s a f).xag = s.xag := rfl
@[simp] theorem modOx_mgmt (a : Nat) (f : OxArr → OxArr) : (modOx s a f).mgmt = s.mgmt := rfl
@[simp] theorem modOx_pwr (a : Nat) (f : OxArr → OxArr) : (modOx s a f).pwr = s.pwr := rfl
@[simp] theorem modOx_arbs (a : Nat) (f : OxArr → OxArr) : (modOx s a f).arbs = s.arbs := rfl
@[simp] theorem modOx_tap (a : Nat) (f : OxArr → OxArr) : (modOx s a f).tap = s.tap := rfl
@[simp] theorem modOx_gclk (a : Nat) (f : OxArr → OxArr) : (modOx s a f).gclk = s.gclk := rfl
@[simp] theorem modOx_out (a : Nat) (f : OxArr → OxArr) : (modOx s a f).out = s.out := rfl
@[simp] theorem modOx_freeCount (a : Nat) (f : OxArr → OxArr) : (modOx s a f).freeCount = s.freeCount := rfl
@[simp] theorem modOx_pending (a : Nat) (f : OxArr → OxArr) : (modOx s a f).pending = s.pending := rfl

/-! A slice changed. -/

@[simp] theorem modPony_part (n : Nat) (f : PonySl → PonySl) : (modPony s n f).part = s.part := rfl
@[simp] theorem modPony_pages (n : Nat) (f : PonySl → PonySl) : (modPony s n f).pages = s.pages := rfl
@[simp] theorem modPony_mem (n : Nat) (f : PonySl → PonySl) : (modPony s n f).mem = s.mem := rfl
@[simp] theorem modPony_poison (n : Nat) (f : PonySl → PonySl) : (modPony s n f).poison = s.poison := rfl
@[simp] theorem modPony_dark (n : Nat) (f : PonySl → PonySl) : (modPony s n f).dark = s.dark := rfl
@[simp] theorem modPony_darkPoison (n : Nat) (f : PonySl → PonySl) : (modPony s n f).darkPoison = s.darkPoison := rfl
@[simp] theorem modPony_darkErrs (n : Nat) (f : PonySl → PonySl) : (modPony s n f).darkErrs = s.darkErrs := rfl
@[simp] theorem modPony_memErrs (n : Nat) (f : PonySl → PonySl) : (modPony s n f).memErrs = s.memErrs := rfl
@[simp] theorem modPony_sealedG (n : Nat) (f : PonySl → PonySl) : (modPony s n f).sealedG = s.sealedG := rfl
@[simp] theorem modPony_seals (n : Nat) (f : PonySl → PonySl) : (modPony s n f).seals = s.seals := rfl
@[simp] theorem modPony_spads (n : Nat) (f : PonySl → PonySl) : (modPony s n f).spads = s.spads := rfl
@[simp] theorem modPony_ports (n : Nat) (f : PonySl → PonySl) : (modPony s n f).ports = s.ports := rfl
@[simp] theorem modPony_tenants (n : Nat) (f : PonySl → PonySl) : (modPony s n f).tenants = s.tenants := rfl
@[simp] theorem modPony_jobs (n : Nat) (f : PonySl → PonySl) : (modPony s n f).jobs = s.jobs := rfl
@[simp] theorem modPony_hostIf (n : Nat) (f : PonySl → PonySl) : (modPony s n f).hostIf = s.hostIf := rfl
@[simp] theorem modPony_hen (n : Nat) (f : PonySl → PonySl) : (modPony s n f).hen = s.hen := rfl
@[simp] theorem modPony_ledger (n : Nat) (f : PonySl → PonySl) : (modPony s n f).ledger = s.ledger := rfl
@[simp] theorem modPony_drakes (n : Nat) (f : PonySl → PonySl) : (modPony s n f).drakes = s.drakes := rfl
@[simp] theorem modPony_oxs (n : Nat) (f : PonySl → PonySl) : (modPony s n f).oxs = s.oxs := rfl
@[simp] theorem modPony_mule (n : Nat) (f : PonySl → PonySl) : (modPony s n f).mule = s.mule := rfl
@[simp] theorem modPony_solvs (n : Nat) (f : PonySl → PonySl) : (modPony s n f).solvs = s.solvs := rfl
@[simp] theorem modPony_links (n : Nat) (f : PonySl → PonySl) : (modPony s n f).links = s.links := rfl
@[simp] theorem modPony_sw (n : Nat) (f : PonySl → PonySl) : (modPony s n f).sw = s.sw := rfl
@[simp] theorem modPony_coll (n : Nat) (f : PonySl → PonySl) : (modPony s n f).coll = s.coll := rfl
@[simp] theorem modPony_xag (n : Nat) (f : PonySl → PonySl) : (modPony s n f).xag = s.xag := rfl
@[simp] theorem modPony_mgmt (n : Nat) (f : PonySl → PonySl) : (modPony s n f).mgmt = s.mgmt := rfl
@[simp] theorem modPony_pwr (n : Nat) (f : PonySl → PonySl) : (modPony s n f).pwr = s.pwr := rfl
@[simp] theorem modPony_arbs (n : Nat) (f : PonySl → PonySl) : (modPony s n f).arbs = s.arbs := rfl
@[simp] theorem modPony_tap (n : Nat) (f : PonySl → PonySl) : (modPony s n f).tap = s.tap := rfl
@[simp] theorem modPony_gclk (n : Nat) (f : PonySl → PonySl) : (modPony s n f).gclk = s.gclk := rfl
@[simp] theorem modPony_out (n : Nat) (f : PonySl → PonySl) : (modPony s n f).out = s.out := rfl
@[simp] theorem modPony_freeCount (n : Nat) (f : PonySl → PonySl) : (modPony s n f).freeCount = s.freeCount := rfl
@[simp] theorem modPony_pending (n : Nat) (f : PonySl → PonySl) : (modPony s n f).pending = s.pending := rfl

/-! A unit's systems changed. -/

@[simp] theorem modSolv_part (u : Nat) (f : Tab SolSys → Tab SolSys) : (modSolv s u f).part = s.part := rfl
@[simp] theorem modSolv_pages (u : Nat) (f : Tab SolSys → Tab SolSys) : (modSolv s u f).pages = s.pages := rfl
@[simp] theorem modSolv_mem (u : Nat) (f : Tab SolSys → Tab SolSys) : (modSolv s u f).mem = s.mem := rfl
@[simp] theorem modSolv_poison (u : Nat) (f : Tab SolSys → Tab SolSys) : (modSolv s u f).poison = s.poison := rfl
@[simp] theorem modSolv_dark (u : Nat) (f : Tab SolSys → Tab SolSys) : (modSolv s u f).dark = s.dark := rfl
@[simp] theorem modSolv_darkPoison (u : Nat) (f : Tab SolSys → Tab SolSys) : (modSolv s u f).darkPoison = s.darkPoison := rfl
@[simp] theorem modSolv_darkErrs (u : Nat) (f : Tab SolSys → Tab SolSys) : (modSolv s u f).darkErrs = s.darkErrs := rfl
@[simp] theorem modSolv_memErrs (u : Nat) (f : Tab SolSys → Tab SolSys) : (modSolv s u f).memErrs = s.memErrs := rfl
@[simp] theorem modSolv_sealedG (u : Nat) (f : Tab SolSys → Tab SolSys) : (modSolv s u f).sealedG = s.sealedG := rfl
@[simp] theorem modSolv_seals (u : Nat) (f : Tab SolSys → Tab SolSys) : (modSolv s u f).seals = s.seals := rfl
@[simp] theorem modSolv_spads (u : Nat) (f : Tab SolSys → Tab SolSys) : (modSolv s u f).spads = s.spads := rfl
@[simp] theorem modSolv_ports (u : Nat) (f : Tab SolSys → Tab SolSys) : (modSolv s u f).ports = s.ports := rfl
@[simp] theorem modSolv_tenants (u : Nat) (f : Tab SolSys → Tab SolSys) : (modSolv s u f).tenants = s.tenants := rfl
@[simp] theorem modSolv_jobs (u : Nat) (f : Tab SolSys → Tab SolSys) : (modSolv s u f).jobs = s.jobs := rfl
@[simp] theorem modSolv_hostIf (u : Nat) (f : Tab SolSys → Tab SolSys) : (modSolv s u f).hostIf = s.hostIf := rfl
@[simp] theorem modSolv_hen (u : Nat) (f : Tab SolSys → Tab SolSys) : (modSolv s u f).hen = s.hen := rfl
@[simp] theorem modSolv_ledger (u : Nat) (f : Tab SolSys → Tab SolSys) : (modSolv s u f).ledger = s.ledger := rfl
@[simp] theorem modSolv_drakes (u : Nat) (f : Tab SolSys → Tab SolSys) : (modSolv s u f).drakes = s.drakes := rfl
@[simp] theorem modSolv_oxs (u : Nat) (f : Tab SolSys → Tab SolSys) : (modSolv s u f).oxs = s.oxs := rfl
@[simp] theorem modSolv_ponys (u : Nat) (f : Tab SolSys → Tab SolSys) : (modSolv s u f).ponys = s.ponys := rfl
@[simp] theorem modSolv_mule (u : Nat) (f : Tab SolSys → Tab SolSys) : (modSolv s u f).mule = s.mule := rfl
@[simp] theorem modSolv_links (u : Nat) (f : Tab SolSys → Tab SolSys) : (modSolv s u f).links = s.links := rfl
@[simp] theorem modSolv_sw (u : Nat) (f : Tab SolSys → Tab SolSys) : (modSolv s u f).sw = s.sw := rfl
@[simp] theorem modSolv_coll (u : Nat) (f : Tab SolSys → Tab SolSys) : (modSolv s u f).coll = s.coll := rfl
@[simp] theorem modSolv_xag (u : Nat) (f : Tab SolSys → Tab SolSys) : (modSolv s u f).xag = s.xag := rfl
@[simp] theorem modSolv_mgmt (u : Nat) (f : Tab SolSys → Tab SolSys) : (modSolv s u f).mgmt = s.mgmt := rfl
@[simp] theorem modSolv_pwr (u : Nat) (f : Tab SolSys → Tab SolSys) : (modSolv s u f).pwr = s.pwr := rfl
@[simp] theorem modSolv_arbs (u : Nat) (f : Tab SolSys → Tab SolSys) : (modSolv s u f).arbs = s.arbs := rfl
@[simp] theorem modSolv_tap (u : Nat) (f : Tab SolSys → Tab SolSys) : (modSolv s u f).tap = s.tap := rfl
@[simp] theorem modSolv_gclk (u : Nat) (f : Tab SolSys → Tab SolSys) : (modSolv s u f).gclk = s.gclk := rfl
@[simp] theorem modSolv_out (u : Nat) (f : Tab SolSys → Tab SolSys) : (modSolv s u f).out = s.out := rfl
@[simp] theorem modSolv_freeCount (u : Nat) (f : Tab SolSys → Tab SolSys) : (modSolv s u f).freeCount = s.freeCount := rfl
@[simp] theorem modSolv_pending (u : Nat) (f : Tab SolSys → Tab SolSys) : (modSolv s u f).pending = s.pending := rfl

/-! A link changed. -/

@[simp] theorem modLink_part (n : Nat) (f : Link → Link) : (modLink s n f).part = s.part := rfl
@[simp] theorem modLink_pages (n : Nat) (f : Link → Link) : (modLink s n f).pages = s.pages := rfl
@[simp] theorem modLink_mem (n : Nat) (f : Link → Link) : (modLink s n f).mem = s.mem := rfl
@[simp] theorem modLink_poison (n : Nat) (f : Link → Link) : (modLink s n f).poison = s.poison := rfl
@[simp] theorem modLink_dark (n : Nat) (f : Link → Link) : (modLink s n f).dark = s.dark := rfl
@[simp] theorem modLink_darkPoison (n : Nat) (f : Link → Link) : (modLink s n f).darkPoison = s.darkPoison := rfl
@[simp] theorem modLink_darkErrs (n : Nat) (f : Link → Link) : (modLink s n f).darkErrs = s.darkErrs := rfl
@[simp] theorem modLink_memErrs (n : Nat) (f : Link → Link) : (modLink s n f).memErrs = s.memErrs := rfl
@[simp] theorem modLink_sealedG (n : Nat) (f : Link → Link) : (modLink s n f).sealedG = s.sealedG := rfl
@[simp] theorem modLink_seals (n : Nat) (f : Link → Link) : (modLink s n f).seals = s.seals := rfl
@[simp] theorem modLink_spads (n : Nat) (f : Link → Link) : (modLink s n f).spads = s.spads := rfl
@[simp] theorem modLink_ports (n : Nat) (f : Link → Link) : (modLink s n f).ports = s.ports := rfl
@[simp] theorem modLink_tenants (n : Nat) (f : Link → Link) : (modLink s n f).tenants = s.tenants := rfl
@[simp] theorem modLink_jobs (n : Nat) (f : Link → Link) : (modLink s n f).jobs = s.jobs := rfl
@[simp] theorem modLink_hostIf (n : Nat) (f : Link → Link) : (modLink s n f).hostIf = s.hostIf := rfl
@[simp] theorem modLink_hen (n : Nat) (f : Link → Link) : (modLink s n f).hen = s.hen := rfl
@[simp] theorem modLink_ledger (n : Nat) (f : Link → Link) : (modLink s n f).ledger = s.ledger := rfl
@[simp] theorem modLink_drakes (n : Nat) (f : Link → Link) : (modLink s n f).drakes = s.drakes := rfl
@[simp] theorem modLink_oxs (n : Nat) (f : Link → Link) : (modLink s n f).oxs = s.oxs := rfl
@[simp] theorem modLink_ponys (n : Nat) (f : Link → Link) : (modLink s n f).ponys = s.ponys := rfl
@[simp] theorem modLink_mule (n : Nat) (f : Link → Link) : (modLink s n f).mule = s.mule := rfl
@[simp] theorem modLink_solvs (n : Nat) (f : Link → Link) : (modLink s n f).solvs = s.solvs := rfl
@[simp] theorem modLink_sw (n : Nat) (f : Link → Link) : (modLink s n f).sw = s.sw := rfl
@[simp] theorem modLink_coll (n : Nat) (f : Link → Link) : (modLink s n f).coll = s.coll := rfl
@[simp] theorem modLink_xag (n : Nat) (f : Link → Link) : (modLink s n f).xag = s.xag := rfl
@[simp] theorem modLink_mgmt (n : Nat) (f : Link → Link) : (modLink s n f).mgmt = s.mgmt := rfl
@[simp] theorem modLink_pwr (n : Nat) (f : Link → Link) : (modLink s n f).pwr = s.pwr := rfl
@[simp] theorem modLink_arbs (n : Nat) (f : Link → Link) : (modLink s n f).arbs = s.arbs := rfl
@[simp] theorem modLink_tap (n : Nat) (f : Link → Link) : (modLink s n f).tap = s.tap := rfl
@[simp] theorem modLink_gclk (n : Nat) (f : Link → Link) : (modLink s n f).gclk = s.gclk := rfl
@[simp] theorem modLink_out (n : Nat) (f : Link → Link) : (modLink s n f).out = s.out := rfl
@[simp] theorem modLink_freeCount (n : Nat) (f : Link → Link) : (modLink s n f).freeCount = s.freeCount := rfl
@[simp] theorem modLink_pending (n : Nat) (f : Link → Link) : (modLink s n f).pending = s.pending := rfl

/-! A clock domain changed. -/

@[simp] theorem modDom_part (d : Nat) (f : PwrDom → PwrDom) : (modDom s d f).part = s.part := rfl
@[simp] theorem modDom_pages (d : Nat) (f : PwrDom → PwrDom) : (modDom s d f).pages = s.pages := rfl
@[simp] theorem modDom_mem (d : Nat) (f : PwrDom → PwrDom) : (modDom s d f).mem = s.mem := rfl
@[simp] theorem modDom_poison (d : Nat) (f : PwrDom → PwrDom) : (modDom s d f).poison = s.poison := rfl
@[simp] theorem modDom_dark (d : Nat) (f : PwrDom → PwrDom) : (modDom s d f).dark = s.dark := rfl
@[simp] theorem modDom_darkPoison (d : Nat) (f : PwrDom → PwrDom) : (modDom s d f).darkPoison = s.darkPoison := rfl
@[simp] theorem modDom_darkErrs (d : Nat) (f : PwrDom → PwrDom) : (modDom s d f).darkErrs = s.darkErrs := rfl
@[simp] theorem modDom_memErrs (d : Nat) (f : PwrDom → PwrDom) : (modDom s d f).memErrs = s.memErrs := rfl
@[simp] theorem modDom_sealedG (d : Nat) (f : PwrDom → PwrDom) : (modDom s d f).sealedG = s.sealedG := rfl
@[simp] theorem modDom_seals (d : Nat) (f : PwrDom → PwrDom) : (modDom s d f).seals = s.seals := rfl
@[simp] theorem modDom_spads (d : Nat) (f : PwrDom → PwrDom) : (modDom s d f).spads = s.spads := rfl
@[simp] theorem modDom_ports (d : Nat) (f : PwrDom → PwrDom) : (modDom s d f).ports = s.ports := rfl
@[simp] theorem modDom_tenants (d : Nat) (f : PwrDom → PwrDom) : (modDom s d f).tenants = s.tenants := rfl
@[simp] theorem modDom_jobs (d : Nat) (f : PwrDom → PwrDom) : (modDom s d f).jobs = s.jobs := rfl
@[simp] theorem modDom_hostIf (d : Nat) (f : PwrDom → PwrDom) : (modDom s d f).hostIf = s.hostIf := rfl
@[simp] theorem modDom_hen (d : Nat) (f : PwrDom → PwrDom) : (modDom s d f).hen = s.hen := rfl
@[simp] theorem modDom_ledger (d : Nat) (f : PwrDom → PwrDom) : (modDom s d f).ledger = s.ledger := rfl
@[simp] theorem modDom_drakes (d : Nat) (f : PwrDom → PwrDom) : (modDom s d f).drakes = s.drakes := rfl
@[simp] theorem modDom_oxs (d : Nat) (f : PwrDom → PwrDom) : (modDom s d f).oxs = s.oxs := rfl
@[simp] theorem modDom_ponys (d : Nat) (f : PwrDom → PwrDom) : (modDom s d f).ponys = s.ponys := rfl
@[simp] theorem modDom_mule (d : Nat) (f : PwrDom → PwrDom) : (modDom s d f).mule = s.mule := rfl
@[simp] theorem modDom_solvs (d : Nat) (f : PwrDom → PwrDom) : (modDom s d f).solvs = s.solvs := rfl
@[simp] theorem modDom_links (d : Nat) (f : PwrDom → PwrDom) : (modDom s d f).links = s.links := rfl
@[simp] theorem modDom_sw (d : Nat) (f : PwrDom → PwrDom) : (modDom s d f).sw = s.sw := rfl
@[simp] theorem modDom_coll (d : Nat) (f : PwrDom → PwrDom) : (modDom s d f).coll = s.coll := rfl
@[simp] theorem modDom_xag (d : Nat) (f : PwrDom → PwrDom) : (modDom s d f).xag = s.xag := rfl
@[simp] theorem modDom_mgmt (d : Nat) (f : PwrDom → PwrDom) : (modDom s d f).mgmt = s.mgmt := rfl
@[simp] theorem modDom_arbs (d : Nat) (f : PwrDom → PwrDom) : (modDom s d f).arbs = s.arbs := rfl
@[simp] theorem modDom_tap (d : Nat) (f : PwrDom → PwrDom) : (modDom s d f).tap = s.tap := rfl
@[simp] theorem modDom_gclk (d : Nat) (f : PwrDom → PwrDom) : (modDom s d f).gclk = s.gclk := rfl
@[simp] theorem modDom_out (d : Nat) (f : PwrDom → PwrDom) : (modDom s d f).out = s.out := rfl
@[simp] theorem modDom_freeCount (d : Nat) (f : PwrDom → PwrDom) : (modDom s d f).freeCount = s.freeCount := rfl
@[simp] theorem modDom_pending (d : Nat) (f : PwrDom → PwrDom) : (modDom s d f).pending = s.pending := rfl

/-! A power group changed. -/

@[simp] theorem modGrp_part (g : Nat) (f : PwrGrp → PwrGrp) : (modGrp s g f).part = s.part := rfl
@[simp] theorem modGrp_pages (g : Nat) (f : PwrGrp → PwrGrp) : (modGrp s g f).pages = s.pages := rfl
@[simp] theorem modGrp_mem (g : Nat) (f : PwrGrp → PwrGrp) : (modGrp s g f).mem = s.mem := rfl
@[simp] theorem modGrp_poison (g : Nat) (f : PwrGrp → PwrGrp) : (modGrp s g f).poison = s.poison := rfl
@[simp] theorem modGrp_dark (g : Nat) (f : PwrGrp → PwrGrp) : (modGrp s g f).dark = s.dark := rfl
@[simp] theorem modGrp_darkPoison (g : Nat) (f : PwrGrp → PwrGrp) : (modGrp s g f).darkPoison = s.darkPoison := rfl
@[simp] theorem modGrp_darkErrs (g : Nat) (f : PwrGrp → PwrGrp) : (modGrp s g f).darkErrs = s.darkErrs := rfl
@[simp] theorem modGrp_memErrs (g : Nat) (f : PwrGrp → PwrGrp) : (modGrp s g f).memErrs = s.memErrs := rfl
@[simp] theorem modGrp_sealedG (g : Nat) (f : PwrGrp → PwrGrp) : (modGrp s g f).sealedG = s.sealedG := rfl
@[simp] theorem modGrp_seals (g : Nat) (f : PwrGrp → PwrGrp) : (modGrp s g f).seals = s.seals := rfl
@[simp] theorem modGrp_spads (g : Nat) (f : PwrGrp → PwrGrp) : (modGrp s g f).spads = s.spads := rfl
@[simp] theorem modGrp_ports (g : Nat) (f : PwrGrp → PwrGrp) : (modGrp s g f).ports = s.ports := rfl
@[simp] theorem modGrp_tenants (g : Nat) (f : PwrGrp → PwrGrp) : (modGrp s g f).tenants = s.tenants := rfl
@[simp] theorem modGrp_jobs (g : Nat) (f : PwrGrp → PwrGrp) : (modGrp s g f).jobs = s.jobs := rfl
@[simp] theorem modGrp_hostIf (g : Nat) (f : PwrGrp → PwrGrp) : (modGrp s g f).hostIf = s.hostIf := rfl
@[simp] theorem modGrp_hen (g : Nat) (f : PwrGrp → PwrGrp) : (modGrp s g f).hen = s.hen := rfl
@[simp] theorem modGrp_ledger (g : Nat) (f : PwrGrp → PwrGrp) : (modGrp s g f).ledger = s.ledger := rfl
@[simp] theorem modGrp_drakes (g : Nat) (f : PwrGrp → PwrGrp) : (modGrp s g f).drakes = s.drakes := rfl
@[simp] theorem modGrp_oxs (g : Nat) (f : PwrGrp → PwrGrp) : (modGrp s g f).oxs = s.oxs := rfl
@[simp] theorem modGrp_ponys (g : Nat) (f : PwrGrp → PwrGrp) : (modGrp s g f).ponys = s.ponys := rfl
@[simp] theorem modGrp_mule (g : Nat) (f : PwrGrp → PwrGrp) : (modGrp s g f).mule = s.mule := rfl
@[simp] theorem modGrp_solvs (g : Nat) (f : PwrGrp → PwrGrp) : (modGrp s g f).solvs = s.solvs := rfl
@[simp] theorem modGrp_links (g : Nat) (f : PwrGrp → PwrGrp) : (modGrp s g f).links = s.links := rfl
@[simp] theorem modGrp_sw (g : Nat) (f : PwrGrp → PwrGrp) : (modGrp s g f).sw = s.sw := rfl
@[simp] theorem modGrp_coll (g : Nat) (f : PwrGrp → PwrGrp) : (modGrp s g f).coll = s.coll := rfl
@[simp] theorem modGrp_xag (g : Nat) (f : PwrGrp → PwrGrp) : (modGrp s g f).xag = s.xag := rfl
@[simp] theorem modGrp_mgmt (g : Nat) (f : PwrGrp → PwrGrp) : (modGrp s g f).mgmt = s.mgmt := rfl
@[simp] theorem modGrp_arbs (g : Nat) (f : PwrGrp → PwrGrp) : (modGrp s g f).arbs = s.arbs := rfl
@[simp] theorem modGrp_tap (g : Nat) (f : PwrGrp → PwrGrp) : (modGrp s g f).tap = s.tap := rfl
@[simp] theorem modGrp_gclk (g : Nat) (f : PwrGrp → PwrGrp) : (modGrp s g f).gclk = s.gclk := rfl
@[simp] theorem modGrp_out (g : Nat) (f : PwrGrp → PwrGrp) : (modGrp s g f).out = s.out := rfl
@[simp] theorem modGrp_freeCount (g : Nat) (f : PwrGrp → PwrGrp) : (modGrp s g f).freeCount = s.freeCount := rfl
@[simp] theorem modGrp_pending (g : Nat) (f : PwrGrp → PwrGrp) : (modGrp s g f).pending = s.pending := rfl

/-! What Hen holds changed. -/

@[simp] theorem modHen_part (f : Hen → Hen) : (modHen s f).part = s.part := rfl
@[simp] theorem modHen_pages (f : Hen → Hen) : (modHen s f).pages = s.pages := rfl
@[simp] theorem modHen_mem (f : Hen → Hen) : (modHen s f).mem = s.mem := rfl
@[simp] theorem modHen_poison (f : Hen → Hen) : (modHen s f).poison = s.poison := rfl
@[simp] theorem modHen_dark (f : Hen → Hen) : (modHen s f).dark = s.dark := rfl
@[simp] theorem modHen_darkPoison (f : Hen → Hen) : (modHen s f).darkPoison = s.darkPoison := rfl
@[simp] theorem modHen_darkErrs (f : Hen → Hen) : (modHen s f).darkErrs = s.darkErrs := rfl
@[simp] theorem modHen_memErrs (f : Hen → Hen) : (modHen s f).memErrs = s.memErrs := rfl
@[simp] theorem modHen_sealedG (f : Hen → Hen) : (modHen s f).sealedG = s.sealedG := rfl
@[simp] theorem modHen_seals (f : Hen → Hen) : (modHen s f).seals = s.seals := rfl
@[simp] theorem modHen_spads (f : Hen → Hen) : (modHen s f).spads = s.spads := rfl
@[simp] theorem modHen_ports (f : Hen → Hen) : (modHen s f).ports = s.ports := rfl
@[simp] theorem modHen_tenants (f : Hen → Hen) : (modHen s f).tenants = s.tenants := rfl
@[simp] theorem modHen_jobs (f : Hen → Hen) : (modHen s f).jobs = s.jobs := rfl
@[simp] theorem modHen_hostIf (f : Hen → Hen) : (modHen s f).hostIf = s.hostIf := rfl
@[simp] theorem modHen_ledger (f : Hen → Hen) : (modHen s f).ledger = s.ledger := rfl
@[simp] theorem modHen_drakes (f : Hen → Hen) : (modHen s f).drakes = s.drakes := rfl
@[simp] theorem modHen_oxs (f : Hen → Hen) : (modHen s f).oxs = s.oxs := rfl
@[simp] theorem modHen_ponys (f : Hen → Hen) : (modHen s f).ponys = s.ponys := rfl
@[simp] theorem modHen_mule (f : Hen → Hen) : (modHen s f).mule = s.mule := rfl
@[simp] theorem modHen_solvs (f : Hen → Hen) : (modHen s f).solvs = s.solvs := rfl
@[simp] theorem modHen_links (f : Hen → Hen) : (modHen s f).links = s.links := rfl
@[simp] theorem modHen_sw (f : Hen → Hen) : (modHen s f).sw = s.sw := rfl
@[simp] theorem modHen_coll (f : Hen → Hen) : (modHen s f).coll = s.coll := rfl
@[simp] theorem modHen_xag (f : Hen → Hen) : (modHen s f).xag = s.xag := rfl
@[simp] theorem modHen_mgmt (f : Hen → Hen) : (modHen s f).mgmt = s.mgmt := rfl
@[simp] theorem modHen_pwr (f : Hen → Hen) : (modHen s f).pwr = s.pwr := rfl
@[simp] theorem modHen_arbs (f : Hen → Hen) : (modHen s f).arbs = s.arbs := rfl
@[simp] theorem modHen_tap (f : Hen → Hen) : (modHen s f).tap = s.tap := rfl
@[simp] theorem modHen_gclk (f : Hen → Hen) : (modHen s f).gclk = s.gclk := rfl
@[simp] theorem modHen_out (f : Hen → Hen) : (modHen s f).out = s.out := rfl
@[simp] theorem modHen_freeCount (f : Hen → Hen) : (modHen s f).freeCount = s.freeCount := rfl
@[simp] theorem modHen_pending (f : Hen → Hen) : (modHen s f).pending = s.pending := rfl

/-! What Hen holds for a tenant changed. -/

@[simp] theorem modHenTen_part (t : Nat) (f : HenTen → HenTen) : (modHenTen s t f).part = s.part := rfl
@[simp] theorem modHenTen_pages (t : Nat) (f : HenTen → HenTen) : (modHenTen s t f).pages = s.pages := rfl
@[simp] theorem modHenTen_mem (t : Nat) (f : HenTen → HenTen) : (modHenTen s t f).mem = s.mem := rfl
@[simp] theorem modHenTen_poison (t : Nat) (f : HenTen → HenTen) : (modHenTen s t f).poison = s.poison := rfl
@[simp] theorem modHenTen_dark (t : Nat) (f : HenTen → HenTen) : (modHenTen s t f).dark = s.dark := rfl
@[simp] theorem modHenTen_darkPoison (t : Nat) (f : HenTen → HenTen) : (modHenTen s t f).darkPoison = s.darkPoison := rfl
@[simp] theorem modHenTen_darkErrs (t : Nat) (f : HenTen → HenTen) : (modHenTen s t f).darkErrs = s.darkErrs := rfl
@[simp] theorem modHenTen_memErrs (t : Nat) (f : HenTen → HenTen) : (modHenTen s t f).memErrs = s.memErrs := rfl
@[simp] theorem modHenTen_sealedG (t : Nat) (f : HenTen → HenTen) : (modHenTen s t f).sealedG = s.sealedG := rfl
@[simp] theorem modHenTen_seals (t : Nat) (f : HenTen → HenTen) : (modHenTen s t f).seals = s.seals := rfl
@[simp] theorem modHenTen_spads (t : Nat) (f : HenTen → HenTen) : (modHenTen s t f).spads = s.spads := rfl
@[simp] theorem modHenTen_ports (t : Nat) (f : HenTen → HenTen) : (modHenTen s t f).ports = s.ports := rfl
@[simp] theorem modHenTen_tenants (t : Nat) (f : HenTen → HenTen) : (modHenTen s t f).tenants = s.tenants := rfl
@[simp] theorem modHenTen_jobs (t : Nat) (f : HenTen → HenTen) : (modHenTen s t f).jobs = s.jobs := rfl
@[simp] theorem modHenTen_hostIf (t : Nat) (f : HenTen → HenTen) : (modHenTen s t f).hostIf = s.hostIf := rfl
@[simp] theorem modHenTen_ledger (t : Nat) (f : HenTen → HenTen) : (modHenTen s t f).ledger = s.ledger := rfl
@[simp] theorem modHenTen_drakes (t : Nat) (f : HenTen → HenTen) : (modHenTen s t f).drakes = s.drakes := rfl
@[simp] theorem modHenTen_oxs (t : Nat) (f : HenTen → HenTen) : (modHenTen s t f).oxs = s.oxs := rfl
@[simp] theorem modHenTen_ponys (t : Nat) (f : HenTen → HenTen) : (modHenTen s t f).ponys = s.ponys := rfl
@[simp] theorem modHenTen_mule (t : Nat) (f : HenTen → HenTen) : (modHenTen s t f).mule = s.mule := rfl
@[simp] theorem modHenTen_solvs (t : Nat) (f : HenTen → HenTen) : (modHenTen s t f).solvs = s.solvs := rfl
@[simp] theorem modHenTen_links (t : Nat) (f : HenTen → HenTen) : (modHenTen s t f).links = s.links := rfl
@[simp] theorem modHenTen_sw (t : Nat) (f : HenTen → HenTen) : (modHenTen s t f).sw = s.sw := rfl
@[simp] theorem modHenTen_coll (t : Nat) (f : HenTen → HenTen) : (modHenTen s t f).coll = s.coll := rfl
@[simp] theorem modHenTen_xag (t : Nat) (f : HenTen → HenTen) : (modHenTen s t f).xag = s.xag := rfl
@[simp] theorem modHenTen_mgmt (t : Nat) (f : HenTen → HenTen) : (modHenTen s t f).mgmt = s.mgmt := rfl
@[simp] theorem modHenTen_pwr (t : Nat) (f : HenTen → HenTen) : (modHenTen s t f).pwr = s.pwr := rfl
@[simp] theorem modHenTen_arbs (t : Nat) (f : HenTen → HenTen) : (modHenTen s t f).arbs = s.arbs := rfl
@[simp] theorem modHenTen_tap (t : Nat) (f : HenTen → HenTen) : (modHenTen s t f).tap = s.tap := rfl
@[simp] theorem modHenTen_gclk (t : Nat) (f : HenTen → HenTen) : (modHenTen s t f).gclk = s.gclk := rfl
@[simp] theorem modHenTen_out (t : Nat) (f : HenTen → HenTen) : (modHenTen s t f).out = s.out := rfl
@[simp] theorem modHenTen_freeCount (t : Nat) (f : HenTen → HenTen) : (modHenTen s t f).freeCount = s.freeCount := rfl
@[simp] theorem modHenTen_pending (t : Nat) (f : HenTen → HenTen) : (modHenTen s t f).pending = s.pending := rfl

/-! A Mule core set. -/

@[simp] theorem setCore_part (n : Nat) (c : MCore) : (setCore s n c).part = s.part := rfl
@[simp] theorem setCore_pages (n : Nat) (c : MCore) : (setCore s n c).pages = s.pages := rfl
@[simp] theorem setCore_mem (n : Nat) (c : MCore) : (setCore s n c).mem = s.mem := rfl
@[simp] theorem setCore_poison (n : Nat) (c : MCore) : (setCore s n c).poison = s.poison := rfl
@[simp] theorem setCore_dark (n : Nat) (c : MCore) : (setCore s n c).dark = s.dark := rfl
@[simp] theorem setCore_darkPoison (n : Nat) (c : MCore) : (setCore s n c).darkPoison = s.darkPoison := rfl
@[simp] theorem setCore_darkErrs (n : Nat) (c : MCore) : (setCore s n c).darkErrs = s.darkErrs := rfl
@[simp] theorem setCore_memErrs (n : Nat) (c : MCore) : (setCore s n c).memErrs = s.memErrs := rfl
@[simp] theorem setCore_sealedG (n : Nat) (c : MCore) : (setCore s n c).sealedG = s.sealedG := rfl
@[simp] theorem setCore_seals (n : Nat) (c : MCore) : (setCore s n c).seals = s.seals := rfl
@[simp] theorem setCore_spads (n : Nat) (c : MCore) : (setCore s n c).spads = s.spads := rfl
@[simp] theorem setCore_ports (n : Nat) (c : MCore) : (setCore s n c).ports = s.ports := rfl
@[simp] theorem setCore_tenants (n : Nat) (c : MCore) : (setCore s n c).tenants = s.tenants := rfl
@[simp] theorem setCore_jobs (n : Nat) (c : MCore) : (setCore s n c).jobs = s.jobs := rfl
@[simp] theorem setCore_hostIf (n : Nat) (c : MCore) : (setCore s n c).hostIf = s.hostIf := rfl
@[simp] theorem setCore_hen (n : Nat) (c : MCore) : (setCore s n c).hen = s.hen := rfl
@[simp] theorem setCore_ledger (n : Nat) (c : MCore) : (setCore s n c).ledger = s.ledger := rfl
@[simp] theorem setCore_drakes (n : Nat) (c : MCore) : (setCore s n c).drakes = s.drakes := rfl
@[simp] theorem setCore_oxs (n : Nat) (c : MCore) : (setCore s n c).oxs = s.oxs := rfl
@[simp] theorem setCore_ponys (n : Nat) (c : MCore) : (setCore s n c).ponys = s.ponys := rfl
@[simp] theorem setCore_solvs (n : Nat) (c : MCore) : (setCore s n c).solvs = s.solvs := rfl
@[simp] theorem setCore_links (n : Nat) (c : MCore) : (setCore s n c).links = s.links := rfl
@[simp] theorem setCore_sw (n : Nat) (c : MCore) : (setCore s n c).sw = s.sw := rfl
@[simp] theorem setCore_coll (n : Nat) (c : MCore) : (setCore s n c).coll = s.coll := rfl
@[simp] theorem setCore_xag (n : Nat) (c : MCore) : (setCore s n c).xag = s.xag := rfl
@[simp] theorem setCore_mgmt (n : Nat) (c : MCore) : (setCore s n c).mgmt = s.mgmt := rfl
@[simp] theorem setCore_pwr (n : Nat) (c : MCore) : (setCore s n c).pwr = s.pwr := rfl
@[simp] theorem setCore_arbs (n : Nat) (c : MCore) : (setCore s n c).arbs = s.arbs := rfl
@[simp] theorem setCore_tap (n : Nat) (c : MCore) : (setCore s n c).tap = s.tap := rfl
@[simp] theorem setCore_gclk (n : Nat) (c : MCore) : (setCore s n c).gclk = s.gclk := rfl
@[simp] theorem setCore_out (n : Nat) (c : MCore) : (setCore s n c).out = s.out := rfl
@[simp] theorem setCore_freeCount (n : Nat) (c : MCore) : (setCore s n c).freeCount = s.freeCount := rfl
@[simp] theorem setCore_pending (n : Nat) (c : MCore) : (setCore s n c).pending = s.pending := rfl

/-! An operation put into its slot. -/

@[simp] theorem putOp_part (k : Nat) (o : CollOpn) : (putOp s k o).part = s.part := rfl
@[simp] theorem putOp_pages (k : Nat) (o : CollOpn) : (putOp s k o).pages = s.pages := rfl
@[simp] theorem putOp_mem (k : Nat) (o : CollOpn) : (putOp s k o).mem = s.mem := rfl
@[simp] theorem putOp_poison (k : Nat) (o : CollOpn) : (putOp s k o).poison = s.poison := rfl
@[simp] theorem putOp_dark (k : Nat) (o : CollOpn) : (putOp s k o).dark = s.dark := rfl
@[simp] theorem putOp_darkPoison (k : Nat) (o : CollOpn) : (putOp s k o).darkPoison = s.darkPoison := rfl
@[simp] theorem putOp_darkErrs (k : Nat) (o : CollOpn) : (putOp s k o).darkErrs = s.darkErrs := rfl
@[simp] theorem putOp_memErrs (k : Nat) (o : CollOpn) : (putOp s k o).memErrs = s.memErrs := rfl
@[simp] theorem putOp_sealedG (k : Nat) (o : CollOpn) : (putOp s k o).sealedG = s.sealedG := rfl
@[simp] theorem putOp_seals (k : Nat) (o : CollOpn) : (putOp s k o).seals = s.seals := rfl
@[simp] theorem putOp_spads (k : Nat) (o : CollOpn) : (putOp s k o).spads = s.spads := rfl
@[simp] theorem putOp_ports (k : Nat) (o : CollOpn) : (putOp s k o).ports = s.ports := rfl
@[simp] theorem putOp_tenants (k : Nat) (o : CollOpn) : (putOp s k o).tenants = s.tenants := rfl
@[simp] theorem putOp_jobs (k : Nat) (o : CollOpn) : (putOp s k o).jobs = s.jobs := rfl
@[simp] theorem putOp_hostIf (k : Nat) (o : CollOpn) : (putOp s k o).hostIf = s.hostIf := rfl
@[simp] theorem putOp_hen (k : Nat) (o : CollOpn) : (putOp s k o).hen = s.hen := rfl
@[simp] theorem putOp_ledger (k : Nat) (o : CollOpn) : (putOp s k o).ledger = s.ledger := rfl
@[simp] theorem putOp_drakes (k : Nat) (o : CollOpn) : (putOp s k o).drakes = s.drakes := rfl
@[simp] theorem putOp_oxs (k : Nat) (o : CollOpn) : (putOp s k o).oxs = s.oxs := rfl
@[simp] theorem putOp_ponys (k : Nat) (o : CollOpn) : (putOp s k o).ponys = s.ponys := rfl
@[simp] theorem putOp_mule (k : Nat) (o : CollOpn) : (putOp s k o).mule = s.mule := rfl
@[simp] theorem putOp_solvs (k : Nat) (o : CollOpn) : (putOp s k o).solvs = s.solvs := rfl
@[simp] theorem putOp_links (k : Nat) (o : CollOpn) : (putOp s k o).links = s.links := rfl
@[simp] theorem putOp_sw (k : Nat) (o : CollOpn) : (putOp s k o).sw = s.sw := rfl
@[simp] theorem putOp_xag (k : Nat) (o : CollOpn) : (putOp s k o).xag = s.xag := rfl
@[simp] theorem putOp_mgmt (k : Nat) (o : CollOpn) : (putOp s k o).mgmt = s.mgmt := rfl
@[simp] theorem putOp_pwr (k : Nat) (o : CollOpn) : (putOp s k o).pwr = s.pwr := rfl
@[simp] theorem putOp_arbs (k : Nat) (o : CollOpn) : (putOp s k o).arbs = s.arbs := rfl
@[simp] theorem putOp_tap (k : Nat) (o : CollOpn) : (putOp s k o).tap = s.tap := rfl
@[simp] theorem putOp_gclk (k : Nat) (o : CollOpn) : (putOp s k o).gclk = s.gclk := rfl
@[simp] theorem putOp_out (k : Nat) (o : CollOpn) : (putOp s k o).out = s.out := rfl
@[simp] theorem putOp_freeCount (k : Nat) (o : CollOpn) : (putOp s k o).freeCount = s.freeCount := rfl
@[simp] theorem putOp_pending (k : Nat) (o : CollOpn) : (putOp s k o).pending = s.pending := rfl

/-! An operation's slot emptied. -/

@[simp] theorem dropOp_part (k : Nat) : (dropOp s k).part = s.part := rfl
@[simp] theorem dropOp_pages (k : Nat) : (dropOp s k).pages = s.pages := rfl
@[simp] theorem dropOp_mem (k : Nat) : (dropOp s k).mem = s.mem := rfl
@[simp] theorem dropOp_poison (k : Nat) : (dropOp s k).poison = s.poison := rfl
@[simp] theorem dropOp_dark (k : Nat) : (dropOp s k).dark = s.dark := rfl
@[simp] theorem dropOp_darkPoison (k : Nat) : (dropOp s k).darkPoison = s.darkPoison := rfl
@[simp] theorem dropOp_darkErrs (k : Nat) : (dropOp s k).darkErrs = s.darkErrs := rfl
@[simp] theorem dropOp_memErrs (k : Nat) : (dropOp s k).memErrs = s.memErrs := rfl
@[simp] theorem dropOp_sealedG (k : Nat) : (dropOp s k).sealedG = s.sealedG := rfl
@[simp] theorem dropOp_seals (k : Nat) : (dropOp s k).seals = s.seals := rfl
@[simp] theorem dropOp_spads (k : Nat) : (dropOp s k).spads = s.spads := rfl
@[simp] theorem dropOp_ports (k : Nat) : (dropOp s k).ports = s.ports := rfl
@[simp] theorem dropOp_tenants (k : Nat) : (dropOp s k).tenants = s.tenants := rfl
@[simp] theorem dropOp_jobs (k : Nat) : (dropOp s k).jobs = s.jobs := rfl
@[simp] theorem dropOp_hostIf (k : Nat) : (dropOp s k).hostIf = s.hostIf := rfl
@[simp] theorem dropOp_hen (k : Nat) : (dropOp s k).hen = s.hen := rfl
@[simp] theorem dropOp_ledger (k : Nat) : (dropOp s k).ledger = s.ledger := rfl
@[simp] theorem dropOp_drakes (k : Nat) : (dropOp s k).drakes = s.drakes := rfl
@[simp] theorem dropOp_oxs (k : Nat) : (dropOp s k).oxs = s.oxs := rfl
@[simp] theorem dropOp_ponys (k : Nat) : (dropOp s k).ponys = s.ponys := rfl
@[simp] theorem dropOp_mule (k : Nat) : (dropOp s k).mule = s.mule := rfl
@[simp] theorem dropOp_solvs (k : Nat) : (dropOp s k).solvs = s.solvs := rfl
@[simp] theorem dropOp_links (k : Nat) : (dropOp s k).links = s.links := rfl
@[simp] theorem dropOp_sw (k : Nat) : (dropOp s k).sw = s.sw := rfl
@[simp] theorem dropOp_xag (k : Nat) : (dropOp s k).xag = s.xag := rfl
@[simp] theorem dropOp_mgmt (k : Nat) : (dropOp s k).mgmt = s.mgmt := rfl
@[simp] theorem dropOp_pwr (k : Nat) : (dropOp s k).pwr = s.pwr := rfl
@[simp] theorem dropOp_arbs (k : Nat) : (dropOp s k).arbs = s.arbs := rfl
@[simp] theorem dropOp_tap (k : Nat) : (dropOp s k).tap = s.tap := rfl
@[simp] theorem dropOp_gclk (k : Nat) : (dropOp s k).gclk = s.gclk := rfl
@[simp] theorem dropOp_out (k : Nat) : (dropOp s k).out = s.out := rfl
@[simp] theorem dropOp_freeCount (k : Nat) : (dropOp s k).freeCount = s.freeCount := rfl
@[simp] theorem dropOp_pending (k : Nat) : (dropOp s k).pending = s.pending := rfl

/-! A line of the directory changed. -/

@[simp] theorem modDir_part (k : Nat) (f : DirLine → DirLine) : (modDir s k f).part = s.part := rfl
@[simp] theorem modDir_pages (k : Nat) (f : DirLine → DirLine) : (modDir s k f).pages = s.pages := rfl
@[simp] theorem modDir_mem (k : Nat) (f : DirLine → DirLine) : (modDir s k f).mem = s.mem := rfl
@[simp] theorem modDir_poison (k : Nat) (f : DirLine → DirLine) : (modDir s k f).poison = s.poison := rfl
@[simp] theorem modDir_dark (k : Nat) (f : DirLine → DirLine) : (modDir s k f).dark = s.dark := rfl
@[simp] theorem modDir_darkPoison (k : Nat) (f : DirLine → DirLine) : (modDir s k f).darkPoison = s.darkPoison := rfl
@[simp] theorem modDir_darkErrs (k : Nat) (f : DirLine → DirLine) : (modDir s k f).darkErrs = s.darkErrs := rfl
@[simp] theorem modDir_memErrs (k : Nat) (f : DirLine → DirLine) : (modDir s k f).memErrs = s.memErrs := rfl
@[simp] theorem modDir_sealedG (k : Nat) (f : DirLine → DirLine) : (modDir s k f).sealedG = s.sealedG := rfl
@[simp] theorem modDir_seals (k : Nat) (f : DirLine → DirLine) : (modDir s k f).seals = s.seals := rfl
@[simp] theorem modDir_spads (k : Nat) (f : DirLine → DirLine) : (modDir s k f).spads = s.spads := rfl
@[simp] theorem modDir_ports (k : Nat) (f : DirLine → DirLine) : (modDir s k f).ports = s.ports := rfl
@[simp] theorem modDir_tenants (k : Nat) (f : DirLine → DirLine) : (modDir s k f).tenants = s.tenants := rfl
@[simp] theorem modDir_jobs (k : Nat) (f : DirLine → DirLine) : (modDir s k f).jobs = s.jobs := rfl
@[simp] theorem modDir_hostIf (k : Nat) (f : DirLine → DirLine) : (modDir s k f).hostIf = s.hostIf := rfl
@[simp] theorem modDir_hen (k : Nat) (f : DirLine → DirLine) : (modDir s k f).hen = s.hen := rfl
@[simp] theorem modDir_ledger (k : Nat) (f : DirLine → DirLine) : (modDir s k f).ledger = s.ledger := rfl
@[simp] theorem modDir_drakes (k : Nat) (f : DirLine → DirLine) : (modDir s k f).drakes = s.drakes := rfl
@[simp] theorem modDir_oxs (k : Nat) (f : DirLine → DirLine) : (modDir s k f).oxs = s.oxs := rfl
@[simp] theorem modDir_ponys (k : Nat) (f : DirLine → DirLine) : (modDir s k f).ponys = s.ponys := rfl
@[simp] theorem modDir_mule (k : Nat) (f : DirLine → DirLine) : (modDir s k f).mule = s.mule := rfl
@[simp] theorem modDir_solvs (k : Nat) (f : DirLine → DirLine) : (modDir s k f).solvs = s.solvs := rfl
@[simp] theorem modDir_links (k : Nat) (f : DirLine → DirLine) : (modDir s k f).links = s.links := rfl
@[simp] theorem modDir_sw (k : Nat) (f : DirLine → DirLine) : (modDir s k f).sw = s.sw := rfl
@[simp] theorem modDir_coll (k : Nat) (f : DirLine → DirLine) : (modDir s k f).coll = s.coll := rfl
@[simp] theorem modDir_mgmt (k : Nat) (f : DirLine → DirLine) : (modDir s k f).mgmt = s.mgmt := rfl
@[simp] theorem modDir_pwr (k : Nat) (f : DirLine → DirLine) : (modDir s k f).pwr = s.pwr := rfl
@[simp] theorem modDir_arbs (k : Nat) (f : DirLine → DirLine) : (modDir s k f).arbs = s.arbs := rfl
@[simp] theorem modDir_tap (k : Nat) (f : DirLine → DirLine) : (modDir s k f).tap = s.tap := rfl
@[simp] theorem modDir_gclk (k : Nat) (f : DirLine → DirLine) : (modDir s k f).gclk = s.gclk := rfl
@[simp] theorem modDir_out (k : Nat) (f : DirLine → DirLine) : (modDir s k f).out = s.out := rfl
@[simp] theorem modDir_freeCount (k : Nat) (f : DirLine → DirLine) : (modDir s k f).freeCount = s.freeCount := rfl
@[simp] theorem modDir_pending (k : Nat) (f : DirLine → DirLine) : (modDir s k f).pending = s.pending := rfl

/-! The next phase of start-up. -/

@[simp] theorem toPhase_part (n : Nat) : (toPhase s n).part = s.part := rfl
@[simp] theorem toPhase_pages (n : Nat) : (toPhase s n).pages = s.pages := rfl
@[simp] theorem toPhase_mem (n : Nat) : (toPhase s n).mem = s.mem := rfl
@[simp] theorem toPhase_poison (n : Nat) : (toPhase s n).poison = s.poison := rfl
@[simp] theorem toPhase_dark (n : Nat) : (toPhase s n).dark = s.dark := rfl
@[simp] theorem toPhase_darkPoison (n : Nat) : (toPhase s n).darkPoison = s.darkPoison := rfl
@[simp] theorem toPhase_darkErrs (n : Nat) : (toPhase s n).darkErrs = s.darkErrs := rfl
@[simp] theorem toPhase_memErrs (n : Nat) : (toPhase s n).memErrs = s.memErrs := rfl
@[simp] theorem toPhase_sealedG (n : Nat) : (toPhase s n).sealedG = s.sealedG := rfl
@[simp] theorem toPhase_seals (n : Nat) : (toPhase s n).seals = s.seals := rfl
@[simp] theorem toPhase_spads (n : Nat) : (toPhase s n).spads = s.spads := rfl
@[simp] theorem toPhase_ports (n : Nat) : (toPhase s n).ports = s.ports := rfl
@[simp] theorem toPhase_tenants (n : Nat) : (toPhase s n).tenants = s.tenants := rfl
@[simp] theorem toPhase_jobs (n : Nat) : (toPhase s n).jobs = s.jobs := rfl
@[simp] theorem toPhase_hostIf (n : Nat) : (toPhase s n).hostIf = s.hostIf := rfl
@[simp] theorem toPhase_hen (n : Nat) : (toPhase s n).hen = s.hen := rfl
@[simp] theorem toPhase_ledger (n : Nat) : (toPhase s n).ledger = s.ledger := rfl
@[simp] theorem toPhase_drakes (n : Nat) : (toPhase s n).drakes = s.drakes := rfl
@[simp] theorem toPhase_oxs (n : Nat) : (toPhase s n).oxs = s.oxs := rfl
@[simp] theorem toPhase_ponys (n : Nat) : (toPhase s n).ponys = s.ponys := rfl
@[simp] theorem toPhase_mule (n : Nat) : (toPhase s n).mule = s.mule := rfl
@[simp] theorem toPhase_solvs (n : Nat) : (toPhase s n).solvs = s.solvs := rfl
@[simp] theorem toPhase_links (n : Nat) : (toPhase s n).links = s.links := rfl
@[simp] theorem toPhase_sw (n : Nat) : (toPhase s n).sw = s.sw := rfl
@[simp] theorem toPhase_coll (n : Nat) : (toPhase s n).coll = s.coll := rfl
@[simp] theorem toPhase_xag (n : Nat) : (toPhase s n).xag = s.xag := rfl
@[simp] theorem toPhase_pwr (n : Nat) : (toPhase s n).pwr = s.pwr := rfl
@[simp] theorem toPhase_arbs (n : Nat) : (toPhase s n).arbs = s.arbs := rfl
@[simp] theorem toPhase_tap (n : Nat) : (toPhase s n).tap = s.tap := rfl
@[simp] theorem toPhase_gclk (n : Nat) : (toPhase s n).gclk = s.gclk := rfl
@[simp] theorem toPhase_out (n : Nat) : (toPhase s n).out = s.out := rfl
@[simp] theorem toPhase_freeCount (n : Nat) : (toPhase s n).freeCount = s.freeCount := rfl
@[simp] theorem toPhase_pending (n : Nat) : (toPhase s n).pending = s.pending := rfl

/-! An instruction loaded into the test port. -/

@[simp] theorem loadTap_part (i : TapInstr) : (loadTap s i).part = s.part := rfl
@[simp] theorem loadTap_pages (i : TapInstr) : (loadTap s i).pages = s.pages := rfl
@[simp] theorem loadTap_mem (i : TapInstr) : (loadTap s i).mem = s.mem := rfl
@[simp] theorem loadTap_poison (i : TapInstr) : (loadTap s i).poison = s.poison := rfl
@[simp] theorem loadTap_dark (i : TapInstr) : (loadTap s i).dark = s.dark := rfl
@[simp] theorem loadTap_darkPoison (i : TapInstr) : (loadTap s i).darkPoison = s.darkPoison := rfl
@[simp] theorem loadTap_darkErrs (i : TapInstr) : (loadTap s i).darkErrs = s.darkErrs := rfl
@[simp] theorem loadTap_memErrs (i : TapInstr) : (loadTap s i).memErrs = s.memErrs := rfl
@[simp] theorem loadTap_sealedG (i : TapInstr) : (loadTap s i).sealedG = s.sealedG := rfl
@[simp] theorem loadTap_seals (i : TapInstr) : (loadTap s i).seals = s.seals := rfl
@[simp] theorem loadTap_spads (i : TapInstr) : (loadTap s i).spads = s.spads := rfl
@[simp] theorem loadTap_ports (i : TapInstr) : (loadTap s i).ports = s.ports := rfl
@[simp] theorem loadTap_tenants (i : TapInstr) : (loadTap s i).tenants = s.tenants := rfl
@[simp] theorem loadTap_jobs (i : TapInstr) : (loadTap s i).jobs = s.jobs := rfl
@[simp] theorem loadTap_hostIf (i : TapInstr) : (loadTap s i).hostIf = s.hostIf := rfl
@[simp] theorem loadTap_hen (i : TapInstr) : (loadTap s i).hen = s.hen := rfl
@[simp] theorem loadTap_ledger (i : TapInstr) : (loadTap s i).ledger = s.ledger := rfl
@[simp] theorem loadTap_drakes (i : TapInstr) : (loadTap s i).drakes = s.drakes := rfl
@[simp] theorem loadTap_oxs (i : TapInstr) : (loadTap s i).oxs = s.oxs := rfl
@[simp] theorem loadTap_ponys (i : TapInstr) : (loadTap s i).ponys = s.ponys := rfl
@[simp] theorem loadTap_mule (i : TapInstr) : (loadTap s i).mule = s.mule := rfl
@[simp] theorem loadTap_solvs (i : TapInstr) : (loadTap s i).solvs = s.solvs := rfl
@[simp] theorem loadTap_links (i : TapInstr) : (loadTap s i).links = s.links := rfl
@[simp] theorem loadTap_sw (i : TapInstr) : (loadTap s i).sw = s.sw := rfl
@[simp] theorem loadTap_coll (i : TapInstr) : (loadTap s i).coll = s.coll := rfl
@[simp] theorem loadTap_xag (i : TapInstr) : (loadTap s i).xag = s.xag := rfl
@[simp] theorem loadTap_mgmt (i : TapInstr) : (loadTap s i).mgmt = s.mgmt := rfl
@[simp] theorem loadTap_pwr (i : TapInstr) : (loadTap s i).pwr = s.pwr := rfl
@[simp] theorem loadTap_arbs (i : TapInstr) : (loadTap s i).arbs = s.arbs := rfl
@[simp] theorem loadTap_gclk (i : TapInstr) : (loadTap s i).gclk = s.gclk := rfl
@[simp] theorem loadTap_out (i : TapInstr) : (loadTap s i).out = s.out := rfl
@[simp] theorem loadTap_freeCount (i : TapInstr) : (loadTap s i).freeCount = s.freeCount := rfl
@[simp] theorem loadTap_pending (i : TapInstr) : (loadTap s i).pending = s.pending := rfl

end Sys2Proof.Machine
end

