-- ==== Sys2Proof/Laws/Tables.lean ====
section
/-! SUPPORT. Lookup after update in sparse tables. -/

namespace Sys2Proof.Machine

variable {α : Type}

/-- An updated table is looked up: the new value under its key, every other key as before. -/
@[simp] theorem tabFind_tabSet (t : Tab α) (k j : Nat) (v : α) : tabFind (tabSet t k v) j = if k = j then some v else tabFind t j := by
  induction t with
  | nil => simp [tabSet, tabFind]
  | cons e t ih =>
    obtain ⟨i, w⟩ := e
    simp only [tabSet]
    by_cases h1 : i = k
    · subst h1; simp [tabFind]; split <;> simp_all
    · by_cases h2 : k < i
      · simp [h1, h2, tabFind]
      · simp [h1, h2, tabFind, ih]
        split <;> split <;> simp_all

/-- A key that is taken out is found no more; every other key as before. -/
@[simp] theorem tabFind_tabDel (t : Tab α) (k j : Nat) : tabFind (tabDel t k) j = if k = j then none else tabFind t j := by
  induction t with
  | nil => simp [tabDel, tabFind]
  | cons e t ih =>
    obtain ⟨i, w⟩ := e
    unfold tabDel at ih ⊢
    by_cases h : i = k
    · subst h; simp [tabFind, ih]; split <;> simp_all
    · simp [h, tabFind, ih]
      split <;> split <;> simp_all

@[simp] theorem tabGet_tabSet (d : α) (t : Tab α) (k j : Nat) (v : α) : tabGet d (tabSet t k v) j = if k = j then v else tabGet d t j := by
  simp only [tabGet, tabFind_tabSet]; split <;> rfl

@[simp] theorem tabGet_tabMod (d : α) (t : Tab α) (k j : Nat) (f : α → α) :
    tabGet d (tabMod d t k f) j = if k = j then f (tabGet d t k) else tabGet d t j := by
  simp [tabMod]

@[simp] theorem tabGet_nil (d : α) (k : Nat) : tabGet d [] k = d := rfl

end Sys2Proof.Machine
end

