-- ==== Sys2Proof/Laws/Frames.lean ====
section
/-! SUPPORT. What the shared operations leave as it is: events, errors, register accesses, translation. -/

namespace Sys2Proof.Machine

variable (s : State)

/-! A vector raised (R626): pages, the host interface and what is sent alone change. -/

@[simp] theorem raiseVec_part (fn vec : Nat) : (raiseVec s fn vec).part = s.part := by unfold raiseVec; split <;> rfl
@[simp] theorem raiseVec_mem (fn vec : Nat) : (raiseVec s fn vec).mem = s.mem := by unfold raiseVec; split <;> rfl
@[simp] theorem raiseVec_poison (fn vec : Nat) : (raiseVec s fn vec).poison = s.poison := by unfold raiseVec; split <;> rfl
@[simp] theorem raiseVec_dark (fn vec : Nat) : (raiseVec s fn vec).dark = s.dark := by unfold raiseVec; split <;> rfl
@[simp] theorem raiseVec_darkPoison (fn vec : Nat) : (raiseVec s fn vec).darkPoison = s.darkPoison := by unfold raiseVec; split <;> rfl
@[simp] theorem raiseVec_darkErrs (fn vec : Nat) : (raiseVec s fn vec).darkErrs = s.darkErrs := by unfold raiseVec; split <;> rfl
@[simp] theorem raiseVec_memErrs (fn vec : Nat) : (raiseVec s fn vec).memErrs = s.memErrs := by unfold raiseVec; split <;> rfl
@[simp] theorem raiseVec_sealedG (fn vec : Nat) : (raiseVec s fn vec).sealedG = s.sealedG := by unfold raiseVec; split <;> rfl
@[simp] theorem raiseVec_seals (fn vec : Nat) : (raiseVec s fn vec).seals = s.seals := by unfold raiseVec; split <;> rfl
@[simp] theorem raiseVec_spads (fn vec : Nat) : (raiseVec s fn vec).spads = s.spads := by unfold raiseVec; split <;> rfl
@[simp] theorem raiseVec_ports (fn vec : Nat) : (raiseVec s fn vec).ports = s.ports := by unfold raiseVec; split <;> rfl
@[simp] theorem raiseVec_tenants (fn vec : Nat) : (raiseVec s fn vec).tenants = s.tenants := by unfold raiseVec; split <;> rfl
@[simp] theorem raiseVec_jobs (fn vec : Nat) : (raiseVec s fn vec).jobs = s.jobs := by unfold raiseVec; split <;> rfl
@[simp] theorem raiseVec_hen (fn vec : Nat) : (raiseVec s fn vec).hen = s.hen := by unfold raiseVec; split <;> rfl
@[simp] theorem raiseVec_ledger (fn vec : Nat) : (raiseVec s fn vec).ledger = s.ledger := by unfold raiseVec; split <;> rfl
@[simp] theorem raiseVec_drakes (fn vec : Nat) : (raiseVec s fn vec).drakes = s.drakes := by unfold raiseVec; split <;> rfl
@[simp] theorem raiseVec_oxs (fn vec : Nat) : (raiseVec s fn vec).oxs = s.oxs := by unfold raiseVec; split <;> rfl
@[simp] theorem raiseVec_ponys (fn vec : Nat) : (raiseVec s fn vec).ponys = s.ponys := by unfold raiseVec; split <;> rfl
@[simp] theorem raiseVec_mule (fn vec : Nat) : (raiseVec s fn vec).mule = s.mule := by unfold raiseVec; split <;> rfl
@[simp] theorem raiseVec_solvs (fn vec : Nat) : (raiseVec s fn vec).solvs = s.solvs := by unfold raiseVec; split <;> rfl
@[simp] theorem raiseVec_links (fn vec : Nat) : (raiseVec s fn vec).links = s.links := by unfold raiseVec; split <;> rfl
@[simp] theorem raiseVec_sw (fn vec : Nat) : (raiseVec s fn vec).sw = s.sw := by unfold raiseVec; split <;> rfl
@[simp] theorem raiseVec_coll (fn vec : Nat) : (raiseVec s fn vec).coll = s.coll := by unfold raiseVec; split <;> rfl
@[simp] theorem raiseVec_xag (fn vec : Nat) : (raiseVec s fn vec).xag = s.xag := by unfold raiseVec; split <;> rfl
@[simp] theorem raiseVec_mgmt (fn vec : Nat) : (raiseVec s fn vec).mgmt = s.mgmt := by unfold raiseVec; split <;> rfl
@[simp] theorem raiseVec_pwr (fn vec : Nat) : (raiseVec s fn vec).pwr = s.pwr := by unfold raiseVec; split <;> rfl
@[simp] theorem raiseVec_arbs (fn vec : Nat) : (raiseVec s fn vec).arbs = s.arbs := by unfold raiseVec; split <;> rfl
@[simp] theorem raiseVec_tap (fn vec : Nat) : (raiseVec s fn vec).tap = s.tap := by unfold raiseVec; split <;> rfl
@[simp] theorem raiseVec_gclk (fn vec : Nat) : (raiseVec s fn vec).gclk = s.gclk := by unfold raiseVec; split <;> rfl
@[simp] theorem raiseVec_freeCount (fn vec : Nat) : (raiseVec s fn vec).freeCount = s.freeCount := by unfold raiseVec; split <;> rfl
@[simp] theorem raiseVec_pending (fn vec : Nat) : (raiseVec s fn vec).pending = s.pending := by unfold raiseVec; split <;> rfl

/-! An event raised (R651). -/

@[simp] theorem raiseEvent_part (b : Block) (i n : Nat) : (raiseEvent s b i n).part = s.part := by unfold raiseEvent; dsimp only; split <;> simp
@[simp] theorem raiseEvent_mem (b : Block) (i n : Nat) : (raiseEvent s b i n).mem = s.mem := by unfold raiseEvent; dsimp only; split <;> simp
@[simp] theorem raiseEvent_poison (b : Block) (i n : Nat) : (raiseEvent s b i n).poison = s.poison := by unfold raiseEvent; dsimp only; split <;> simp
@[simp] theorem raiseEvent_dark (b : Block) (i n : Nat) : (raiseEvent s b i n).dark = s.dark := by unfold raiseEvent; dsimp only; split <;> simp
@[simp] theorem raiseEvent_darkPoison (b : Block) (i n : Nat) : (raiseEvent s b i n).darkPoison = s.darkPoison := by unfold raiseEvent; dsimp only; split <;> simp
@[simp] theorem raiseEvent_darkErrs (b : Block) (i n : Nat) : (raiseEvent s b i n).darkErrs = s.darkErrs := by unfold raiseEvent; dsimp only; split <;> simp
@[simp] theorem raiseEvent_memErrs (b : Block) (i n : Nat) : (raiseEvent s b i n).memErrs = s.memErrs := by unfold raiseEvent; dsimp only; split <;> simp
@[simp] theorem raiseEvent_sealedG (b : Block) (i n : Nat) : (raiseEvent s b i n).sealedG = s.sealedG := by unfold raiseEvent; dsimp only; split <;> simp
@[simp] theorem raiseEvent_seals (b : Block) (i n : Nat) : (raiseEvent s b i n).seals = s.seals := by unfold raiseEvent; dsimp only; split <;> simp
@[simp] theorem raiseEvent_spads (b : Block) (i n : Nat) : (raiseEvent s b i n).spads = s.spads := by unfold raiseEvent; dsimp only; split <;> simp
@[simp] theorem raiseEvent_ports (b : Block) (i n : Nat) : (raiseEvent s b i n).ports = s.ports := by unfold raiseEvent; dsimp only; split <;> simp
@[simp] theorem raiseEvent_tenants (b : Block) (i n : Nat) : (raiseEvent s b i n).tenants = s.tenants := by unfold raiseEvent; dsimp only; split <;> simp
@[simp] theorem raiseEvent_jobs (b : Block) (i n : Nat) : (raiseEvent s b i n).jobs = s.jobs := by unfold raiseEvent; dsimp only; split <;> simp
@[simp] theorem raiseEvent_hen (b : Block) (i n : Nat) : (raiseEvent s b i n).hen = s.hen := by unfold raiseEvent; dsimp only; split <;> simp
@[simp] theorem raiseEvent_ledger (b : Block) (i n : Nat) : (raiseEvent s b i n).ledger = s.ledger := by unfold raiseEvent; dsimp only; split <;> simp
@[simp] theorem raiseEvent_drakes (b : Block) (i n : Nat) : (raiseEvent s b i n).drakes = s.drakes := by unfold raiseEvent; dsimp only; split <;> simp
@[simp] theorem raiseEvent_oxs (b : Block) (i n : Nat) : (raiseEvent s b i n).oxs = s.oxs := by unfold raiseEvent; dsimp only; split <;> simp
@[simp] theorem raiseEvent_ponys (b : Block) (i n : Nat) : (raiseEvent s b i n).ponys = s.ponys := by unfold raiseEvent; dsimp only; split <;> simp
@[simp] theorem raiseEvent_mule (b : Block) (i n : Nat) : (raiseEvent s b i n).mule = s.mule := by unfold raiseEvent; dsimp only; split <;> simp
@[simp] theorem raiseEvent_solvs (b : Block) (i n : Nat) : (raiseEvent s b i n).solvs = s.solvs := by unfold raiseEvent; dsimp only; split <;> simp
@[simp] theorem raiseEvent_links (b : Block) (i n : Nat) : (raiseEvent s b i n).links = s.links := by unfold raiseEvent; dsimp only; split <;> simp
@[simp] theorem raiseEvent_sw (b : Block) (i n : Nat) : (raiseEvent s b i n).sw = s.sw := by unfold raiseEvent; dsimp only; split <;> simp
@[simp] theorem raiseEvent_coll (b : Block) (i n : Nat) : (raiseEvent s b i n).coll = s.coll := by unfold raiseEvent; dsimp only; split <;> simp
@[simp] theorem raiseEvent_xag (b : Block) (i n : Nat) : (raiseEvent s b i n).xag = s.xag := by unfold raiseEvent; dsimp only; split <;> simp
@[simp] theorem raiseEvent_mgmt (b : Block) (i n : Nat) : (raiseEvent s b i n).mgmt = s.mgmt := by unfold raiseEvent; dsimp only; split <;> simp
@[simp] theorem raiseEvent_pwr (b : Block) (i n : Nat) : (raiseEvent s b i n).pwr = s.pwr := by unfold raiseEvent; dsimp only; split <;> simp
@[simp] theorem raiseEvent_arbs (b : Block) (i n : Nat) : (raiseEvent s b i n).arbs = s.arbs := by unfold raiseEvent; dsimp only; split <;> simp
@[simp] theorem raiseEvent_tap (b : Block) (i n : Nat) : (raiseEvent s b i n).tap = s.tap := by unfold raiseEvent; dsimp only; split <;> simp
@[simp] theorem raiseEvent_gclk (b : Block) (i n : Nat) : (raiseEvent s b i n).gclk = s.gclk := by unfold raiseEvent; dsimp only; split <;> simp
@[simp] theorem raiseEvent_freeCount (b : Block) (i n : Nat) : (raiseEvent s b i n).freeCount = s.freeCount := by unfold raiseEvent; dsimp only; split <;> simp
@[simp] theorem raiseEvent_pending (b : Block) (i n : Nat) : (raiseEvent s b i n).pending = s.pending := by unfold raiseEvent; dsimp only; split <;> simp

/-! An entry of the RAS log (R737). -/

@[simp] theorem rasLog_part (b : Block) (i cls code addr tenant : Nat) : (rasLog s b i cls code addr tenant).part = s.part := by unfold rasLog; dsimp only; split <;> simp
@[simp] theorem rasLog_mem (b : Block) (i cls code addr tenant : Nat) : (rasLog s b i cls code addr tenant).mem = s.mem := by unfold rasLog; dsimp only; split <;> simp
@[simp] theorem rasLog_poison (b : Block) (i cls code addr tenant : Nat) : (rasLog s b i cls code addr tenant).poison = s.poison := by unfold rasLog; dsimp only; split <;> simp
@[simp] theorem rasLog_dark (b : Block) (i cls code addr tenant : Nat) : (rasLog s b i cls code addr tenant).dark = s.dark := by unfold rasLog; dsimp only; split <;> simp
@[simp] theorem rasLog_darkPoison (b : Block) (i cls code addr tenant : Nat) : (rasLog s b i cls code addr tenant).darkPoison = s.darkPoison := by unfold rasLog; dsimp only; split <;> simp
@[simp] theorem rasLog_darkErrs (b : Block) (i cls code addr tenant : Nat) : (rasLog s b i cls code addr tenant).darkErrs = s.darkErrs := by unfold rasLog; dsimp only; split <;> simp
@[simp] theorem rasLog_memErrs (b : Block) (i cls code addr tenant : Nat) : (rasLog s b i cls code addr tenant).memErrs = s.memErrs := by unfold rasLog; dsimp only; split <;> simp
@[simp] theorem rasLog_sealedG (b : Block) (i cls code addr tenant : Nat) : (rasLog s b i cls code addr tenant).sealedG = s.sealedG := by unfold rasLog; dsimp only; split <;> simp
@[simp] theorem rasLog_seals (b : Block) (i cls code addr tenant : Nat) : (rasLog s b i cls code addr tenant).seals = s.seals := by unfold rasLog; dsimp only; split <;> simp
@[simp] theorem rasLog_spads (b : Block) (i cls code addr tenant : Nat) : (rasLog s b i cls code addr tenant).spads = s.spads := by unfold rasLog; dsimp only; split <;> simp
@[simp] theorem rasLog_ports (b : Block) (i cls code addr tenant : Nat) : (rasLog s b i cls code addr tenant).ports = s.ports := by unfold rasLog; dsimp only; split <;> simp
@[simp] theorem rasLog_tenants (b : Block) (i cls code addr tenant : Nat) : (rasLog s b i cls code addr tenant).tenants = s.tenants := by unfold rasLog; dsimp only; split <;> simp
@[simp] theorem rasLog_jobs (b : Block) (i cls code addr tenant : Nat) : (rasLog s b i cls code addr tenant).jobs = s.jobs := by unfold rasLog; dsimp only; split <;> simp
@[simp] theorem rasLog_hen (b : Block) (i cls code addr tenant : Nat) : (rasLog s b i cls code addr tenant).hen = s.hen := by unfold rasLog; dsimp only; split <;> simp
@[simp] theorem rasLog_ledger (b : Block) (i cls code addr tenant : Nat) : (rasLog s b i cls code addr tenant).ledger = s.ledger := by unfold rasLog; dsimp only; split <;> simp
@[simp] theorem rasLog_drakes (b : Block) (i cls code addr tenant : Nat) : (rasLog s b i cls code addr tenant).drakes = s.drakes := by unfold rasLog; dsimp only; split <;> simp
@[simp] theorem rasLog_oxs (b : Block) (i cls code addr tenant : Nat) : (rasLog s b i cls code addr tenant).oxs = s.oxs := by unfold rasLog; dsimp only; split <;> simp
@[simp] theorem rasLog_ponys (b : Block) (i cls code addr tenant : Nat) : (rasLog s b i cls code addr tenant).ponys = s.ponys := by unfold rasLog; dsimp only; split <;> simp
@[simp] theorem rasLog_mule (b : Block) (i cls code addr tenant : Nat) : (rasLog s b i cls code addr tenant).mule = s.mule := by unfold rasLog; dsimp only; split <;> simp
@[simp] theorem rasLog_solvs (b : Block) (i cls code addr tenant : Nat) : (rasLog s b i cls code addr tenant).solvs = s.solvs := by unfold rasLog; dsimp only; split <;> simp
@[simp] theorem rasLog_links (b : Block) (i cls code addr tenant : Nat) : (rasLog s b i cls code addr tenant).links = s.links := by unfold rasLog; dsimp only; split <;> simp
@[simp] theorem rasLog_sw (b : Block) (i cls code addr tenant : Nat) : (rasLog s b i cls code addr tenant).sw = s.sw := by unfold rasLog; dsimp only; split <;> simp
@[simp] theorem rasLog_coll (b : Block) (i cls code addr tenant : Nat) : (rasLog s b i cls code addr tenant).coll = s.coll := by unfold rasLog; dsimp only; split <;> simp
@[simp] theorem rasLog_xag (b : Block) (i cls code addr tenant : Nat) : (rasLog s b i cls code addr tenant).xag = s.xag := by unfold rasLog; dsimp only; split <;> simp
@[simp] theorem rasLog_pwr (b : Block) (i cls code addr tenant : Nat) : (rasLog s b i cls code addr tenant).pwr = s.pwr := by unfold rasLog; dsimp only; split <;> simp
@[simp] theorem rasLog_arbs (b : Block) (i cls code addr tenant : Nat) : (rasLog s b i cls code addr tenant).arbs = s.arbs := by unfold rasLog; dsimp only; split <;> simp
@[simp] theorem rasLog_tap (b : Block) (i cls code addr tenant : Nat) : (rasLog s b i cls code addr tenant).tap = s.tap := by unfold rasLog; dsimp only; split <;> simp
@[simp] theorem rasLog_gclk (b : Block) (i cls code addr tenant : Nat) : (rasLog s b i cls code addr tenant).gclk = s.gclk := by unfold rasLog; dsimp only; split <;> simp
@[simp] theorem rasLog_freeCount (b : Block) (i cls code addr tenant : Nat) : (rasLog s b i cls code addr tenant).freeCount = s.freeCount := by unfold rasLog; dsimp only; split <;> simp
@[simp] theorem rasLog_pending (b : Block) (i cls code addr tenant : Nat) : (rasLog s b i cls code addr tenant).pending = s.pending := by unfold rasLog; dsimp only; split <;> simp

/-! An error of a block (R736). -/

@[simp] theorem blkError_part (b : Block) (i cls code addr tenant : Nat) : (blkError s b i cls code addr tenant).part = s.part := by unfold blkError; dsimp only; split <;> simp
@[simp] theorem blkError_mem (b : Block) (i cls code addr tenant : Nat) : (blkError s b i cls code addr tenant).mem = s.mem := by unfold blkError; dsimp only; split <;> simp
@[simp] theorem blkError_poison (b : Block) (i cls code addr tenant : Nat) : (blkError s b i cls code addr tenant).poison = s.poison := by unfold blkError; dsimp only; split <;> simp
@[simp] theorem blkError_dark (b : Block) (i cls code addr tenant : Nat) : (blkError s b i cls code addr tenant).dark = s.dark := by unfold blkError; dsimp only; split <;> simp
@[simp] theorem blkError_darkPoison (b : Block) (i cls code addr tenant : Nat) : (blkError s b i cls code addr tenant).darkPoison = s.darkPoison := by unfold blkError; dsimp only; split <;> simp
@[simp] theorem blkError_darkErrs (b : Block) (i cls code addr tenant : Nat) : (blkError s b i cls code addr tenant).darkErrs = s.darkErrs := by unfold blkError; dsimp only; split <;> simp
@[simp] theorem blkError_memErrs (b : Block) (i cls code addr tenant : Nat) : (blkError s b i cls code addr tenant).memErrs = s.memErrs := by unfold blkError; dsimp only; split <;> simp
@[simp] theorem blkError_sealedG (b : Block) (i cls code addr tenant : Nat) : (blkError s b i cls code addr tenant).sealedG = s.sealedG := by unfold blkError; dsimp only; split <;> simp
@[simp] theorem blkError_seals (b : Block) (i cls code addr tenant : Nat) : (blkError s b i cls code addr tenant).seals = s.seals := by unfold blkError; dsimp only; split <;> simp
@[simp] theorem blkError_spads (b : Block) (i cls code addr tenant : Nat) : (blkError s b i cls code addr tenant).spads = s.spads := by unfold blkError; dsimp only; split <;> simp
@[simp] theorem blkError_ports (b : Block) (i cls code addr tenant : Nat) : (blkError s b i cls code addr tenant).ports = s.ports := by unfold blkError; dsimp only; split <;> simp
@[simp] theorem blkError_tenants (b : Block) (i cls code addr tenant : Nat) : (blkError s b i cls code addr tenant).tenants = s.tenants := by unfold blkError; dsimp only; split <;> simp
@[simp] theorem blkError_jobs (b : Block) (i cls code addr tenant : Nat) : (blkError s b i cls code addr tenant).jobs = s.jobs := by unfold blkError; dsimp only; split <;> simp
@[simp] theorem blkError_hen (b : Block) (i cls code addr tenant : Nat) : (blkError s b i cls code addr tenant).hen = s.hen := by unfold blkError; dsimp only; split <;> simp
@[simp] theorem blkError_ledger (b : Block) (i cls code addr tenant : Nat) : (blkError s b i cls code addr tenant).ledger = s.ledger := by unfold blkError; dsimp only; split <;> simp
@[simp] theorem blkError_drakes (b : Block) (i cls code addr tenant : Nat) : (blkError s b i cls code addr tenant).drakes = s.drakes := by unfold blkError; dsimp only; split <;> simp
@[simp] theorem blkError_oxs (b : Block) (i cls code addr tenant : Nat) : (blkError s b i cls code addr tenant).oxs = s.oxs := by unfold blkError; dsimp only; split <;> simp
@[simp] theorem blkError_ponys (b : Block) (i cls code addr tenant : Nat) : (blkError s b i cls code addr tenant).ponys = s.ponys := by unfold blkError; dsimp only; split <;> simp
@[simp] theorem blkError_mule (b : Block) (i cls code addr tenant : Nat) : (blkError s b i cls code addr tenant).mule = s.mule := by unfold blkError; dsimp only; split <;> simp
@[simp] theorem blkError_solvs (b : Block) (i cls code addr tenant : Nat) : (blkError s b i cls code addr tenant).solvs = s.solvs := by unfold blkError; dsimp only; split <;> simp
@[simp] theorem blkError_links (b : Block) (i cls code addr tenant : Nat) : (blkError s b i cls code addr tenant).links = s.links := by unfold blkError; dsimp only; split <;> simp
@[simp] theorem blkError_sw (b : Block) (i cls code addr tenant : Nat) : (blkError s b i cls code addr tenant).sw = s.sw := by unfold blkError; dsimp only; split <;> simp
@[simp] theorem blkError_coll (b : Block) (i cls code addr tenant : Nat) : (blkError s b i cls code addr tenant).coll = s.coll := by unfold blkError; dsimp only; split <;> simp
@[simp] theorem blkError_xag (b : Block) (i cls code addr tenant : Nat) : (blkError s b i cls code addr tenant).xag = s.xag := by unfold blkError; dsimp only; split <;> simp
@[simp] theorem blkError_pwr (b : Block) (i cls code addr tenant : Nat) : (blkError s b i cls code addr tenant).pwr = s.pwr := by unfold blkError; dsimp only; split <;> simp
@[simp] theorem blkError_arbs (b : Block) (i cls code addr tenant : Nat) : (blkError s b i cls code addr tenant).arbs = s.arbs := by unfold blkError; dsimp only; split <;> simp
@[simp] theorem blkError_tap (b : Block) (i cls code addr tenant : Nat) : (blkError s b i cls code addr tenant).tap = s.tap := by unfold blkError; dsimp only; split <;> simp
@[simp] theorem blkError_gclk (b : Block) (i cls code addr tenant : Nat) : (blkError s b i cls code addr tenant).gclk = s.gclk := by unfold blkError; dsimp only; split <;> simp
@[simp] theorem blkError_freeCount (b : Block) (i cls code addr tenant : Nat) : (blkError s b i cls code addr tenant).freeCount = s.freeCount := by unfold blkError; dsimp only; split <;> simp
@[simp] theorem blkError_pending (b : Block) (i cls code addr tenant : Nat) : (blkError s b i cls code addr tenant).pending = s.pending := by unfold blkError; dsimp only; split <;> simp

/-! A register write ignored (R736): its page alone changes. -/

@[simp] theorem regError_part (b : Block) (i off : Nat) : (regError s b i off).part = s.part := rfl
@[simp] theorem regError_mem (b : Block) (i off : Nat) : (regError s b i off).mem = s.mem := rfl
@[simp] theorem regError_poison (b : Block) (i off : Nat) : (regError s b i off).poison = s.poison := rfl
@[simp] theorem regError_dark (b : Block) (i off : Nat) : (regError s b i off).dark = s.dark := rfl
@[simp] theorem regError_darkPoison (b : Block) (i off : Nat) : (regError s b i off).darkPoison = s.darkPoison := rfl
@[simp] theorem regError_darkErrs (b : Block) (i off : Nat) : (regError s b i off).darkErrs = s.darkErrs := rfl
@[simp] theorem regError_memErrs (b : Block) (i off : Nat) : (regError s b i off).memErrs = s.memErrs := rfl
@[simp] theorem regError_sealedG (b : Block) (i off : Nat) : (regError s b i off).sealedG = s.sealedG := rfl
@[simp] theorem regError_seals (b : Block) (i off : Nat) : (regError s b i off).seals = s.seals := rfl
@[simp] theorem regError_spads (b : Block) (i off : Nat) : (regError s b i off).spads = s.spads := rfl
@[simp] theorem regError_ports (b : Block) (i off : Nat) : (regError s b i off).ports = s.ports := rfl
@[simp] theorem regError_tenants (b : Block) (i off : Nat) : (regError s b i off).tenants = s.tenants := rfl
@[simp] theorem regError_jobs (b : Block) (i off : Nat) : (regError s b i off).jobs = s.jobs := rfl
@[simp] theorem regError_hostIf (b : Block) (i off : Nat) : (regError s b i off).hostIf = s.hostIf := rfl
@[simp] theorem regError_hen (b : Block) (i off : Nat) : (regError s b i off).hen = s.hen := rfl
@[simp] theorem regError_ledger (b : Block) (i off : Nat) : (regError s b i off).ledger = s.ledger := rfl
@[simp] theorem regError_drakes (b : Block) (i off : Nat) : (regError s b i off).drakes = s.drakes := rfl
@[simp] theorem regError_oxs (b : Block) (i off : Nat) : (regError s b i off).oxs = s.oxs := rfl
@[simp] theorem regError_ponys (b : Block) (i off : Nat) : (regError s b i off).ponys = s.ponys := rfl
@[simp] theorem regError_mule (b : Block) (i off : Nat) : (regError s b i off).mule = s.mule := rfl
@[simp] theorem regError_solvs (b : Block) (i off : Nat) : (regError s b i off).solvs = s.solvs := rfl
@[simp] theorem regError_links (b : Block) (i off : Nat) : (regError s b i off).links = s.links := rfl
@[simp] theorem regError_sw (b : Block) (i off : Nat) : (regError s b i off).sw = s.sw := rfl
@[simp] theorem regError_coll (b : Block) (i off : Nat) : (regError s b i off).coll = s.coll := rfl
@[simp] theorem regError_xag (b : Block) (i off : Nat) : (regError s b i off).xag = s.xag := rfl
@[simp] theorem regError_mgmt (b : Block) (i off : Nat) : (regError s b i off).mgmt = s.mgmt := rfl
@[simp] theorem regError_pwr (b : Block) (i off : Nat) : (regError s b i off).pwr = s.pwr := rfl
@[simp] theorem regError_arbs (b : Block) (i off : Nat) : (regError s b i off).arbs = s.arbs := rfl
@[simp] theorem regError_tap (b : Block) (i off : Nat) : (regError s b i off).tap = s.tap := rfl
@[simp] theorem regError_gclk (b : Block) (i off : Nat) : (regError s b i off).gclk = s.gclk := rfl
@[simp] theorem regError_out (b : Block) (i off : Nat) : (regError s b i off).out = s.out := rfl
@[simp] theorem regError_freeCount (b : Block) (i off : Nat) : (regError s b i off).freeCount = s.freeCount := rfl
@[simp] theorem regError_pending (b : Block) (i off : Nat) : (regError s b i off).pending = s.pending := rfl

/-! A BAR0 access counted. -/

@[simp] theorem bar0Count_part (r : Requester) : (bar0Count s r).part = s.part := by cases r <;> simp only [bar0Count] <;> (try split) <;> rfl
@[simp] theorem bar0Count_mem (r : Requester) : (bar0Count s r).mem = s.mem := by cases r <;> simp only [bar0Count] <;> (try split) <;> rfl
@[simp] theorem bar0Count_poison (r : Requester) : (bar0Count s r).poison = s.poison := by cases r <;> simp only [bar0Count] <;> (try split) <;> rfl
@[simp] theorem bar0Count_dark (r : Requester) : (bar0Count s r).dark = s.dark := by cases r <;> simp only [bar0Count] <;> (try split) <;> rfl
@[simp] theorem bar0Count_darkPoison (r : Requester) : (bar0Count s r).darkPoison = s.darkPoison := by cases r <;> simp only [bar0Count] <;> (try split) <;> rfl
@[simp] theorem bar0Count_darkErrs (r : Requester) : (bar0Count s r).darkErrs = s.darkErrs := by cases r <;> simp only [bar0Count] <;> (try split) <;> rfl
@[simp] theorem bar0Count_memErrs (r : Requester) : (bar0Count s r).memErrs = s.memErrs := by cases r <;> simp only [bar0Count] <;> (try split) <;> rfl
@[simp] theorem bar0Count_sealedG (r : Requester) : (bar0Count s r).sealedG = s.sealedG := by cases r <;> simp only [bar0Count] <;> (try split) <;> rfl
@[simp] theorem bar0Count_seals (r : Requester) : (bar0Count s r).seals = s.seals := by cases r <;> simp only [bar0Count] <;> (try split) <;> rfl
@[simp] theorem bar0Count_spads (r : Requester) : (bar0Count s r).spads = s.spads := by cases r <;> simp only [bar0Count] <;> (try split) <;> rfl
@[simp] theorem bar0Count_ports (r : Requester) : (bar0Count s r).ports = s.ports := by cases r <;> simp only [bar0Count] <;> (try split) <;> rfl
@[simp] theorem bar0Count_tenants (r : Requester) : (bar0Count s r).tenants = s.tenants := by cases r <;> simp only [bar0Count] <;> (try split) <;> rfl
@[simp] theorem bar0Count_jobs (r : Requester) : (bar0Count s r).jobs = s.jobs := by cases r <;> simp only [bar0Count] <;> (try split) <;> rfl
@[simp] theorem bar0Count_hostIf (r : Requester) : (bar0Count s r).hostIf = s.hostIf := by cases r <;> simp only [bar0Count] <;> (try split) <;> rfl
@[simp] theorem bar0Count_hen (r : Requester) : (bar0Count s r).hen = s.hen := by cases r <;> simp only [bar0Count] <;> (try split) <;> rfl
@[simp] theorem bar0Count_ledger (r : Requester) : (bar0Count s r).ledger = s.ledger := by cases r <;> simp only [bar0Count] <;> (try split) <;> rfl
@[simp] theorem bar0Count_drakes (r : Requester) : (bar0Count s r).drakes = s.drakes := by cases r <;> simp only [bar0Count] <;> (try split) <;> rfl
@[simp] theorem bar0Count_oxs (r : Requester) : (bar0Count s r).oxs = s.oxs := by cases r <;> simp only [bar0Count] <;> (try split) <;> rfl
@[simp] theorem bar0Count_ponys (r : Requester) : (bar0Count s r).ponys = s.ponys := by cases r <;> simp only [bar0Count] <;> (try split) <;> rfl
@[simp] theorem bar0Count_mule (r : Requester) : (bar0Count s r).mule = s.mule := by cases r <;> simp only [bar0Count] <;> (try split) <;> rfl
@[simp] theorem bar0Count_solvs (r : Requester) : (bar0Count s r).solvs = s.solvs := by cases r <;> simp only [bar0Count] <;> (try split) <;> rfl
@[simp] theorem bar0Count_links (r : Requester) : (bar0Count s r).links = s.links := by cases r <;> simp only [bar0Count] <;> (try split) <;> rfl
@[simp] theorem bar0Count_sw (r : Requester) : (bar0Count s r).sw = s.sw := by cases r <;> simp only [bar0Count] <;> (try split) <;> rfl
@[simp] theorem bar0Count_coll (r : Requester) : (bar0Count s r).coll = s.coll := by cases r <;> simp only [bar0Count] <;> (try split) <;> rfl
@[simp] theorem bar0Count_xag (r : Requester) : (bar0Count s r).xag = s.xag := by cases r <;> simp only [bar0Count] <;> (try split) <;> rfl
@[simp] theorem bar0Count_mgmt (r : Requester) : (bar0Count s r).mgmt = s.mgmt := by cases r <;> simp only [bar0Count] <;> (try split) <;> rfl
@[simp] theorem bar0Count_pwr (r : Requester) : (bar0Count s r).pwr = s.pwr := by cases r <;> simp only [bar0Count] <;> (try split) <;> rfl
@[simp] theorem bar0Count_arbs (r : Requester) : (bar0Count s r).arbs = s.arbs := by cases r <;> simp only [bar0Count] <;> (try split) <;> rfl
@[simp] theorem bar0Count_tap (r : Requester) : (bar0Count s r).tap = s.tap := by cases r <;> simp only [bar0Count] <;> (try split) <;> rfl
@[simp] theorem bar0Count_gclk (r : Requester) : (bar0Count s r).gclk = s.gclk := by cases r <;> simp only [bar0Count] <;> (try split) <;> rfl
@[simp] theorem bar0Count_out (r : Requester) : (bar0Count s r).out = s.out := by cases r <;> simp only [bar0Count] <;> (try split) <;> rfl
@[simp] theorem bar0Count_freeCount (r : Requester) : (bar0Count s r).freeCount = s.freeCount := by cases r <;> simp only [bar0Count] <;> (try split) <;> rfl
@[simp] theorem bar0Count_pending (r : Requester) : (bar0Count s r).pending = s.pending := by cases r <;> simp only [bar0Count] <;> (try split) <;> rfl

/-! Staged words used up (R761). -/

@[simp] theorem useStaged_part (r : Requester) (b : Block) (i off : Nat) : (useStaged s r b i off).part = s.part := by unfold useStaged; split <;> rfl
@[simp] theorem useStaged_mem (r : Requester) (b : Block) (i off : Nat) : (useStaged s r b i off).mem = s.mem := by unfold useStaged; split <;> rfl
@[simp] theorem useStaged_poison (r : Requester) (b : Block) (i off : Nat) : (useStaged s r b i off).poison = s.poison := by unfold useStaged; split <;> rfl
@[simp] theorem useStaged_dark (r : Requester) (b : Block) (i off : Nat) : (useStaged s r b i off).dark = s.dark := by unfold useStaged; split <;> rfl
@[simp] theorem useStaged_darkPoison (r : Requester) (b : Block) (i off : Nat) : (useStaged s r b i off).darkPoison = s.darkPoison := by unfold useStaged; split <;> rfl
@[simp] theorem useStaged_darkErrs (r : Requester) (b : Block) (i off : Nat) : (useStaged s r b i off).darkErrs = s.darkErrs := by unfold useStaged; split <;> rfl
@[simp] theorem useStaged_memErrs (r : Requester) (b : Block) (i off : Nat) : (useStaged s r b i off).memErrs = s.memErrs := by unfold useStaged; split <;> rfl
@[simp] theorem useStaged_sealedG (r : Requester) (b : Block) (i off : Nat) : (useStaged s r b i off).sealedG = s.sealedG := by unfold useStaged; split <;> rfl
@[simp] theorem useStaged_seals (r : Requester) (b : Block) (i off : Nat) : (useStaged s r b i off).seals = s.seals := by unfold useStaged; split <;> rfl
@[simp] theorem useStaged_spads (r : Requester) (b : Block) (i off : Nat) : (useStaged s r b i off).spads = s.spads := by unfold useStaged; split <;> rfl
@[simp] theorem useStaged_ports (r : Requester) (b : Block) (i off : Nat) : (useStaged s r b i off).ports = s.ports := by unfold useStaged; split <;> rfl
@[simp] theorem useStaged_tenants (r : Requester) (b : Block) (i off : Nat) : (useStaged s r b i off).tenants = s.tenants := by unfold useStaged; split <;> rfl
@[simp] theorem useStaged_jobs (r : Requester) (b : Block) (i off : Nat) : (useStaged s r b i off).jobs = s.jobs := by unfold useStaged; split <;> rfl
@[simp] theorem useStaged_hostIf (r : Requester) (b : Block) (i off : Nat) : (useStaged s r b i off).hostIf = s.hostIf := by unfold useStaged; split <;> rfl
@[simp] theorem useStaged_hen (r : Requester) (b : Block) (i off : Nat) : (useStaged s r b i off).hen = s.hen := by unfold useStaged; split <;> rfl
@[simp] theorem useStaged_ledger (r : Requester) (b : Block) (i off : Nat) : (useStaged s r b i off).ledger = s.ledger := by unfold useStaged; split <;> rfl
@[simp] theorem useStaged_drakes (r : Requester) (b : Block) (i off : Nat) : (useStaged s r b i off).drakes = s.drakes := by unfold useStaged; split <;> rfl
@[simp] theorem useStaged_oxs (r : Requester) (b : Block) (i off : Nat) : (useStaged s r b i off).oxs = s.oxs := by unfold useStaged; split <;> rfl
@[simp] theorem useStaged_ponys (r : Requester) (b : Block) (i off : Nat) : (useStaged s r b i off).ponys = s.ponys := by unfold useStaged; split <;> rfl
@[simp] theorem useStaged_mule (r : Requester) (b : Block) (i off : Nat) : (useStaged s r b i off).mule = s.mule := by unfold useStaged; split <;> rfl
@[simp] theorem useStaged_solvs (r : Requester) (b : Block) (i off : Nat) : (useStaged s r b i off).solvs = s.solvs := by unfold useStaged; split <;> rfl
@[simp] theorem useStaged_links (r : Requester) (b : Block) (i off : Nat) : (useStaged s r b i off).links = s.links := by unfold useStaged; split <;> rfl
@[simp] theorem useStaged_sw (r : Requester) (b : Block) (i off : Nat) : (useStaged s r b i off).sw = s.sw := by unfold useStaged; split <;> rfl
@[simp] theorem useStaged_coll (r : Requester) (b : Block) (i off : Nat) : (useStaged s r b i off).coll = s.coll := by unfold useStaged; split <;> rfl
@[simp] theorem useStaged_xag (r : Requester) (b : Block) (i off : Nat) : (useStaged s r b i off).xag = s.xag := by unfold useStaged; split <;> rfl
@[simp] theorem useStaged_mgmt (r : Requester) (b : Block) (i off : Nat) : (useStaged s r b i off).mgmt = s.mgmt := by unfold useStaged; split <;> rfl
@[simp] theorem useStaged_pwr (r : Requester) (b : Block) (i off : Nat) : (useStaged s r b i off).pwr = s.pwr := by unfold useStaged; split <;> rfl
@[simp] theorem useStaged_arbs (r : Requester) (b : Block) (i off : Nat) : (useStaged s r b i off).arbs = s.arbs := by unfold useStaged; split <;> rfl
@[simp] theorem useStaged_tap (r : Requester) (b : Block) (i off : Nat) : (useStaged s r b i off).tap = s.tap := by unfold useStaged; split <;> rfl
@[simp] theorem useStaged_gclk (r : Requester) (b : Block) (i off : Nat) : (useStaged s r b i off).gclk = s.gclk := by unfold useStaged; split <;> rfl
@[simp] theorem useStaged_out (r : Requester) (b : Block) (i off : Nat) : (useStaged s r b i off).out = s.out := by unfold useStaged; split <;> rfl
@[simp] theorem useStaged_freeCount (r : Requester) (b : Block) (i off : Nat) : (useStaged s r b i off).freeCount = s.freeCount := by unfold useStaged; split <;> rfl
@[simp] theorem useStaged_pending (r : Requester) (b : Block) (i off : Nat) : (useStaged s r b i off).pending = s.pending := by unfold useStaged; split <;> rfl

/-! A set that becomes FAILED (R389). -/

@[simp] theorem setFailed_part (d k : Nat) : (setFailed s d k).part = s.part := by unfold setFailed; simp
@[simp] theorem setFailed_mem (d k : Nat) : (setFailed s d k).mem = s.mem := by unfold setFailed; simp
@[simp] theorem setFailed_poison (d k : Nat) : (setFailed s d k).poison = s.poison := by unfold setFailed; simp
@[simp] theorem setFailed_dark (d k : Nat) : (setFailed s d k).dark = s.dark := by unfold setFailed; simp
@[simp] theorem setFailed_darkPoison (d k : Nat) : (setFailed s d k).darkPoison = s.darkPoison := by unfold setFailed; simp
@[simp] theorem setFailed_darkErrs (d k : Nat) : (setFailed s d k).darkErrs = s.darkErrs := by unfold setFailed; simp
@[simp] theorem setFailed_memErrs (d k : Nat) : (setFailed s d k).memErrs = s.memErrs := by unfold setFailed; simp
@[simp] theorem setFailed_sealedG (d k : Nat) : (setFailed s d k).sealedG = s.sealedG := by unfold setFailed; simp
@[simp] theorem setFailed_seals (d k : Nat) : (setFailed s d k).seals = s.seals := by unfold setFailed; simp
@[simp] theorem setFailed_ports (d k : Nat) : (setFailed s d k).ports = s.ports := by unfold setFailed; simp
@[simp] theorem setFailed_tenants (d k : Nat) : (setFailed s d k).tenants = s.tenants := by unfold setFailed; simp
@[simp] theorem setFailed_jobs (d k : Nat) : (setFailed s d k).jobs = s.jobs := by unfold setFailed; simp
@[simp] theorem setFailed_hen (d k : Nat) : (setFailed s d k).hen = s.hen := by unfold setFailed; simp
@[simp] theorem setFailed_ledger (d k : Nat) : (setFailed s d k).ledger = s.ledger := by unfold setFailed; simp
@[simp] theorem setFailed_drakes (d k : Nat) : (setFailed s d k).drakes = s.drakes := by unfold setFailed; simp
@[simp] theorem setFailed_oxs (d k : Nat) : (setFailed s d k).oxs = s.oxs := by unfold setFailed; simp
@[simp] theorem setFailed_ponys (d k : Nat) : (setFailed s d k).ponys = s.ponys := by unfold setFailed; simp
@[simp] theorem setFailed_mule (d k : Nat) : (setFailed s d k).mule = s.mule := by unfold setFailed; simp
@[simp] theorem setFailed_solvs (d k : Nat) : (setFailed s d k).solvs = s.solvs := by unfold setFailed; simp
@[simp] theorem setFailed_links (d k : Nat) : (setFailed s d k).links = s.links := by unfold setFailed; simp
@[simp] theorem setFailed_sw (d k : Nat) : (setFailed s d k).sw = s.sw := by unfold setFailed; simp
@[simp] theorem setFailed_coll (d k : Nat) : (setFailed s d k).coll = s.coll := by unfold setFailed; simp
@[simp] theorem setFailed_xag (d k : Nat) : (setFailed s d k).xag = s.xag := by unfold setFailed; simp
@[simp] theorem setFailed_mgmt (d k : Nat) : (setFailed s d k).mgmt = s.mgmt := by unfold setFailed; simp
@[simp] theorem setFailed_pwr (d k : Nat) : (setFailed s d k).pwr = s.pwr := by unfold setFailed; simp
@[simp] theorem setFailed_arbs (d k : Nat) : (setFailed s d k).arbs = s.arbs := by unfold setFailed; simp
@[simp] theorem setFailed_tap (d k : Nat) : (setFailed s d k).tap = s.tap := by unfold setFailed; simp
@[simp] theorem setFailed_gclk (d k : Nat) : (setFailed s d k).gclk = s.gclk := by unfold setFailed; simp
@[simp] theorem setFailed_freeCount (d k : Nat) : (setFailed s d k).freeCount = s.freeCount := by unfold setFailed; simp
@[simp] theorem setFailed_pending (d k : Nat) : (setFailed s d k).pending = s.pending := by unfold setFailed; simp

/-! A translation cached (R622). -/

@[simp] theorem fillPage_part (t vp : Nat) : (fillPage s t vp).part = s.part := by
  unfold fillPage
  split
  · rfl
  · dsimp only; split <;> simp
@[simp] theorem fillPage_mem (t vp : Nat) : (fillPage s t vp).mem = s.mem := by
  unfold fillPage
  split
  · rfl
  · dsimp only; split <;> simp
@[simp] theorem fillPage_poison (t vp : Nat) : (fillPage s t vp).poison = s.poison := by
  unfold fillPage
  split
  · rfl
  · dsimp only; split <;> simp
@[simp] theorem fillPage_dark (t vp : Nat) : (fillPage s t vp).dark = s.dark := by
  unfold fillPage
  split
  · rfl
  · dsimp only; split <;> simp
@[simp] theorem fillPage_darkPoison (t vp : Nat) : (fillPage s t vp).darkPoison = s.darkPoison := by
  unfold fillPage
  split
  · rfl
  · dsimp only; split <;> simp
@[simp] theorem fillPage_darkErrs (t vp : Nat) : (fillPage s t vp).darkErrs = s.darkErrs := by
  unfold fillPage
  split
  · rfl
  · dsimp only; split <;> simp
@[simp] theorem fillPage_memErrs (t vp : Nat) : (fillPage s t vp).memErrs = s.memErrs := by
  unfold fillPage
  split
  · rfl
  · dsimp only; split <;> simp
@[simp] theorem fillPage_sealedG (t vp : Nat) : (fillPage s t vp).sealedG = s.sealedG := by
  unfold fillPage
  split
  · rfl
  · dsimp only; split <;> simp
@[simp] theorem fillPage_seals (t vp : Nat) : (fillPage s t vp).seals = s.seals := by
  unfold fillPage
  split
  · rfl
  · dsimp only; split <;> simp
@[simp] theorem fillPage_spads (t vp : Nat) : (fillPage s t vp).spads = s.spads := by
  unfold fillPage
  split
  · rfl
  · dsimp only; split <;> simp
@[simp] theorem fillPage_ports (t vp : Nat) : (fillPage s t vp).ports = s.ports := by
  unfold fillPage
  split
  · rfl
  · dsimp only; split <;> simp
@[simp] theorem fillPage_jobs (t vp : Nat) : (fillPage s t vp).jobs = s.jobs := by
  unfold fillPage
  split
  · rfl
  · dsimp only; split <;> simp
@[simp] theorem fillPage_hen (t vp : Nat) : (fillPage s t vp).hen = s.hen := by
  unfold fillPage
  split
  · rfl
  · dsimp only; split <;> simp
@[simp] theorem fillPage_ledger (t vp : Nat) : (fillPage s t vp).ledger = s.ledger := by
  unfold fillPage
  split
  · rfl
  · dsimp only; split <;> simp
@[simp] theorem fillPage_drakes (t vp : Nat) : (fillPage s t vp).drakes = s.drakes := by
  unfold fillPage
  split
  · rfl
  · dsimp only; split <;> simp
@[simp] theorem fillPage_oxs (t vp : Nat) : (fillPage s t vp).oxs = s.oxs := by
  unfold fillPage
  split
  · rfl
  · dsimp only; split <;> simp
@[simp] theorem fillPage_ponys (t vp : Nat) : (fillPage s t vp).ponys = s.ponys := by
  unfold fillPage
  split
  · rfl
  · dsimp only; split <;> simp
@[simp] theorem fillPage_mule (t vp : Nat) : (fillPage s t vp).mule = s.mule := by
  unfold fillPage
  split
  · rfl
  · dsimp only; split <;> simp
@[simp] theorem fillPage_solvs (t vp : Nat) : (fillPage s t vp).solvs = s.solvs := by
  unfold fillPage
  split
  · rfl
  · dsimp only; split <;> simp
@[simp] theorem fillPage_links (t vp : Nat) : (fillPage s t vp).links = s.links := by
  unfold fillPage
  split
  · rfl
  · dsimp only; split <;> simp
@[simp] theorem fillPage_sw (t vp : Nat) : (fillPage s t vp).sw = s.sw := by
  unfold fillPage
  split
  · rfl
  · dsimp only; split <;> simp
@[simp] theorem fillPage_coll (t vp : Nat) : (fillPage s t vp).coll = s.coll := by
  unfold fillPage
  split
  · rfl
  · dsimp only; split <;> simp
@[simp] theorem fillPage_xag (t vp : Nat) : (fillPage s t vp).xag = s.xag := by
  unfold fillPage
  split
  · rfl
  · dsimp only; split <;> simp
@[simp] theorem fillPage_mgmt (t vp : Nat) : (fillPage s t vp).mgmt = s.mgmt := by
  unfold fillPage
  split
  · rfl
  · dsimp only; split <;> simp
@[simp] theorem fillPage_pwr (t vp : Nat) : (fillPage s t vp).pwr = s.pwr := by
  unfold fillPage
  split
  · rfl
  · dsimp only; split <;> simp
@[simp] theorem fillPage_arbs (t vp : Nat) : (fillPage s t vp).arbs = s.arbs := by
  unfold fillPage
  split
  · rfl
  · dsimp only; split <;> simp
@[simp] theorem fillPage_tap (t vp : Nat) : (fillPage s t vp).tap = s.tap := by
  unfold fillPage
  split
  · rfl
  · dsimp only; split <;> simp
@[simp] theorem fillPage_gclk (t vp : Nat) : (fillPage s t vp).gclk = s.gclk := by
  unfold fillPage
  split
  · rfl
  · dsimp only; split <;> simp
@[simp] theorem fillPage_freeCount (t vp : Nat) : (fillPage s t vp).freeCount = s.freeCount := by
  unfold fillPage
  split
  · rfl
  · dsimp only; split <;> simp
@[simp] theorem fillPage_pending (t vp : Nat) : (fillPage s t vp).pending = s.pending := by
  unfold fillPage
  split
  · rfl
  · dsimp only; split <;> simp

/-! The translations of a range cached. -/

@[simp] theorem fillTlb_part (t va n : Nat) : (fillTlb s t va n).part = s.part := by
  unfold fillTlb
  exact List.foldlRecOn (motive := fun (x : State) => x.part = s.part) _ _ rfl (fun x h p _ => (fillPage_part x t p).trans h)
@[simp] theorem fillTlb_mem (t va n : Nat) : (fillTlb s t va n).mem = s.mem := by
  unfold fillTlb
  exact List.foldlRecOn (motive := fun (x : State) => x.mem = s.mem) _ _ rfl (fun x h p _ => (fillPage_mem x t p).trans h)
@[simp] theorem fillTlb_poison (t va n : Nat) : (fillTlb s t va n).poison = s.poison := by
  unfold fillTlb
  exact List.foldlRecOn (motive := fun (x : State) => x.poison = s.poison) _ _ rfl (fun x h p _ => (fillPage_poison x t p).trans h)
@[simp] theorem fillTlb_dark (t va n : Nat) : (fillTlb s t va n).dark = s.dark := by
  unfold fillTlb
  exact List.foldlRecOn (motive := fun (x : State) => x.dark = s.dark) _ _ rfl (fun x h p _ => (fillPage_dark x t p).trans h)
@[simp] theorem fillTlb_darkPoison (t va n : Nat) : (fillTlb s t va n).darkPoison = s.darkPoison := by
  unfold fillTlb
  exact List.foldlRecOn (motive := fun (x : State) => x.darkPoison = s.darkPoison) _ _ rfl (fun x h p _ => (fillPage_darkPoison x t p).trans h)
@[simp] theorem fillTlb_darkErrs (t va n : Nat) : (fillTlb s t va n).darkErrs = s.darkErrs := by
  unfold fillTlb
  exact List.foldlRecOn (motive := fun (x : State) => x.darkErrs = s.darkErrs) _ _ rfl (fun x h p _ => (fillPage_darkErrs x t p).trans h)
@[simp] theorem fillTlb_memErrs (t va n : Nat) : (fillTlb s t va n).memErrs = s.memErrs := by
  unfold fillTlb
  exact List.foldlRecOn (motive := fun (x : State) => x.memErrs = s.memErrs) _ _ rfl (fun x h p _ => (fillPage_memErrs x t p).trans h)
@[simp] theorem fillTlb_sealedG (t va n : Nat) : (fillTlb s t va n).sealedG = s.sealedG := by
  unfold fillTlb
  exact List.foldlRecOn (motive := fun (x : State) => x.sealedG = s.sealedG) _ _ rfl (fun x h p _ => (fillPage_sealedG x t p).trans h)
@[simp] theorem fillTlb_seals (t va n : Nat) : (fillTlb s t va n).seals = s.seals := by
  unfold fillTlb
  exact List.foldlRecOn (motive := fun (x : State) => x.seals = s.seals) _ _ rfl (fun x h p _ => (fillPage_seals x t p).trans h)
@[simp] theorem fillTlb_spads (t va n : Nat) : (fillTlb s t va n).spads = s.spads := by
  unfold fillTlb
  exact List.foldlRecOn (motive := fun (x : State) => x.spads = s.spads) _ _ rfl (fun x h p _ => (fillPage_spads x t p).trans h)
@[simp] theorem fillTlb_ports (t va n : Nat) : (fillTlb s t va n).ports = s.ports := by
  unfold fillTlb
  exact List.foldlRecOn (motive := fun (x : State) => x.ports = s.ports) _ _ rfl (fun x h p _ => (fillPage_ports x t p).trans h)
@[simp] theorem fillTlb_jobs (t va n : Nat) : (fillTlb s t va n).jobs = s.jobs := by
  unfold fillTlb
  exact List.foldlRecOn (motive := fun (x : State) => x.jobs = s.jobs) _ _ rfl (fun x h p _ => (fillPage_jobs x t p).trans h)
@[simp] theorem fillTlb_hen (t va n : Nat) : (fillTlb s t va n).hen = s.hen := by
  unfold fillTlb
  exact List.foldlRecOn (motive := fun (x : State) => x.hen = s.hen) _ _ rfl (fun x h p _ => (fillPage_hen x t p).trans h)
@[simp] theorem fillTlb_ledger (t va n : Nat) : (fillTlb s t va n).ledger = s.ledger := by
  unfold fillTlb
  exact List.foldlRecOn (motive := fun (x : State) => x.ledger = s.ledger) _ _ rfl (fun x h p _ => (fillPage_ledger x t p).trans h)
@[simp] theorem fillTlb_drakes (t va n : Nat) : (fillTlb s t va n).drakes = s.drakes := by
  unfold fillTlb
  exact List.foldlRecOn (motive := fun (x : State) => x.drakes = s.drakes) _ _ rfl (fun x h p _ => (fillPage_drakes x t p).trans h)
@[simp] theorem fillTlb_oxs (t va n : Nat) : (fillTlb s t va n).oxs = s.oxs := by
  unfold fillTlb
  exact List.foldlRecOn (motive := fun (x : State) => x.oxs = s.oxs) _ _ rfl (fun x h p _ => (fillPage_oxs x t p).trans h)
@[simp] theorem fillTlb_ponys (t va n : Nat) : (fillTlb s t va n).ponys = s.ponys := by
  unfold fillTlb
  exact List.foldlRecOn (motive := fun (x : State) => x.ponys = s.ponys) _ _ rfl (fun x h p _ => (fillPage_ponys x t p).trans h)
@[simp] theorem fillTlb_mule (t va n : Nat) : (fillTlb s t va n).mule = s.mule := by
  unfold fillTlb
  exact List.foldlRecOn (motive := fun (x : State) => x.mule = s.mule) _ _ rfl (fun x h p _ => (fillPage_mule x t p).trans h)
@[simp] theorem fillTlb_solvs (t va n : Nat) : (fillTlb s t va n).solvs = s.solvs := by
  unfold fillTlb
  exact List.foldlRecOn (motive := fun (x : State) => x.solvs = s.solvs) _ _ rfl (fun x h p _ => (fillPage_solvs x t p).trans h)
@[simp] theorem fillTlb_links (t va n : Nat) : (fillTlb s t va n).links = s.links := by
  unfold fillTlb
  exact List.foldlRecOn (motive := fun (x : State) => x.links = s.links) _ _ rfl (fun x h p _ => (fillPage_links x t p).trans h)
@[simp] theorem fillTlb_sw (t va n : Nat) : (fillTlb s t va n).sw = s.sw := by
  unfold fillTlb
  exact List.foldlRecOn (motive := fun (x : State) => x.sw = s.sw) _ _ rfl (fun x h p _ => (fillPage_sw x t p).trans h)
@[simp] theorem fillTlb_coll (t va n : Nat) : (fillTlb s t va n).coll = s.coll := by
  unfold fillTlb
  exact List.foldlRecOn (motive := fun (x : State) => x.coll = s.coll) _ _ rfl (fun x h p _ => (fillPage_coll x t p).trans h)
@[simp] theorem fillTlb_xag (t va n : Nat) : (fillTlb s t va n).xag = s.xag := by
  unfold fillTlb
  exact List.foldlRecOn (motive := fun (x : State) => x.xag = s.xag) _ _ rfl (fun x h p _ => (fillPage_xag x t p).trans h)
@[simp] theorem fillTlb_mgmt (t va n : Nat) : (fillTlb s t va n).mgmt = s.mgmt := by
  unfold fillTlb
  exact List.foldlRecOn (motive := fun (x : State) => x.mgmt = s.mgmt) _ _ rfl (fun x h p _ => (fillPage_mgmt x t p).trans h)
@[simp] theorem fillTlb_pwr (t va n : Nat) : (fillTlb s t va n).pwr = s.pwr := by
  unfold fillTlb
  exact List.foldlRecOn (motive := fun (x : State) => x.pwr = s.pwr) _ _ rfl (fun x h p _ => (fillPage_pwr x t p).trans h)
@[simp] theorem fillTlb_arbs (t va n : Nat) : (fillTlb s t va n).arbs = s.arbs := by
  unfold fillTlb
  exact List.foldlRecOn (motive := fun (x : State) => x.arbs = s.arbs) _ _ rfl (fun x h p _ => (fillPage_arbs x t p).trans h)
@[simp] theorem fillTlb_tap (t va n : Nat) : (fillTlb s t va n).tap = s.tap := by
  unfold fillTlb
  exact List.foldlRecOn (motive := fun (x : State) => x.tap = s.tap) _ _ rfl (fun x h p _ => (fillPage_tap x t p).trans h)
@[simp] theorem fillTlb_gclk (t va n : Nat) : (fillTlb s t va n).gclk = s.gclk := by
  unfold fillTlb
  exact List.foldlRecOn (motive := fun (x : State) => x.gclk = s.gclk) _ _ rfl (fun x h p _ => (fillPage_gclk x t p).trans h)
@[simp] theorem fillTlb_freeCount (t va n : Nat) : (fillTlb s t va n).freeCount = s.freeCount := by
  unfold fillTlb
  exact List.foldlRecOn (motive := fun (x : State) => x.freeCount = s.freeCount) _ _ rfl (fun x h p _ => (fillPage_freeCount x t p).trans h)
@[simp] theorem fillTlb_pending (t va n : Nat) : (fillTlb s t va n).pending = s.pending := by
  unfold fillTlb
  exact List.foldlRecOn (motive := fun (x : State) => x.pending = s.pending) _ _ rfl (fun x h p _ => (fillPage_pending x t p).trans h)

/-! Whole accesses. -/

/-- Of what a command makes, the part and the queue are those before it. -/
@[simp] theorem whenLive_part (t : State) : (whenLive s t).part = s.part := by unfold whenLive; split <;> rfl

@[simp] theorem whenLive_pending (t : State) : (whenLive s t).pending = s.pending := by unfold whenLive; split <;> rfl

/-- On a live node a command that keeps the part and the queue makes just what its effect says. -/
theorem whenLive_eq {t : State} (h : live s = true) (p : t.part = s.part) (q : t.pending = s.pending) : whenLive s t = t := by
  cases t; simp only [whenLive, h, if_true]; simp_all

/-- A node that is not live stays as it is (R671, R798). -/
theorem whenLive_stopped {t : State} (h : live s = false) : whenLive s t = s := by simp [whenLive, h]

/-- A page after another page or itself is changed. -/
theorem page_modPage (b : Block) (i : Nat) (c : Block) (k : Nat) (f : Page → Page) :
    page (modPage s b i f) c k = if pageKey b i = pageKey c k then f (page s b i) else page s c k := by
  simp only [page, modPage, tabGet_tabMod]

@[simp] theorem page_modPage_self (b : Block) (i : Nat) (f : Page → Page) : page (modPage s b i f) b i = f (page s b i) := by simp [page_modPage]

@[simp] theorem blkState_setBlkState (b : Block) (i n : Nat) : blkState (setBlkState s b i n) b i = n := by simp [blkState, setBlkState]

/-- A page depends on the table of pages alone. -/
theorem page_congr {s t : State} (h : s.pages = t.pages) (b : Block) (i : Nat) : page s b i = page t b i := by simp [page, h]

/-- A counter raised changes nothing else of any page. -/
theorem page_perfAdd (b : Block) (i k n : Nat) (c : Block) (j : Nat) : ∃ q, page (perfAdd s b i k n) c j = { page s c j with perf := q } := by
  simp only [perfAdd, page_modPage]
  split
  · next h => rw [show page s b i = page s c j by simp only [page, h]]; exact ⟨_, rfl⟩
  · exact ⟨_, rfl⟩

/-- Vectors raise no event and change no page but HOST's counter of messages. -/
theorem page_raiseVec (fn vec : Nat) (b : Block) (i : Nat) : ∃ q, page (raiseVec s fn vec) b i = { page s b i with perf := q } := by
  unfold raiseVec
  split
  · exact page_perfAdd (emit s (.msix fn vec)) .host 0 3 1 b i
  · exact ⟨(page s b i).perf, rfl⟩

/-- A raised event is shown by its page (R651). -/
theorem raiseEvent_event (b : Block) (i n : Nat) :
    (page (raiseEvent s b i n) b i).event = (page s b i).event ||| BitVec.ofNat 32 (2 ^ n) := by
  unfold raiseEvent
  dsimp only
  split
  · obtain ⟨q, h⟩ := page_raiseVec (modPage s b i (fun (p : Page) => { p with event := p.event ||| BitVec.ofNat 32 (2 ^ n), count := tabMod 0 p.count (min n 7) (fun (c : Nat) => satTo 8 (c + 1)) })) (eventVec b i).1 (eventVec b i).2 b i
    rw [h]; simp
  · simp

/-- An event changes no STATE. -/
@[simp] theorem blkState_raiseEvent (b : Block) (i n : Nat) (c : Block) (k : Nat) : blkState (raiseEvent s b i n) c k = blkState s c k := by
  have h : ∀ f : Page → Page, (∀ p, (f p).st = p.st) → blkState (modPage s b i f) c k = blkState s c k := by
    intro f hf; simp only [blkState, page_modPage]; split
    · next h => rw [hf]; simp [page, h]
    · rfl
  unfold raiseEvent
  dsimp only
  split
  · obtain ⟨q, e⟩ := page_raiseVec (modPage s b i (fun (p : Page) => { p with event := p.event ||| BitVec.ofNat 32 (2 ^ n), count := tabMod 0 p.count (min n 7) (fun (c : Nat) => satTo 8 (c + 1)) })) (eventVec b i).1 (eventVec b i).2 c k
    unfold blkState at h ⊢; rw [e]; exact h _ (fun _ => rfl)
  · exact h _ (fun _ => rfl)

/-- The reach of a requester does not depend on the counters of pages. -/
@[simp] theorem fnUp_bar0Count (r : Requester) (f : Nat) : fnUp (bar0Count s r) f = fnUp s f := by simp [fnUp]

@[simp] theorem writeReaches_bar0Count (r q : Requester) (b : Block) (i : Nat) : writeReaches (bar0Count s r) q b i = writeReaches s q b i := by
  cases q <;> simp [writeReaches, pfPages]

@[simp] theorem readReaches_bar0Count (r q : Requester) (b : Block) (i : Nat) : readReaches (bar0Count s r) q b i = readReaches s q b i := by
  cases q <;> simp [readReaches, pfPages]

/-- R752, R761: what a register write does: nothing where it does not reach the page, ERR_STATUS where the field is not the requester's,
else its effect. -/
theorem regAccess_eq (r : Requester) (b : Block) (i off : Nat) (ok : Bool) (f : State → State) :
    regAccess s r b i off ok f = if writeReaches s r b i then (if ok then f (useStaged (bar0Count s r) r b i off)
      else regError (bar0Count s r) b i off) else bar0Count s r := by
  unfold regAccess
  cases h : writeReaches s r b i <;> cases ok <;> simp [h]

end Sys2Proof.Machine
end

