-- ==== Sys2Proof/Laws/Gate.lean ====
section
/-! SUPPORT. The home's directory filter before an engine's step (R587): it stands aside where no line is held elsewhere. -/

namespace Sys2Proof.Machine

/-- No line needs a recall where none is held elsewhere. -/
theorem recalls_of_heldNowhere {s : State} (h : heldNowhere s = true) (a n : Nat) (w : Bool) : recalls s a n w = [] := by
  simp only [heldNowhere, List.all_eq_true, Bool.and_eq_true, beq_iff_eq, Option.isNone_iff_eq_none] at h
  simp only [recalls, List.map_eq_nil_iff, List.filter_eq_nil_iff]
  intro e he
  obtain ⟨h1, h2⟩ := h e he
  simp [mustRecall, h1, h2]

/-- Nothing is to be recalled for any access where no line is held elsewhere. -/
theorem herdGate_of_heldNowhere {s : State} (h : heldNowhere s = true) (t : Nat) (rs ws : List (Nat × Nat)) :
    herdGate s t rs ws = none := by
  unfold herdGate
  split
  · rfl
  · apply if_pos
    simp only [Bool.and_eq_true, List.isEmpty_iff, List.flatMap_eq_nil_iff]
    constructor <;>
    · intro sp _ p _
      split
      · exact recalls_of_heldNowhere h _ _ _
      · rfl

/-- The step of some spans goes on where no line is held elsewhere. -/
theorem gateSpans_of_heldNowhere {s : State} (h : heldNowhere s = true) (t : Nat) (sp : List (Option (Nat × Nat)) × List (Option (Nat × Nat)))
    (go : State) : gateSpans s t sp go = go := by
  simp [gateSpans, herdGate_of_heldNowhere h]

/-- The step of a job goes on where no line is held elsewhere. -/
theorem gateJob_of_heldNowhere {s : State} (h : heldNowhere s = true) (j : Option Job) (go : State) : gateJob s j go = go := by
  cases j <;> simp [gateJob, gateSpans_of_heldNowhere h]

/-- The step of a Drake command goes on where no line is held elsewhere. -/
theorem gateDrake_of_heldNowhere {s : State} (h : heldNowhere s = true) (g idx op : Nat) (go : State) :
    gateDrake s g idx op go = go := by
  simp [gateDrake, gateJob_of_heldNowhere h]

/-- The step of a prefetched entry goes on where no line is held elsewhere. -/
theorem gateEntry_of_heldNowhere {s : State} (h : heldNowhere s = true) (g idx e : Nat) (commit : Bool) (go : State) :
    gateEntry s g idx e commit go = go := by
  unfold gateEntry
  split <;> simp [gateSpans_of_heldNowhere h]

/-- A SOLVE goes on where no line is held elsewhere. -/
theorem gateSolve_of_heldNowhere {s : State} (h : heldNowhere s = true) (u m : Nat) (go : State) : gateSolve s u m go = go := by
  simp [gateSolve, gateJob_of_heldNowhere h]

/-- A step of an all-reduce operation goes on where no line is held elsewhere. -/
theorem gateOp_of_heldNowhere {s : State} (h : heldNowhere s = true) (k : Nat) (go : State) : gateOp s k go = go := by
  simp [gateOp, gateJob_of_heldNowhere h]

/-- A scalar access of a core goes on where no line is held elsewhere. -/
theorem gateScalar_of_heldNowhere {s : State} (h : heldNowhere s = true) (n op k : Nat) (w : Bool) (go : State) :
    gateScalar s n op k w go = go := by
  simp only [gateScalar, gateSpans_of_heldNowhere h, ite_self]
  split <;> rfl

/-- A vector access of a core goes on where no line is held elsewhere. -/
theorem gateVector_of_heldNowhere {s : State} (h : heldNowhere s = true) (n op w : Nat) (wr : Bool) (go : State) :
    gateVector s n op w wr go = go := by
  simp only [gateVector, gateSpans_of_heldNowhere h, ite_self]
  split <;> rfl

end Sys2Proof.Machine
end

