-- ==== Sys2Proof/Laws/Memory.lean ====
section
/-! SUPPORT. The raw memory operations: what they read back as, and that they keep the canonical form. -/

namespace Sys2Proof.Machine

theorem cellsWf_mono {c : List Host.Cell} {lo lo' : Nat} (h : lo' ≤ lo) (w : cellsWf lo c = true) : cellsWf lo' c = true := by
  cases c with
  | nil => rfl
  | cons e t => simp [cellsWf] at w ⊢; exact ⟨⟨by omega, w.1.2⟩, w.2⟩

/-- Setting a byte keeps the canonical form. -/
theorem cellsWf_cellSet {c : List Host.Cell} {lo a : Nat} (v : Byte) (h : lo ≤ a) (w : cellsWf lo c = true) : cellsWf lo (cellSet c a v) = true := by
  induction c generalizing lo with
  | nil => simp only [cellSet]; split <;> simp_all [cellsWf]
  | cons e t ih =>
    obtain ⟨b, u⟩ := e
    simp [cellsWf] at w
    obtain ⟨⟨h1, h2⟩, h3⟩ := w
    simp only [cellSet]
    split
    · next hb => subst hb; split <;> simp_all [cellsWf]; exact cellsWf_mono (by omega) h3
    · split
      · next hb hlt => split <;> simp_all [cellsWf]
      · next hb hlt => simp [cellsWf, h1, h2]; exact ih (by omega) h3

/-- Writing bytes keeps the canonical form. -/
theorem cellsWf_cellsPut (bs : List Byte) {c : List Host.Cell} {a : Nat} (w : cellsWf 0 c = true) : cellsWf 0 (cellsPut c a bs) = true := by
  induction bs generalizing c a with
  | nil => exact w
  | cons b bs ih => exact ih (cellsWf_cellSet b (Nat.zero_le _) w)

/-- Taking cells out keeps the canonical form. -/
theorem cellsWf_filter (p : Host.Cell → Bool) {c : List Host.Cell} {lo : Nat} (w : cellsWf lo c = true) : cellsWf lo (c.filter p) = true := by
  induction c generalizing lo with
  | nil => rfl
  | cons e t ih =>
    obtain ⟨b, u⟩ := e
    simp [cellsWf] at w
    simp only [List.filter_cons]
    split
    · simp [cellsWf, w.1, ih w.2]
    · exact cellsWf_mono (by omega) (ih w.2)

/-- Setting a list of bytes one by one keeps the canonical form. -/
theorem cellsWf_foldl (cs : List (Nat × Byte)) {c : List Host.Cell} (w : cellsWf 0 c = true) :
    cellsWf 0 (cs.foldl (fun (x : List Host.Cell) (e : Nat × Byte) => cellSet x e.1 e.2) c) = true := by
  induction cs generalizing c with
  | nil => exact w
  | cons e t ih => exact ih (cellsWf_cellSet e.2 (Nat.zero_le _) w)

theorem memPut_wf {s : State} (a : Nat) (bs : List Byte) (w : s.mem.wf = true) : (memPut s a bs).mem.wf = true := cellsWf_cellsPut bs w

theorem setPoison_wf {s : State} (l : Nat) (w : s.mem.wf = true) : (setPoison s l).mem.wf = true := cellsWf_filter _ w

theorem zeroRange_wf {s : State} (a n : Nat) (w : s.mem.wf = true) : (zeroRange s a n).mem.wf = true := cellsWf_filter _ w

theorem cellGet_below {c : List Host.Cell} {lo a : Nat} (w : cellsWf lo c = true) (h : a < lo) : cellGet c a = 0 := by
  cases c with
  | nil => rfl
  | cons e t =>
    obtain ⟨b, u⟩ := e
    simp [cellsWf] at w
    simp [cellGet, show b ≠ a by omega, show a < b by omega]

/-- A byte that is set reads as the value; every other byte reads as before. -/
theorem cellGet_cellSet {c : List Host.Cell} {lo a : Nat} (v : Byte) (k : Nat) (w : cellsWf lo c = true) :
    cellGet (cellSet c a v) k = if a = k then v else cellGet c k := by
  induction c generalizing lo with
  | nil => simp only [cellSet]; split <;> split <;> simp_all [cellGet]
  | cons e t ih =>
    obtain ⟨b, u⟩ := e
    simp [cellsWf] at w
    obtain ⟨⟨h1, h2⟩, h3⟩ := w
    have hb := fun k h => cellGet_below (a := k) h3 h
    simp only [cellSet]
    split
    · next hba =>
      subst hba
      by_cases hk : b = k
      · subst hk; split
        · next hv => simp [hv, hb b (by omega)]
        · simp [cellGet]
      · split
        · simp only [hk, if_false, cellGet]; split
          · exact hb k (by omega)
          · rfl
        · simp [cellGet, hk]
    · next hba =>
      split
      · next hlt =>
        by_cases hk : a = k
        · subst hk; split
          · next hv => simp [cellGet, hba, hlt, hv]
          · simp [cellGet]
        · split
          · simp
          · simp only [cellGet, hk, if_false]
            split
            · next h => simp [show b ≠ k by omega, show k < b by omega]
            · rfl
      · next hlt =>
        simp only [cellGet, ih h3]
        split
        · next h => subst h; simp [show a ≠ b by omega]
        · split
          · next h => simp [show a ≠ k by omega]
          · rfl

/-- A byte outside the bytes put reads as before. -/
theorem cellGet_cellsPut_other (bs : List Byte) {c : List Host.Cell} {a k : Nat} (w : cellsWf 0 c = true) (h : k < a ∨ a + bs.length ≤ k) :
    cellGet (cellsPut c a bs) k = cellGet c k := by
  induction bs generalizing c a with
  | nil => rfl
  | cons b bs ih =>
    simp at h
    simp only [cellsPut]
    rw [ih (cellsWf_cellSet b (Nat.zero_le _) w) (by omega), cellGet_cellSet b k w]
    simp [show a ≠ k by omega]

/-- A byte that is put reads back. -/
theorem cellGet_cellsPut (bs : List Byte) {c : List Host.Cell} {a i : Nat} (w : cellsWf 0 c = true) (h : i < bs.length) :
    cellGet (cellsPut c a bs) (a + i) = bs[i] := by
  induction bs generalizing c a i with
  | nil => simp at h
  | cons b bs ih =>
    simp only [cellsPut]
    cases i with
    | zero => rw [cellGet_cellsPut_other bs (cellsWf_cellSet b (Nat.zero_le _) w) (by omega), cellGet_cellSet b _ w]; simp
    | succ i =>
      have := ih (c := cellSet c a b) (a := a + 1) (i := i) (cellsWf_cellSet b (Nat.zero_le _) w) (by simpa using h)
      rw [show a + (i + 1) = a + 1 + i by omega, this]; simp

/-- A byte of memory after bytes are put at `a`. -/
theorem memByte_memPut_other {s : State} (a k : Nat) (bs : List Byte) (w : s.mem.wf = true) (h : k < a ∨ a + bs.length ≤ k) :
    memByte (memPut s a bs) k = memByte s k := cellGet_cellsPut_other bs w h

theorem memByte_memPut {s : State} (a i : Nat) (bs : List Byte) (w : s.mem.wf = true) (h : i < bs.length) :
    memByte (memPut s a bs) (a + i) = bs[i] := cellGet_cellsPut bs w h

/-- Bytes written read back. -/
theorem memBytes_memPut {s : State} (a : Nat) (bs : List Byte) (w : s.mem.wf = true) : memBytes (memPut s a bs) a bs.length = bs := by
  apply List.ext_getElem
  · simp [memBytes, natsFrom]
  · intro i h h'
    have := memByte_memPut (s := s) a i bs w h'
    simp [memBytes, natsFrom, Nat.add_comm i, this]

/-- Bytes outside those written are kept. -/
theorem memBytes_memPut_other {s : State} (a k n : Nat) (bs : List Byte) (w : s.mem.wf = true) (h : k + n ≤ a ∨ a + bs.length ≤ k) :
    memBytes (memPut s a bs) k n = memBytes s k n := by
  apply List.map_congr_left
  intro x hx
  simp only [natsFrom, List.mem_map, List.mem_range] at hx
  obtain ⟨i, hi, rfl⟩ := hx
  exact memByte_memPut_other _ _ _ w (by omega)

end Sys2Proof.Machine
end

