-- ==== Sys2Proof/Laws/Store.lean ====
section
/-! SUPPORT. Everything that a write to memory can do (chapter 9): what it leaves as it is, and that it keeps the memory's form. -/

namespace Sys2Proof.Machine

/-- `t` is `s` but for pages, vectors and what is sent, the memory, its poison and its wrong bytes, the lines that an L2 holds dirty, the RAS
log, the uncorrectable errors logged, and what Hen has copied, with the free values drawn; the memory's form is kept. -/
def StoredFrom (s t : State) : Prop :=
  (∃ p h o m q n e c d l k sp po, t = { s with
      pages := p, hostIf := h, out := o, mem := m, poison := q, hen := n, memErrs := e, freeCount := c
      mule := { s.mule with dirty := d }, mgmt := { s.mgmt with log := l, logHead := k }, spads := sp, ports := po })
    ∧ (s.mem.wf = true → t.mem.wf = true)
    ∧ (∀ d, spad t d = { spad s d with ue := (spad t d).ue }) ∧ ∀ p, portOf t p = { portOf s p with ue := (portOf t p).ue }

namespace StoredFrom

theorem refl (s : State) : StoredFrom s s := ⟨⟨_, _, _, _, _, _, _, _, _, _, _, _, _, rfl⟩, id, fun _ => rfl, fun _ => rfl⟩

theorem trans {s t u : State} (h : StoredFrom s t) (k : StoredFrom t u) : StoredFrom s u := by
  obtain ⟨h1, h2, h3, h4⟩ := h
  obtain ⟨k1, k2, k3, k4⟩ := k
  refine ⟨?_, fun w => k2 (h2 w), fun d => by rw [k3 d, h3 d], fun p => by rw [k4 p, h4 p]⟩
  obtain ⟨_, _, _, _, _, _, _, _, _, _, _, _, _, rfl⟩ := h1
  obtain ⟨_, _, _, _, _, _, _, _, _, _, _, _, _, rfl⟩ := k1
  exact ⟨_, _, _, _, _, _, _, _, _, _, _, _, _, rfl⟩

theorem foldl {α : Type} (f : State → α → State) (l : List α) (h : ∀ x a, StoredFrom x (f x a)) (s : State) : StoredFrom s (l.foldl f s) := by
  induction l generalizing s with
  | nil => exact refl s
  | cons a t ih => exact (h s a).trans (ih _)

/-- The fields that no write to memory touches. -/
theorem fields {s t : State} (h : StoredFrom s t) :
    t.part = s.part ∧ t.dark = s.dark ∧ t.darkPoison = s.darkPoison ∧ t.darkErrs = s.darkErrs ∧ t.sealedG = s.sealedG ∧ t.seals = s.seals
      ∧ t.tenants = s.tenants ∧ t.jobs = s.jobs ∧ t.ledger = s.ledger ∧ t.drakes = s.drakes
      ∧ t.oxs = s.oxs ∧ t.ponys = s.ponys ∧ t.mule.cores = s.mule.cores ∧ t.mule.runs = s.mule.runs ∧ t.mule.logs = s.mule.logs
      ∧ t.solvs = s.solvs ∧ t.links = s.links ∧ t.sw = s.sw ∧ t.coll = s.coll ∧ t.xag = s.xag
      ∧ t.mgmt = { s.mgmt with log := t.mgmt.log, logHead := t.mgmt.logHead } ∧ t.pwr = s.pwr ∧ t.arbs = s.arbs ∧ t.tap = s.tap
      ∧ t.gclk = s.gclk ∧ t.pending = s.pending := by
  obtain ⟨⟨_, _, _, _, _, _, _, _, _, _, _, _, _, rfl⟩, -⟩ := h
  exact ⟨rfl, rfl, rfl, rfl, rfl, rfl, rfl, rfl, rfl, rfl, rfl, rfl, rfl, rfl, rfl, rfl, rfl, rfl, rfl, rfl, rfl, rfl, rfl, rfl, rfl, rfl⟩

theorem wf {s t : State} (h : StoredFrom s t) (w : s.mem.wf = true) : t.mem.wf = true := h.2.1 w

end StoredFrom

theorem storedFrom_modPage (s : State) (b : Block) (i : Nat) (f : Page → Page) : StoredFrom s (modPage s b i f) := ⟨⟨_, _, _, _, _, _, _, _, _, _, _, _, _, rfl⟩, id, fun _ => rfl, fun _ => rfl⟩

theorem storedFrom_perfAdd (s : State) (b : Block) (i k n : Nat) : StoredFrom s (perfAdd s b i k n) := storedFrom_modPage _ _ _ _

theorem storedFrom_raiseVec (s : State) (fn vec : Nat) : StoredFrom s (raiseVec s fn vec) := by
  unfold raiseVec
  split
  · exact ⟨⟨_, _, _, _, _, _, _, _, _, _, _, _, _, rfl⟩, id, fun _ => rfl, fun _ => rfl⟩
  · exact ⟨⟨_, _, _, _, _, _, _, _, _, _, _, _, _, rfl⟩, id, fun _ => rfl, fun _ => rfl⟩

theorem storedFrom_raiseEvent (s : State) (b : Block) (i n : Nat) : StoredFrom s (raiseEvent s b i n) := by
  unfold raiseEvent
  dsimp only
  split
  · exact (storedFrom_modPage s b i _).trans (storedFrom_raiseVec _ _ _)
  · exact storedFrom_modPage s b i _

theorem storedFrom_memPut (s : State) (a : Nat) (bs : List Byte) : StoredFrom s (memPut s a bs) := ⟨⟨_, _, _, _, _, _, _, _, _, _, _, _, _, rfl⟩, memPut_wf a bs, fun _ => rfl, fun _ => rfl⟩

theorem storedFrom_setPoison (s : State) (l : Nat) : StoredFrom s (setPoison s l) := ⟨⟨_, _, _, _, _, _, _, _, _, _, _, _, _, rfl⟩, setPoison_wf l, fun _ => rfl, fun _ => rfl⟩

theorem storedFrom_clrPoison (s : State) (l : Nat) : StoredFrom s (clrPoison s l) := ⟨⟨_, _, _, _, _, _, _, _, _, _, _, _, _, rfl⟩, id, fun _ => rfl, fun _ => rfl⟩

theorem storedFrom_zeroRange (s : State) (a n : Nat) : StoredFrom s (zeroRange s a n) := ⟨⟨_, _, _, _, _, _, _, _, _, _, _, _, _, rfl⟩, zeroRange_wf a n, fun _ => rfl, fun _ => rfl⟩

theorem storedFrom_cells (s : State) (cs : List (Nat × Byte)) :
    StoredFrom s (putCells s cs) :=
  ⟨⟨_, _, _, _, _, _, _, _, _, _, _, _, _, rfl⟩, fun w => cellsWf_foldl cs w, fun _ => rfl, fun _ => rfl⟩

theorem storedFrom_hen (s : State) (h : Hen) : StoredFrom s { s with hen := h } := ⟨⟨_, _, _, _, _, _, _, _, _, _, _, _, _, rfl⟩, id, fun _ => rfl, fun _ => rfl⟩

theorem storedFrom_uncache (s : State) (a n : Nat) : StoredFrom s (uncache s a n) := ⟨⟨_, _, _, _, _, _, _, _, _, _, _, _, _, rfl⟩, id, fun _ => rfl, fun _ => rfl⟩

theorem storedFrom_clrErrs (s : State) (l : Nat) : StoredFrom s (clrErrs s l) := ⟨⟨_, _, _, _, _, _, _, _, _, _, _, _, _, rfl⟩, id, fun _ => rfl, fun _ => rfl⟩

theorem storedFrom_drawn (s : State) (n : Nat) : StoredFrom s (drawn s n) := ⟨⟨_, _, _, _, _, _, _, _, _, _, _, _, _, rfl⟩, id, fun _ => rfl, fun _ => rfl⟩

theorem storedFrom_putRas (s : State) (e : Nat) : StoredFrom s (putRas s e) :=
  ⟨⟨_, _, _, _, _, _, _, _, _, _, _, _, _, rfl⟩, id, fun _ => rfl, fun _ => rfl⟩

/-- An entry of the RAS log (R737). -/
theorem storedFrom_rasLog (s : State) (b : Block) (i cls code addr tenant : Nat) : StoredFrom s (rasLog s b i cls code addr tenant) := by
  have h := (storedFrom_putRas s (rasEntry s b i cls code addr tenant)).trans (storedFrom_perfAdd _ .mgmt 0 2 1)
  unfold rasLog
  dsimp only
  split
  · exact h.trans (storedFrom_raiseEvent _ _ _ _)
  · exact h

/-- An error of a block (R736). -/
theorem storedFrom_blkError (s : State) (b : Block) (i cls code addr tenant : Nat) : StoredFrom s (blkError s b i cls code addr tenant) := by
  have h := storedFrom_modPage s b i (noteErr cls code addr tenant)
  unfold blkError
  dsimp only
  split
  · exact h.trans (storedFrom_rasLog _ _ _ _ _ _ _)
  · exact h

/-- A correctable error counted (R381). -/
theorem storedFrom_corrected (s : State) (a : Nat) : StoredFrom s (corrected s a) := by
  unfold corrected
  repeat' split
  all_goals first | exact .refl s | exact (storedFrom_raiseEvent _ _ _ _).trans (storedFrom_perfAdd _ _ _ _ _)

/-- The address of an uncorrectable error logged in a scratchpad. -/
theorem storedFrom_spadUe (s : State) (d : Nat) (f : Spad → Spad) (h : ∀ x, f x = { x with ue := (f x).ue }) : StoredFrom s (modSpad s d f) :=
  ⟨⟨_, _, _, _, _, _, _, _, _, _, _, _, _, rfl⟩, id,
    fun k => by simp only [spad, modSpad, tabGet_tabMod]; split <;> first | (subst_vars; exact h _) | rfl, fun _ => rfl⟩

/-- The address of an uncorrectable error logged in a port. -/
theorem storedFrom_portUe (s : State) (p : Nat) (f : Port → Port) (h : ∀ x, f x = { x with ue := (f x).ue }) : StoredFrom s (modPort s p f) :=
  ⟨⟨_, _, _, _, _, _, _, _, _, _, _, _, _, rfl⟩, id, fun _ => rfl,
    fun k => by simp only [portOf, modPort, tabGet_tabMod]; split <;> first | (subst_vars; exact h _) | rfl⟩

/-- An uncorrectable error met (R378). -/
theorem storedFrom_meetUe (s : State) (l : Nat) : StoredFrom s (meetUe s l) := by
  unfold meetUe
  dsimp only
  refine (storedFrom_setPoison s l).trans ?_
  split
  · refine ((storedFrom_spadUe _ _ _ (fun x => ?_)).trans (storedFrom_raiseEvent _ _ _ _)).trans (storedFrom_blkError _ _ _ _ _ _ _)
    split <;> rfl
  · split
    · refine ((storedFrom_portUe _ _ _ (fun x => ?_)).trans (storedFrom_raiseEvent _ _ _ _)).trans (storedFrom_blkError _ _ _ _ _ _ _)
      split <;> rfl
    · exact .refl _

/-- A line with wrong bytes read (R378, R381). -/
theorem storedFrom_meetErr (s : State) (l : Nat) : StoredFrom s (meetErr s l) := by
  unfold meetErr
  dsimp only
  refine (storedFrom_clrErrs s l).trans ?_
  split
  · exact .refl _
  · exact storedFrom_corrected _ _
  · exact storedFrom_meetUe _ _
  · split
    · exact (storedFrom_drawn _ _).trans (storedFrom_meetUe _ _)
    · exact ((storedFrom_drawn _ _).trans (storedFrom_memPut _ _ _)).trans (storedFrom_corrected _ _)

/-- Lines read: the errors in them are met. -/
theorem storedFrom_meetErrs (s : State) (p : Nat → Bool) : StoredFrom s (meetErrs s p) := .foldl _ _ (fun x l => storedFrom_meetErr x l) s

/-- Bytes written from a number give it back, modulo their width; a CRC-32 has 32 bits. -/
theorem leNat_leBytes (n x : Nat) : leNat (leBytes n x) = x % 256 ^ n := by
  induction n generalizing x with
  | zero => simp [leBytes, leNat, Nat.mod_one]
  | succ n ih =>
    rw [leBytes, leNat, ih, BitVec.toNat_ofNat, show (256 : Nat) ^ (n + 1) = 256 * 256 ^ n from Nat.pow_succ', Nat.mod_mul]
theorem revBits_lt (w x : Nat) : revBits w x < 2 ^ w := by
  induction w generalizing x with
  | zero => simp [revBits]
  | succ w ih =>
    rw [revBits, Nat.pow_succ]
    have h := ih (x / 2)
    rcases Nat.mod_two_eq_zero_or_one x with e | e <;> rw [e] <;> omega
theorem crc32_lt (m : List Byte) : crc32 m < 2 ^ 32 := Nat.xor_lt_two_pow (revBits_lt 32 _) (by decide)

/-- Where no stored byte has gone wrong, a read changes nothing. -/
theorem meetErrs_none (s : State) (p : Nat → Bool) (h : s.memErrs = []) : meetErrs s p = s := by simp [meetErrs, errLines, h]
theorem lowerRead_none (s : State) (p : Nat → Bool) (h : s.memErrs = []) : lowerRead s p = s := by
  simp [lowerRead, meetErrs_none s p h, errLines, h]

theorem storedFrom_sealHit (s : State) (a : Nat) : StoredFrom s (sealHit s a) := by
  unfold sealHit
  split
  · exact storedFrom_raiseEvent _ _ _ _
  · exact storedFrom_raiseEvent _ _ _ _
  · exact .refl s

/-- A page that Hen writes (R690). -/
theorem storedFrom_henPage (s : State) (d : Nat) (bs : List Byte) (bad : List Nat) : StoredFrom s (henPage s d bs bad) := by
  unfold henPage
  split
  · exact .refl s
  · split
    · exact storedFrom_sealHit _ _
    · exact ((storedFrom_zeroRange s d 4096).trans (storedFrom_memPut _ _ _)).trans (.foldl _ _ (fun x j => storedFrom_setPoison x _) _)

/-- A chunk of a cut copied (R688). -/
theorem storedFrom_copyChunk (s : State) (c : Cutting) (i : Nat) : StoredFrom s (copyChunk s c i) := by
  unfold copyChunk
  dsimp only
  refine StoredFrom.trans (t := if c.pages.getD i 0 < 2 ^ 28 then pageRead s (c.pages.getD i 0) else s) ?_
    (((storedFrom_henPage _ _ _ _).trans (storedFrom_hen _ _)).trans (storedFrom_perfAdd _ _ _ _ _))
  split
  · exact storedFrom_meetErrs s _
  · exact .refl s

/-- What a write waits for (R688). -/
theorem storedFrom_holdFor (s : State) (a : Nat) : StoredFrom s (holdFor s a) := by
  unfold holdFor
  split
  · exact .refl s
  · exact (storedFrom_perfAdd s .hen 0 2 1).trans
      (.foldl (fun (x : State) (c : Cutting × Nat) => copyChunk x c.1 c.2) (uncopied s (a / 4096)) (fun x c => storedFrom_copyChunk x c.1 c.2) _)

theorem storedFrom_goneHit (s : State) (a : Nat) : StoredFrom s (goneHit s a) := by
  unfold goneHit
  split
  · exact storedFrom_raiseEvent _ _ _ _
  · split
    · exact storedFrom_perfAdd _ _ _ _ _
    · exact .refl s
  · exact .refl s

/-- A write of bytes within a line, as pairs. -/
theorem storedFrom_storeCells (s : State) (l : Nat) (cs : List (Nat × Byte)) : StoredFrom s (storeCells s l cs).1 := by
  unfold storeCells
  split
  · exact storedFrom_goneHit _ _
  · split
    · exact storedFrom_sealHit _ _
    · dsimp only
      refine ((storedFrom_holdFor s (l * 64)).trans (storedFrom_uncache _ (l * 64) 64)).trans ?_
      split
      · exact (storedFrom_clrPoison _ l).trans (storedFrom_cells _ cs)
      · refine (storedFrom_meetErrs _ (· == l)).trans ?_
        split
        · exact .refl _
        · exact storedFrom_cells _ cs

/-- A write of bytes within a line. -/
theorem storedFrom_storeLine (s : State) (a : Nat) (bs : List Byte) : StoredFrom s (storeLine s a bs).1 := by
  unfold storeLine
  split
  · exact storedFrom_goneHit _ _
  · split
    · exact storedFrom_sealHit _ _
    · dsimp only
      refine (storedFrom_holdFor s a).trans ?_
      split
      · exact (storedFrom_clrPoison _ _).trans (storedFrom_memPut _ _ _)
      · refine (storedFrom_meetErrs _ (· == a / 64)).trans ?_
        split
        · exact .refl _
        · exact storedFrom_memPut _ _ _

theorem storedFrom_storeLines (n : Nat) (s : State) (a : Nat) (bs : List Byte) : StoredFrom s (storeLines n s a bs).1 := by
  induction n generalizing s a bs with
  | zero => exact .refl s
  | succ n ih =>
    unfold storeLines
    split
    · exact .refl s
    · exact (storedFrom_storeLine s a _).trans (ih _ _ _)

/-- A write at a local address. -/
theorem storedFrom_store (s : State) (a : Nat) (bs : List Byte) : StoredFrom s (store s a bs).1 := storedFrom_storeLines _ s a bs

/-- A line written as poison (R380). -/
theorem storedFrom_storePoison (s : State) (a : Nat) : StoredFrom s (storePoison s a).1 := by
  unfold storePoison
  split
  · exact storedFrom_goneHit _ _
  · split
    · exact storedFrom_sealHit _ _
    · exact ((storedFrom_holdFor s a).trans (storedFrom_uncache _ _ _)).trans (storedFrom_setPoison _ _)

theorem storedFrom_tStorePages (n : Nat) (s : State) (t va : Nat) (bs : List Byte) : StoredFrom s (tStorePages n s t va bs).1 := by
  induction n generalizing s va bs with
  | zero => exact .refl s
  | succ n ih =>
    unfold tStorePages
    split
    · exact .refl s
    · refine StoredFrom.trans ?_ (ih _ _ _)
      unfold tStorePage
      split
      · exact storedFrom_store _ _ _
      · exact .refl s

/-- A write at a tenant address. -/
theorem storedFrom_tStore (s : State) (t va : Nat) (bs : List Byte) : StoredFrom s (tStore s t va bs).1 := storedFrom_tStorePages _ s t va bs

theorem storedFrom_tStorePoison (s : State) (t va : Nat) : StoredFrom s (tStorePoison s t va).1 := by
  unfold tStorePoison
  split
  · exact storedFrom_storePoison _ _
  · exact .refl s

/-- A range zeroed by an engine (R395, R704). -/
theorem storedFrom_zeroEngine (s : State) (a n : Nat) : StoredFrom s (zeroEngine s a n) := by
  unfold zeroEngine
  exact (StoredFrom.foldl _ _ (fun x p => storedFrom_holdFor x _) s).trans (storedFrom_zeroRange _ _ _)

end Sys2Proof.Machine
end

