-- ==== Sys2Proof/Laws/Windows.lean ====
section
/-! SUPPORT. The operations that move what LPDDR holds in and out of sight, or zero it (R367, R387, R719): they keep the memory's form. -/

namespace Sys2Proof.Machine

/-- A page that comes back is written under the rules of every write. -/
theorem storedFrom_putPage (s : State) (a : Nat) (bs : List Byte) : StoredFrom s (putPage s a bs) :=
  (storedFrom_zeroEngine s a 4096).trans (storedFrom_memPut _ _ _)

/-- Folding updates that each keep the form keeps it. -/
theorem cellsWf_foldl_of {α : Type} (f : List Host.Cell → α → List Host.Cell) (h : ∀ c a, cellsWf 0 c = true → cellsWf 0 (f c a) = true)
    (l : List α) {c : List Host.Cell} (w : cellsWf 0 c = true) : cellsWf 0 (l.foldl f c) = true := by
  induction l generalizing c with
  | nil => exact w
  | cons a t ih => exact ih (h c a w)

theorem darken_wf {s : State} (w : s.mem.wf = true) : (darken s).mem.wf = true := by
  unfold darken
  split
  · exact w
  · exact cellsWf_filter _ w

theorem lighten_wf {s : State} (w : s.mem.wf = true) : (lighten s).mem.wf = true := by
  unfold lighten
  split
  · exact w
  · refine cellsWf_foldl_of _ (fun c e h => ?_) _ w
    split
    · exact cellsWf_cellSet _ (Nat.zero_le _) h
    · exact h

/-- A change of windows that itself leaves memory alone. -/
theorem rewindow_wf {s : State} (f : State → State) (h : ∀ x : State, (f x).mem = x.mem) (w : s.mem.wf = true) : (rewindow s f).mem.wf = true :=
  lighten_wf (by rw [h]; exact darken_wf w)

theorem zeroPort_wf {s : State} (p : Nat) (w : s.mem.wf = true) : (zeroPort s p).mem.wf = true := cellsWf_filter _ w

end Sys2Proof.Machine
end

