-- ==== Sys2Proof/WellFormed.lean ====
section
/-! DEFINITION. The checks of a command's operands: the units, tenants, streams and pages that it names exist (Tables 1.1 and 20.4), and
a written value fits a register. -/

namespace Sys2Proof

/-- Instances of a block (Table 20.4). -/
def blkInsts : Block → Nat
  | .mgmt => 1 | .host => 1 | .pwr => 1 | .ledg => 1 | .hen => 1 | .goose => 32 | .ox => 24 | .pony => 24 | .mule => 16 | .solv => 4
  | .spad => 2 | .lpc => 16 | .drake => 3 | .wlink => 96 | .wsw => 1 | .coll => 1 | .xag => 1 | .ten => 512

/-- A requester that exists (R751): a function of the node (R603). -/
def reqWf : Requester → Bool
  | .pf => true
  | .vf t => decide (t < 512)
  | .mgmt => true
  | .cfg fn => decide (fn ≤ 512)

/-- An engine, pool or unit that exists (Table 1.1). -/
def unitWf : EUnit → Bool
  | .ox n => decide (n < 24)
  | .pony n => decide (n < 24)
  | .mule => true
  | .solv u => decide (u < 4)
  | .drake g => decide (g < 3)
  | .coll => true
  | .xag => true

/-- A site of issue that exists. -/
def siteWf : IssueAt → Bool
  | .unit u => unitWf u
  | .front t st => decide (t < 512) && decide (st < 8)

/-- The command's operands name what exists. -/
def Instr.wf : Instr → Bool
  | .tailWrite r tenant stream value => reqWf r && decide (tenant < 512) && decide (stream < 8) && decide (value < 2 ^ 64)
  | .cplRelWrite r tenant stream value => reqWf r && decide (tenant < 512) && decide (stream < 8) && decide (value < 2 ^ 64)
  | .gooseFetch tenant stream _ => decide (tenant < 512) && decide (stream < 8)
  | .commandIssue site _ => siteWf site
  | .commandComplete tenant stream _ _ _ => decide (tenant < 512) && decide (stream < 8)
  | .deferLimitExpire tenant stream _ => decide (tenant < 512) && decide (stream < 8)
  | .nop tenant stream _ => decide (tenant < 512) && decide (stream < 8)
  | .waitTok tenant stream _ => decide (tenant < 512) && decide (stream < 8)
  | .signalTok tenant stream _ => decide (tenant < 512) && decide (stream < 8)
  | .fenceCmd tenant stream _ => decide (tenant < 512) && decide (stream < 8)
  | .stepClose tenant stream _ => decide (tenant < 512) && decide (stream < 8)
  | .cut tenant stream _ => decide (tenant < 512) && decide (stream < 8)
  | .testSlot tenant stream _ => decide (tenant < 512) && decide (stream < 8)
  | .loopRun tenant stream _ => decide (tenant < 512) && decide (stream < 8)
  | .mm array _ _ => decide (array < 24)
  | .mmSplit array _ _ => decide (array < 24)
  | .loadStat array => decide (array < 24)
  | .steerEnter r array => reqWf r && decide (array < 24)
  | .steerLeave r array => reqWf r && decide (array < 24)
  | .steerGo r array => reqWf r && decide (array < 24)
  | .steerTestEnd array => decide (array < 24)
  | .vop slice _ _ => decide (slice < 24)
  | .vred slice _ => decide (slice < 24)
  | .vsum slice _ => decide (slice < 24)
  | .vgen slice _ => decide (slice < 24)
  | .muleRun core => decide (core < 128)
  | .muleRunEnd core => decide (core < 128)
  | .barrierRelease core => decide (core < 128)
  | .sysNop core _ => decide (core < 128)
  | .sysHalt core _ => decide (core < 128)
  | .sysBar core _ => decide (core < 128)
  | .sysRet core _ => decide (core < 128)
  | .sysSumi core _ => decide (core < 128)
  | .sysSumf core _ => decide (core < 128)
  | .sysFsrr core _ => decide (core < 128)
  | .sysFsrc core _ => decide (core < 128)
  | .sysSetvl core _ => decide (core < 128)
  | .iop core _ => decide (core < 128)
  | .addi core _ => decide (core < 128)
  | .lis core _ => decide (core < 128)
  | .jt core _ => decide (core < 128)
  | .ld core _ => decide (core < 128)
  | .st core _ => decide (core < 128)
  | .ldw core _ => decide (core < 128)
  | .ldwu core _ => decide (core < 128)
  | .stw core _ => decide (core < 128)
  | .fld core _ => decide (core < 128)
  | .fst core _ => decide (core < 128)
  | .fop core _ => decide (core < 128)
  | .fma core _ => decide (core < 128)
  | .fcmp core _ => decide (core < 128)
  | .fcvt core _ => decide (core < 128)
  | .vfop core _ => decide (core < 128)
  | .vfops core _ => decide (core < 128)
  | .vfma core _ => decide (core < 128)
  | .vfmas core _ => decide (core < 128)
  | .vfcmp core _ => decide (core < 128)
  | .vfred core _ => decide (core < 128)
  | .vfcvt core _ => decide (core < 128)
  | .vi64 core _ => decide (core < 128)
  | .vi32 core _ => decide (core < 128)
  | .vi16 core _ => decide (core < 128)
  | .vmisc core _ => decide (core < 128)
  | .vld64 core _ => decide (core < 128)
  | .vld32 core _ => decide (core < 128)
  | .vld16 core _ => decide (core < 128)
  | .vst64 core _ => decide (core < 128)
  | .vst32 core _ => decide (core < 128)
  | .vst16 core _ => decide (core < 128)
  | .beq core _ => decide (core < 128)
  | .bne core _ => decide (core < 128)
  | .blt core _ => decide (core < 128)
  | .bge core _ => decide (core < 128)
  | .bltu core _ => decide (core < 128)
  | .bgeu core _ => decide (core < 128)
  | .j core _ => decide (core < 128)
  | .call core _ => decide (core < 128)
  | .solveSetupCreate u => decide (u < 4)
  | .solveSetupRelease u => decide (u < 4)
  | .solveSetupMeasure u => decide (u < 4)
  | .solveUpd u _ => decide (u < 4)
  | .factor u _ => decide (u < 4)
  | .direct u _ => decide (u < 4)
  | .refine u _ => decide (u < 4)
  | .cg u _ => decide (u < 4)
  | .bicgstab u _ => decide (u < 4)
  | .moveT group _ _ => decide (group < 3)
  | .convertT group _ _ => decide (group < 3)
  | .gatherWiden group _ _ => decide (group < 3)
  | .prefetch group _ => decide (group < 3)
  | .prefetchRunahead group _ _ => decide (group < 3)
  | .prefetchCommit group _ => decide (group < 3)
  | .prefetchPromote group _ => decide (group < 3)
  | .zeroT group _ => decide (group < 3)
  | .allreduce => true
  | .grantSend _ _ => true
  | .grant _ => true
  | .partialSum _ => true
  | .pieceCombine _ _ => true
  | .resultPiece _ => true
  | .acknowledgement _ => true
  | .abortMsg _ => true
  | .collectiveWaitTimeout _ => true
  | .abortHoldExpire _ => true
  | .xload => true
  | .xstore => true
  | .xmcast => true
  | .xadd => true
  | .xinval => true
  | .lockTake => true
  | .lockRelease => true
  | .remoteRequest _ => true
  | .remoteResponse _ => true
  | .rmwUnitServe _ => true
  | .fabricTimeout _ _ => true
  | .gets _ => true
  | .getm _ => true
  | .snps _ => true
  | .snpi _ => true
  | .dataS _ => true
  | .dataM _ => true
  | .srsp _ => true
  | .wb _ => true
  | .evc _ => true
  | .wbAck _ => true
  | .herdEvict _ => true
  | .herdMemberLeave _ => true
  | .lockProbe tenant _ => decide (tenant < 512)
  | .lockReleaseNotice tenant _ _ ownerTenant _ => decide (tenant < 512) && decide (ownerTenant < 512)
  | .regionSync r => reqWf r
  | .regionTableReadEnd => true
  | .herdConfigWrite r _ value => reqWf r && decide (value < 2 ^ 64)
  | .fabTmoWrite r value => reqWf r && decide (value < 2 ^ 64)
  | .linkEnable r link => reqWf r && decide (link < 96)
  | .linkDetect link => decide (link < 96)
  | .linkStateAdvance link _ => decide (link < 96)
  | .linkStateTimeout link => decide (link < 96)
  | .attemptBackoffEnd link => decide (link < 96)
  | .linkFailedRetry link => decide (link < 96)
  | .cap link _ => decide (link < 96)
  | .capRepeat link => decide (link < 96)
  | .verifyEnd link _ => decide (link < 96)
  | .dataFlit link _ => decide (link < 96)
  | .idleFlit link _ => decide (link < 96)
  | .retryRequest link _ => decide (link < 96)
  | .retryRequestRepeat link => decide (link < 96)
  | .linkErrorWindow link => decide (link < 96)
  | .linkStepUp link => decide (link < 96)
  | .linkIdleStepdown link => decide (link < 96)
  | .retrainEnd link => decide (link < 96)
  | .linkOverrideReturn link _ => decide (link < 96)
  | .linkDown link _ => decide (link < 96)
  | .routeHoldEnd _ => true
  | .nodeCfgWrite r _ value => reqWf r && decide (value < 2 ^ 64)
  | .setLoad r die => reqWf r && decide (die < 2)
  | .setActivate r die => reqWf r && decide (die < 2)
  | .setActivateDone die set => decide (die < 2) && decide (set < 32)
  | .setRetire r die => reqWf r && decide (die < 2)
  | .sharedPageRestore die _ => decide (die < 2)
  | .hostImgSubmit r die _ => reqWf r && decide (die < 2)
  | .setImageTimeout die set => decide (die < 2) && decide (set < 32)
  | .scrubRead _ _ => true
  | .mr4Poll port rank0 rank1 => decide (port < 16) && !(rank0 ++ rank1).isEmpty && (rank0 ++ rank1).all (fun r => decide (r.field < 256))
  | .refreshDue port rank _ => decide (port < 16) && decide (rank < 2)
  | .winWrite r window value => reqWf r && decide (window < 8) && decide (value < 2 ^ 64)
  | .winLock r => reqWf r
  | .tenantSeal r tenant _ => reqWf r && decide (tenant < 512)
  | .ownerSeal r _ => reqWf r
  | .sealTakeEffect _ => true
  | .zreqSubmit r _ => reqWf r
  | .zeroDone _ => true
  | .zeroFillEnd port => decide (port < 16)
  | .tenModeWrite r value => reqWf r && decide (value < 2 ^ 64)
  | .tenSeedWrite r value => reqWf r && decide (value < 2 ^ 64)
  | .tenSealRequest r => reqWf r
  | .sealPeriod _ => true
  | .ledgerEntryWrite => true
  | .ringUnitRetry => true
  | .ringConfigWrite r _ value => reqWf r && decide (value < 2 ^ 64)
  | .rdPtrWrite r value => reqWf r && decide (value < 2 ^ 64)
  | .tenStopWrite r _ value => reqWf r && decide (value < 2 ^ 64)
  | .stopHit tenant => decide (tenant < 512)
  | .systimeWrite r value => reqWf r && decide (value < 2 ^ 64)
  | .stepRegisterWrite r tenant value => reqWf r && decide (tenant < 512) && decide (value < 2 ^ 64)
  | .streamEnWrite r tenant value => reqWf r && decide (tenant < 512) && decide (value < 2 ^ 64)
  | .cmdBaseWrite r tenant stream value => reqWf r && decide (tenant < 512) && decide (stream < 8) && decide (value < 2 ^ 64)
  | .cplBaseWrite r tenant stream value => reqWf r && decide (tenant < 512) && decide (stream < 8) && decide (value < 2 ^ 64)
  | .arbWrite r tenant value => reqWf r && decide (tenant < 512) && decide (value < 2 ^ 64)
  | .translationInvalidate r tenant value => reqWf r && decide (tenant < 512) && decide (value < 2 ^ 64)
  | .pfBar2Read _ _ _ => true
  | .pfBar2Write _ _ => true
  | .vfBar2Read tenant _ _ _ => decide (tenant < 512)
  | .vfBar2Write tenant _ _ => decide (tenant < 512)
  | .msixUnmask fn vector => decide (fn ≤ 512) && decide (vector < 16)
  | .pcieReset _ => true
  | .ownCtrlClaim r => reqWf r
  | .ownClaim _ => true
  | .ownStatus _ => true
  | .ownCtrlRelease r => reqWf r
  | .ownRelease _ => true
  | .ownForce _ => true
  | .releaseLedgerWaitEnd _ => true
  | .releaseZeroingEnd => true
  | .tenantReset r tenant => reqWf r && decide (tenant < 512)
  | .vfFlr tenant => decide (tenant < 512)
  | .pfFlr => true
  | .vfEnableClear => true
  | .tenantResetDone tenant => decide (tenant < 512)
  | .setEndpointId _ _ => true
  | .pldmDiscovery _ => true
  | .pldmSensorRead _ _ => true
  | .pldmSetValue _ _ value => decide (value < 2 ^ 64)
  | .pldmFirmwareUpdate _ _ => true
  | .getVersion _ => true
  | .getCapabilities _ => true
  | .negotiateAlgorithms _ => true
  | .getDigests _ => true
  | .getCertificate _ slot => decide (slot < 2)
  | .challenge _ slot _ => decide (slot < 2)
  | .getMeasurements _ _ => true
  | .grantBoundary _ => true
  | .clockSwitch domain => decide (domain < 3)
  | .limitWrite r value => reqWf r && decide (value < 2 ^ 64)
  | .grpPolWrite r value => reqWf r && decide (value < 2 ^ 64)
  | .clkPolWrite r value => reqWf r && decide (value < 2 ^ 64)
  | .currentLimit _ => true
  | .thermWarn die _ => decide (die < 4)
  | .thermalHoldExpire die _ => decide (die < 4)
  | .thermalTrip die => decide (die < 4)
  | .brakeAssert => true
  | .railFault _ => true
  | .overrideEpisodeEnd _ _ => true
  | .tenCopyWrite r value => reqWf r && decide (value < 2 ^ 64)
  | .tenTrigWrite r value => reqWf r && decide (value < 2 ^ 64)
  | .chunkCopy tenant => decide (tenant < 512)
  | .cutComplete tenant => decide (tenant < 512)
  | .buddyDrainChunk => true
  | .buddyChunkReceive _ => true
  | .buddyAck _ => true
  | .drainRestart => true
  | .restGo r value => reqWf r && decide (value < 2 ^ 64)
  | .rebuildRequest _ => true
  | .restCheck => true
  | .restHostDone r => reqWf r
  | .restAbort r => reqWf r
  | .restTimeout => true
  | .restApply => true
  | .mgmtTick => true
  | .availMakeReady _ => true
  | .availQuiesceOff _ => true
  | .availResetCheck _ _ => true
  | .availLeaveFenced _ => true
  | .blockQuiesce r block inst => reqWf r && decide (inst < blkInsts block)
  | .blockReset r block inst => reqWf r && decide (inst < blkInsts block)
  | .quiesceTimeout block inst => decide (inst < blkInsts block)
  | .d2dTimeout block inst unit _ => decide (inst < blkInsts block) && unitWf unit
  | .controlFault block inst => decide (inst < blkInsts block)
  | .lambCtrlEnter r => reqWf r
  | .nodeReset r => reqWf r
  | .mgmtRestart r => reqWf r
  | .mgmtRestartEnd => true
  | .watchdogExpire => true
  | .powerOnReset => true
  | .porRelease => true
  | .startupPhaseEnd _ => true
  | .indexRegisterWrite r block inst _ value => reqWf r && decide (inst < blkInsts block) && decide (value < 2 ^ 64)
  | .eventWrite r block inst _ => reqWf r && decide (inst < blkInsts block)
  | .registerWrite r _ _ value => reqWf r && decide (value < 2 ^ 64)
  | .tapReset => true
  | .idcode => true
  | .bypassTap => true
  | .samplePreload => true
  | .extestTap => true
  | .extestPulse => true
  | .extestTrain => true
  | .laneLockLoss link lane => decide (link < 96) && decide (lane < 2)
  | .pcieLinkUp _ _ _ => true
  | .vfEnableSet _ => true
  | .d3hot fn _ => decide (fn ≤ 512)
  | .registerSnapshotRead r _ _ => reqWf r
  | .ownerNodeProbe _ tenant _ ownerTenant => decide (tenant < 512) && decide (ownerTenant < 512)
  | .rebuildChunkReceive _ => true
  | .chunkRequestedAgain _ => true

end Sys2Proof
end

