-- ==== Sys2Proof/Tests/Slice0.lean ====
section
/-! SUPPORT. Tests: the checks of operands, worked examples of the spec, and for each statement states and operands that meet its
hypotheses. -/

namespace Sys2Proof.Tests

open Sys2Proof.Machine

set_option Elab.async false

/-! The small states that the tests share. -/

/-- Pages of the instances listed, READY. -/
def up (l : List (Block × Nat)) : Tab Page := l.map (fun (e : Block × Nat) => (pageKey e.1 e.2, ({ st := 1 } : Page)))

/-- The pages of ports 0 to 3, READY, with window 0 over set 4: 4 GiB at address 0. -/
def winPages : Tab Page := (pageKey .lpc 0, ({ st := 1, regs := [(0x140, 0x44000)] } : Page)) :: up [(.lpc, 1), (.lpc, 2), (.lpc, 3)]

/-- A node that has started, owned by the host, with the instances listed READY. -/
def node (l : List (Block × Nat)) : State :=
  { mgmt := { por := false, phase := 9, startDone := true }
    hostIf := { own := 1, viaPf := true, gen := 5, width := 16, crs := false, vfEnable := true, numVfs := 512 }
    pages := up l ++ winPages
    ports := (List.range 4).map (fun (p : Nat) => (p, ({ usable := 60, trained := true } : Port))) }

/-- Tenant 3 assigned, its streams enabled, its pages 0 to 15 mapped to the same local pages. -/
def tenant3 : Tenant :=
  { assigned := true, en := 0xFF, enWritten := 0xFF, rootValid := true, root := 0x10000
    tlb := (List.range 16).map (fun (p : Nat) => ({ vpage := p, ppage := p, wr := true } : TlbEntry)) }

/-- The node with a tenant 3. -/
def with3 (s : State) (x : Tenant) : State := { s with tenants := [(3, x)] }

/-- A command of eight words. -/
def cmd8 (ws : List Nat) : Cmd := { words := ws ++ List.replicate (8 - ws.length) 0 }

/-- A command of an opcode, version 1, whose word 4 is `w`. -/
def cmdOp (op w : Nat) : Cmd := cmd8 [op + 0x100, 0, 0, 0, w]

/-- Tenant 3 with these commands fetched in stream `st`. -/
def fetched3 (st : Nat) (cs : List Cmd) : Tenant := { tenant3 with streams := [(st, { fetched := cs, cmdBase := 0x1000, cplBase := 0x2000 })] }

/-! The checks of operands (`Instr.wf`): an ill-formed term for each, and a well-formed one. -/

theorem test_wf_requester : Instr.wf (.tailWrite (.vf 512) 0 0 0) = false ∧ Instr.wf (.tailWrite (.vf 511) 511 7 (2 ^ 64 - 1)) = true := by decide
theorem test_wf_tenant_stream : Instr.wf (.tailWrite .pf 512 0 0) = false ∧ Instr.wf (.tailWrite .pf 0 8 0) = false
    ∧ Instr.wf (.tailWrite (.cfg 513) 0 0 0) = false ∧ Instr.wf (.tailWrite (.cfg 512) 0 0 0) = true := by decide
theorem test_wf_value : Instr.wf (.tailWrite .pf 0 0 (2 ^ 64)) = false := by decide
theorem test_wf_site : Instr.wf (.commandIssue (.unit (.ox 24)) 0) = false ∧ Instr.wf (.commandIssue (.unit (.pony 24)) 0) = false
    ∧ Instr.wf (.commandIssue (.unit (.solv 4)) 0) = false ∧ Instr.wf (.commandIssue (.unit (.drake 3)) 0) = false
    ∧ Instr.wf (.commandIssue (.front 512 0) 0) = false ∧ Instr.wf (.commandIssue (.front 0 8) 0) = false
    ∧ Instr.wf (.commandIssue (.unit .coll) 0) = true := by decide
theorem test_wf_engines : Instr.wf (.loadStat 24) = false ∧ Instr.wf (.vgen 24 []) = false ∧ Instr.wf (.loadStat 23) = true := by decide
theorem test_wf_core : Instr.wf (.muleRun 128) = false ∧ Instr.wf (.muleRun 127) = true := by decide
theorem test_wf_units : Instr.wf (.factor 4 {}) = false ∧ Instr.wf (.factor 3 { ue := true }) = true ∧ Instr.wf (.zeroT 3 0) = false ∧ Instr.wf (.zeroT 2 0) = true := by
  decide
theorem test_wf_links : Instr.wf (.linkDetect 96) = false ∧ Instr.wf (.linkDetect 95) = true ∧ Instr.wf (.laneLockLoss 96 0) = false
    ∧ Instr.wf (.laneLockLoss 0 2) = false ∧ Instr.wf (.laneLockLoss 95 1) = true := by decide
theorem test_wf_dies : Instr.wf (.setLoad .pf 2) = false ∧ Instr.wf (.setLoad .pf 1) = true ∧ Instr.wf (.thermalTrip 4) = false
    ∧ Instr.wf (.thermalTrip 3) = true ∧ Instr.wf (.setActivateDone 0 32) = false ∧ Instr.wf (.setActivateDone 1 31) = true := by decide
theorem test_wf_ports : Instr.wf (.zeroFillEnd 16) = false ∧ Instr.wf (.zeroFillEnd 15) = true ∧ Instr.wf (.refreshDue 0 2 ⟨false, false⟩) = false
    ∧ Instr.wf (.refreshDue 15 1 ⟨true, true⟩) = true ∧ Instr.wf (.winWrite .pf 8 0) = false ∧ Instr.wf (.winWrite .mgmt 7 0) = true := by decide
theorem test_wf_owners : Instr.wf (.lockReleaseNotice 0 0 0 512 .notice) = false ∧ Instr.wf (.lockReleaseNotice 512 0 0 0 .notice) = false
    ∧ Instr.wf (.lockReleaseNotice 511 0 0 511 .notice) = true := by decide
theorem test_wf_functions : Instr.wf (.msixUnmask 513 0) = false ∧ Instr.wf (.msixUnmask 0 16) = false ∧ Instr.wf (.msixUnmask 512 15) = true
    ∧ Instr.wf (.d3hot 513 true) = false ∧ Instr.wf (.d3hot 512 true) = true := by decide
theorem test_wf_domain_slot : Instr.wf (.clockSwitch 3) = false ∧ Instr.wf (.clockSwitch 2) = true
    ∧ Instr.wf (.getCertificate { smbus := false, eid := 8 } 2) = false ∧ Instr.wf (.getCertificate { smbus := false, eid := 8 } 1) = true := by decide
theorem test_wf_instances : Instr.wf (.blockReset .pf .ox 24) = false ∧ Instr.wf (.blockReset .pf .ox 23) = true
    ∧ Instr.wf (.controlFault .hen 1) = false ∧ Instr.wf (.d2dTimeout .coll 0 (.pony 24) 0) = false
    ∧ Instr.wf (.d2dTimeout .coll 0 (.pony 23) 0) = true := by decide

/-! Parts 1 and 2: the queue, register pages. -/

/-- A step with the queue empty, and one with a command. -/
theorem test_step_idle : (node []).pending = [] := by decide
/-- R771: a step of a node with a command in its queue answers a state; the identity registers are named. -/
theorem test_identity_witness : step { node [] with pending := [.thermalTrip 0, .idcode] }
    = .next { node [] with pending := [.idcode], mgmt := { (node []).mgmt with tripped := true } }
    ∧ ({ off := 0x008 } : RegSpec).off = 0x008 := ⟨rfl, rfl⟩
/-- A node in power-on reset and one that has tripped are not live. -/
theorem test_stopped_witness : live State.reset = false ∧ live { node [] with mgmt := { por := false, tripped := true } } = false
    ∧ (Instr.idcode ≠ .powerOnReset) ∧ (∀ r, Instr.mgmtTick ≠ .railFault r) := by
  refine ⟨by decide, by decide, by simp, by simp⟩
/-- A memory in its form, with a byte, and a step from it. -/
theorem test_memory_form_witness : ({ cells := [(4, 1), (9, 2)] } : Memory).wf = true ∧ cellsWf 0 [(0, 255)] = true
    ∧ ({ cells := [(4, 0)] } : Memory).wf = false ∧ ({ cells := [(9, 2), (4, 1)] } : Memory).wf = false := by decide

/-- A page that a tenant, and one that the owner of an unowned node, do not reach; a write command names the page. -/
theorem test_unreached_witness : writeReaches (node []) (.vf 3) .ten 4 = false ∧ pageOf (.tailWrite (.vf 3) 4 0 1) = some (.vf 3, .ten, 4)
    ∧ writeReaches { node [] with hostIf := { own := 0 } } .pf .goose 0 = false ∧ writeReaches (node []) .pf .ox 24 = false
    ∧ pageOf (.blockReset .pf .ox 24) = some (.pf, .ox, 24) := by decide

/-- The four forms of a read: a register of one word (LPC has WIN_CTRL at 0x180), the words of a wide one (PERF0 at 0x040). -/
theorem test_read_witness :
    (let s := node []
     live s = true ∧ regAt .mgmt 0x0B00180 = some (.lpc, 0, 0x180) ∧ readReaches s .mgmt .lpc 0 = true
      ∧ ((specAt .lpc 0 0x180).map (fun (g : RegSpec) => (g.off, g.words))) = some (0x180, 1)
      ∧ ((specAt .lpc 0 0x040).map (fun (g : RegSpec) => (g.off, g.words))) = some (0x040, 2)
      ∧ ((specAt .lpc 0 0x044).map (fun (g : RegSpec) => (g.off, g.words))) = some (0x040, 2)
      ∧ regAt (.vf 3) 0x040 = some (.ten, 3, 0x040) ∧ readReaches s (.vf 3) .ten 3 = true) := by decide

/-- The forms of a write: LPC.WIN_0 (0x140) is wide, WIN_CTRL one word; WIN_0 may be written; offset 0x0E8 of LPC is reserved. -/
theorem test_write_witness :
    (let s := node []
     writeReaches s .pf .lpc 0 = true ∧ regAt .pf 0x0B00140 = some (.lpc, 0, 0x140)
      ∧ ((specAt .lpc 0 0x140).map (fun (g : RegSpec) => (g.off, g.words, mayWrite (bar0Count s .pf) .pf .lpc g))) = some (0x140, 2, true)
      ∧ ((specAt .lpc 0 0x000).map (fun (g : RegSpec) => (g.off, g.words, mayWrite s .pf .lpc g))) = some (0x000, 1, false)
      ∧ specAt .lpc 0 0xF00 = none ∧ 0x142 % 4 ≠ 0) := by decide
/-- An index register of R762 that takes a value. -/
theorem test_index_witness :
    (let s := node [(.spad, 0)]
     atPage s .pf .spad 0 = true ∧ (indexOffs .spad).contains 0x104 = true ∧ indexValueOk .spad 0x104 3 = true
      ∧ ((specAt .spad 0 0x104).map (fun (g : RegSpec) => (g.off, mayWrite (bar0Count s .pf) .pf .spad g))) = some (0x104, true)) := by decide
/-- An event that may be cleared, and an error already recorded. -/
theorem test_event_witness : atPage (node []) .pf .lpc 0 = true
    ∧ mayWrite (bar0Count (node []) .pf) .pf .lpc { off := 0x020, w1c := eventMask .lpc } = true ∧ bitAt (eventMask .lpc) 0 = true
    ∧ (page (regError (node []) .lpc 0 0x140) .lpc 0).errValid = true ∧ (page (node []) .lpc 0).errValid = false := by decide

/-! Parts 3 and 4: streams, tenants, commands. -/

/-- Node with the core of tenant 3, and its commands. -/
def goose3 (x : Tenant) : State := with3 (node [(.goose, 0)]) x

theorem test_stream_writes_witness :
    (let s := goose3 { tenant3 with en := 1 }
     atPage s (.vf 3) .ten 3 = true ∧ enabled s 3 0 = true ∧ enabled s 3 7 = false ∧ 0x3000 % 4096 = 0
      ∧ bits (0x3000 + 16 * 2 ^ 48) 48 5 = 16 ∧ bits (0x3000 + 4 * 2 ^ 48) 48 5 = 4 ∧ bits (17 * 2 ^ 48) 48 5 = 17 ∧ 0x3040 % 4096 ≠ 0) := by decide
theorem test_step_write_witness : atPage (goose3 { tenant3 with en := 0, enWritten := 0 }) .pf .ten 3 = true
    ∧ (ten (goose3 { tenant3 with en := 0, enWritten := 0 }) 3).en = 0 ∧ (ten (goose3 tenant3) 3).en ≠ 0 := by decide
theorem test_tenant_writes_witness :
    (let s := goose3 (fetched3 0 [])
     atPage s (.vf 3) .ten 3 = true ∧ atPage s .mgmt .ten 3 = true ∧ stepInProgress s 3 = false
      ∧ stepInProgress (goose3 (fetched3 0 [cmdOp 0x04 0])) 3 = true
      ∧ sharesBut s 3 + 192 ≤ 192 ∧ 192 < sharesBut s 3 + 193 ∧ bits (1 * 16 + 192 * 256) 4 4 ≠ 0 ∧ (ten s 3).resetting = false
      ∧ (ten (goose3 { tenant3 with resetting := true }) 3).resetting = true) := by decide
/-- Tokens at the ends of the signed comparison, and signals at the ends of the token and status ranges. -/
theorem test_token_witness :
    (let s := goose3 { tenant3 with tokens := [(0, 5), (63, 0x80000004)] }
     reached s 3 0 5 = true ∧ reached s 3 0 6 = false ∧ reached s 3 63 5 = true ∧ reached s 3 63 4 = false
      ∧ cSigEn (cmd8 [0, 0, 63 * 256 + 0x20000]) = true ∧ cSigTok (cmd8 [0, 0, 63 * 256 + 0x20000]) = 63
      ∧ cSigTok (cmd8 [0, 0, 64 * 256 + 0x20000]) = 64 ∧ cSigEn (cmd8 [0, 0, 0]) = false
      ∧ token (signal s 3 (cmd8 [0, 0, 63 * 256 + 0x20000]) 0x10) 3 63 = 0x80000005
      ∧ (ten (signal s 3 (cmd8 [0, 0, 63 * 256 + 0x20000]) 0x0F) 3).tokenErr = 0) := by decide
/-- A stream that fetches, one whose slot is poisoned, and one at its tail. -/
theorem test_fetch_witness :
    (let x : Tenant := { tenant3 with streams := [(0, { cmdBase := 0x1000, tail := 1 })] }
     let s := goose3 x
     live s = true ∧ canFetch s 3 0 = true ∧ canFetch s 3 1 = false
      ∧ usable (readSpans (atTime s 0) 3 [some (0x1000, 64)]) 3 0x1000 64 false = true
      ∧ tPoison (readSpans (atTime s 0) 3 [some (0x1000, 64)]) 3 0x1000 64 = false
      ∧ tPoison { s with poison := [64] } 3 0x1000 64 = true ∧ canFetch { s with poison := [64] } 3 0 = true) := by decide
/-- What the checks find, clause by clause: a tenant not assigned; a NOP of a wrong version; a good MULE_RUN of two cores and an XADD of the V
class reach the later refusals. -/
theorem test_checks_witness :
    (let s := goose3 { tenant3 with replay := true, qMule := 1 }
     let c := cmd8 [0x130, 0, 0, 0, 0, 2 ^ 48, 1, 0x40]
     (ten (goose3 {}) 3).assigned = false ∧ headOk s 3 (cmd8 [0x0000]) = false
      ∧ headOk s 3 c = true ∧ fieldsOk s 3 0 c = true ∧ namedLines 0 c = [] ∧ listedLines 0 c = [] ∧ descsOk s 3 0 c = true
      ∧ (ten s 3).qMule < mrCores c ∧ headOk s 3 (cmd8 [0x10154]) = true ∧ cVcls (cmd8 [0x10154]) = true
      ∧ (checkCmd s 3 0 c).2.verdict = 0x11) := by decide
/-- The decisions: a SOLVE that unit 0 accepts, a refused and a skipped command, one whose unit is gone, a finished job, a defer limit. -/
theorem test_issue_witness :
    (let c := cmdOp 0x31 0
     let s := { goose3 (fetched3 0 [c]) with pages := up [(.goose, 0), (.solv, 0)] }
     let s' := (tenantNums s).foldl markReady (atTime s 5)
     let o : Offer := { tenant := 3, stream := 0, cmd := c, iter := none }
     live s = true ∧ offers s' (.solv 0) = [o] ∧ arbOrder s' (.solv 0) [o] = [o] ∧ roomCode s' (.solv 0) o = none
      ∧ energyFits s' 3 0 c = true) := by decide
theorem test_front_witness :
    (let c := cmdOp 0x31 0
     let bad := { c with verdict := 0x14, code := 2 }
     let s := goose3 (fetched3 0 [bad])
     let k : Stream := { fetched := [c], skip := 1 }
     let q := goose3 { tenant3 with streams := [(7, k)] }
     let g := goose3 (fetched3 7 [c])
     front (stream s 3 0) = some (bad, none) ∧ frontLive s 3 0 = true ∧ stopHolds (ten s 3) 0 bad = false ∧ bad.verdict ≠ 0
      ∧ (stream s 3 0).inStep = false ∧ skipActive (stream s 3 0) bad = false ∧ skipActive (stream q 3 7) c = true
      ∧ stepReached q 3 c = true ∧ stepReached q 3 (cmd8 [0x131, 1]) = false
      ∧ front (stream q 3 7) = some (c, none) ∧ frontLive q 3 7 = true ∧ badAtFront g 3 c = false ∧ 0x08 ≤ cOp c ∧ target g 3 c = none
      ∧ ready (markReady (atTime g 5) 3) 3 7 = some (c, none)) := by decide
theorem test_complete_witness :
    (let c := cmdOp 0x31 0
     let j : Job := { tenant := 3, stream := 0, cmd := c, unit := .solv 0, result := some {} }
     [j].find? (fun (x : Job) => x.tenant == 3 && x.stream == 0 && x.cmd.count.toNat == 0 && x.iter.getD 0 == 0 && x.result.isSome) = some j
      ∧ j.orphan = false) := by decide
theorem test_defer_witness :
    (let c := cmdOp 0x31 0
     let h : Hold := { readyAt := some 0, lastCause := 1, queueCode := 0x12 }
     let s := goose3 { tenant3 with deferLim := 1, streams := [(0, { fetched := [c], hold := h })] }
     let s' := atTime s 1000
     ready s' 3 0 = some (c, none) ∧ (ten s' 3).deferLim ≠ 0 ∧ (stream s' 3 0).inStep = false
      ∧ (holdUpTo (stream s' 3 0).hold s'.gclk).lastCause = 1
      ∧ (ten s' 3).deferLim * 1000 ≤ tabGet 0 (holdUpTo (stream s' 3 0).hold s'.gclk).sums 1) := by decide

/-- Each control command ready at the front of its stream; SIGNAL with and without its clear bit, TEST whose condition holds or not. -/
theorem test_control_witness :
    (let f := fun (op w : Nat) => runsNow (goose3 (fetched3 0 [cmdOp op w])) 3 0 7 op (cmdOp op w) none
     f 0x00 0 = true ∧ f 0x01 0 = true ∧ f 0x02 63 = true ∧ f 0x02 0x100 = true ∧ f 0x03 1 = true ∧ f 0x05 0 = true ∧ f 0x06 0x10000 = true
      ∧ bitAt (cw (cmdOp 0x02 63) 4) 8 = false ∧ bitAt (cw (cmdOp 0x02 0x100) 4) 8 = true) := by decide
theorem test_test_witness :
    (let c := cmd8 [0x106, 0, 0, 0, 0x10000 + 0 * 256, 0]
     let d := cmd8 [0x106, 0, 0, 0, 0x10000 + 1 * 256, 0]
     let v := (readSum (running (goose3 (fetched3 0 [c])) 3 0 7 c) 3 0).toNat
     v = 0 ∧ testHolds c v != testHolds d v) := by decide
theorem test_loop_witness :
    (let c := cmdOp 0x07 (1 + 2 ^ 16)
     runsNow (goose3 (fetched3 0 [c, cmdOp 0x31 0])) 3 0 7 0x07 c none = true) := by decide
theorem test_step_witness :
    (let f := fun (st : Nat) => runsNow (goose3 (fetched3 st [cmdOp 0x04 0])) 3 st 7 0x04 (cmdOp 0x04 0) none
     let x : Stream := { fetched := [cmdOp 0x04 0], inStep := true }
     f 1 = true ∧ f 7 = true ∧ (stream (goose3 (fetched3 0 [cmdOp 0x04 0])) 3 0).inStep = false
      ∧ runsNow (goose3 { fetched3 0 [cmdOp 0x04 0] with en := 1 }) 3 0 7 0x04 (cmdOp 0x04 0) none = true
      ∧ (stream (goose3 { tenant3 with streams := [(0, x)] }) 3 0).inStep = true) := by decide

/-! Part 5: the engines. -/

/-- The first job of tenant 3, on a unit. -/
def job3 (u : EUnit) (c : Cmd) : Job := { tenant := 3, stream := 0, cmd := c, unit := u }

/-- A descriptor of `n` elements of a format in a row from `base`. -/
def descNum (fmt base n : Nat) : Nat :=
  1 + fmt * 2 ^ 8 + base * 2 ^ 16 + 2 ^ 160 + n * 2 ^ 352 + 2 ^ 376 + 2 ^ 400 + 2 ^ 424 + 2 ^ 448 + 2 ^ 472

/-- The node with tenant 3, instances READY, and jobs. -/
def serving (l : List (Block × Nat)) (js : List Job) : State := { with3 (node l) tenant3 with jobs := js }

theorem test_array_witness :
    (let f := fun (a op : Nat) => oxJob (serving [(.ox, a)] [job3 (.ox a) (cmdOp op 0)]) a op = some (job3 (.ox a) (cmdOp op 0))
     live (serving [(.ox, 0)] []) = true ∧ heldNowhere (serving [(.ox, 0)] []) = true ∧ f 0 0x10 ∧ f 23 0x11 ∧ f 0 0x12) := by decide
/-- Tenant 3 with its pages 0 to 15 mapped to the upper tier of scratchpad 0, where arrays and slices of die 0 reach them. -/
def spad3 : Tenant := { tenant3 with tlb := (List.range 16).map (fun (p : Nat) => ({ vpage := p, ppage := 2 ^ 27 + p, wr := true } : TlbEntry)) }

/-- The node with that tenant, scratchpad 0 and an engine READY, and the engine's job; and the same node once the tenant maps nothing. -/
def inSpad (b : Block) (j : Job) : State := { with3 (node [(.spad, 0), (b, 0)]) spad3 with jobs := [j] }
def lost3 (s : State) : State := { s with tenants := s.tenants.map (fun (e : Nat × Tenant) => (e.1, { e.2 with tlb := [], rootValid := false })) }

/-- A command with three descriptors of two elements of a format in a row. -/
def cmd3 (ws : List Nat) (fmt : Nat) : Cmd :=
  { cmd8 ws with read := [(1, descNum fmt 0x3000 2), (2, descNum fmt 0x4000 2), (3, descNum fmt 0x5000 2)] }

/-- An MM, an MM_SPLIT and a LOAD_STAT that run and that a lost page stops, and an MM and an MM_SPLIT that meet a parity error. -/
theorem test_array_runs_witness :
    (let c := cmd3 [0x110, 0, 0, 0, 1, 2, 3] 5
     let j := job3 (.ox 0) c
     let s := inSpad .ox j
     let met : BankParity := ⟨0, 0, 0, 0⟩
     let k := mmWork s 0 none [] j
     oxJob s 0 0x10 = some j ∧ k.run.passes = 1 ∧ k.met = none ∧ (mmWrote k 0 j).gone = false
      ∧ (mmWrote (mmWork (lost3 s) 0 none [] j) 0 j).gone = true ∧ (mmWork s 0 (some met) [] j).met = some met) := by decide +kernel
theorem test_split_runs_witness :
    (let c := cmd3 [0x111, 0, 0, 0, 1, 2, 3, 3] 11
     let j := job3 (.ox 0) c
     let s := inSpad .ox j
     let met : BankParity := ⟨0, 0, 0, 0⟩
     let k := splitWork s 0 none [] j
     oxJob s 0 0x11 = some j ∧ k.run.passes = 6 ∧ k.met = none ∧ (mmWrote k 0 j).gone = false
      ∧ (mmWrote (splitWork (lost3 s) 0 none [] j) 0 j).gone = true ∧ (splitWork s 0 (some met) [] j).met = some met) := by decide +kernel
theorem test_load_stat_witness :
    (let c := cmd3 [0x112, 0, 0, 0, 1] 5
     let j := job3 (.ox 0) c
     let s := inSpad .ox j
     let misses := fun (x : State) => (lsIdx c).findSome? (fun (i : List Nat) => (readScaled (readSpans x 3 (lsSpans c)) 3 0 (lsB c) 1 0 i).miss)
     oxJob s 0 0x12 = some j ∧ misses s = none ∧ misses (lost3 s) ≠ none) := by decide +kernel
/-- A VOP, a VRED, a VSUM and a VGEN that run, and that a lost page stops. -/
theorem test_slice_runs_witness :
    (let f := fun (op w y x : Nat) => job3 (.pony 0) (cmd3 [op + 0x100, 0, 0, 0, 1 + w * 2 ^ 56, 0, y, x] 11)
     let s := fun (j : Job) => inSpad .pony j
     let o := f 0x20 0x15 0 2
     let r := f 0x21 0 2 0
     let m := f 0x22 0 0 0
     let g := f 0x23 0 0 0
     ponyJob (s o) 0 0x20 = some o ∧ (vopRun (s o) 0 [] [] o).gone = false ∧ (vopRun (lost3 (s o)) 0 [] [] o).gone = true
      ∧ (vredRun (s r) 0 [] r).gone = false ∧ (vredRun (lost3 (s r)) 0 [] r).gone = true
      ∧ (vsumRun (s m) 0 [] m).gone = false ∧ (vsumRun (lost3 (s m)) 0 [] m).gone = true
      ∧ (vgenRun (s g) 0 [] g).gone = false ∧ (vgenRun (lost3 (s g)) 0 [] g).gone = true) := by decide +kernel
theorem test_steer_witness :
    (let s := { node [] with pages := [(pageKey .ox 0, ({ regs := [(0x128, 1), (0x120, 1)] } : Page))] }
     let t := { s with oxs := [(0, { steer := true, steerFrom := 6 })] }
     let q := { s with oxs := [(0, { steer := true, busy := true })] }
     let e := { s with oxs := [(0, { steer := true, ended := true, lastFail := true })] }
     atPage s .mgmt .ox 0 = true ∧ blkState s .ox 0 = 0 ∧ (ox s 0).steer = false ∧ (ox t 0).steer = true ∧ (ox t 0).busy = false
      ∧ steerSeed t 0 ≠ 0 ∧ steerCount t 0 ≠ 0 ∧ steerSeed s 1 = 0 ∧ atPage s .mgmt .ox 1 = true ∧ (ox q 0).busy = true ∧ (ox e 0).ended = true
      ∧ (ox e 0).lastFail = true ∧ (ox s 0).ended = false ∧ atPage s .pf .ox 0 = true) := by decide
theorem test_slice_witness :
    (let f := fun (n op : Nat) => ponyJob (serving [(.pony, n)] [job3 (.pony n) (cmdOp op 0)]) n op = some (job3 (.pony n) (cmdOp op 0))
     f 0 0x20 ∧ f 23 0x21 ∧ f 0 0x23 ∧ readsTable (cmdOp 0x20 (0x15 * 2 ^ 56)) = true
      ∧ tableMet (cmdOp 0x20 (0x15 * 2 ^ 56)) [0] = true ∧ tableMet (cmdOp 0x20 (0x15 * 2 ^ 56)) [] = false
      ∧ (let c : Cmd := { cmd8 [0x122, 0, 0, 0, 1] with read := [(1, descNum 11 0x3000 2)] }
         let s := inSpad .pony (job3 (.pony 0) c)
         ponyJob s 0 0x22 = some (job3 (.pony 0) c)
          ∧ ((extIdx (pnX c)).map (redElem (readSpans s 3 (redSpans c)) 3 0 c)).all (·.miss.isNone) = true)) := by decide +kernel

/-- A PREFETCH of two entries of 16 bytes, from 0x3000 and 0x4000. -/
def pf3 : Cmd := { cmd8 [0x143, 0, 0, 0, 4 + 2 ^ 56, 2 + 9 * 2 ^ 32 + 2 ^ 40] with
  read := [(1, descNum 4 0x3000 16), (2, descNum 4 0x5000 16), (3, descNum 4 0x4000 16), (4, 1 + 2 * 2 ^ 64 + 3 * 2 ^ 128 + 2 * 2 ^ 192)] }

/-- Its group, with its run, and a stream that waits on its token 9. -/
def pfNode (rs : List PfRun) : State :=
  { with3 (node [(.goose, 0), (.drake, 0)]) (fetched3 7 [cmd8 [0x101, 0, 9 + 0x10000 + 2 ^ 32]]) with
    jobs := [job3 (.drake 0) pf3], drakes := [(0, { runs := rs })] }

theorem test_drake_witness :
    (let f := fun (g op : Nat) => drakeJob (serving [(.drake, g)] [job3 (.drake g) (cmdOp op 0)]) g 0 op = some (job3 (.drake g) (cmdOp op 0))
     f 0 0x40 ∧ f 2 0x41 ∧ f 0 0x42 ∧ f 0 0x44 ∧ unitRuns (serving [(.drake, 2)] []) .drake 2 = true) := by decide
theorem test_prefetch_witness :
    (let r : PfRun := { tenant := 3, stream := 0, count := 0, iter := none }
     let s := pfNode [r]
     let j := job3 (.drake 0) pf3
     drakeJob s 0 0 0x43 = some j ∧ pfRun (pfNode []) 0 j = none ∧ pfRun s 0 j = some r ∧ r.committed ≤ 1 ∧ 1 ≤ r.committed + pfAhead j.cmd
      ∧ 1 < pfCount j.cmd ∧ tabFind r.staged 1 = none ∧ ceilDiv (pfBytes (mvSrc (pfMove pf3 1))) 65536 = 1
      ∧ 1 ≤ (stageFree (drake s 0)).length ∧ stageHeld (drake s 0) 3 + 1 ≤ (ten s 3).qStage
      ∧ ((extIdx (mvSrc (pfMove pf3 1))).map (fun (i : List Nat) => readMove (readSpans s 3 (copySpans (mvSrc (pfMove pf3 1)) (fullBox (mvSrc (pfMove pf3 1))))) 3
          (mvSrc (pfMove pf3 1)) i)).all (·.reach) = true
      ∧ pfReleased s 3 pf3 0 = true ∧ r.committed < pfCount pf3 ∧ (commitWrote s j r).gone = false
      ∧ (commitWrote (lost3 s) j r).gone = true ∧ pfFillEn pf3 = true ∧ r.promoted = false) := by decide +kernel
theorem test_promote_witness :
    (let s := pfNode []
     let c := cmd8 [0x101, 0, 9 + 0x10000 + 2 ^ 32]
     frontLive s 3 7 = true ∧ (stream s 3 7).skip = 0 ∧ front (stream s 3 7) = some (c, none) ∧ badAtFront s 3 c = false
      ∧ cStep c = (ten s 3).step.toNat ∧ tokenWaits s 3 c none = [(pfFillTok pf3, false)]
      ∧ stopHolds (ten s 3) 7 c = false ∧ orderOk s 3 7 c = true ∧ loopBodyOk (stream s 3 7) c = true) := by decide

/-- A setup descriptor of one row with one stored entry at 0x1000 (Table 8.2), its arrays in page 2 with the value 2.0, and at 0x6000 a
parameter block with b at 0x7000 and x at 0x7100. -/
def solMem : List Host.Cell :=
  [(0x1000, 1), (0x1008, 1), (0x100C, 1), (0x1010, 1), (0x1019, 0x20), (0x1020, 0x10), (0x1021, 0x20), (0x1028, 0x20), (0x1029, 0x20),
    (0x1030, 0x30), (0x1031, 0x20), (0x1038, 0x40), (0x1039, 0x20)]
  ++ [(0x2004, 1), (0x2027, 0x40), (0x2044, 1), (0x6000, 1), (0x6009, 0x70), (0x6011, 0x71), (0x6037, 0x10)]

/-- A system of one row on unit 0. -/
def sys1 : SolSys :=
  { tenant := 3, chol := false, n := 1, rowptr := [0, 1], colidx := [0], vals := [0x4000000000000000], perm := [0], snode := [0, 1],
    rows := [[0]], farea := 0x3000, log := 0x4000, logcap := 1, granules := 1, nnzp := 1, nidx := 1, fvals := 1, fpages := 1 }

/-- Unit 0 with tenant 3's command, and the system where `b` says so. -/
def solNode (c : Cmd) (b : Bool) : State :=
  { serving [(.solv, 0)] [job3 (.solv 0) c] with
    mem := { cells := solMem }, solvs := if b then [(0, [(0, sys1)])] else [], tenants := [(3, { tenant3 with qSmem := 1 })] }

/-- A create, a measure, a release, and an update of the one entry. -/
def suCmd (op : Nat) : Cmd := cmd8 [0x133, 0, 0, 0, 0x40 + op * 2 ^ 56, 3, 0x100 + 2 ^ 42, 0x140]

theorem test_setup_witness :
    (let c := suCmd 0
     let s1 := setupFill (solNode c false) 3 c
     solvJob (solNode c false) 0 0x33 = some (job3 (.solv 0) c) ∧ suOp c = 0 ∧ onFailed (solNode c false) (job3 (.solv 0) c) = false ∧ sysAt s1 0 (svSys c) = none
      ∧ (match setupRead s1 3 c with
        | .built y => y.n == 1 && areasOk (fillTlb (fillTlb s1 3 y.farea (4096 * y.fpages)) 3 y.log (32 * y.logcap)) 3 c y
            && (quotaHit s1 0 3 (svSys c) y.granules).isNone && !(tStore (putSys s1 0 (svSys c) y) 3 (suRec c) (setupRecord y)).2
            && (tStore (lost3 s1) 3 (suRec c) (setupRecord y)).2
        | _ => false) = true
      ∧ suOp (suCmd 2) = 2 ∧ suOp (suCmd 1) = 1 ∧ cmdSys (solNode (suCmd 1) true) (job3 (.solv 0) (suCmd 1)) = some sys1) := by decide +kernel
theorem test_update_witness :
    (let c := cmd8 [0x132, 0, 0, 0, 0x1C0, 1]
     let s := solNode c true
     let s1 := readSpans s 3 [some (svAddr c, 16 * upCount c)]
     solvJob s 0 0x32 = some (job3 (.solv 0) c) ∧ cmdSys s (job3 (.solv 0) c) = some sys1 ∧ sys1.failed = false
      ∧ lpddrXlated s1 3 (svAddr c) (16 * upCount c) false = true ∧ usable s1 3 (svAddr c) (16 * upCount c) false = true
      ∧ tPoison s1 3 (svAddr c) (16 * upCount c) = false ∧ tNat s1 3 (svAddr c) 8 < sys1.vals.length
      ∧ cmdSys (solNode c false) (job3 (.solv 0) c) = none) := by decide +kernel
/-- A SOLVE by each method, which no check refuses, and whose factorisation stores. -/
theorem test_solve_witness :
    (let c := cmd8 [0x131, 0, 0, 0, 0x180]
     let s := solNode c true
     let p : SolPar := { b := 0x7000, x := 0x7100, rtol := 0, atol := 0, pivtol := 0, preg := 2 ^ 60, ok := true }
     let s1 := readSpans s 3 [some (svAddr c, 64)]
     let s' := [(p.b, 8), (p.x, 8), (sys1.farea, 4096), (sys1.log, 32)].foldl (fun (x : State) (e : Nat × Nat) => fillTlb x 3 e.1 e.2) s1
     solParOf (tNat s1 3 0x6000 64) = p ∧ solvJob s 0 0x31 = some (job3 (.solv 0) c) ∧ soMethod c = 0 ∧ cmdSys s (job3 (.solv 0) c) = some sys1
      ∧ usable s1 3 (svAddr c) 64 false = true ∧ tPoison s1 3 (svAddr c) 64 = false ∧ solveRefusal s' 3 c sys1 p = none
      ∧ heldNowhere s = true ∧ (runFactor (structFixed s' 0 {}) 0 3 c sys1 p).gone = false) := by decide +kernel
theorem test_solve_methods :
    (let c := fun (m : Nat) => cmd8 [0x131, 0, 0, 0, 0x180 + m * 2 ^ 56]
     let f := fun (m : Nat) => solvJob (solNode (c m) true) 0 0x31 = some (job3 (.solv 0) (c m)) ∧ soMethod (c m) = m
     let p : SolPar := { b := 0x7000, x := 0x7100, rtol := 0, atol := 0, pivtol := 0, preg := 2 ^ 60, ok := true }
     let g := fun (m : Nat) =>
       let s2 := solveReads (solNode (c m) true) (job3 (.solv 0) (c m)) p sys1
       solveServed s2 (job3 (.solv 0) (c m)) p sys1 && !solveSpoilt s2 (job3 (.solv 0) (c m)) p sys1 && !(tStore s2 3 p.x [0, 0, 0, 0, 0, 0, 0, 0]).2
     f 1 ∧ f 2 ∧ f 3 ∧ f 4 ∧ g 1 = true ∧ g 4 = true ∧ solveRefusal (solNode (c 3) true) 3 (c 3) sys1 p = none) := by decide +kernel

/-! Part 6: Mule. -/

/-- Tenant 3's MULE_RUN of one core: one instruction at 0x1000, its save area at 0x2000, no arguments. -/
def mrCmd : Cmd := cmd8 [0x130, 0, 0, 0, 1, 0, 100, 0x80]

/-- Cores 0 and 1 of the run of tenant 3, with what core 0 holds; `b` says whether the run has started. -/
def mule3 (c : MCore) (ps : List Nat) (b : Bool) : State :=
  { serving [(.mule, 0)] [job3 .mule mrCmd] with
    mem := { cells := [(0x1003, 0x08)] }
    mule := { cores := ps.map (fun (p : Nat) => (p, { c with lcore := p })), runs := [⟨1, 3, 0, 0, none, 0, ps, b, []⟩] } }

/-- Core 0 of a started run about to execute the word. -/
def atWord (w : Nat) (c : MCore) : State := mule3 { c with st := 2, run := 1, tenant := 3, code := [BitVec.ofNat 32 w] } [0] true

theorem test_next_witness :
    [0x00, 0x01, 0x02, 0x03, 0x04, 0x05, 0x06, 0x07, 0x08, 0x09, 0x0A, 0x0B, 0x10, 0x11, 0x12, 0x13, 0x20, 0x21, 0x22, 0x23, 0x24, 0x25, 0x26,
      0x28, 0x29, 0x2A, 0x2C, 0x30, 0x31, 0x32, 0x33, 0x34, 0x35, 0x38, 0x39, 0x3A, 0x3B, 0x3C, 0x3D, 0x3E, 0x3F].all
      (fun (op : Nat) => nextIs (atWord (op * 2 ^ 26) {}) 0 op (op * 2 ^ 26)) = true ∧ isParity .eccCorr = false := by decide +kernel
theorem test_sys_witness :
    (let s := atWord 0 { i := [(1, 5)], ret := [7] }
     mFn (8 * 64) = 8 ∧ mFn (3 * 64) = 3 ∧ (mcore s 0).ret = [7] ∧ (mcore (atWord 0 {}) 0).ret = []
      ∧ iReg (mcore s 0) (mA (2 ^ 16)) = 5 ∧ 5 < bits 6 0 9 ∧ bits 5 0 9 ≤ 5) := by decide
theorem test_branch_witness :
    (let c := mcore (atWord 0 { i := [(1, 0xFFFFFFFFFFFFFFFF), (2, 1)] }) 0
     let a := tabGet 0 c.i 1
     let b := tabGet 0 c.i 2
     a ≠ b ∧ a.toInt < b.toInt ∧ b.toNat ≤ a.toNat ∧ ¬ a.toNat < b.toNat ∧ 0 ≤ (c.pc : Int) + (BitVec.ofNat 16 0x7FFF).toInt
      ∧ 0 ≤ (c.pc : Int) + (BitVec.ofNat 26 0x1FFFFFF).toInt) := by decide
/-- The functions at the ends of the ranges that clauses divide: FCVT 2, 3, 6, 7, 8, FCMP 4, integer vectors 17 and 20, VMISC 12 and 13. -/
theorem test_function_witness : [2, 3, 4, 6, 7, 8, 12, 13, 17, 20, 22].all (fun (k : Nat) => mFn (k * 64) == k) = true
    ∧ mD (3 * 2 ^ 21) ≠ 0 ∧ (mcore (atWord 0 {}) 0).vl ≤ 256
    ∧ bitAt (kReg (mcore (atWord 0 { k := [(1, 4)] }) 0) 1) 2 = true ∧ bitAt (kReg (mcore (atWord 0 { k := [(1, 4)] }) 0) 1) 1 = false
    ∧ iReg (mcore (atWord 0 { i := [(1, 64)] }) 0) 1 = 64 ∧ iReg (mcore (atWord 0 { i := [(1, 63)] }) 0) 1 < 64 := by decide
theorem test_access_witness :
    (let s := atWord (6 * 2 ^ 26 + 0x5FF8) {}
     let x := fun (w : Bool) => accState (muleEvent s 0 .ok) 3 0x5FF8 8 w .ok
     heldNowhere s = true ∧ memAddr (mcore s 0) (6 * 2 ^ 26 + 0x5FF8) = 0x5FF8 ∧ accCause (x false) 3 0x5FF8 8 false = 0
      ∧ accCause (x true) 3 0x5FF8 8 true = 0 ∧ s.hen.cuts = [] ∧ s.memErrs = []) := by decide +kernel
/-- A vector load that no element stops, and one that stops at element 0 of an unmapped address. -/
theorem test_vector_witness :
    (let f := fun (c : MCore) => (([0] : List Nat).foldl (vldElem 0 64 1 .ok) ({ st := atWord 0 c, core := mcore (atWord 0 c) 0 } : VMem)).stop
     f { vl := 1 } = none ∧ f { vl := 1, i := [(0, 0)], ret := [1] } = none
      ∧ (([0] : List Nat).foldl (vldElem (2 ^ 16) 64 1 .ok)
          ({ st := atWord 0 { i := [(1, 0x100000)] }, core := mcore (atWord 0 { i := [(1, 0x100000)] }) 0 } : VMem)).stop.isSome = true) := by
  decide +kernel
theorem test_run_witness :
    (let r : MuleRun := ⟨1, 3, 0, 0, none, 0, [0], false, []⟩
     let j := job3 .mule mrCmd
     let s := mule3 { st := 1, run := 1, tenant := 3 } [0] false
     let x := readSpans s 3 [some (0x1000, 4), some (0, 0), some (0x2000, saveBytes)]
     coreRun s 0 = some (r, j) ∧ mrResume mrCmd = false ∧ r.cores.Nodup ∧ j ∈ s.jobs ∧ mrCode mrCmd = 0x1000 ∧ mrNinst mrCmd = 1
      ∧ mrSave mrCmd = 0x2000 ∧ mrCores mrCmd = 1 ∧ mrArgs mrCmd = 0 ∧ 0 < mrIcap mrCmd
      ∧ usable x 3 0x1000 4 false = true ∧ usable x 3 0 0 false = true ∧ usable x 3 0x2000 saveBytes true = true ∧ tPoison x 3 0x1000 4 = false
      ∧ tPoison x 3 0 0 = false ∧ imageOk [tNat x 3 0x1000 4] = true ∧ (mcore s 0).retired = 0 ∧ (mcore s 0).pc = 0) := by decide +kernel
theorem test_records_witness : (clearRecords (mule3 { st := 1, run := 1, tenant := 3 } [0] false) 3 mrCmd).2 = false := by decide +kernel
theorem test_barrier_witness :
    (let r : MuleRun := ⟨1, 3, 0, 0, none, 0, [0, 1], true, []⟩
     let s := mule3 { st := 3, run := 1, tenant := 3 } [0, 1] true
     let q := mule3 { st := 4, run := 1, tenant := 3 } [0, 1] true
     let e := mule3 { st := 5, run := 1, tenant := 3, cause := 4 } [0, 1] true
     coreRun s 0 = some (r, job3 .mule mrCmd) ∧ (mcore s 0).st = 3 ∧ barReady s r 0 = true ∧ r.cores.Nodup ∧ runDone q r = true
      ∧ endingRun q 0 = some (r, job3 .mule mrCmd) ∧ (runView q r).all (fun (e : MEnd) => e.cause == 0) = true
      ∧ runDone e r = true ∧ endingRun e 0 = some (r, job3 .mule mrCmd) ∧ (runView e r).any (fun (x : MEnd) => x.cause != 0) = true) := by decide +kernel

/-! Part 7: collectives. -/

/-- Tenant 3's ALLREDUCE of two FP32 elements at 0x1000 in place, its plan at 0x6000 and its staging of two pieces at 0x7000. -/
def arCmd : Cmd := { cmd8 [0x150, 0, 0, 0, 1, 1, 0x180, 7 + 2 * 2 ^ 36] with read := [(1, descNum 11 0x1000 2)] }

/-- A plan of one member, the root, node 0 and tenant 3. -/
def collNode (ops : Tab CollOpn) : State :=
  { serving [(.coll, 0)] [job3 .coll arCmd] with
    mem := { cells := [(0x6000, 1), (0x6004, 1), (0x6042, 0x30), (0x6045, 0x80)] }, coll := { ops := ops } }

/-- Two members, rank 1 the child of rank 0. -/
def pair : List Member := [⟨0, 3, 0, true, false⟩, ⟨1, 3, 0, false, false⟩]

/-- An operation of tenant 3 as a rank of the pair, with one piece. -/
def op3 (rank : Nat) (x : CollPiece) : CollOpn :=
  { tenant := 3, stream := 0, count := 0, iter := none, gen := 0, key := ⟨3, 0, 0, 0⟩, rank := rank, members := pair, digest := 7, tag := 1, pieces := [x] }

/-- A message for it from a rank. -/
def msgFrom (rank cause : Nat) : CollMsg := { collBlank (op3 0 ({} : CollPiece)) with rank := rank, tag := 1, cause := cause, digest := 7, fmt := 11, count := 2 }

theorem test_allreduce_witness :
    (let s := collNode []
     let s1 := readSpans s 3 [some (0x6000, 64)]
     let s2 := readSpans s1 3 [some (0x6000, 72)]
     arJob s = some (job3 .coll arCmd) ∧ freeSlot s = some 0 ∧ arPlan arCmd = 0x6000 ∧ planN s1 3 arCmd = 1
      ∧ usable s2 3 0x6000 72 false = true ∧ tPoison s2 3 0x6000 72 = false ∧ s.coll.held = []
      ∧ planCheck s2 3 arCmd (tNat s2 3 0x6000 64) [memberOf (tNat s2 3 0x6040 8)] = 0) := by decide +kernel
theorem test_pieces_witness :
    (let o := op3 0 ({} : CollPiece)
     let s := collNode [(0, o)]
     collOp s 0 = some o ∧ opJob s o = some (job3 .coll arCmd) ∧ o.phase ≠ 3 ∧ o.pieces[0]? = some ({} : CollPiece) ∧ unitRuns s .coll 0 = true
      ∧ takePlace s arCmd o = some (some 0) ∧ opSlot s (msgFrom 1 0).key = some 0 ∧ (opSelf o).root = true ∧ (opSelf (op3 1 ({} : CollPiece))).root = false
      ∧ (opSelf (op3 1 ({} : CollPiece))).parent = (msgFrom 0 0).rank ∧ (op3 1 ({} : CollPiece)).parentTag = none ∧ (msgFrom 0 0).digest = (op3 1 ({} : CollPiece)).digest
      ∧ (msgFrom 0 0).fmt = (arX arCmd).fmt ∧ (msgFrom 0 0).count = extCount (arX arCmd).exts ∧ (msgFrom 0 0).clog = arClog arCmd
      ∧ (msgFrom 0 0).arr = arArr arCmd ∧ 1 ∈ opKids o ∧ opKids (op3 1 ({} : CollPiece)) = []) := by decide +kernel
theorem test_combine_witness :
    (let j := job3 .coll arCmd
     let s1 := arRead (collNode []) j 0
     arMiss s1 j 0 = none ∧ (tStore s1 3 (arStage arCmd) (List.replicate (arPiece arCmd) 0)).2 = false
      ∧ (arWrite (perfAdd s1 .coll 0 1 1) j 0 { vals := [0, 0], bad := [], flags := 0 }).2 = false
      ∧ msgCount (arAcc (dFmt (arX arCmd))) (arRange arCmd 0).length = 1 ∧ partBad {} (msgFrom 1 0) 1 = false
      ∧ (takePart {} (msgFrom 1 0) 1).2.isSome = true ∧ msgCount (arAcc .fp32) 1500 = 2 ∧ partBad {} (msgFrom 1 0) 2 = false
      ∧ (takePart {} (msgFrom 1 0) 2).2 = none) := by decide +kernel
theorem test_abort_witness :
    (let o := op3 1 ({} : CollPiece)
     let s := collNode [(0, o)]
     let q := collNode [(0, { o with phase := 3, awaiting := [0] })]
     s.coll.ops.find? (fun (e : Nat × CollOpn) => e.2.key == (msgFrom 0 2).key) = some (0, o) ∧ opJob s o = some (job3 .coll arCmd)
      ∧ opSlot (collNode []) (msgFrom 0 0).key = none ∧ (msgFrom 0 2).cause ≠ 0 ∧ opNeighbours o = [0] ∧ opNeighbours (op3 0 ({} : CollPiece)) = [1]
      ∧ q.coll.ops.find? (fun (e : Nat × CollOpn) => e.2.key == (msgFrom 0 2).key && e.2.phase == 3)
          = some (0, { o with phase := 3, awaiting := [0] })) := by decide +kernel

/-! Part 8: the memory fabric. -/

/-- Tenant 3's remote command with a local tensor of 64 bytes at 0x1000 and group tables at 0x2000. -/
def xNode (op : Nat) : State :=
  { serving [(.xag, 0)] [job3 .xag { cmd8 [op + 0x100, 0, 0, 0, 0, 1] with read := [(1, descNum 4 0x1000 64)] }] with
    xag := { tens := [(3, { groups := 1, groupBase := 0x2000 })] } }

theorem test_remote_witness :
    (let f := fun (op : Nat) =>
       let s := xNode op
       let j := job3 .xag { cmd8 [op + 0x100, 0, 0, 0, 0, 1] with read := [(1, descNum 4 0x1000 64)] }
       let x := readSpans s 3 [boxSpan (xaDesc j.cmd) (fullBox (xaDesc j.cmd))]
       xJob s op = some j ∧ herdCut x j = false
        ∧ missing x 3 none ((extIdx (xaDesc j.cmd)).map (fun (i : List Nat) => (dAddr (xaDesc j.cmd) i, elemSpan (dFmt (xaDesc j.cmd))))) = none
     f 0x51 ∧ f 0x52 ∧ f 0x54 ∧ servedRange (xNode 0x53) 0x2000 256 = true ∧ anyPoison (xNode 0x53) 0x2000 256 = false
      ∧ (xJob (xNode 0x53) 0x53).isSome ∧ (xJob (xNode 0x55) 0x55).isSome ∧ (xJob (xNode 0x56) 0x56).isSome ∧ (xJob (xNode 0x57) 0x57).isSome) := by
  decide +kernel

/-- A request of a kind from node 1 to tenant 3's region, 64 bytes. -/
def req3 (k : FabKind) : FabReq :=
  { kind := k, srcNode := 1, srcTenant := 2, gen := 0, epoch := 0, tag := 9, job := 5, node := 0, tenant := 3, herd := false, offset := 0, len := 64,
    data := List.replicate 64 0, bad := [], fmt := 12, ovf := false, ord := false, flow := 0, rsig := false, rtok := 0 }

/-- The target: tenant 3's region of 4 KiB over 0x1000 in each space, and what else the agent holds. -/
def target3 (x : Xag) : State :=
  { serving [(.xag, 0)] [] with
    pages := (pageKey .xag 0, ({ st := 1, regs := [(0x128, 0x90), (0x12C, 0x100000), (0x130, 0x100001)] } : Page)) :: winPages
    xag := { x with regions := [⟨3, false, true, true, true, 5, 0, 0x1000, 0x1000⟩, ⟨3, true, true, true, true, 5, 0, 0x1000, 0x1000⟩] } }

theorem test_request_witness :
    (let s := target3 {}
     [FabKind.load, .store, .mcast, .add, .lock, .unlock].all (fun (k : FabKind) => reqCause s (req3 k) == 0) = true ∧ behind s (req3 .load) = false
      ∧ s.xag.syncBusy = false ∧ (req3 .load).node = nodeNum s ∧ reqCause s { req3 .load with job := 4 } ≠ 0 ∧ s.mgmt.lamb = false
      ∧ heldNowhere s = true ∧ lockOf s 3 0 = none ∧ s.xag.locks.length < 4096 ∧ lockKey (req3 .lock) = 0
      ∧ reqCause s { req3 .add with len := 0, rsig := true } = 0) := by decide +kernel
theorem test_store_witness :
    (writeOut (target3 {}) 3 (((List.range 64).zip (req3 .store).data).map (fun (e : Nat × Byte) =>
      ({ addr := 0x1000 + e.1, bit := 0, width := 8, val := e.2.toNat, bad := false } : OutElem))) []).gone = false
      ∧ reqVa (target3 {}) (req3 .store) = 0x1000 := by decide +kernel
theorem test_lock_witness :
    (let own := { target3 {} with xag := { locks := [⟨3, 0, some (1, 2, 0), false, [req3 .lock]⟩] } }
     let free := { target3 {} with xag := { locks := [⟨3, 0, none, true, []⟩] } }
     lockOf own 3 0 = some ⟨3, 0, some (1, 2, 0), false, [req3 .lock]⟩ ∧ lockOf free 3 0 = some ⟨3, 0, none, true, []⟩
      ∧ blkReady own .xag 0 = true) := by decide +kernel
theorem test_rmw_witness :
    (let r : RmwJob := { id := 1, req := req3 .add, left := [64] }
     let s := target3 { rmw := [r], queues := [(0, [(1, 64)])] }
     tabGet [] s.xag.queues 0 = [(1, 64)] ∧ s.xag.rmw.find? (fun (x : RmwJob) => x.id == 1) = some r ∧ s.xag.waiting = [] ∧ s.hen.cuts = []
      ∧ usable s 3 4096 64 true = true ∧ localOf s 3 4096 = 4096 ∧ served s 4096 = true ∧ isSealed s 4096 = false ∧ linePoison s 64 = false
      ∧ s.memErrs = [] ∧ s.mem.wf = true ∧ (∀ l ∈ r.left, 64 ≤ l)
      ∧ ((List.range 8).foldl (addElem .fp64 false 64 (req3 .add) (reqVa s (req3 .add))) (memNat s 4096 64, Fl.none, false)).2.2 = false) := by
  decide +kernel
theorem test_response_witness :
    (let p : XPart := { node := 1, tenant := 2, offset := 0, len := 64, tag := 9, st := 1 }
     let j := job3 .xag (cmdOp 0x51 0)
     let s := { serving [(.xag, 0)] [j] with xag := { runs := [xRunOf j [p]] } }
     let m : FabResp := { node := 1, epoch := 0, tenant := 3, gen := 0, tag := 9, cause := 0, data := [], bad := [], flags := 0, val := 0 }
     epochOld s 1 0 = false ∧ (ten s 3).gen = m.gen ∧ tagPart s 9 = some (xRunOf j [p], p) ∧ xRunJob s (xRunOf j [p]) = some j
      ∧ byLines j.cmd = false) := by decide +kernel

/-- A herd message for line 0 of tenant 3 at node 0. -/
def herd3 (member : Nat) : HerdMsg :=
  { line := ⟨0, 3, 0⟩, member := member, tag := 4, data := List.replicate 64 1, poison := false, present := true, wbif := false, srcTenant := 3, gen := 0,
    job := 5, xtag := 0, epoch := 0 }

/-- The home with an entry of that line. -/
def home3 (e : DirLine) : State := target3 { dir := [(dirKey 3 0, e)] }

theorem test_home_witness :
    (let s := home3 {}
     let busy : HerdTrans := { req := some (.getm, herd3 0), wait := [1] }
     herdNode s 0 = some 0 ∧ herdNode s 1 = some 1 ∧ herdCause s false (herd3 0) 0 = 0 ∧ herdCause s true (herd3 0) 0 = 0
      ∧ (dirLine s (dirKey 3 0)).trans = none ∧ (dirLine (home3 { st := 2, owner := 1 }) (dirKey 3 0)).st = 2
      ∧ (dirLine (home3 { st := 1, sharers := [0, 1] }) (dirKey 3 0)).sharers.filter (fun (x : Nat) => x != 0) = [1]
      ∧ (dirLine (home3 { st := 1, trans := some busy }) (dirKey 3 0)).trans.isSome = true ∧ (herd3 0).line.node = nodeNum s) := by decide +kernel
theorem test_return_witness :
    (let s := home3 { st := 2, owner := 1, tag := 4 }
     (herdSender s (herd3 1)).isSome = true ∧ s.xag.waiting = [] ∧ s.xag.runs = [] ∧ s.hostIf.barWait = [] ∧ dirLocal s (dirKey 3 0) = some 0x1000
      ∧ (herd3 1).data.length = 64 ∧ served s 0x1000 = true ∧ isSealed s 0x1000 = false ∧ s.hen.cuts = [] ∧ (herdNode s 1).isSome = true
      ∧ 1 ≠ herdSelf s ∧ (s.xag.dir.map (fun (x : Nat × DirLine) => x.1)).Nodup ∧ (dirKey 3 0, { st := 2, owner := 1, tag := 4 }) ∈ s.xag.dir) := by
  decide +kernel
/-- The trans of an SRSP for a GETS, a GETM and a local access. -/
theorem test_srsp_witness :
    (let f := fun (r : Option (HerdOp × HerdMsg)) =>
       let t : HerdTrans := { req := r, wait := [1] }
       let e := dirLine (home3 { st := 2, owner := 1, trans := some t }) (dirKey 3 0)
       e.trans = some t ∧ t.wait = [(herd3 1).member] ∧ e.queue = []
     f (some (.gets, herd3 0)) ∧ f (some (.getm, herd3 0)) ∧ f none ∧ (herd3 1).wbif = false) := by decide +kernel
/-- A member's line in each state; the home of the line is node 1. -/
theorem test_member_witness :
    (let m := { herd3 1 with line := ⟨1, 3, 0⟩ }
     let f := fun (x : LineSt) =>
       let e : CacheLine := { tenant := 3, node := 1, rtenant := 3, herd := true, line := 0, st := x, tag := 4 }
       herdLine (target3 { cache := [e] }) m.line = some e ∧ e.tag = m.tag ∧ e.st = x
     herdSender (target3 {}) m = some m.line.node ∧ herdLine (target3 {}) m.line = none ∧ f .is ∧ f .im ∧ f .sm ∧ f .mi ∧ f .m ∧ f .s) := by
  decide +kernel
theorem test_agent_witness :
    (let s := { target3 {} with pages := (pageKey .xag 0, ({ st := 1, regs := [(0x108, 0x100000)] } : Page)) :: winPages }
     atPage s .pf .xag 0 = true ∧ blkReady s .xag 0 = true ∧ herdFree s = true ∧ herdFree (target3 {}) = false ∧ herdValueOk 0x128 0xC0 = true
      ∧ herdValueOk 0x128 0xC8 = false ∧ (readRegions (readNow s (fun (l : Nat) => 0x100000 ≤ l * 64 && l * 64 < 0x140000))).isSome = true ∧ s.memErrs = []
      ∧ readRegions { s with poison := [0x4000] } = none) := by decide +kernel

/-! Part 9: the memory tiers, seals and zeroing. -/

/-- Scratchpad 0 READY, SET_IDX 2, SET_RANGE pages 16 and 17. -/
def setNode (x : Spad) : State :=
  { node [(.spad, 0)] with
    pages := (pageKey .spad 0, ({ st := 1, regs := [(0x104, 2), (0x1010, 16), (0x1014, 2)] } : Page)) :: up [(.host, 0), (.mgmt, 0), (.ten, 3)] ++ winPages
    spads := [(0, x)] }

/-- A set of state `st` over pages 16 and 17, page 16 withdrawn where `wd`, its image asked for where `img`. -/
def set2 (st : Nat) (wd img : Bool) : Spad :=
  { sets := [(2, { st := st, first := 16, pages := 2, activating := st == 1 })]
    wd := if wd then [{ page := 16, setNo := 2, img := img }] else [] }

theorem test_sets_witness :
    (let s := setNode {}
     live s = true ∧ atPage s .pf .spad 0 = true ∧ setIdx s 0 = 2 ∧ (sharedSet s 0 2).st = 0 ∧ setRange s 0 2 = (16, 2)
      ∧ anyMaps s (upperPage 0 16) 8192 = false ∧ (spad s 0).sets = [] ∧ setRange (setNode { sets := [(1, { st := 2, first := 17, pages := 4 })] }) 0 2 = (16, 2)
      ∧ rangesMeet 17 4 16 2 = true ∧ (sharedSet (setNode (set2 1 false false)) 0 2).st = 1 ∧ (sharedSet (setNode (set2 1 false false)) 0 2).activating = true
      ∧ blkReady s .spad 0 = true ∧ anyMaps (setNode (set2 2 false false)) (upperPage 0 16) 8192 = false) := by decide +kernel

/-- Set 2 RESTORING, page 16 withdrawn; its golden copy holds zeros, and copy A of its digest is that of the golden copy. -/
def restored (img : Bool) : State :=
  memPut (setNode (set2 3 true img)) (digestAt 0 16 0) (sha256 (memBytes (setNode (set2 3 true img)) (goldenPage 0 16) 4096))

theorem shaRound_length (h : ShaShape) (v : List Nat) (k : Nat) : (shaRound h v k).length = v.length := by
  unfold shaRound; split <;> rfl
theorem shaRounds_length (h : ShaShape) (ks v : List Nat) : (ks.foldl (shaRound h) v).length = v.length := by
  induction ks generalizing v with
  | nil => rfl
  | cons k ks ih => rw [List.foldl_cons, ih, shaRound_length]
theorem shaBlocks_length (h : ShaShape) (ks hs : List Nat) (bl : List (List Nat)) : (bl.foldl (shaBlock h ks) hs).length = hs.length := by
  induction bl generalizing hs with
  | nil => rfl
  | cons b bl ih => rw [List.foldl_cons, ih]; simp [shaBlock, shaRounds_length]
theorem sha256_length (m : List Byte) : (sha256 m).length = 32 := by
  have h : (shaWords shape256 sha256K sha256H m).length = 8 := shaBlocks_length _ _ _ _
  simp [sha256, List.length_flatMap, h, beBytes, leBytes]
theorem restored_digest (img : Bool) : memBytes (restored img) (digestAt 0 16 0) 32
    = sha256 (memBytes (setNode (set2 3 true img)) (goldenPage 0 16) 4096) := by
  rw [← sha256_length (memBytes (setNode (set2 3 true img)) (goldenPage 0 16) 4096)]
  exact memBytes_memPut _ _ rfl
theorem restored_golden (img : Bool) : memBytes (restored img) (goldenPage 0 16) 4096
    = memBytes (setNode (set2 3 true img)) (goldenPage 0 16) 4096 := by
  exact memBytes_memPut_other _ _ _ _ rfl (Or.inl (by decide))
/-- The page returns: its golden copy is whole and matches; or the golden copy is poisoned. -/
theorem test_golden_witness : goldenGood (lowerRead (restored false) (goldenLine 0 16)) 0 16 = true := by
  rw [lowerRead_none _ _ rfl]
  have h : anyPoison (restored false) (goldenPage 0 16) 4096 = false := rfl
  have k : anyPoison (restored false) (digestAt 0 16 0) 32 = false := rfl
  simp [goldenGood, h, pageDigest, k, restored_digest, restored_golden]
theorem test_poisoned_witness (img : Bool) :
    goldenGood (lowerRead (setPoison (restored img) (goldenPage 0 16 / 64)) (goldenLine 0 16)) 0 16 = false := by
  rw [lowerRead_none _ _ rfl]
  have h : anyPoison (setPoison (restored img) (goldenPage 0 16 / 64)) (goldenPage 0 16) 4096 = true := rfl
  simp [goldenGood, h]
/-- Images with the right digest and with another one: page 0x3000 holds zeros as the page does, or copy A holds another digest. -/
theorem test_image_witness :
    imagePage (setPoison (restored true) (goldenPage 0 16 / 64)) 0 = some { page := 16, setNo := 2, img := true }
    ∧ pageDigest (restored true) 0 16 = some (sha256 (memBytes (restored true) 0x3000 4096))
    ∧ (let x := sha256 (memBytes (setNode (set2 3 true true)) 0x3000 4096)
       memBytes (memPut (setNode (set2 3 true true)) (digestAt 0 16 0) (x.map (fun (b : Byte) => ~~~b))) (digestAt 0 16 0) 32
        = x.map (fun (b : Byte) => ~~~b) ∧ x ≠ x.map (fun (b : Byte) => ~~~b)) := by
  refine ⟨?_, ?_, ?_, ?_⟩
  · have h : spad (setPoison (restored true) (goldenPage 0 16 / 64)) 0 = set2 3 true true := rfl
    simp [imagePage, h, set2, sharedSet, tabGet, tabFind]
  · have h : memBytes (restored true) 0x3000 4096 = memBytes (setNode (set2 3 true true)) 0x3000 4096 :=
      memBytes_memPut_other _ _ _ _ rfl (Or.inl (by decide))
    have k : anyPoison (restored true) (digestAt 0 16 0) 32 = false := rfl
    have e : memBytes (setNode (set2 3 true true)) 0x3000 4096 = memBytes (setNode (set2 3 true true)) (goldenPage 0 16) 4096 := by
      apply List.ext_getElem <;> simp [memBytes, natsFrom, memByte, setNode, node, cellGet]
    simp [pageDigest, k, restored_digest, h, e]
  · have h := memBytes_memPut (s := setNode (set2 3 true true)) (digestAt 0 16 0)
      ((sha256 (memBytes (setNode (set2 3 true true)) 0x3000 4096)).map (fun (b : Byte) => ~~~b)) rfl
    rwa [List.length_map, sha256_length] at h
  · intro h
    have l := sha256_length (memBytes (setNode (set2 3 true true)) 0x3000 4096)
    generalize sha256 (memBytes (setNode (set2 3 true true)) 0x3000 4096) = x at h l
    cases x with
    | nil => simp at l
    | cons b x => simp only [List.map_cons, List.cons.injEq] at h; revert h; intro h; have := h.1; revert this; clear h l; revert b; decide
theorem test_restoring_witness :
    (let s := setNode (set2 3 true false)
     s.mgmt.restarting = false ∧ s.mgmt.lamb = false ∧ (spad s 0).wd.find? (fun (y : Withdrawn) => y.page == 16) = some { page := 16, setNo := 2 }
      ∧ (sharedSet s 0 2).st = 3 ∧ (spad (setNode (set2 3 true true)) 0).wd.find? (fun (y : Withdrawn) => y.img && y.setNo == 2) = some { page := 16, setNo := 2, img := true } ∧ isSealed s (upperPage 0 16) = false ∧ s.hen.cuts = []
      ∧ atPage s .pf .spad 0 = true ∧ servedRange s 0x3000 4096 = true ∧ anyPoison s 0x3000 4096 = false) := by decide +kernel

theorem test_upkeep_witness :
    (let s := setNode {}
     let p := { s with ports := [(0, { usable := 60, trained := true, ranks := 2, rate := 2, lower := 7, lowerCode := 1, post0 := 7 })] ++ s.ports }
     inLpddr (64 * 64) = true ∧ backed s (64 * 64) = true ∧ (spadOf (0x200000000 * 64)).isSome = true ∧ backed s (0x200000000 * 64) = true
      ∧ linePoison (setPoison s 64) 64 = true ∧ linePoison s 64 = false ∧ (portOf p 0).trained = true ∧ (portOf p 0).rate = 2 ∧ (portOf p 0).ranks = 2
      ∧ atPage s .pf .lpc 0 = true ∧ winValid s = true ∧ bitAt (regWord s .lpc 0 0x180 0) 0 = false
      ∧ winValid (setRegWord s .lpc 0 0x14C 0x44000) = true
      ∧ winValid (setRegWord (setRegWord s .lpc 0 0x148 0x44000) .lpc 0 0x14C 0) = false) := by decide +kernel
/-- What a scrub read finds of a line with 0 to 3 wrong bytes of a word; the hottest of three reports; windows that are not valid. -/
theorem test_line_witness :
    (let s := setNode {}
     let f := fun (bad : List Nat) => eccOf 64 (errsAt (addErrs s [{ line := 64, bad := bad }]) 64)
     f [] = .clean ∧ f [67] = .corrects ∧ f [0, 67] = .detects ∧ f [0, 1, 67] = .beyond ∧ f [68] = .clean
      ∧ hottest [⟨80, 3⟩, ⟨96, 5⟩, ⟨90, 9⟩] = some ⟨96, 5⟩ ∧ hottest [] = none ∧ winValid State.reset = false) := by decide +kernel
theorem test_fill_witness :
    (let s := { setNode {} with pages := (pageKey .lpc 0, ({ st := 0, regs := [(0x140, 0x44000)] } : Page)) :: winPages.drop 1
                                ports := [(0, { usable := 60, trained := true, filling := true })] }
     (portOf s 0).filling = true ∧ s.mgmt.lamb = false ∧ blkState s .lpc 0 = 0 ∧ live s = true ∧ inLpddr 0 = true ∧ locate s 0 = some (0, 0)) := by
  decide +kernel

/-- The node with a tenant 3 whose granule 0 is mapped page by page to local granule 1. -/
def sealed3 : State :=
  with3 (setNode {}) { tenant3 with tlb := (List.range 512).map (fun (p : Nat) => ({ vpage := p, ppage := p + 512, wr := true } : TlbEntry)) }

theorem sealed3_page (i : Nat) (h : i < 512) : xlateW sealed3 3 (0 + 4096 * i) = some (2 ^ 21 + 4096 * i) := by
  have f : (List.range 512).find? ((fun (e : TlbEntry) => e.vpage == i) ∘ fun (p : Nat) => ({ vpage := p, ppage := p + 512, wr := true } : TlbEntry)) = some i :=
    List.find?_range_eq_some.mpr ⟨by simp, by simpa using h, fun j hj => by simp; omega⟩
  have e : (ten sealed3 3).tlb = (List.range 512).map (fun (p : Nat) => ({ vpage := p, ppage := p + 512, wr := true } : TlbEntry)) := by
    simp [sealed3, with3, ten, tabGet, tabFind]
  have x : xlate sealed3 3 (0 + 4096 * i) = some (2 ^ 21 + 4096 * i, true) := by
    unfold xlate
    rw [e, List.find?_map, show (0 + 4096 * i) / 4096 = i by omega, f]
    simp; omega
  have y : inShared sealed3 (2 ^ 21 + 4096 * i) = false := by
    unfold inShared spadOf
    rw [if_neg (by omega)]
  unfold xlateW
  rw [x]
  simp only [y]
  rfl
theorem sealed3_granule : tenGranule sealed3 3 0 = some (2 ^ 21) := by
  have h := sealed3_page 0 (by decide)
  simp only [Nat.mul_zero, Nat.add_zero] at h
  unfold tenGranule
  rw [h]
  have a : (List.range 512).all (fun (i : Nat) => xlateW sealed3 3 (0 + 4096 * i) == some (2 ^ 21 + 4096 * i)) = true := by
    rw [List.all_eq_true]; intro i hi
    rw [sealed3_page i (List.mem_range.mp hi)]; exact beq_self_eq_true _
  simp only [a]; rfl
theorem test_seal_witness :
    (let s := sealed3
     atPage s .pf .ten 3 = true ∧ (ten s 3).sealBusy = false ∧ tenGranule s 3 (2 ^ 21) = none
      ∧ atPage s .pf .host 0 = true ∧ asOwner s .pf = true ∧ s.hostIf.sealBusy = false ∧ inLpddr (2 ^ 21) = true ∧ inUpper (2 ^ 39) = true
      ∧ inLpddr (2 ^ 40) = false ∧ inUpper (2 ^ 40) = false) := by decide +kernel
theorem test_zeroing_witness :
    (let s := setNode {}
     let q := { s with seals := [{ addr := 2 ^ 21, tenant := 512 }, { addr := 2 ^ 22, tenant := 3 }] }
     let z := { s with hostIf := { s.hostIf with zreq := [{ addr := 0, pages := 1024 }] }, sealedG := [0, 2] }
     q.seals.find? (fun (x : SealReq) => x.addr == 1 * 2 ^ 21) = some { addr := 2 ^ 21, tenant := 512 }
      ∧ q.seals.find? (fun (x : SealReq) => x.addr == 2 * 2 ^ 21) = some { addr := 2 ^ 22, tenant := 3 } ∧ s.hostIf.zreq.length < 64
      ∧ ((List.replicate 64 ({ addr := 0, pages := 1 } : Zreq)).length = 64) ∧ z.hostIf.zreq[0]? = some { addr := 0, pages := 1024 }
      ∧ z.mgmt.lamb = false ∧ z.hen.cuts = []) := by decide +kernel

/-! Part 11: the ledger. -/

/-- The ledger READY, its TEN_IDX, RING_LOG and other words given; tenant 3's streams disabled. -/
def ledgNode (ws : Tab W32) (x : Ledger) : State :=
  { with3 (node []) { tenant3 with en := 0, enWritten := 0 } with
    pages := (pageKey .ledg 0, ({ st := 1, regs := ws } : Page)) :: winPages
    ledger := x }

theorem test_ledger_witness :
    (let s := ledgNode [(0x108, 0x10000), (0x130, 3)] {}
     let n := ledgNode [(0x130, 0xFFF)] { wr := 4, rd := 3 }
     let b := { ledgNode [(0x130, 3)] {} with tenants := [(3, tenant3)] }
     atPage s .pf .ledg 0 = true ∧ ledgSel s = 3 ∧ 3 ≠ nodeChain ∧ allDisabled s 3 = true ∧ bitAt 1 1 = false ∧ allDisabled b 3 = false
      ∧ ledgSel n = nodeChain ∧ s.ledger.wr = s.ledger.rd ∧ ringOk s (0x20000 % 2 ^ 48) (ringLog s) = true ∧ ringOk s (ringBase s) (bits 10 0 5) = true
      ∧ n.ledger.wr ≠ n.ledger.rd ∧ 4 ≤ n.ledger.wr.toNat ∧ n.ledger.wr.toNat < 5) := by decide +kernel
theorem test_ring_witness :
    (let s := ledgNode [(0x110, 10)] { waiting := [{ chain := 3, typ := 1, body := [] }] }
     let t := { s with tenants := [(3, { tenant3 with replay := true, stopEn := true, stopStep := 2, stopStream := 1, stopOrd := 1, streams := [(1, { ordStep := 3 })] })] }
     live s = true ∧ blkReady s .ledg 0 = true ∧ s.ledger.stuck = false ∧ s.mgmt.restarting = false ∧ s.mgmt.lamb = false
      ∧ bits (regWord s .ledg 0 0x104 0x3E8) 0 16 ≠ 0 ∧ (ten t 3).replay = true ∧ (ten t 3).stopEn = true ∧ (ten t 3).stopHit = false
      ∧ stopReached t 3 = true) := by decide +kernel

/-! Part 12: links. -/

/-- Link 5 as given, its agent's page READY. -/
def linkNode (l : Link) : State := { node [] with pages := up [(.wlink, 5), (.wsw, 0)], links := [(5, l)] }

/-- A test flit, all of whose 256 bytes are zero but its CRC; what an end receives in VERIFY. -/
def test0 : List Byte := List.replicate 252 0 ++ leBytes 4 (crc32 (List.replicate 252 0))
theorem test_verify_witness : verifyPasses (List.replicate 4096 test0) = true ∧ verifyPasses [] = false := by
  have h : bytesSound test0 = true := by
    have e : test0.drop 252 = leBytes 4 (crc32 (List.replicate 252 0)) := List.drop_left' (List.length_replicate ..)
    have d : test0.take 252 = List.replicate 252 0 := List.take_left' (List.length_replicate ..)
    have l : test0.length = 256 := by rw [test0, List.length_append, List.length_replicate]; rfl
    simp only [bytesSound, e, d, leNat_leBytes]
    rw [show 256 ^ 4 = 2 ^ 32 by decide, Nat.mod_eq_of_lt (crc32_lt _)]
    simp only [l, beq_self_eq_true, Bool.and_self]
  refine ⟨?_, rfl⟩
  rw [verifyPasses, List.length_replicate, List.all_replicate, h]
  rfl

/-- A partner's CAP with good lanes and every FEC mode. -/
def cap5 (lanes : Nat) : CapBody := { arch := 1, rclass := 1, genMax := 3, fec := 7, features := 3, lanes := lanes, node := 9, link := 1, epoch := 0 }

theorem test_bringup_witness :
    (let f := fun (l : Link) => lnk (linkNode l) 5 = l
     let s := linkNode { st := 4, rxLanes := 3 }
     let v := linkNode { st := 6, rxLanes := 3, cap := some (cap5 3), target := ⟨3, 2⟩, agreed := ⟨3, 2⟩ }
     live s = true ∧ atPage s .pf .wlink 5 = true ∧ isVf .pf = false ∧ s.mgmt.lamb = false ∧ f {} ∧ f { st := 1 } ∧ f { st := 1, backoff := true }
      ∧ f { st := 9 } ∧ f { st := 2 } ∧ f { st := 3 } ∧ f { st := 5 } ∧ f { st := 8, target := ⟨2, 1⟩ } ∧ f { st := 6, attempts := 2 } ∧ f { st := 6, attempts := 1 }
      ∧ (lnk s 5).cap = none ∧ agreeMode (sentCap s 5) (cap5 3) = some ⟨3, 2⟩ ∧ agreeMode (sentCap s 5) (cap5 1) = some ⟨3, 1⟩
      ∧ agreeMode (sentCap s 5) (cap5 0) = none ∧ (lnk v 5).cap = some (cap5 3) ∧ (modeDown v 5 ⟨3, 2⟩).isSome = true ∧ modeDown v 5 ⟨1, 1⟩ = none
      ∧ (let w := linkNode { st := 6, rxLanes := 3, pol := 0xF, agreed := ⟨2, 2⟩, target := ⟨2, 2⟩, cap := some { cap5 3 with genMax := 2 } }
         (lnk w 5).agreed.gen < genFloor w 5 ∧ reachesFloor w 5 (sentCap w 5) = true)) := by decide +kernel
/-- A flit with the CRC of its bytes passes, and with another one it fails. -/
theorem test_crc_witness (typ : Nat) (f : Flit) :
    (let c := crc32 (flitHead typ f.seq f.ack f.vc f.level f.cvc f.clevel f.credits f.body)
     flitSound typ { f with crc := c } = true ∧ flitSound typ { f with crc := c + 1 } = false) := by simp [flitSound]
theorem test_flit_witness :
    (let f : Flit := { seq := 4095, ack := 0, vc := 0, level := 0, cvc := 0, clevel := 0, credits := 0, body := [], crc := 0, fixed := 0, struck := false }
     let s := linkNode { st := 7, rxSeq := 4095, discarding := true }
     let h := { s with sw := { holds := [{ id := 1, before := [5] }] } }
     (lnk s 5).st = 7 ∧ f.seq = (lnk s 5).rxSeq ∧ (lnk s 5).discarding = true
      ∧ h.sw.holds.find? (fun (x : RouteHold) => x.id == 1) = some { id := 1, before := [5] }) := by decide +kernel
theorem test_adapt_witness :
    (let a : Link := { st := 7, cap := some (cap5 3), mode := ⟨3, 2⟩, agreed := ⟨3, 2⟩, winFlits := 1000000, winBad := 101 }
     let s := linkNode a
     let low := linkNode { a with mode := ⟨1, 1⟩ }
     let mid := linkNode { a with winBad := 100, pol := 0xC }
     let pin := linkNode { a with pol := 0x1C }
     (lnk s 5).st = 7 ∧ (lnk s 5).winFlits < (lnk s 5).winBad * 10000 ∧ (modeDown s 5 (lnk s 5).mode).isSome = true
      ∧ modeDown low 5 (lnk low 5).mode = none ∧ inPolicy pin 5 ⟨3, 2⟩ = true ∧ (modeDown pin 5 ⟨3, 2⟩).any (fun (x : LinkMode) => !inPolicy pin 5 x) = true
      ∧ (lnk mid 5).winBad * 10000 ≤ (lnk mid 5).winFlits ∧ (lnk mid 5).winFlits < (lnk mid 5).winBad * 1000000
      ∧ (modeDown mid 5 (lnk mid 5).mode).any (fun (x : LinkMode) => inPolicy mid 5 x) = true ∧ herdOn s = false
      ∧ 1 * 1000000 ≤ (lnk (linkNode { a with winBad := 1 }) 5).winFlits) := by decide +kernel
theorem test_modes_witness :
    (let a : Link := { st := 7, cap := some (cap5 3), mode := ⟨2, 2⟩, agreed := ⟨3, 2⟩, calmMs := 1000 }
     let s := linkNode { a with pol := 0x10D }
     let o := linkNode { a with pol := 0x10D, ovr := true }
     let e := linkNode { a with st := 8, ovr := true, target := ⟨3, 2⟩ }
     (lnk s 5).ovr = false ∧ modeUp s 5 = some ⟨3, 2⟩ ∧ polPsave s 5 = true ∧ (lnk s 5).queue = [] ∧ (lnk s 5).replay = []
      ∧ genFloor s 5 = 1 ∧ (fecOf 1 (commonFec s 5)).isSome = true ∧ inPolicy s 5 ⟨1, 2⟩ = true ∧ (lnk o 5).ovr = true
      ∧ (lowestMode o 5).isSome = true ∧ (lnk e 5).st = 8 ∧ inPolicy e 5 (lnk e 5).target = true ∧ atPage s .pf .wsw 0 = true ∧ isVf .pf = false
      ∧ (linkNode {}).links.any (fun (x : Nat × Link) => x.2.st == 7 || x.2.st == 8) = false
      ∧ s.links.any (fun (x : Nat × Link) => x.2.st == 7 || x.2.st == 8) = true) := by decide +kernel

/-! Part 15: the host interface. -/

/-- The node with HOST and tenant 3's page up, ownership given. -/
def hostNode (own : Nat) : State :=
  let s := with3 (node []) tenant3
  { s with pages := up [(.host, 0), (.mgmt, 0), (.ten, 3)] ++ winPages, hostIf := { s.hostIf with own := own } }

theorem test_bar2_witness :
    (let s := hostNode 1
     live s = true ∧ s.mgmt.lamb = false ∧ heldNowhere s = true ∧ s.hostIf.barWait = [] ∧ s.hen.cuts = [] ∧ fnUp s 0 = true ∧ pfReach s 0x1000 64 = true
      ∧ (hostNode 2).hostIf.own = 2 ∧ pfReach (hostNode 2) 0x1000 64 = true ∧ (hostNode 3).hostIf.own ≠ 1 ∧ (hostNode 3).hostIf.own ≠ 2
      ∧ served s 0x1000 = true ∧ isSealed { s with sealedG := [0] } 0x1000 = true ∧ isSealed s 0x1000 = false ∧ linePoison s 64 = false
      ∧ fnUp s 4 = true ∧ vfWindow s 3 0xFFC0 64 = true ∧ usable (fillTlb s 3 0xFFC0 64) 3 0xFFC0 64 true = true
      ∧ usable (fillTlb s 3 0x20000 64) 3 0x20000 64 false = false ∧ usable (fillTlb s 3 0x20000 64) 3 0x20000 64 true = false
      ∧ vfWindow s 3 0x20000 64 = true) := by decide +kernel
theorem test_functions_witness :
    (let s0 := hostNode 1
     let s := { s0 with hostIf := { s0.hostIf with msix := [(0, { mask := 0xF, pend := 8 })] } }
     let m := { msixOf s 0 with mask := setBits (msixOf s 0).mask 3 1 0 }
     let off := { s0 with hostIf := { s0.hostIf with gen := 0 } }
     let novf := { s0 with hostIf := { s0.hostIf with vfEnable := false, numVfs := 0 } }
     fnUp s 0 = true ∧ hasVec 0 3 = true ∧ bitAt (msixOf s 0).pend 3 = true
      ∧ msixOpen { s with hostIf := { s.hostIf with msix := tabSet s.hostIf.msix 0 m } } 0 3 = true
      ∧ off.hostIf.gen = 0 ∧ novf.hostIf.own = 1 ∧ novf.hostIf.vfEnable = false ∧ novf.hostIf.gen ≠ 0 ∧ novf.hostIf.crs = false ∧ fnUp s 512 = true) := by
  decide +kernel
theorem test_tenant_reset_witness :
    (let s := hostNode 1
     let t := with3 s { tenant3 with resetting := true }
     atPage s .pf .ten 3 = true ∧ (ten s 3).resetting = false ∧ s.hostIf.vfEnable = true ∧ 511 < s.hostIf.numVfs ∧ s.hostIf.gen ≠ 0 ∧ s.hostIf.crs = false
      ∧ s.hostIf.own = 1 ∧ atPage t .pf .ten 3 = true ∧ (ten t 3).resetting = true ∧ collClear t 3 = true) := by decide +kernel

/-- An endpoint on SMBus, the board authority. -/
def auth : McSender := { smbus := true, eid := 0x10 }

theorem test_ownership_witness :
    (let free := hostNode 0
     let s := hostNode 1
     let mine := { s with hostIf := { s.hostIf with viaPf := false, eid := 8, smbus := false } }
     let rel := { hostNode 2 with hostIf := { s.hostIf with own := 2, relSealed := true } }
     atPage free .pf .host 0 = true ∧ free.hostIf.own = 0 ∧ free.mgmt.lamb = false ∧ atPage s .pf .host 0 = true ∧ s.hostIf.own = 1
      ∧ atPage (hostNode 3) .pf .host 0 = true ∧ mctpUp s true = true ∧ s.mgmt.restarting = false ∧ isOwner s auth = false
      ∧ isOwner mine { smbus := false, eid := 8 } = true ∧ mctpUp mine false = true ∧ isAuthority s auth = true ∧ isAuthority s { smbus := true, eid := 9 } = false
      ∧ rel.hostIf.own = 2 ∧ rel.hostIf.relSealed = true ∧ rel.ledger.wr = rel.ledger.rd ∧ (hostNode 3).hostIf.own = 3) := by decide +kernel
theorem test_messages_witness :
    (let s := hostNode 0
     let none1 : McSender := { smbus := true, eid := 0 }
     live s = true ∧ mctpUp s none1.smbus = true ∧ s.mgmt.restarting = false ∧ none1.eid = 0 ∧ maySet s auth = true ∧ maySet s none1 = false
      ∧ bootRom s = false ∧ s.mgmt.fw.length = 2 ∧ bitAt 2 0 = false ∧ bitAt 1 0 = true) := by decide +kernel

/-! Part 16: power. -/

theorem test_power_witness :
    (let s := { node [(.pwr, 0)] with pwr := { enabled := true } }
     let e := { s with pwr := { enabled := true, eps := [(4, 0), (1, 2)], doms := [(0, { next := some 500 })] } }
     live s = true ∧ atPage s .pf .pwr 0 = true ∧ isVf .pf = false ∧ 600 ≤ bits 600 0 11 ∧ bits 1200 0 11 ≤ limMax s ∧ limMax s < bits 1201 0 11
      ∧ (pwrDom e 0).next = some 500 ∧ s.pwr.enabled = true ∧ s.mgmt.lamb = false ∧ (1, 3) ∉ s.pwr.eps ∧ epOpen e 1 = true ∧ epOpen e 4 = true
      ∧ refreshHeld e = false) := by decide +kernel

/-! Part 17: Hen. -/

/-- The bytes of a manifest of one entry, tenant page 0, with one chunk; its digests are zero. -/
def manifest1 : List Byte :=
  (List.range 1120).map (fun (i : Nat) =>
    if i < 2 ∨ i = 56 ∨ i = 1052 then 1 else if i = 1041 then 0x10 else 0)

/-- The words of REST_DIGEST for that manifest: its SHA-256. -/
def restWords : Tab W32 :=
  [(0x1A0, 0xC4C5097A), (0x1A4, 0x3A6A9EEE), (0x1A8, 0x18FBAF19), (0x1AC, 0x837E6111), (0x1B0, 0xEF00788D), (0x1B4, 0xC819006E), (0x1B8, 0xF9D99703), (0x1BC, 0x80D4E3A9)]

/-- Hen READY with COPY_BASE 0 and a copy area of 8 granules, its BUDDY and HOLD nodes 9, and the words given; tenant 3 has slots of one
granule. -/
def henNode (ws : Tab W32) (h : Hen) : State :=
  { with3 (node []) { tenant3 with en := 0, enWritten := 0 } with
    pages := (pageKey .hen 0, ({ st := 1, regs := [(0x110, 8), (0x114, 0x100009), (0x118, 0x100009), (0x11C, 0x100009)] ++ ws } : Page)) :: winPages
    hen := { h with tens := [(3, { copySize := 1, newest := some 0, slot0 := { complete := true } })] } }

/-- A cut of tenant 3 that is copying, with the chunks `left` still to be copied. -/
def cutting3 (left : List Nat) : Cutting :=
  { tenant := 3, cut := 0, step := 0, slot := 0, entries := [], pages := [], left := left, tokens := [], tokenErr := 0, sums := [], seed := 0, replay := false }

/-- A message from node 9. -/
def hen9 : HenMsg :=
  { node := 9, origin := 9, tenant := 3, cut := 0, copy := 2 ^ 24, chunk := 0, data := [], bad := [], refused := false, epoch := 0 }

theorem test_checkpoint_witness :
    (let s := henNode [] {}
     let c := henNode [] { cuts := [cutting3 [0]] }
     let d : Drain := { tenant := 3, slot := 0, cut := 0 }
     let u := henNode [] { drain := some d }
     atPage s .pf .hen 0 = true ∧ bits (2 ^ 24) 0 24 + 2 * bits (2 ^ 24) 24 24 ≤ bits (regWord s .hen 0 0x110 0) 0 24
      ∧ s.hen.tens.any (fun (e : Nat × HenTen) => e.1 != henSel (henNode [(0x128, 3)] {}) && rangesMeet 0 2 e.2.copyOff (2 * e.2.copySize)) = false
      ∧ bits 5 16 16 = 0 ∧ bits (2 ^ 16) 16 16 ≠ 0 ∧ live s = true ∧ henOn s = true ∧ cutOf c 3 = some (cutting3 [0])
      ∧ cutOf (henNode [] { cuts := [cutting3 []] }) 3 = some (cutting3 []) ∧ buddyEn s = true ∧ s.hen.drain.or (drainNext s) = some d
      ∧ d.failed = false ∧ d.next ≤ slotChunks s 3 0 ∧ drainFor u hen9 = some d ∧ drainFor u { hen9 with refused := true } = some d
      ∧ d.again.contains hen9.chunk = false ∧ (henNode [] { drain := some { d with failed := true } }).hen.drain = some { d with failed := true }) := by
  decide +kernel
theorem test_held_witness :
    (let s := henNode [] {}
     let d : Held := { origin := hen9.origin, otenant := 3, place := 0, complete := true }
     henOn s = true ∧ bitAt (regWord s .hen 0 0x118 0) 20 = true ∧ bits (regWord s .hen 0 0x118 0) 0 20 = hen9.node ∧ hen9.origin = hen9.node
      ∧ bitAt (regWord s .hen 0 0x11C 0) 20 = true ∧ bits (regWord s .hen 0 0x11C 0) 0 20 = hen9.node
      ∧ heldAt (henNode [] { held := [d] }) true hen9.origin 3 0 = some d
      ∧ heldAt (henNode [] { held := [{ d with complete := false }] }) true hen9.origin 3 0 = none
      ∧ (henNode [] { rest := { st := 2 } }).hen.rest.st = 2) := by decide +kernel
theorem test_rebuild_witness :
    (let s := henNode (restWords ++ [(0x190, 0x00900009), (0x194, 0x300)]) { rest := { st := 1, source := 1, tenant := 3, slot := 1 } }
     s.hen.rest.st = 1 ∧ s.hen.rest.source = 1 ∧ hen9.node = bits (restSrc s) 0 20 ∧ hen9.epoch = henEpoch s ∧ hen9.cut = restCut s
      ∧ hen9.origin = bits (restSrc s) 20 20 ∧ hen9.tenant = bits (restSrc s) 40 12 ∧ (slotOf s 3 1).hostLock = false
      ∧ (parseManifest manifest1).any (fun (f : Manifest) => sha256 f.bytes == restDigest s
          && (manifestPages f.entries f.chunks + f.chunks) * 4096 ≤ slotBytes s 3) = true) := by decide +kernel
theorem test_apply_witness :
    (let s := memPut (henNode restWords { rest := { st := 4, tenant := 3, slot := 0 } }) 0 manifest1
     let x := { s with tenants := [(3, { tenant3 with en := 0, enWritten := 0, tlb := [] })] }
     s.hen.rest.st = 4 ∧ allDisabled s 3 = true ∧ (ten s 3).resetting = false
      ∧ (restManifest s).any (fun (m : Manifest) => (manifestEntries m).all (fun (e : CutEntry) => entryMapped s 3 e true)
          && !(manifestEntries m).all (fun (e : CutEntry) => entryMapped x 3 e true)
          && (applyEntries 3 m (manifestEntries m) s).isSome) = true ∧ x.hen = s.hen ∧ x.mem = s.mem ∧ x.pages = s.pages) := by decide +kernel
theorem test_restore_go_witness :
    (let s := henNode [] {}
     let f := fun (st : Nat) => henNode [] { rest := { st := st, source := 2 } }
     atPage s .pf .hen 0 = true ∧ henOn s = true ∧ resting s = false ∧ bits 0x1003 0 12 < 512 ∧ bits 0x1003 12 2 ≠ 3 ∧ allDisabled s (bits 0x1003 0 12) = true
      ∧ (ten s (bits 0x1003 0 12)).resetting = false ∧ cutOf s (bits 0x1003 0 12) = none ∧ resting (f 1) = true ∧ resting (f 4) = true ∧ resting (f 5) = false
      ∧ (f 3).hen.rest.st = 3 ∧ (f 1).hen.rest.source = 2) := by decide +kernel

/-! Parts 19 and 21: resets, start-up, Lamb mode, the test access port. -/

/-- The node with these instances at a STATE, in start-up phase `ph`. -/
def ctlNode (l : List (Block × Nat × Nat)) (m : Mgmt) : State :=
  { node [] with
    mgmt := m
    pages := l.map (fun (e : Block × Nat × Nat) => (pageKey e.1 e.2.1, ({ st := e.2.2, regs := if e.1 == .mgmt then [(0x134, pageId .ox 5)] else [] } : Page))) }

/-- A management plane that has started. -/
def started : Mgmt := { por := false, phase := 9, startDone := true }

theorem test_availability_witness :
    (let s := ctlNode [(.mgmt, 0, 1), (.ox, 5, 1), (.goose, 1, 1), (.ox, 6, 0), (.ox, 7, 4), (.ox, 8, 6), (.goose, 2, 3)] started
     let q := ctlNode [(.goose, 1, 3)] { started with resetting := [(pageKey .goose 1, 0)] }
     live s = true ∧ atPage s .pf .ox 5 = true ∧ isVf .pf = false ∧ noQuiesce .ox = false ∧ availOn s .ox 5 = false ∧ blkState s .ox 5 = 1
      ∧ atPage s .pf .goose 1 = true ∧ blkState s .goose 1 = 1 ∧ blkState s .goose 2 = 3 ∧ blkState s .ox 6 = 0 ∧ blkState s .ox 7 = 4 ∧ blkState s .ox 8 = 6
      ∧ atPage s .pf .goose 2 = true ∧ atPage s .pf .ox 6 = true ∧ atPage s .pf .ox 8 = true ∧ s.mgmt.lamb = false ∧ s.mgmt.restarting = false
      ∧ availBusy s = false ∧ availBlock s = some (.ox, 5) ∧ liveState s .ox 5 = 1 ∧ liveState s .ox 5 ≠ 0 ∧ (gooseFollow q 1).isSome = true) := by
  decide +kernel
theorem test_timeout_witness :
    (let j := job3 (.ox 5) (cmdOp 0x10 0)
     let s := { ctlNode [(.host, 0, 1), (.ox, 5, 1)] started with jobs := [j] }
     0 < blkCount .host ∧ 4 < blkCount .pony ∧ EUnit.ox 5 ≠ .mule ∧ (s.jobs.filter (fun (x : Job) => decide (x.unit = .ox 5)))[0]? = some j) := by
  decide +kernel
theorem test_startup_witness :
    (let f := fun (m : Mgmt) => (ctlNode [(.mgmt, 0, 1)] m).mgmt = m ∧ live (ctlNode [] m) = true
     let p := fun (n : Nat) => ({ por := false, phase := n } : Mgmt)
     State.reset.mgmt.por = true ∧ f (p 1) ∧ f (p 2) ∧ fwGood (ctlNode [] (p 2)) false = true
      ∧ fwGood (ctlNode [] { p 2 with fw := [{ good := false }, {}] }) true = true ∧ fwGood (ctlNode [] { p 2 with fw := [{ good := false }, {}] }) false = false
      ∧ fwGood (ctlNode [] { p 2 with fw := [{ good := false }, { good := false }] }) true = false ∧ (p 3).board.good = true
      ∧ ({ p 3 with board := { good := false } } : Mgmt).board.good = false ∧ f (p 6) ∧ f (p 7) ∧ f (p 8)) := by decide +kernel
theorem test_lamb_witness :
    (let s := ctlNode [(.mgmt, 0, 1), (.ox, 5, 1)] started
     let r := ctlNode [(.mgmt, 0, 1)] { started with restarting := true, restartTicked := false }
     live s = true ∧ s.mgmt.lamb = false ∧ s.mgmt.restarting = false ∧ lambKeeps .ox = false ∧ 5 < blkCount .ox ∧ blkState s .ox 5 = 1
      ∧ atPage s .pf .mgmt 0 = true ∧ asOwner s .pf = true ∧ s.mgmt.lambOwed = false ∧ bootRom s = false ∧ s.mgmt.staged = false ∧ fwGood s s.mgmt.slotB = true
      ∧ fwGood (ctlNode [] { started with staged := true }) (!(ctlNode [] { started with staged := true }).mgmt.slotB) = true ∧ atPage r .mgmt .mgmt 0 = true
      ∧ asOwner r .mgmt = true ∧ r.mgmt.restarting = true ∧ r.mgmt.lambOwed = false ∧ r.mgmt.nodeRstOwed = false ∧ r.mgmt.restartTicked = false
      ∧ 3 ≤ r.mgmt.phase ∧ s.mgmt.startDone = true) := by decide +kernel
theorem test_tap_witness :
    (let s := node []
     s.mgmt.por = false ∧ s.part.stepping = 0xB0 ∧ s.hostIf.own = 1 ∧ ({ s with part := { stepping := 0xA0 } } : State).part.stepping = 0xA0) := by
  decide +kernel

/-! Worked examples of the spec. -/

/-- The state that a command leaves. -/
def ran (i : Instr) (s : State) : State := match exec i s with
  | .next u => u
  | _ => s


/-- R793: IDCODE of each stepping. -/
theorem test_idcode :
    (ran .idcode (node [])).out = [.tdo 0x15C1056F]
    ∧ (ran .idcode { node [] with part := { stepping := 0xA0 } }).out = [.tdo 0x05C1056F] := by decide +kernel
/-- Table 2.6: TEST's words, its first bytes, and the condition slot 0 > 1.0 in FP64. -/
theorem test_table_2_6 :
    (let c := cmd8 [0x100000106, 0x400, 0, 0xB07, 0x11400, 0x3FF0000000000000]
     leBytes 8 0x100000106 = [6, 1, 0, 0, 1, 0, 0, 0] ∧ cOp c = 0x06 ∧ cStep c = 1024 ∧ cTag c = 0xB07 ∧ cf c 4 16 8 = 1 ∧ cEnergy c = 1
      ∧ testHolds c 0x4000000000000000 = true ∧ testHolds c 0x3FF0000000000000 = false ∧ testHolds c 0x7FF8000000000000 = false) := by decide +kernel
/-- 15.7: the first eight bytes of the records of the VOP that waits 12 µs, and of the one that is refused at 20 µs. -/
theorem test_record_15_7 :
    (let c := cmdOp 0x20 0
     leNat ((recBytes 12 2 c {} { wait := 12000, cause := 1 }).take 8) = 0x0000200C01200020
      ∧ leNat ((recBytes 12 2 c { status := 0x10, detail := 1 } { wait := 20000, cause := 1 }).take 8) = 0x0000200C01201020
      ∧ leNat (((recBytes 12 2 c {} { wait := 12000, cause := 1 }).drop 20).take 4) = 12000) := by decide +kernel
/-- Table 9.5: four consecutive granules of window 0 over ports 8 to 15, the next one, and a byte inside one. -/
theorem test_table_9_5 :
    (let s := { node [] with pages := [(pageKey .lpc 0, ({ st := 1, regs := [(0x140, 240 * 65536 + 0x2000)] } : Page))] }
     locate s 0x1800 = some (11, 0x300) ∧ locate s 0x1900 = some (10, 0x300) ∧ locate s 0x1A00 = some (9, 0x300) ∧ locate s 0x1B00 = some (8, 0x300)
      ∧ (locate s 0x1C00).map (fun (x : Nat × Nat) => x.1) = some 15 ∧ locate s 0x1B40 = some (8, 0x340)) := by decide +kernel

/-- A node of a machine of 4 groups, every link ACTIVE to the partner that the wiring gives it. -/
def wired (v : Nat) : State :=
  { node [] with
    pages := [(pageKey .wsw 0, ({ st := 1, regs := [(0x100, 0x80400000 + v)] } : Page))]
    links := (List.range 94).filterMap (fun (n : Nat) => (wiredTo v 4 32 n).map (fun (e : Nat × Nat) => (n, ({ st := 7, cap := some { cap5 3 with node := e.1, link := e.2 } } : Link)))) }

/-- Table 12.7: the route from node 37 to node 100 with flow 5, hop by hop, and where each link ends. -/
theorem test_table_12_7 :
    pathHash 37 100 5 = 0x4026
    ∧ routeLink (wired 37) (routeLinks (wired 37)) (fun (_ : Nat) => true) false 100 5 = some 54 ∧ wiredTo 37 4 32 54 = some (33, 6)
    ∧ transitLink (wired 33) (routeLinks (wired 33)) (fun (_ : Nat) => true) false { src := 37, dst := 100, flow := 5, mid := none, flits := 1 } = some 70
    ∧ wiredTo 33 4 32 70 = some (97, 70)
    ∧ transitLink (wired 97) (routeLinks (wired 97)) (fun (_ : Nat) => true) false { src := 37, dst := 100, flow := 5, mid := none, flits := 1 } = some 5
    ∧ wiredTo 97 4 32 5 = some (100, 57) ∧ isGlobal (wired 33) 70 = true ∧ isGlobal (wired 37) 54 = false := by decide +kernel
/-- R575: 16 consecutive lines fall on different units; the unit of an address by hand: nibbles of 0x48D159 are 4, 8, 13, 1, 5, 9. -/
theorem test_rmw_units :
    ((List.range 16).map (fun (i : Nat) => rmwUnit (0x10000 + 64 * i))).Nodup ∧ rmwUnit (0x48D159 * 64) = 12 := by decide +kernel
/-- Table 14.8: the SRSP that names a writeback matches the one held by line and tag; the reader shares the line. -/
theorem test_table_14_8 :
    (let t : HerdTrans := { req := some (.gets, herd3 0), wait := [1], wb := some { herd3 1 with tag := 0x12 } }
     let e : DirLine := { st := 2, owner := 1, tag := 0x12, trans := some t }
     let u := ran (.srsp { herd3 1 with tag := 0x12, present := false, wbif := true, data := [] }) (home3 e)
     (dirLine u (dirKey 3 0)).st = 1 ∧ (dirLine u (dirKey 3 0)).sharers = [0] ∧ (dirLine u (dirKey 3 0)).trans = none ∧ memByte u 0x1000 = 1) := by
  decide +kernel

/-- A grant of 300 W with BORROW 4, as the OX group has it in Table 16.4, its balance `b` after `n` MMs of 141,078 nJ. -/
def oxAfter (b : Int) (n : Nat) : State :=
  { node [] with pwr := { borrow := 4, groups := [(0, { grant := 300, bal := b - 141078 * (n : Int) })] } }

/-- Table 16.4: how many MMs each window admits; what the next window starts with. -/
theorem test_table_16_4 :
    chargeFits (oxAfter 3000000 23) (0, 141078) = true ∧ (pwrGrp (oxAfter 3000000 24) 0).bal = -385872
    ∧ (refill (pwrGrp (oxAfter 3000000 24) 0) 300 0 false).bal = 2614128
    ∧ chargeFits (oxAfter 2614128 22) (0, 141078) = true ∧ chargeFits (oxAfter 2614128 23) (0, 141078) = false
    ∧ chargeFits (oxAfter 2369334 21) (0, 141078) = true ∧ chargeFits (oxAfter 2369334 22) (0, 141078) = false
    ∧ chargeFits (oxAfter 2265618 20) (0, 141078) = true ∧ chargeFits (oxAfter 2265618 21) (0, 141078) = false
    ∧ chargeFits (oxAfter 2377704 21) (0, 141078) = true ∧ chargeFits (oxAfter 2377704 22) (0, 141078) = false
    ∧ (let c := cmd8 [0x110 + 216320 * 2 ^ 32]
       charges (node []) 3 c = [(0, 141078), (1, 75242)]) := by decide +kernel
/-- Tables 21.1, 21.2 and 21.4: the lands P013.001, P013.003, P120.013, P003.003, P021.005, P022.005, P024.005, P045.108, P025.031,
P025.032 and P060.028. -/
theorem test_lands : landAt 13 1 = .link 0 0 true true ∧ landAt 13 3 = .link 0 0 false true ∧ landAt 120 13 = .link 24 0 true true
    ∧ landAt 3 3 = .board "POR_N" ∧ landAt 21 5 = .lp 8 0 0 ∧ landAt 22 5 = .lp 8 0 1 ∧ landAt 24 5 = .vss ∧ landAt 45 108 = .pcie 0 true true
    ∧ landAt 25 31 = .rail "VIN_OX0" ∧ landAt 25 32 = .vss ∧ landAt 60 28 = .rail "VIN_PROC" := by decide +kernel
/-- Table 20.5: ID and VERSION of the ledger's page, and the ID of Ox array 17. -/
theorem test_table_20_5 :
    (let s := { node [] with pages := up [(.ledg, 0)] }
     pageId .ox 17 = 0x00101107
      ∧ (ran (.registerSnapshotRead .pf 0x300000 4) s).out = [.regData 0x00200004]
      ∧ (ran (.registerSnapshotRead .pf 0x300004 4) s).out = [.regData 0x00B00101]) := by decide +kernel
/-- The hop at node 33 of Table 12.7: the switch READY, no hold, and a link for the flit of VC 0. -/
theorem test_transit_witness :
    (let s := wired 33
     blkReady s .wsw 0 = true ∧ fixedVc 0 = true ∧ s.sw.holds = [] ∧ 100 ≠ nodeNum s
      ∧ transitLink s (routeLinks s) (featOk s 0) false { src := 37, dst := 100, flow := 5, mid := none, flits := 1 } = some 70) := by decide +kernel

end Sys2Proof.Tests
end

section
/-! PROOFS. A requester's writes of a tenant's page (15.5, 15.6): what each row does where the write reaches the page. -/

namespace Sys2Proof.Machine

/-! What the rows of a tenant's page stand for. -/

theorem exec_tailWrite (r : Requester) (t st v : Nat) (s : State) : exec (.tailWrite r t st v) s = .next (whenLive s (doTail s r t st v)) := rfl
theorem exec_cplRelWrite (r : Requester) (t st v : Nat) (s : State) :
    exec (.cplRelWrite r t st v) s = .next (whenLive s (doCplRel s r t st v)) := rfl
theorem exec_cmdBaseWrite (r : Requester) (t st v : Nat) (s : State) :
    exec (.cmdBaseWrite r t st v) s = .next (whenLive s (doCmdBase s r t st v)) := rfl
theorem exec_cplBaseWrite (r : Requester) (t st v : Nat) (s : State) :
    exec (.cplBaseWrite r t st v) s = .next (whenLive s (doCplBase s r t st v)) := rfl
theorem exec_stepRegisterWrite (r : Requester) (t v : Nat) (s : State) :
    exec (.stepRegisterWrite r t v) s = .next (whenLive s (regAccess s r .ten t 0x148 true (fun x =>
      if allDisabled x t then modTen x t (fun y => { y with step := BitVec.ofNat 64 v }) else regError x .ten t 0x148))) := rfl
theorem exec_streamEnWrite (r : Requester) (t v : Nat) (s : State) :
    exec (.streamEnWrite r t v) s = .next (whenLive s (regAccess s r .ten t 0x108 true (fun x => writeEn x t v))) := rfl
theorem exec_arbWrite (r : Requester) (t v : Nat) (s : State) : exec (.arbWrite r t v) s = .next (whenLive s (doArb s r t v)) := rfl
theorem exec_translationInvalidate (r : Requester) (t v : Nat) (s : State) :
    exec (.translationInvalidate r t v) s = .next (whenLive s (doInv s r t v)) := rfl
theorem exec_tenantReset (r : Requester) (t : Nat) (s : State) : exec (.tenantReset r t) s = .next (whenLive s (doTenReset s r t)) := rfl

/-! Tenants and streams after an update. -/

/-- A tenant depends on the table of tenants alone. -/
theorem ten_congr {s u : State} (h : u.tenants = s.tenants) (t : Nat) : ten u t = ten s t := by simp only [ten, h]

/-- A stream depends on the table of tenants alone. -/
theorem stream_congr {s u : State} (h : u.tenants = s.tenants) (t st : Nat) : stream u t st = stream s t st := by
  simp only [stream, ten_congr h]

theorem ten_modTen (s : State) (t k : Nat) (f : Tenant → Tenant) : ten (modTen s t f) k = if t = k then f (ten s t) else ten s k := by
  simp only [ten, modTen, tabGet_tabMod]

@[simp] theorem ten_modTen_self (s : State) (t : Nat) (f : Tenant → Tenant) : ten (modTen s t f) t = f (ten s t) := by simp [ten_modTen]

@[simp] theorem stream_modStream_self (s : State) (t st : Nat) (f : Stream → Stream) :
    stream (modStream s t st f) t st = f (stream s t st) := by
  simp [stream, modStream]

/-- An entry set twice holds the later value. -/
theorem tabSet_tabSet {α : Type} (l : Tab α) (k : Nat) (v w : α) : tabSet (tabSet l k v) k w = tabSet l k w := by
  induction l with
  | nil => simp [tabSet]
  | cons e l ih =>
    obtain ⟨j, u⟩ := e
    by_cases hj : j = k
    · simp [tabSet, hj]
    · by_cases hk : k < j
      · simp [tabSet, hj, hk]
      · simp [tabSet, hj, hk, ih]

/-- Two updates of one entry are one. -/
theorem tabMod_tabMod {α : Type} (d : α) (l : Tab α) (k : Nat) (f g : α → α) :
    tabMod d (tabMod d l k f) k g = tabMod d l k (fun x => g (f x)) := by
  simp only [tabMod, tabGet_tabSet, if_true, tabSet_tabSet]

/-- Two updates of one tenant are one. -/
theorem modTen_modTen (s : State) (t : Nat) (f g : Tenant → Tenant) : modTen (modTen s t f) t g = modTen s t (fun x => g (f x)) := by
  simp only [modTen, tabMod_tabMod]

/-! The state in which a write of a reached page takes effect. -/

@[simp] theorem opened_tenants (s : State) (r : Requester) (b : Block) (i off : Nat) : (opened s r b i off).tenants = s.tenants := by
  simp [opened]

@[simp] theorem ten_opened (s : State) (r : Requester) (b : Block) (i off t : Nat) : ten (opened s r b i off) t = ten s t :=
  ten_congr (opened_tenants s r b i off) t

@[simp] theorem stream_opened (s : State) (r : Requester) (b : Block) (i off t st : Nat) :
    stream (opened s r b i off) t st = stream s t st :=
  stream_congr (opened_tenants s r b i off) t st

@[simp] theorem enabled_opened (s : State) (r : Requester) (b : Block) (i off t st : Nat) :
    enabled (opened s r b i off) t st = enabled s t st := by simp only [enabled, ten_opened]

@[simp] theorem allDisabled_opened (s : State) (r : Requester) (b : Block) (i off t : Nat) :
    allDisabled (opened s r b i off) t = allDisabled s t := by simp only [allDisabled, ten_opened]

@[simp] theorem sharesBut_opened (s : State) (r : Requester) (b : Block) (i off t : Nat) :
    sharesBut (opened s r b i off) t = sharesBut s t := by simp only [sharesBut, opened_tenants]

/-- R752, R761: on a page that the write reaches a register takes it, or, where the field is not the requester's, ERR_STATUS. -/
theorem regAccess_atPage {s : State} {r : Requester} {b : Block} {i : Nat} (h : atPage s r b i = true) (off : Nat) (ok : Bool)
    (f : State → State) :
    regAccess s r b i off ok f = if ok then f (opened s r b i off) else regError (bar0Count s r) b i off := by
  have hr : writeReaches s r b i = true := by simp only [atPage, Bool.and_eq_true] at h; exact h.2
  rw [regAccess_eq, if_pos hr, opened]

section StreamBlock

variable {s : State} {r : Requester} {t st : Nat} (h : atPage s r .ten t = true) (hst : st < 8) (v : Nat)
include h hst

/-- R31: TAIL takes the value. -/
theorem doTail_atPage : doTail s r t st v
    = modStream (opened s r .ten t (0x160 + 0x20 * st)) t st (fun x => { x with tail := BitVec.ofNat 32 v }) := by
  simp [doTail, Nat.not_le.2 hst, regAccess_atPage h]

/-- R31: CPL_REL takes the value. -/
theorem doCplRel_atPage : doCplRel s r t st v
    = modStream (opened s r .ten t (0x168 + 0x20 * st)) t st (fun x => { x with rel := BitVec.ofNat 32 v }) := by
  simp [doCplRel, Nat.not_le.2 hst, regAccess_atPage h]

/-- R625: CMD_BASE of a reached page, both ways. -/
theorem doCmdBase_atPage : doCmdBase s r t st v
    = if enabled s t st = true ∨ v % 4096 ≠ 0 ∨ bits v 48 5 < 4 ∨ 16 < bits v 48 5 then
        regError (opened s r .ten t (0x150 + 0x20 * st)) .ten t (0x150 + 0x20 * st)
      else modStream (opened s r .ten t (0x150 + 0x20 * st)) t st (fun x => { x with cmdBase := bits v 0 48, k := bits v 48 5 }) := by
  simp [doCmdBase, streamOff, Nat.not_le.2 hst, regAccess_atPage h, or_assoc]

/-- R625: CPL_BASE of a reached page, both ways. -/
theorem doCplBase_atPage : doCplBase s r t st v
    = if enabled s t st = true ∨ v % 4096 ≠ 0 then
        regError (opened s r .ten t (0x158 + 0x20 * st)) .ten t (0x158 + 0x20 * st)
      else modStream (opened s r .ten t (0x158 + 0x20 * st)) t st (fun x => { x with cplBase := bits v 0 48 }) := by
  have hoff : streamOff st + 8 = 0x158 + 0x20 * st := by simp only [streamOff]; omega
  simp [doCplBase, hoff, Nat.not_le.2 hst, regAccess_atPage h]

end StreamBlock

/-- Settles O13: each write of a stream's block is the row's own effect at the page that it reaches. -/
theorem streamRegisterWrites : Obligations.StreamRegisterWrites := by
  intro s r t st v h hst
  simp only [exec_tailWrite, exec_cplRelWrite, exec_cmdBaseWrite, exec_cplBaseWrite, doTail_atPage h hst, doCplRel_atPage h hst,
    doCmdBase_atPage h hst, doCplBase_atPage h hst]
  refine ⟨trivial, trivial, fun hen hv hlo hhi => ?_, fun hbad => ?_, fun hen hv => ?_, fun hbad => ?_⟩
  · rw [if_neg (by simp [hen, hv, hlo, hhi])]
  · rw [if_pos hbad]
  · rw [if_neg (by simp [hen, hv])]
  · rw [if_pos hbad]

/-- Settles O14: every stream is disabled exactly where STREAM_EN is zero in effect and no change of it is held. -/
theorem stepRegisterOnlyWhileDisabled : Obligations.StepRegisterOnlyWhileDisabled := by
  intro s r t v h
  simp only [exec_stepRegisterWrite, regAccess_atPage h, if_true, allDisabled_opened]
  refine ⟨fun hen hwr => ?_, fun hbusy => ?_⟩
  · have hd : allDisabled s t = true := by simp [allDisabled, hen, hwr]
    rw [if_pos hd]
  · have hd : allDisabled s t = false := by
      simp only [allDisabled, Bool.and_eq_false_iff, beq_eq_false_iff_ne]
      exact hbusy
    rw [hd]; rfl

/-! STREAM_EN, ARB, INV and CTRL2 of a reached page. -/

/-- What STREAM_EN holds is no part of a stream-0 STEP. -/
theorem stepInProgress_modTen_enWritten (s : State) (t w : Nat) :
    stepInProgress (modTen s t (fun x => { x with enWritten := w })) t = stepInProgress s t := by
  simp only [stepInProgress, stream, ten_modTen_self]

@[simp] theorem stepInProgress_opened (s : State) (r : Requester) (b : Block) (i off t : Nat) :
    stepInProgress (opened s r b i off) t = stepInProgress s t := by simp only [stepInProgress, stream_opened]

/-- R71: a value written to STREAM_EN is held during a stream-0 STEP, else it takes effect. -/
theorem writeEn_eq (s : State) (t v : Nat) : writeEn s t v
    = if stepInProgress s t then henEnabled (modTen s t (fun x => { x with enWritten := v % 256 })) t
      else applyEn (modTen s t (fun x => { x with enWritten := v % 256 })) t := by
  simp only [writeEn, stepInProgress_modTen_enWritten]

/-- R628: ARB of a page that its owner or the management controller reaches, both ways; a tenant's own write is refused. -/
theorem doArb_atPage {s : State} {r : Requester} {t : Nat} (h : atPage s r .ten t = true) (v : Nat) : doArb s r t v
    = if isVf r = true then regError (bar0Count s r) .ten t 0x10C
      else if bits v 4 4 = 0 ∨ 192 < sharesBut s t + (if bits v 0 1 = 0 then bits v 8 8 else 0) then
        regError (opened s r .ten t 0x10C) .ten t 0x10C
      else modTen (opened s r .ten t 0x10C) t (fun x => { x with arbClass := bits v 0 1, weight := bits v 4 4, share := bits v 8 8 }) := by
  rw [doArb, regAccess_atPage h]
  cases isVf r <;> simp

/-- R622: the fields of TEN.INV stored, and what they name dropped. -/
theorem invalidate_putInv (s : State) (t v : Nat) : invalidate (putInv s t v) t = modTen s t (fun x => { x with
    invPages := bits v 0 32, invAll := bitAt v 32,
    tlb := if bitAt v 32 then [] else x.tlb.filter (fun e => e.vpage < x.invAddr / 4096 || x.invAddr / 4096 + bits v 0 32 ≤ e.vpage) }) := by
  simp only [invalidate, putInv, modTen_modTen]

/-- R633, Table 15.7: a reset of a tenant that is being reset merges with it. -/
theorem startReset_resetting {s : State} {t : Nat} (h : (ten s t).resetting = true) : startReset s t = s := by simp [startReset, h]

/-- Settles O15: the four registers one by one, the tenant being the same in the state in which the write takes effect. -/
theorem tenantRegisterWrites : Obligations.TenantRegisterWrites := by
  intro s r t v h
  simp only [exec_streamEnWrite, exec_arbWrite, exec_translationInvalidate, exec_tenantReset, doArb_atPage h, doInv, doTenReset, regAccess_atPage h,
    if_true, writeEn_eq, stepInProgress_opened, invalidate_putInv]
  refine ⟨fun hp => ?_, fun hp => ?_, fun hr hw hs => ?_, fun hr hbad => ?_, fun hr => ?_, fun hr => ?_, fun _ => ?_, fun hr => ?_⟩
  · simp only [hp]; rfl
  · rw [if_pos hp]
  · rw [if_neg (by simp [hr]), if_neg (by rintro (h0 | h1) <;> omega)]
  · rw [if_neg (by simp [hr]), if_pos hbad]
  · rw [if_pos hr]
  · rw [if_pos (by simp [hr])]
  · trivial
  · rw [startReset_resetting (by rw [ten_opened]; exact hr)]

end Sys2Proof.Machine
end

section
/-! PROOFS. Tokens, the control commands and the issue decisions (2.5 to 2.8): each in the cases of its own definition. -/

namespace Sys2Proof.Machine

/-! What the rows of this part stand for. -/

theorem exec_commandIssue (a : IssueAt) (now : Nat) (s : State) : exec (.commandIssue a now) s = .next (whenLive s (doIssue s a now)) := rfl
theorem exec_commandComplete (t st n i now : Nat) (s : State) :
    exec (.commandComplete t st n i now) s = .next (whenLive s (gooseSettle (doComplete s t st n i now) (coreOf t))) := rfl
theorem exec_deferLimitExpire (t st now : Nat) (s : State) :
    exec (.deferLimitExpire t st now) s = .next (whenLive s (doDeferLimit s t st now)) := rfl
theorem exec_nop (t st now : Nat) (s : State) : exec (.nop t st now) s = .next (whenLive s (doNop s t st now)) := rfl
theorem exec_waitTok (t st now : Nat) (s : State) : exec (.waitTok t st now) s = .next (whenLive s (doWait s t st now)) := rfl
theorem exec_signalTok (t st now : Nat) (s : State) : exec (.signalTok t st now) s = .next (whenLive s (doSignal s t st now)) := rfl
theorem exec_fenceCmd (t st now : Nat) (s : State) : exec (.fenceCmd t st now) s = .next (whenLive s (doFence s t st now)) := rfl
theorem exec_stepClose (t st now : Nat) (s : State) : exec (.stepClose t st now) s = .next (whenLive s (doStep s t st now)) := rfl
theorem exec_cut (t st now : Nat) (s : State) : exec (.cut t st now) s = .next (whenLive s (doCut s t st now)) := rfl
theorem exec_testSlot (t st now : Nat) (s : State) : exec (.testSlot t st now) s = .next (whenLive s (doTest s t st now)) := rfl
theorem exec_loopRun (t st now : Nat) (s : State) : exec (.loopRun t st now) s = .next (whenLive s (doLoop s t st now)) := rfl

/-- A row that leaves a live or a stopped node as it is. -/
@[simp] theorem whenLive_self (s : State) : whenLive s s = s := by unfold whenLive; split <;> rfl

/-! Tokens (R41 to R44). -/

/-- R41: the comparison is that of signed numbers. -/
theorem reached_iff (s : State) (t n : Nat) (w : W32) : reached s t n w = true ↔ 0 ≤ (token s t n - w).toInt := by
  rw [reached, BitVec.msb_eq_toInt]
  simp

/-- R43: a command signals its token where it asks for it and the token exists. -/
theorem signal_of_enabled {c : Cmd} (hen : cSigEn c = true) (htok : cSigTok c ≤ 63) (s : State) (t status : Nat) :
    signal s t c status = if 0x10 ≤ status then tokenErr (tokenAdd s t (cSigTok c) 1) t (cSigTok c) else tokenAdd s t (cSigTok c) 1 := by
  simp [signal, hen, htok]

/-- R43: any other command signals nothing. -/
theorem signal_of_not {c : Cmd} (h : cSigEn c = false ∨ 63 < cSigTok c) (s : State) (t status : Nat) : signal s t c status = s := by
  have hno : (cSigEn c && decide (cSigTok c ≤ 63)) = false := by
    rcases h with h | h
    · simp [h]
    · simp [Nat.not_le.2 h]
  simp [signal, hno]

theorem ten_tokenErr (s : State) (t n : Nat) :
    ten (tokenErr s t n) t = { ten s t with tokenErr := (ten s t).tokenErr ||| BitVec.ofNat 64 (2 ^ n) } := by
  rw [tokenErr, ten_congr (raiseEvent_tenants _ _ _ _), ten_modTen_self]

@[simp] theorem token_tokenErr (s : State) (t k n : Nat) : token (tokenErr s t k) t n = token s t n := by simp only [token, ten_tokenErr]

theorem token_tokenAdd (s : State) (t k inc n : Nat) :
    token (tokenAdd s t k inc) t n = if n = k then token s t n + BitVec.ofNat 32 inc else token s t n := by
  simp only [token, tokenAdd, ten_modTen_self, tabGet_tabMod, eq_comm (a := k)]
  split
  · next h => rw [h]
  · rfl

@[simp] theorem tokenAdd_tokenErr (s : State) (t k inc : Nat) : (ten (tokenAdd s t k inc) t).tokenErr = (ten s t).tokenErr := by
  simp only [tokenAdd, ten_modTen_self]

/-- Bit `n` of the word with bit `k` alone set. -/
theorem getLsbD_bit {k n : Nat} (hn : n < 64) : (BitVec.ofNat 64 (2 ^ k)).getLsbD n = (n == k) := by
  rw [BitVec.getLsbD_ofNat, Nat.testBit_two_pow, decide_eq_true hn, Bool.true_and, Bool.beq_eq_decide_eq]
  simp only [eq_comm]

/-- Settles O16: the signed comparison, and the cases of a signal by its enable, its token and the status. -/
theorem tokenWaitsAndSignals : Obligations.TokenWaitsAndSignals := by
  refine ⟨reached_iff, fun c it => ?_, fun s t c status hen htok => ⟨fun n => ?_, fun n hn => ?_⟩,
    fun s t c status h => signal_of_not h s t status⟩
  · simp [waitVal]
  · rw [signal_of_enabled hen htok]
    split <;> simp [token_tokenAdd]
  · rw [signal_of_enabled hen htok]
    split
    · next h =>
      rw [ten_tokenErr, BitVec.getLsbD_or, getLsbD_bit hn, tokenAdd_tokenErr, decide_eq_true h, Bool.true_and]
    · next h => simp [h]

/-! Control commands (R36, R47, R53, R54, R69): what runs at the front of a stream. -/

/-- What makes a control command run at the front of its stream. -/
theorem runsNow_iff {s : State} {t st now op : Nat} {c : Cmd} {it : Option Nat} : runsNow s t st now op c it = true ↔
    live s = true ∧ st < 8 ∧ ready (markReady (atTime s now) t) t st = some (c, it) ∧ cOp c = op
      ∧ loopBad (stream (markReady (atTime s now) t) t st) c = false ∧ energyFits (markReady (atTime s now) t) t st c = true := by
  simp only [runsNow, Bool.and_eq_true, decide_eq_true_eq, beq_iff_eq, Bool.not_eq_true', and_assoc]

/-- A control command that runs now is charged and ends a skip range where it does, and then has its own effect. -/
theorem ctlFront_of_runsNow {s : State} {t st now op : Nat} {c : Cmd} {it : Option Nat} (h : runsNow s t st now op c it = true)
    (f : State → Cmd → Option Nat → State) : ctlFront s t st now op f = f (running s t st now c) c it := by
  obtain ⟨-, hst, hready, hop, hloop, hfits⟩ := runsNow_iff.1 h
  simp [ctlFront, running, Nat.not_le.2 hst, hready, hop, hloop, hfits]

/-- Settles O20: each row is `ctlFront` of its own effect. -/
theorem controlCommandsComplete : Obligations.ControlCommandsComplete := by
  intro s t st now c it
  simp only [exec_nop, exec_waitTok, exec_signalTok, exec_fenceCmd, exec_cut, exec_testSlot]
  refine ⟨fun h => ?_, fun h => ?_, fun h hbit => ?_, fun h hbit => ?_, fun h => ?_, fun h => ?_, fun h hcond => ?_, fun h hcond => ?_⟩
  · rw [doNop, ctlFront_of_runsNow h]
  · rw [doWait, ctlFront_of_runsNow h]
  · simp [doSignal, ctlFront_of_runsNow h, hbit]
  · simp [doSignal, ctlFront_of_runsNow h, hbit]
  · rw [doFence, ctlFront_of_runsNow h]
  · rw [doCut, ctlFront_of_runsNow h]
  · simp [doTest, ctlFront_of_runsNow h, hcond, b2n]
  · simp [doTest, ctlFront_of_runsNow h, hcond, b2n]

/-! Issue decisions (R39, R54, R57, R804). -/

/-- R804: the sole offer at a unit, with room and energy, is accepted. -/
theorem doIssue_sole_offer {s s' : State} {u : EUnit} {now : Nat} {o : Offer} (hs : s' = (tenantNums s).foldl markReady (atTime s now))
    (hoff : offers s' u = [o]) (harb : arbOrder s' u [o] = [o]) (hroom : roomCode s' u o = none)
    (hfits : energyFits s' o.tenant o.stream o.cmd = true) :
    doIssue s (.unit u) now = markReady (accept s' u o) o.tenant := by
  simp [doIssue, ← hs, hoff, harb, tryOffers, hroom, hfits]

section Front

variable {s s' : State} {t st now : Nat} {c : Cmd} {it : Option Nat} (hs : s' = markReady (atTime s now) t)
  (hfront : front (stream s' t st) = some (c, it)) (hlive : frontLive s' t st = true) (hstop : stopHolds (ten s' t) st c = false)
  (hin : (stream s' t st).inStep = false)
include hs hfront hlive hstop hin

/-- R54, R57: a command that a skip range covers goes once its step is reached, and stays before that (R64). -/
theorem doFrontEnd_skipped (hskip : skipActive (stream s' t st) c = true) : doFrontEnd s t st now
    = if stepReached s' t c then settleEn (endFront (modStream s' t st skipLess) t st c it { skip := true }) t else s := by
  unfold doFrontEnd
  simp only [← hs, hfront, hlive, hstop, hin, hskip, Bool.not_true, Bool.or_false, Bool.false_eq_true, if_false, if_true]

/-- R39: a refused command completes with its status and detail. -/
theorem doFrontEnd_refused (hskip : skipActive (stream s' t st) c = false) (hbad : c.verdict ≠ 0) : doFrontEnd s t st now
    = settleEn (endFront (modStream (lostFills (noteLooked s' t st c c.verdict) t c) t st (endsSkip c)) t st c it
        { status := c.verdict, detail := c.code }) t := by
  have hv : (c.verdict != 0) = true := by simp [hbad]
  unfold doFrontEnd
  simp only [← hs, hfront, hlive, hstop, hin, hskip, badAtFront, hv, Bool.not_true, Bool.or_false, Bool.true_or,
    Bool.false_eq_true, if_false, if_true]

/-- R178, Table 14.3: a ready command none of whose units is there completes TARGET_GONE. -/
theorem doFrontEnd_gone (hskip : skipActive (stream s' t st) c = false) (hgood : badAtFront s' t c = false) (hop : 0x08 ≤ cOp c)
    (htarget : target s' t c = none) (hready : ready s' t st = some (c, it)) : doFrontEnd s t st now
    = completeFront (goneNamed (lostFills s' t c) c) t st s'.gclk c it { status := 0x22, detail := goneDetail c } := by
  have hloop : loopBad (stream s' t st) c = false := by simp [loopBad, show cOp c ≠ 0x07 by omega]
  unfold doFrontEnd
  simp only [← hs, hfront, hlive, hstop, hin, hskip, hgood, hloop, htarget, hready, show ¬cOp c ≤ 0x07 by omega,
    Bool.not_true, Bool.or_false, Bool.false_eq_true, if_false, decide_false, Option.isSome_none, Option.isNone_some]

end Front

/-- R43: the completion of an issued command that its engine has finished. -/
theorem doComplete_finished {s : State} {t st n i now : Nat} {j : Job} {r : Result}
    (hfind : s.jobs.find? (fun j => j.tenant == t && j.stream == st && j.cmd.count.toNat == n && j.iter.getD 0 == i && j.result.isSome) = some j)
    (hr : j.result = some r) (ho : j.orphan = false) : doComplete s t st n i now
    = complete (atTime { s with jobs := s.jobs.erase j } now) t st j.cmd j.iter r { wait := j.wait, cause := j.cause } j.hold := by
  simp [doComplete, hfind, hr, ho]

/-- R630, R631: a front command held for queue up to the limit. -/
theorem doDeferLimit_expired {s s' : State} {t st now : Nat} {c : Cmd} {it : Option Nat} {h : Hold} (hs : s' = atTime s now)
    (hh : h = holdUpTo (stream s' t st).hold s'.gclk) (hready : ready s' t st = some (c, it)) (hlim : (ten s' t).deferLim ≠ 0)
    (hin : (stream s' t st).inStep = false) (hcause : h.lastCause = 1) (hheld : (ten s' t).deferLim * 1000 ≤ tabGet 0 h.sums 1) :
    doDeferLimit s t st now = complete (takeFront (modStream (lostFills s' t c) t st (endsSkip c)) t st) t st c it
      { status := if h.queueCode = 0x12 ∨ h.queueCode = 0x13 then 0x11 else 0x10, detail := h.queueCode }
      { wait := holdWait h s'.gclk, cause := 1 } (tabGet 0 h.sums 1) := by
  simp [doDeferLimit, ← hs, ← hh, hready, hlim, hin, hcause, Nat.not_lt.2 hheld]

/-- Settles O19: the decision at a unit, the three ends at a front, the completion and the defer limit. -/
theorem issueDecisions : Obligations.IssueDecisions := by
  refine ⟨fun s u now o _ => ?_, fun s t st now c it _ hst => ?_, fun s t st n i now j r _ hfind hr ho => ?_, fun s t st now c it _ => ?_⟩
  · intro s' hoff harb hroom hfits
    rw [exec_commandIssue, doIssue_sole_offer rfl hoff harb hroom hfits]
  · intro s' hfront hlive hstop hin
    have hsite : doIssue s (.front t st) now = doFrontEnd s t st now := by simp [doIssue, Nat.not_le.2 hst]
    rw [exec_commandIssue, hsite]
    refine ⟨fun hskip hreach => ?_, fun hskip hreach => ?_, fun hskip hbad => ?_, fun hskip hgood hop htarget hready => ?_⟩
    · rw [doFrontEnd_skipped rfl hfront hlive hstop hin hskip, if_pos hreach]
    · rw [doFrontEnd_skipped rfl hfront hlive hstop hin hskip, if_neg (Bool.eq_false_iff.1 hreach), whenLive_self]
    · rw [doFrontEnd_refused rfl hfront hlive hstop hin hskip hbad]
    · rw [doFrontEnd_gone rfl hfront hlive hstop hin hskip hgood hop htarget hready]
  · rw [exec_commandComplete, doComplete_finished hfind hr ho]
  · intro s' h hready hlim hin hcause hheld
    rw [exec_deferLimitExpire, doDeferLimit_expired rfl rfl hready hlim hin hcause hheld]

end Sys2Proof.Machine
end

section
/-! PROOFS. What the operations of Goose keep of the tenants' contexts: a projection of a tenant that an operation does not write. -/

namespace Sys2Proof.Machine

/-- What `f` reads of each tenant is in `u` what it is in `s`. -/
def Keeps {α : Type} (f : Tenant → α) (s u : State) : Prop := ∀ t, f (ten u t) = f (ten s t)

namespace Keeps

variable {α : Type} {f : Tenant → α}

theorem refl (s : State) : Keeps f s s := fun _ => rfl

theorem trans {s u v : State} (h : Keeps f s u) (k : Keeps f u v) : Keeps f s v := fun t => (k t).trans (h t)

/-- An update that leaves the tenants alone keeps everything of them. -/
theorem of_tenants {s u : State} (h : u.tenants = s.tenants) : Keeps f s u := fun t => congrArg f (ten_congr h t)

/-- A write to memory keeps everything of the tenants. -/
theorem of_stored {s u : State} (h : StoredFrom s u) : Keeps f s u := by
  obtain ⟨-, -, -, -, -, -, htenants, -⟩ := h.fields
  exact of_tenants htenants

/-- An update of a tenant that `f` does not see. -/
theorem modTen (s : State) (t : Nat) {g : Tenant → Tenant} (h : ∀ x, f (g x) = f x) : Keeps f s (modTen s t g) := by
  intro k
  rw [ten_modTen]
  split
  · next hk => rw [h, hk]
  · rfl

theorem foldl {β : Type} (step : State → β → State) (l : List β) (h : ∀ x b, Keeps f x (step x b)) (s : State) :
    Keeps f s (l.foldl step s) := by
  induction l generalizing s with
  | nil => exact refl s
  | cons b l ih => exact (h s b).trans (ih _)

end Keeps

/-! Reads of tenant memory: cached translations are all that they change of a tenant. -/

section Reads

variable {α : Type} {f : Tenant → α} (hf : ∀ (x : Tenant) (l : List TlbEntry), f { x with tlb := l } = f x)
include hf

theorem keeps_fillPage (s : State) (t vp : Nat) : Keeps f s (fillPage s t vp) := by
  unfold fillPage
  split
  · exact .refl s
  · dsimp only
    refine Keeps.trans (u := perfAdd s .ten t 4 1) (.of_tenants rfl) ?_
    split
    · exact .modTen _ _ (fun x => hf x _)
    · exact .refl _
    · exact .of_tenants (raiseEvent_tenants _ _ _ _)

theorem keeps_fillTlb (s : State) (t va n : Nat) : Keeps f s (fillTlb s t va n) :=
  .foldl (fun x p => fillPage x t p) _ (fun x p => keeps_fillPage hf x t p) s

theorem keeps_fillSpans (s : State) (t : Nat) (spans : List (Option (Nat × Nat))) : Keeps f s (fillSpans s t spans) := by
  refine .foldl _ spans (fun x sp => ?_) s
  cases sp with
  | none => exact .refl x
  | some e => exact keeps_fillTlb hf x t e.1 e.2

theorem keeps_readSpans (s : State) (t : Nat) (spans : List (Option (Nat × Nat))) : Keeps f s (readSpans s t spans) :=
  (keeps_fillSpans hf s t spans).trans (.of_stored (storedFrom_meetErrs _ _))

end Reads

/-! Withdrawn pages, ledger entries and misses: no tenant changes. -/

theorem foldl_tenants {β : Type} (step : State → β → State) (h : ∀ x b, (step x b).tenants = x.tenants) (l : List β) (s : State) :
    (l.foldl step s).tenants = s.tenants :=
  List.foldlRecOn (motive := fun (x : State) => x.tenants = s.tenants) l step rfl (fun x hx b _ => (h x b).trans hx)

@[simp] theorem memEvents_tenants (s : State) (a n : Nat) : (memEvents s a n).tenants = s.tenants :=
  foldl_tenants (fun x t => raiseEvent x .ten t 2) (fun x t => raiseEvent_tenants x .ten t 2) _ s

@[simp] theorem ledgerPush_tenants (s : State) (e : Entry) : (ledgerPush s e).tenants = s.tenants := by
  unfold ledgerPush
  dsimp only
  split
  · rfl
  · rw [raiseEvent_tenants]; rfl

@[simp] theorem ledgerDue_tenants (s : State) (e : Entry) : (ledgerDue s e).tenants = s.tenants := by
  unfold ledgerDue
  dsimp only
  split <;> simp

@[simp] theorem memoryEntries_tenants (s : State) (sub die sn src pg : Nat) (w : Withdrawn) :
    (memoryEntries s sub die sn src pg w).tenants = s.tenants := by
  unfold memoryEntries
  dsimp only
  rw [foldl_tenants _ (fun x r => ledgerDue_tenants x _), ledgerDue_tenants]

@[simp] theorem withdrawPage_tenants (s : State) (d k p : Nat) : (withdrawPage s d k p).tenants = s.tenants := by
  unfold withdrawPage
  split
  · rfl
  · split
    · simp [failSet]
    · simp

@[simp] theorem withdrawLine_tenants (s : State) (l : Nat) : (withdrawLine s l).tenants = s.tenants := by
  unfold withdrawLine
  split
  · dsimp only
    split
    · split
      · exact withdrawPage_tenants _ _ _ _
      · rfl
    · rfl
  · rfl

@[simp] theorem withdrawNew_tenants (s0 s1 s : State) : (withdrawNew s0 s1 s).tenants = s.tenants :=
  foldl_tenants withdrawLine withdrawLine_tenants _ s

/-- A miss tells its port or its scratchpad, and nothing else (R356, R385). -/
theorem storedFrom_missAt (s : State) (t va n : Nat) (w : Bool) : StoredFrom s (missAt s t va n w) := by
  unfold missAt
  split
  · exact .refl s
  · split
    · split
      · exact storedFrom_goneHit _ _
      · exact .refl s
    · exact .refl s

/-! Streams. -/

/-- What `f` reads of each stream of a tenant. -/
def perStream {α : Type} (f : Stream → α) (x : Tenant) (st : Nat) : α := f (tabGet {} x.streams st)

/-- An update of a stream that `f` does not see. -/
theorem keeps_modStream {α : Type} {f : Stream → α} (s : State) (t st : Nat) {g : Stream → Stream} (h : ∀ x, f (g x) = f x) :
    Keeps (perStream f) s (modStream s t st g) := by
  refine .modTen s t (fun x => funext (fun k => ?_))
  simp only [perStream, tabGet_tabMod]
  split
  · next hk => rw [h, hk]
  · rfl

/-- A stream of a state that keeps what `f` reads of streams. -/
theorem Keeps.on_stream {α : Type} {f : Stream → α} {s u : State} (h : Keeps (perStream f) s u) (t st : Nat) :
    f (stream u t st) = f (stream s t st) := congrFun (h t) st

/-- A time of readiness noted is no part of what `f` reads (R75). -/
theorem keeps_markReady {α : Type} {f : Stream → α} (h : ∀ (x : Stream) (d : Hold), f { x with hold := d } = f x) (s : State) (t : Nat) :
    Keeps (perStream f) s (markReady s t) := by
  refine .foldl _ _ (fun x st => ?_) s
  split
  · exact keeps_modStream x t st (fun y => h y _)
  · exact .refl x

/-- Charges are taken from the groups, which are no tenant's (R659). -/
@[simp] theorem chargeAll_tenants (s : State) (t : Nat) (c : Cmd) : (chargeAll s t c).tenants = s.tenants := by
  unfold chargeAll addDemand
  refine (foldl_tenants _ ?_ _ _).trans (foldl_tenants _ ?_ _ _)
  · exact fun _ _ => rfl
  · exact fun _ _ => rfl

end Sys2Proof.Machine
end

section
/-! PROOFS. Fetching and the checks of a fetched command (2.2 to 2.4), and LOOP (R59). -/

namespace Sys2Proof.Machine

theorem exec_gooseFetch (t st now : Nat) (s : State) : exec (.gooseFetch t st now) s = .next (whenLive s (doFetch s t st now)) := rfl

/-! What the checks find (R39, R40). -/

/-- What the later checks find of a command: a status and a detail code, or no refusal (R443, R631). -/
def laterFound (s : State) (t : Nat) (c k : Cmd) : Prop :=
  if (ten s t).replay = true ∧ cVcls c = true then k.verdict = 0x12
  else if cOp c = 0x30 ∧ (ten s t).qMule < mrCores c then k.verdict = 0x11 ∧ k.code = 0x10
  else if cOp c = 0x50 ∧ (ten s t).qColl = 0 then k.verdict = 0x11 ∧ k.code = 0x11
  else k.verdict = 0

/-- A command marked with its later refusal shows what the later checks find. -/
theorem laterFound_of_laterRefusal {s : State} {t : Nat} {c k : Cmd} (hv : k.verdict = (laterRefusal s t c).1)
    (hc : k.code = (laterRefusal s t c).2) : laterFound s t c k := by
  simp only [laterRefusal, Bool.and_eq_true, beq_iff_eq, decide_eq_true_eq] at hv hc
  unfold laterFound
  split
  · next hreplay => rw [hv, if_pos hreplay]
  · next hreplay =>
    rw [if_neg hreplay] at hv hc
    split
    · next hmule => rw [hv, hc, if_pos hmule]; exact ⟨rfl, rfl⟩
    · next hmule =>
      rw [if_neg hmule] at hv hc
      split
      · next hcoll => rw [hv, hc, if_pos hcoll]; exact ⟨rfl, rfl⟩
      · next hcoll => rw [hv, if_neg hcoll]

section Checks

variable {s : State} {t st : Nat} {c : Cmd}

/-- R617: a command of a tenant that is not assigned is refused before any other check. -/
theorem checkCmd_unassigned (h : (ten s t).assigned = false) : checkCmd s t st c = (s, { c with verdict := 0x13 }) := by
  simp [checkCmd, h]

/-- R39: a command whose own fields break a rule is refused before its structures are read. -/
theorem checkCmd_malformed (ha : (ten s t).assigned = true) (h : headOk s t c = false ∨ fieldsOk s t st c = false) :
    checkCmd s t st c = (s, { c with verdict := 0x14 }) := by
  rcases h with h | h <;> simp [checkCmd, ha, h]

variable (ha : (ten s t).assigned = true) (hhead : headOk s t c = true) (hfields : fieldsOk s t st c = true)
include ha hhead hfields

/-- R799: a command with a poisoned structure shows its later refusal, or is marked poisoned where it has none. -/
theorem checkCmd_poisoned {s1 : State} (h : lookAt s t c (namedLines st c) = (s1, .poisoned)) : checkCmd s t st c
    = (s1, { c with verdict := (laterRefusal s t c).1, code := (laterRefusal s t c).2, poisoned := (laterRefusal s t c).1 == 0 }) := by
  simp [checkCmd, ha, hhead, hfields, h]

/-- R39, R40: a command whose structures are read is checked against them, and then for a later refusal. -/
theorem checkCmd_read {s1 s2 : State} {c1 c2 : Cmd} (h1 : lookAt s t c (namedLines st c) = (s1, .read c1))
    (h2 : lookAt s1 t c1 (listedLines st c1) = (s2, .read c2)) : checkCmd s t st c
    = (s2, if descsOk s2 t st c2 = true then { c2 with verdict := (laterRefusal s t c).1, code := (laterRefusal s t c).2 }
        else { c2 with verdict := 0x14 }) := by
  cases hd : descsOk s2 t st c2 <;> simp [checkCmd, ha, hhead, hfields, h1, h2, hd]

end Checks

/-- Settles O18: the checks in their order, each by the equation of its case. -/
theorem fetchChecksPrecedence : Obligations.FetchChecksPrecedence := by
  intro s t st c
  refine ⟨fun h => ?_, fun ha h => ?_, fun ha hhead hfields =>
    ⟨fun s1 s2 c1 c2 h1 h2 => ⟨?_, fun hd => ?_, fun hd => ?_⟩, fun s1 h => ⟨?_, ?_⟩⟩⟩
  · simp [checkCmd_unassigned h]
  · simp [checkCmd_malformed ha h]
  · rw [checkCmd_read ha hhead hfields h1 h2]
  · rw [checkCmd_read ha hhead hfields h1 h2, hd]; rfl
  · rw [checkCmd_read ha hhead hfields h1 h2, if_pos hd]
    exact laterFound_of_laterRefusal rfl rfl
  · rw [checkCmd_poisoned ha hhead hfields h]
    exact laterFound_of_laterRefusal rfl rfl
  · rw [checkCmd_poisoned ha hhead hfields h]
    exact Bool.beq_eq_decide_eq _ _

/-! What the checks leave: the tenant's contexts, and the command's count and words. -/

/-- Structures read change nothing of a tenant but its cached translations. -/
theorem keeps_lookAt {α : Type} {f : Tenant → α} (hf : ∀ (x : Tenant) (l : List TlbEntry), f { x with tlb := l } = f x) (s : State) (t : Nat)
    (c : Cmd) (ls : List Nat) : Keeps f s (lookAt s t c ls).1 := by
  have hfill := keeps_fillSpans hf s t (lineSpans ls)
  unfold lookAt
  dsimp only
  split
  · exact hfill
  · split
    · exact hfill.trans (.of_stored (storedFrom_missAt _ _ _ _ _))
    · exact hfill.trans ((keeps_readSpans hf _ t (lineSpans ls)).trans (.of_tenants (withdrawNew_tenants _ _ _)))

/-- A command with its structures read is the command but for them. -/
theorem lookAt_read {s : State} {t : Nat} {c : Cmd} {ls : List Nat} {k : Cmd} (h : (lookAt s t c ls).2 = .read k) :
    k = { c with read := k.read } := by
  unfold lookAt at h
  dsimp only at h
  split at h
  · simp at h
  · split at h
    · simp at h
    · split at h
      · simp at h
      · simp only [Looked.read.injEq] at h
        rw [← h]

/-- The checks keep the contexts, and of the command its count and its words. -/
theorem checkCmd_keeps {α : Type} {f : Tenant → α} (hf : ∀ (x : Tenant) (l : List TlbEntry), f { x with tlb := l } = f x) (s : State)
    (t st : Nat) (c : Cmd) :
    Keeps f s (checkCmd s t st c).1 ∧ (checkCmd s t st c).2.count = c.count ∧ (checkCmd s t st c).2.words = c.words := by
  unfold checkCmd
  split
  · exact ⟨.refl s, rfl, rfl⟩
  · split
    · exact ⟨.refl s, rfl, rfl⟩
    · dsimp only
      have hnamed := keeps_lookAt hf s t c (namedLines st c)
      split
      · next s1 v h => rw [h] at hnamed; exact ⟨hnamed, rfl, rfl⟩
      · next s1 h => rw [h] at hnamed; exact ⟨hnamed, rfl, rfl⟩
      · next s1 c1 h =>
        have hc1 := lookAt_read (congrArg Prod.snd h)
        rw [h] at hnamed
        have hlisted := hnamed.trans (keeps_lookAt hf s1 t c1 (listedLines st c1))
        split
        · next s2 v h2 => rw [h2] at hlisted; exact ⟨hlisted, rfl, rfl⟩
        · next s2 h2 => rw [h2] at hlisted; exact ⟨hlisted, rfl, rfl⟩
        · next s2 c2 h2 =>
          have hc2 := lookAt_read (congrArg Prod.snd h2)
          rw [h2] at hlisted
          have hcount : c2.count = c.count := by rw [hc2, hc1]
          have hwords : c2.words = c.words := by rw [hc2, hc1]
          split
          · exact ⟨hlisted, hcount, hwords⟩
          · exact ⟨hlisted, hcount, hwords⟩

/-! The fetch (R31, R33, R34). -/

/-- A command's effect on the tenants and the pages of a live node. -/
theorem whenLive_tenants {s u : State} (h : live s = true) : (whenLive s u).tenants = u.tenants := by simp [whenLive, h]

theorem whenLive_pages {s u : State} (h : live s = true) : (whenLive s u).pages = u.pages := by simp [whenLive, h]

theorem stream_whenLive {s u : State} (h : live s = true) (t st : Nat) : stream (whenLive s u) t st = stream u t st :=
  stream_congr (whenLive_tenants h) t st

/-- Streams of a state that keeps them. -/
theorem Keeps.stream_eq {s u : State} (h : Keeps Tenant.streams s u) (t st : Nat) : stream u t st = stream s t st := by
  simp only [stream, h t]

/-- The tenant address of the ring slot at the head count (R30). -/
def headSlot (s : State) (t st : Nat) : Nat := cmdSlot (stream s t st) (stream s t st).head

/-- The state in which the command at the head count is read. -/
def slotRead (s : State) (t st now : Nat) : State := readSpans (atTime s now) t [some (headSlot s t st, 64)]

/-- The state that the read of the command at the head count leaves. -/
def slotLeft (s : State) (t st now : Nat) : State := withdrawNew (atTime s now) (slotRead s t st now) (slotRead s t st now)

/-- The slot at the head count can be read and holds no poison. -/
def slotGood (s : State) (t st now : Nat) : Bool :=
  usable (slotRead s t st now) t (headSlot s t st) 64 false && !tPoison (slotRead s t st now) t (headSlot s t st) 64

/-- The words at the head count. -/
def slotWords (s : State) (t st now : Nat) : List Nat := (List.range 8).map (fun i => tNat (slotRead s t st now) t (headSlot s t st + 8 * i) 8)

/-- The command at the head count, before its checks. -/
def slotCmd (s : State) (t st now : Nat) : Cmd :=
  { count := (stream s t st).head, words := slotWords s t st now, seq := (ten (slotLeft s t st now) t).nextSeq,
    ord := nextOrd (stream s t st) ((slotWords s t st now).getD 1 0) }

/-- What its checks make of the state and of it. -/
def slotChecked (s : State) (t st now : Nat) : State × Cmd :=
  checkCmd (modTen (slotLeft s t st now) t (fun x => { x with nextSeq := x.nextSeq + 1 })) t st (slotCmd s t st now)

/-- A stream with a checked command behind its fetched ones. -/
def joinFetched (c k : Cmd) (x : Stream) : Stream :=
  { x with fetched := x.fetched ++ [k], head := x.head + 1, ordStep := cStep c, ordNum := c.ord }

section Fetch

variable {s : State} {t st : Nat} (now : Nat)

/-- R31: where the stream may not fetch, nothing happens. -/
theorem doFetch_idle (h : canFetch s t st = false) : doFetch s t st now = s := by simp [doFetch, h]

/-- R31, R33, R34: what the read of the ring slot leads to. -/
theorem doFetch_eq (h : canFetch s t st = true) : doFetch s t st now
    = if !usable (slotRead s t st now) t (headSlot s t st) 64 false then
        fetchFault (missAt (slotLeft s t st now) t (headSlot s t st) 64 false) t st
      else if tPoison (slotRead s t st now) t (headSlot s t st) 64 then fetchFault (slotLeft s t st now) t st
      else markReady (modStream (slotChecked s t st now).1 t st (joinFetched (slotCmd s t st now) (slotChecked s t st now).2)) t := by
  unfold doFetch
  rw [h]
  rfl

/-- R31, R34: a command that can be read joins the fetched commands. -/
theorem doFetch_good (h : canFetch s t st = true) (hgood : slotGood s t st now = true) : doFetch s t st now
    = markReady (modStream (slotChecked s t st now).1 t st (joinFetched (slotCmd s t st now) (slotChecked s t st now).2)) t := by
  simp only [slotGood, Bool.and_eq_true, Bool.not_eq_true'] at hgood
  obtain ⟨husable, hpoison⟩ := hgood
  rw [doFetch_eq now h, if_neg (by simp [husable]), if_neg (by simp [hpoison])]

/-- R33: one that cannot be read stops the stream. -/
theorem doFetch_bad (h : canFetch s t st = true) (hbad : slotGood s t st now = false) :
    ∃ x, StoredFrom (slotLeft s t st now) x ∧ doFetch s t st now = fetchFault x t st := by
  rw [doFetch_eq now h]
  cases husable : usable (slotRead s t st now) t (headSlot s t st) 64 false with
  | false => exact ⟨_, storedFrom_missAt _ _ _ _ _, if_pos rfl⟩
  | true =>
    have hpoison : tPoison (slotRead s t st now) t (headSlot s t st) 64 = true := by simpa [slotGood, husable] using hbad
    exact ⟨_, .refl _, by rw [if_neg (by simp), if_pos hpoison]⟩

/-- The read of the ring slot keeps every stream. -/
theorem keeps_slotLeft (s : State) (t st now : Nat) : Keeps Tenant.streams s (slotLeft s t st now) :=
  Keeps.trans (u := slotRead s t st now) (.trans (.of_tenants (atTime_tenants s now)) (keeps_readSpans (fun _ _ => rfl) _ t _))
    (.of_tenants (withdrawNew_tenants _ _ _))

/-- The checks of the command keep every stream. -/
theorem keeps_slotChecked (s : State) (t st now : Nat) : Keeps Tenant.streams s (slotChecked s t st now).1 :=
  Keeps.trans (u := modTen (slotLeft s t st now) t (fun x => { x with nextSeq := x.nextSeq + 1 }))
    ((keeps_slotLeft s t st now).trans (.modTen _ t (fun _ => rfl))) (checkCmd_keeps (fun _ _ => rfl) _ t st _).1

/-- What of a stream the fetch of another command and the marking of ready ones leave: its ring position and its fetched commands. -/
def ringPart (x : Stream) : W32 × List Cmd := (x.head, x.fetched)

/-- A fetch that reads its command moves the head count by one and puts the checked command behind the fetched ones. -/
theorem ringPart_doFetch (h : canFetch s t st = true) (hgood : slotGood s t st now = true) :
    ringPart (stream (doFetch s t st now) t st)
      = ((stream s t st).head + 1, (stream s t st).fetched ++ [(slotChecked s t st now).2]) := by
  rw [doFetch_good now h hgood, (keeps_markReady (f := ringPart) (fun _ _ => rfl) _ t).on_stream t st, stream_modStream_self,
    (keeps_slotChecked s t st now).stream_eq t st]
  rfl

/-- A fetch fault stops the stream where it stands and is told by the core's page. -/
theorem fetchFault_stops (x : State) (t st : Nat) :
    stream (fetchFault x t st) t st = { stream x t st with fault := (stream x t st).fault ||| 1 }
      ∧ (page (fetchFault x t st) .goose (coreOf t)).event.getLsbD 0 = true := by
  constructor
  · rw [fetchFault, stream_congr (raiseEvent_tenants _ _ _ _), stream_modStream_self]
  · rw [fetchFault, raiseEvent_event, BitVec.getLsbD_or]
    simp

/-- A stream that may fetch has not stopped (R31). -/
theorem fault_of_canFetch (h : canFetch s t st = true) : (stream s t st).fault = 0 := by
  simp only [canFetch, Bool.and_eq_true, beq_iff_eq] at h
  obtain ⟨⟨⟨⟨-, hfault⟩, -⟩, -⟩, -⟩ := h
  exact hfault

end Fetch

/-- Settles O17: the fetch by whether the stream may fetch and whether its slot can be read. -/
theorem gooseFetchTakesHeadCommand : Obligations.GooseFetchTakesHeadCommand := by
  intro s t st now
  rw [exec_gooseFetch]
  refine ⟨fun h => by rw [doFetch_idle now h, whenLive_self], fun hlive h => ⟨fun hgood => ⟨?_, ?_⟩, fun hbad => ?_⟩⟩
  · rw [doFetch_good now h hgood]; rfl
  · have hring := ringPart_doFetch now h hgood
    obtain ⟨-, hcount, hwords⟩ := checkCmd_keeps (f := Tenant.streams) (fun _ _ => rfl)
      (modTen (slotLeft s t st now) t (fun x => { x with nextSeq := x.nextSeq + 1 })) t st (slotCmd s t st now)
    refine ⟨_, rfl, ?_, (slotChecked s t st now).2, ?_, hcount, hwords⟩
    · rw [stream_whenLive hlive]; exact congrArg Prod.fst hring
    · rw [stream_whenLive hlive]; exact congrArg Prod.snd hring
  · obtain ⟨x, hx, hfetch⟩ := doFetch_bad now h hbad
    have hkept : stream x t st = stream s t st := ((keeps_slotLeft s t st now).trans (.of_stored hx)).stream_eq t st
    obtain ⟨hstream, hevent⟩ := fetchFault_stops x t st
    refine ⟨_, rfl, ?_, ?_, ?_⟩
    · rw [stream_whenLive hlive, hfetch, hstream, hkept, fault_of_canFetch h]; rfl
    · rw [stream_whenLive hlive, hfetch, hstream, hkept]
    · rw [page_congr (whenLive_pages hlive), hfetch]; exact hevent

/-! LOOP (R59, R60). -/

/-- What of a stream a LOOP takes from and adds to: its fetched commands and its loops. -/
def bodyPart (x : Stream) : List Cmd × List Looping := (x.fetched, x.loops)

/-- The state in which a control command runs keeps the fetched commands and the loops of every stream. -/
theorem keeps_running (s : State) (t st now : Nat) (c : Cmd) : Keeps (perStream bodyPart) s (running s t st now c) := by
  refine .trans (u := markReady (atTime s now) t) ?_ (.trans (u := chargeAll (markReady (atTime s now) t) t c) ?_ ?_)
  · exact .trans (.of_tenants (atTime_tenants s now)) (keeps_markReady (fun _ _ => rfl) _ t)
  · exact .of_tenants (chargeAll_tenants _ _ _)
  · refine keeps_modStream _ t st (fun x => ?_)
    unfold endsSkip
    split <;> rfl

/-- The loop that a LOOP starts on a stream (R60). -/
def newLoop (x : Stream) (now : Nat) (c : Cmd) : Looping :=
  let h := holdUpTo x.hold now
  { cmd := c, wait := holdWait h now, cause := holdCause h, body := (x.fetched.drop 1).take (cf c 4 0 6), times := cf c 4 16 16,
    accs := List.replicate (cf c 4 0 6) {} }

/-- The stream that issued last is noted outside the streams (R804). -/
@[simp] theorem stream_lastStream (s : State) (t n k st : Nat) :
    stream (modTen s t (fun x => { x with lastStream := n })) k st = stream s k st :=
  (Keeps.modTen s t (g := fun x => { x with lastStream := n }) (fun _ => rfl)).stream_eq k st

/-- A LOOP that runs takes itself and its body from the fetched commands and adds its loop. -/
theorem bodyPart_doLoop {s : State} {t st now : Nat} {c : Cmd} (h : runsNow s t st now 0x07 c none = true) :
    bodyPart (stream (doLoop s t st now) t st)
      = (let x := stream (running s t st now c) t st
         (x.fetched.drop (cf c 4 0 6 + 1), x.loops ++ [newLoop x (running s t st now c).gclk c])) := by
  rw [doLoop, ctlFront_of_runsNow h]
  dsimp only
  rw [(keeps_markReady (f := bodyPart) (fun _ _ => rfl) _ t).on_stream t st, stream_congr (perfAdd_tenants _ _ _ _ _),
    stream_lastStream, stream_modStream_self]
  rfl

/-- Settles O21: the loop is `newLoop` of the stream in which the LOOP runs, whose commands and loops are those it had. -/
theorem loopStartsItsBody : Obligations.LoopStartsItsBody := by
  intro s t st now c h
  obtain ⟨hlive, -⟩ := runsNow_iff.1 h
  obtain ⟨hfetched, hloops⟩ := Prod.mk.inj ((keeps_running s t st now c).on_stream t st)
  obtain ⟨hdrop, hadd⟩ := Prod.mk.inj (bodyPart_doLoop h)
  rw [hfetched] at hdrop
  rw [hloops] at hadd
  refine ⟨_, exec_loopRun t st now s, ?_, newLoop (stream (running s t st now c) t st) (running s t st now c).gclk c, ?_, rfl, ?_, rfl, rfl,
    rfl, rfl, rfl⟩
  · rw [stream_whenLive hlive, hdrop]
  · rw [stream_whenLive hlive, hadd]
  · rw [newLoop, hfetched]

end Sys2Proof.Machine
end

section
/-! PROOFS. STEP (R65, R66): what ends a step, and that nothing but its own close moves a tenant's current step. -/

namespace Sys2Proof.Machine

/-! Hen and the vectors leave the tenants' steps alone. -/

@[simp] theorem henEnabled_tenants (s : State) (t : Nat) : (henEnabled s t).tenants = s.tenants := by
  unfold henEnabled restAborts
  split
  · split
    · rw [raiseEvent_tenants]; rfl
    · rfl
  · rfl

/-- A cut's triggers cleared: the mark of a CUT goes, the step stays. -/
theorem keepsStep_clearTriggers (s : State) (t : Nat) : Keeps Tenant.step s (clearTriggers s t) :=
  Keeps.trans (u := modTen s t (fun x => { x with cutPend := false })) (.modTen s t (fun _ => rfl)) (.of_tenants rfl)

theorem keepsStep_cutFails (s : State) (t code : Nat) : Keeps Tenant.step s (cutFails s t code) :=
  (keepsStep_clearTriggers s t).trans (.of_tenants (raiseEvent_tenants _ _ _ _))

theorem keepsStep_cutBegin (s : State) (t : Nat) (c : W64) : Keeps Tenant.step s (cutBegin s t c) := by
  unfold cutBegin
  split
  · exact keepsStep_cutFails s t _
  · exact Keeps.trans (.of_tenants rfl) (.trans (keepsStep_clearTriggers _ t) (.of_tenants rfl))

theorem keepsStep_henStepClosed (s : State) (t : Nat) (c : W64) : Keeps Tenant.step s (henStepClosed s t c) := by
  unfold henStepClosed
  dsimp only
  split
  · exact Keeps.trans (.of_tenants rfl) (keepsStep_cutBegin _ t c)
  · split
    · exact .of_tenants rfl
    · exact Keeps.trans (.of_tenants rfl) (.modTen _ t (fun _ => rfl))

/-! A completion (R32, R43): its record, its token, the streams made ready. -/

theorem keepsStep_modStream (s : State) (t st : Nat) (f : Stream → Stream) : Keeps Tenant.step s (modStream s t st f) :=
  .modTen s t (fun _ => rfl)

theorem keepsStep_putRec (s : State) (t st : Nat) (r : Rec) : Keeps Tenant.step s (putRec s t st r).1 := by
  have hfill : Keeps Tenant.step s (fillTlb s t (cplSlot (stream s t st) (stream s t st).wr) 32) := keeps_fillTlb (fun _ _ => rfl) s t _ 32
  unfold putRec
  dsimp only
  split
  · exact hfill
  · split
    · exact hfill
    · split
      · exact hfill.trans (.of_stored (storedFrom_sealHit _ _))
      · split
        · exact hfill
        · next a _ _ _ _ =>
          have hput := (hfill.trans (.of_stored (storedFrom_store _ a r.bytes))).trans
            (keepsStep_modStream _ t st (fun x => { x with wr := x.wr + 1 }))
          split
          · exact hput.trans (.of_tenants (raiseVec_tenants _ _ _))
          · exact hput

theorem keepsStep_cplFault (s : State) (t st : Nat) : Keeps Tenant.step s (cplFault s t st) :=
  (keepsStep_modStream s t st _).trans (.of_tenants (raiseEvent_tenants _ _ _ _))

theorem keepsStep_writeRec (s : State) (t st : Nat) (r : Rec) : Keeps Tenant.step s (writeRec s t st r) := by
  unfold writeRec
  split
  · exact keepsStep_modStream s t st _
  · dsimp only
    split
    · exact keepsStep_putRec s t st r
    · exact (keepsStep_putRec s t st r).trans ((keepsStep_modStream _ t st _).trans (keepsStep_cplFault _ t st))

theorem keepsStep_flushHeld (n : Nat) (s : State) (t st : Nat) : Keeps Tenant.step s (flushHeld n s t st) := by
  induction n generalizing s with
  | zero => exact .refl s
  | succ n ih =>
    unfold flushHeld
    split
    · exact .refl s
    · dsimp only
      split
      · exact (keepsStep_putRec s t st _).trans ((keepsStep_modStream _ t st _).trans (ih _))
      · exact (keepsStep_putRec s t st _).trans (keepsStep_cplFault _ t st)

/-- Counters and events of a completion are no tenant's. -/
@[simp] theorem countCompletion_tenants (s : State) (t : Nat) (r : Result) (tm : Timing) :
    (countCompletion s t r tm).tenants = s.tenants := by
  simp only [countCompletion]
  repeat' split
  all_goals simp

theorem keepsStep_record (s : State) (t st : Nat) (c : Cmd) (r : Result) (tm : Timing) : Keeps Tenant.step s (record s t st c r tm) := by
  unfold record
  refine .trans ?_ (keepsStep_writeRec _ t st _)
  refine .trans ?_ (.of_tenants (countCompletion_tenants _ t r tm))
  exact .modTen s t (fun _ => rfl)

theorem keepsStep_tokenErr (s : State) (t n : Nat) : Keeps Tenant.step s (tokenErr s t n) := by
  unfold tokenErr
  refine .trans ?_ (.of_tenants (raiseEvent_tenants _ _ _ _))
  exact .modTen s t (fun _ => rfl)

theorem keepsStep_signal (s : State) (t : Nat) (c : Cmd) (status : Nat) : Keeps Tenant.step s (signal s t c status) := by
  have hadd : Keeps Tenant.step s (tokenAdd s t (cSigTok c) 1) := .modTen s t (fun _ => rfl)
  unfold signal
  split
  · dsimp only
    split
    · exact hadd.trans (keepsStep_tokenErr _ t _)
    · exact hadd
  · exact .refl s

theorem keepsStep_markReady (s : State) (t : Nat) : Keeps Tenant.step s (markReady s t) := by
  refine .foldl _ _ (fun x st => ?_) s
  split
  · exact keepsStep_modStream x t st _
  · exact .refl x

theorem keepsStep_completePlain (s : State) (t st : Nat) (c : Cmd) (r : Result) (tm : Timing) :
    Keeps Tenant.step s (completePlain s t st c r tm) :=
  (keepsStep_record s t st c r tm).trans ((keepsStep_signal _ t c _).trans (keepsStep_markReady _ t))

theorem keepsStep_takeFront (s : State) (t st : Nat) : Keeps Tenant.step s (takeFront s t st) := by
  unfold takeFront
  dsimp only
  split
  · exact (keepsStep_modStream s t st _).trans (.of_tenants (perfAdd_tenants _ _ _ _ _))
  · exact keepsStep_modStream s t st _

/-- A control command outside a loop completes. -/
theorem keepsStep_ctlDone (s : State) (t st : Nat) (c : Cmd) (r : Result) : Keeps Tenant.step s (ctlDone s t st c none r) := by
  unfold ctlDone completeFront complete
  refine .trans ?_ (keepsStep_completePlain _ t st c r _)
  refine .trans ?_ (keepsStep_takeFront _ t st)
  refine .trans ?_ (.of_tenants (perfAdd_tenants _ _ _ _ _))
  exact .modTen s t (fun _ => rfl)

/-- R71: streams that are enabled again, and the rest of a change of STREAM_EN. -/
theorem keepsStep_applyEn (s : State) (t : Nat) : Keeps Tenant.step s (applyEn s t) := by
  have restart (x : State) (st : Nat) : Keeps Tenant.step x (restartStream x t st) :=
    (keepsStep_modStream x t st _).trans (keepsStep_flushHeld _ _ t st)
  unfold applyEn
  refine .trans ?_ (keepsStep_markReady _ t)
  refine .trans ?_ (.of_tenants (henEnabled_tenants _ t))
  refine .trans ?_ (.foldl _ _ restart _)
  exact .modTen s t (fun _ => rfl)

/-! The close of a step (R65, R66, R465). -/

/-- The items of the steps after the one of `c`, and the current step one further (R66). -/
def stepOn (s : State) (t : Nat) (c : Cmd) : State :=
  modTen s t (fun x => { x with step := x.step + 1, items := x.items.filter (fun i => cStep c < i.step) })

/-- After the current step has moved on, the end of a stream-0 STEP leaves it there. -/
theorem keepsStep_finishStep {s : State} {t : Nat} {c : Cmd} (h : (stream s t 0).fetched.head? = some c) :
    Keeps Tenant.step (stepOn s t c) (finishStep s t) := by
  unfold finishStep
  rw [h]
  refine .trans ?_ (keepsStep_applyEn _ t)
  refine .trans ?_ (.modTen _ t (fun _ => rfl))
  refine .trans ?_ (keepsStep_ctlDone _ t 0 c _)
  refine .trans ?_ (keepsStep_modStream _ t 0 _)
  refine .trans ?_ (.of_tenants (perfAdd_tenants _ _ _ _ _))
  refine .trans ?_ (.of_tenants (raiseEvent_tenants _ _ _ _))
  exact keepsStep_henStepClosed (stepOn s t c) t _

/-- Settles O22: a STEP that runs by its stream, one that waits for the ledger, and the step that its end leaves. -/
theorem stepClosesTheStep : Obligations.StepClosesTheStep := by
  refine ⟨fun s t st now c it hst h => ?_, fun s t now c it hin h => ?_, fun s t now _ hin => ?_, fun s t c h => ?_⟩
  · rw [exec_stepClose, doStep, if_neg (by simp [hst]), ctlFront_of_runsNow h, if_neg hst]
  · rw [exec_stepClose, doStep, if_neg (by simp [hin]), ctlFront_of_runsNow h, if_pos rfl]
  · rw [exec_stepClose, doStep, if_pos (by simp [hin])]
  · calc (ten (finishStep s t) t).step = (ten (stepOn s t c) t).step := keepsStep_finishStep h t
      _ = (ten s t).step + 1 := by rw [stepOn, ten_modTen_self]

end Sys2Proof.Machine
end

section
/-! PROOFS. The outcome of a command: every row of the command table goes on to a next state. -/

namespace Sys2Proof.Machine

/-- Settles O2, row by row of the command table: the meaning that `exec` gives a row is a next state whatever its operands are. A row whose
condition fails, or that meets an error, says so in that state (R108, R735); a node that is not live keeps its own (`whenLive`). -/
theorem everyCommandAnswersNextState : Obligations.EveryCommandAnswersNextState := by
  intro c s
  cases c <;> exact ⟨_, rfl⟩

end Sys2Proof.Machine
end

section
/-! PROOFS. What the operations of an engine's command keep of the engines and their commands, how a command ends, and that events stay. -/

namespace Sys2Proof.Machine

/-! The engines and their commands. -/

/-- What the engines hold: the commands issued to them, and the arrays, slices and copy engines. -/
def engines (s : State) : List Job × Tab OxArr × Tab PonySl × Tab DrakeGrp := (s.jobs, s.oxs, s.ponys, s.drakes)

theorem jobs_of_engines {s u : State} (h : engines u = engines s) : u.jobs = s.jobs := congrArg (·.1) h

theorem oxs_of_engines {s u : State} (h : engines u = engines s) : u.oxs = s.oxs := congrArg (·.2.1) h

/-- A write to memory moves no engine. -/
theorem engines_of_stored {s u : State} (h : StoredFrom s u) : engines u = engines s := by
  obtain ⟨-, -, -, -, -, -, -, hjobs, -, hdrakes, hoxs, hponys, -⟩ := h.fields
  simp only [engines, hjobs, hdrakes, hoxs, hponys]

theorem engines_foldl {β : Type} (step : State → β → State) (h : ∀ x b, engines (step x b) = engines x) (l : List β) (s : State) :
    engines (l.foldl step s) = engines s :=
  List.foldlRecOn (motive := fun (x : State) => engines x = engines s) l step rfl (fun x hx b _ => (h x b).trans hx)

@[simp] theorem engines_perfAdd (s : State) (b : Block) (i k n : Nat) : engines (perfAdd s b i k n) = engines s := rfl

@[simp] theorem engines_raiseEvent (s : State) (b : Block) (i n : Nat) : engines (raiseEvent s b i n) = engines s :=
  engines_of_stored (storedFrom_raiseEvent s b i n)

@[simp] theorem engines_modSpad (s : State) (d : Nat) (f : Spad → Spad) : engines (modSpad s d f) = engines s := rfl

@[simp] theorem engines_missAt (s : State) (t va n : Nat) (w : Bool) : engines (missAt s t va n w) = engines s :=
  engines_of_stored (storedFrom_missAt s t va n w)

@[simp] theorem engines_addErrs (s : State) (es : List MemErr) : engines (addErrs s es) = engines s := rfl

@[simp] theorem engines_fillTlb (s : State) (t va n : Nat) : engines (fillTlb s t va n) = engines s := by simp [engines]

@[simp] theorem engines_fillSpans (s : State) (t : Nat) (spans : List (Option (Nat × Nat))) : engines (fillSpans s t spans) = engines s := by
  refine engines_foldl _ (fun x sp => ?_) spans s
  cases sp with
  | none => rfl
  | some e => exact engines_fillTlb x t e.1 e.2

/-- The reads of a command move no engine. -/
@[simp] theorem engines_readSpans (s : State) (t : Nat) (spans : List (Option (Nat × Nat))) : engines (readSpans s t spans) = engines s :=
  (engines_of_stored (storedFrom_meetErrs _ _)).trans (engines_fillSpans s t spans)

/-! Withdrawn pages (R385, R386, R389). -/

@[simp] theorem engines_memEvents (s : State) (a n : Nat) : engines (memEvents s a n) = engines s :=
  engines_foldl (fun x t => raiseEvent x .ten t 2) (fun x t => engines_raiseEvent x .ten t 2) _ s

@[simp] theorem engines_ledgerPush (s : State) (e : Entry) : engines (ledgerPush s e) = engines s := by
  unfold ledgerPush
  dsimp only
  split
  · rfl
  · exact engines_raiseEvent _ _ _ _

@[simp] theorem engines_ledgerDue (s : State) (e : Entry) : engines (ledgerDue s e) = engines s := by
  unfold ledgerDue
  dsimp only
  split <;> simp

@[simp] theorem engines_memoryEntries (s : State) (sub die sn src pg : Nat) (w : Withdrawn) :
    engines (memoryEntries s sub die sn src pg w) = engines s :=
  (engines_foldl _ (fun x _ => engines_ledgerDue x _) w.ranges _).trans (engines_ledgerDue s _)

@[simp] theorem engines_failSet (s : State) (d k : Nat) (w : Withdrawn) : engines (failSet s d k w) = engines s := by
  simp [failSet, setFailed]

@[simp] theorem engines_withdrawPage (s : State) (d k p : Nat) : engines (withdrawPage s d k p) = engines s := by
  unfold withdrawPage
  split
  · rfl
  · split
    · exact engines_failSet s d k _
    · simp [modSet]

@[simp] theorem engines_withdrawLine (s : State) (l : Nat) : engines (withdrawLine s l) = engines s := by
  unfold withdrawLine
  split
  · dsimp only
    split
    · split
      · exact engines_withdrawPage _ _ _ _
      · rfl
    · rfl
  · rfl

@[simp] theorem engines_withdrawNew (s0 s1 s : State) : engines (withdrawNew s0 s1 s) = engines s :=
  engines_foldl withdrawLine engines_withdrawLine _ s

@[simp] theorem engines_noteWithdrawn (s : State) (t step : Nat) (spans : List (Option (Nat × Nat))) :
    engines (noteWithdrawn s t step spans) = engines s := rfl

@[simp] theorem page_noteWithdrawn (s : State) (t step : Nat) (spans : List (Option (Nat × Nat))) (b : Block) (i : Nat) :
    page (noteWithdrawn s t step spans) b i = page s b i := rfl

/-! The output of a command (R380, R434). -/

theorem storedFrom_tStoreLine (s : State) (t l : Nat) (cs : List (Nat × Byte)) (bad : Bool) : StoredFrom s (tStoreLine s t l cs bad).1 := by
  unfold tStoreLine
  split
  · exact .refl s
  · split
    · exact storedFrom_storePoison _ _
    · exact storedFrom_storeCells _ _ _

theorem storedFrom_writeLine (t : Nat) (badLines : List Nat) (w : Wrote) (l : Nat × List (Nat × Byte)) :
    StoredFrom w.st (writeLine t badLines w l).st := by
  unfold writeLine
  split
  · exact .refl _
  · split
    · exact storedFrom_missAt _ _ _ _ _
    · exact storedFrom_tStoreLine _ _ _ _ _

theorem storedFrom_writeOut (s : State) (t : Nat) (es : List OutElem) (badAt : List Nat) : StoredFrom s (writeOut s t es badAt).st :=
  List.foldlRecOn (motive := fun (w : Wrote) => StoredFrom s w.st) _ _ (.refl s)
    (fun w hw l _ => hw.trans (storedFrom_writeLine t _ w l))

/-- Everything that the output of a command changes is what writes to memory change. -/
theorem storedFrom_copyOut (s : State) (t : Nat) (die : Option Nat) (dst : TDesc) (rs : List (List Nat × Read1)) (short : Bool)
    (conv : List Nat → Read1 → Int → Nat × Fl) : StoredFrom s (copyOut s t die dst rs short conv).st := by
  unfold copyOut
  dsimp only
  split
  · exact (storedFrom_writeOut _ _ _ _).trans (storedFrom_missAt _ _ _ _ _)
  · exact storedFrom_writeOut _ _ _ _

/-! Ends of commands. -/

theorem sameJob_self (j : Job) : sameJob j j = true := by simp [sameJob]

/-- A longer hold is no other command, and leaves the result (R688). -/
theorem heldJob_eq (j : Job) (ns : Nat) : ∃ c h, heldJob j ns = { j with cause := c, hold := h } := by
  unfold heldJob
  split
  · exact ⟨_, _, rfl⟩
  · exact ⟨j.cause, j.hold, rfl⟩

/-- Of a finished command alone the job changes, and only in its result and its hold. -/
theorem finishJob_eq (before s : State) (j : Job) (r : Result) : ∃ n f, finishJob before s j r = modJob { s with freeCount := n } j f
    ∧ ∀ k, ∃ c h, f k = { k with result := some r, cause := c, hold := h } := by
  unfold finishJob
  dsimp only
  split
  · refine ⟨_, _, rfl, fun k => ?_⟩
    obtain ⟨c, h, e⟩ := heldJob_eq { k with result := some r } ((Config.freeWord s.freeCount).toNat % 2 ^ 32)
    exact ⟨c, h, e⟩
  · exact ⟨s.freeCount, _, rfl, fun k => ⟨k.cause, k.hold, rfl⟩⟩

theorem finishedAs_finishJob {s : State} {j : Job} (h : j ∈ s.jobs) (before : State) (r : Result) :
    finishedAs (finishJob before s j r) j r := by
  obtain ⟨n, f, e, hf⟩ := finishJob_eq before s j r
  obtain ⟨c, d, hfj⟩ := hf j
  refine ⟨f j, ?_, ?_, ?_⟩
  · rw [e]
    exact List.mem_map.2 ⟨j, h, if_pos (sameJob_self j)⟩
  · rw [hfj]
    exact sameJob_self j
  · rw [hfj]

theorem keepsJobs_finishJob (before s : State) (j : Job) (r : Result) : keepsJobs s (finishJob before s j r) j := by
  obtain ⟨n, f, e, -⟩ := finishJob_eq before s j r
  intro k hk hother
  rw [e]
  exact List.mem_map.2 ⟨k, hk, if_neg (by simp [hother])⟩

@[simp] theorem finishJob_oxs (before s : State) (j : Job) (r : Result) : (finishJob before s j r).oxs = s.oxs := by
  obtain ⟨n, f, e, -⟩ := finishJob_eq before s j r
  rw [e]; rfl

@[simp] theorem finishJob_pages (before s : State) (j : Job) (r : Result) : (finishJob before s j r).pages = s.pages := by
  obtain ⟨n, f, e, -⟩ := finishJob_eq before s j r
  rw [e]; rfl

/-- What a unit serves next is among the commands issued. -/
theorem mem_of_nextJob {s : State} {u : EUnit} {j : Job} (h : nextJob s u = some j) : j ∈ s.jobs := List.mem_of_find?_eq_some h

@[simp] theorem engines_raiseTimes (s : State) (b : Block) (i e n : Nat) : engines (raiseTimes s b i e n) = engines s :=
  engines_foldl _ (fun x _ => engines_raiseEvent x b i e) _ s

@[simp] theorem failJobs_oxs (s : State) (u : EUnit) (b : Block) (i gone : Nat) : (failJobs s u b i gone).oxs = s.oxs := by
  unfold failJobs
  refine (oxs_of_engines (engines_raiseTimes _ _ _ _ _)).trans ?_
  split <;> rfl

/-- The commands that a failing unit ends had no result: one that has its own keeps it (R170). -/
theorem finishedAs_failJobs {s : State} {j : Job} {r : Result} (h : finishedAs s j r) (u : EUnit) (b : Block) (i gone : Nat) :
    finishedAs (failJobs s u b i gone) j r := by
  obtain ⟨k, hk, hsame, hres⟩ := h
  refine ⟨k, ?_, hsame, hres⟩
  have hjobs : (failJobs s u b i gone).jobs = s.jobs.map (fun (k : Job) =>
      if decide (k.unit = u) && k.result.isNone then { k with result := some (failResult 0x22 {} 0) } else k) := by
    unfold failJobs
    refine (jobs_of_engines (engines_raiseTimes _ _ _ _ _)).trans ?_
    split <;> rfl
  rw [hjobs]
  exact List.mem_map.2 ⟨k, hk, if_neg (by simp [hres])⟩

/-! Events. -/

/-- Events that `s` shows are shown by `u` (R651: only a write of EVENT clears one). -/
def EventsStay (s u : State) : Prop := ∀ b i n, (page s b i).event.getLsbD n = true → (page u b i).event.getLsbD n = true

namespace EventsStay

theorem trans {s u v : State} (h : EventsStay s u) (k : EventsStay u v) : EventsStay s v := fun b i n e => k b i n (h b i n e)

theorem of_pages {s u : State} (h : u.pages = s.pages) : EventsStay s u := fun b i n e => by rwa [page_congr h]

theorem modPage (s : State) (b : Block) (i : Nat) {f : Page → Page} (h : ∀ p n, p.event.getLsbD n = true → (f p).event.getLsbD n = true) :
    EventsStay s (modPage s b i f) := by
  intro c k n e
  rw [page_modPage]
  split
  · next hk => exact h _ n (by simpa only [page, hk] using e)
  · exact e

theorem raiseVec (s : State) (fn vec : Nat) : EventsStay s (raiseVec s fn vec) := by
  intro b i n e
  obtain ⟨q, h⟩ := page_raiseVec s fn vec b i
  rwa [h]

theorem raiseEvent (s : State) (b : Block) (i n : Nat) : EventsStay s (raiseEvent s b i n) := by
  have hset : EventsStay s (Machine.modPage s b i (fun p =>
      { p with event := p.event ||| BitVec.ofNat 32 (2 ^ n), count := tabMod 0 p.count (min n 7) (fun c => satTo 8 (c + 1)) })) :=
    .modPage s b i (fun p m hm => by rw [BitVec.getLsbD_or, hm, Bool.true_or])
  unfold Machine.raiseEvent
  dsimp only
  split
  · exact hset.trans (.raiseVec _ _ _)
  · exact hset

theorem foldl {β : Type} (step : State → β → State) (h : ∀ x b, EventsStay x (step x b)) (l : List β) (s : State) :
    EventsStay s (l.foldl step s) :=
  List.foldlRecOn (motive := EventsStay s) l step (fun _ _ _ e => e) (fun x hx b _ => hx.trans (h x b))

theorem blkError (s : State) (b : Block) (i cls code addr tenant : Nat) : EventsStay s (blkError s b i cls code addr tenant) := by
  have hnote : EventsStay s (Machine.modPage s b i (noteErr cls code addr tenant)) :=
    .modPage s b i (fun p n e => by unfold noteErr; split <;> exact e)
  have hlog (x : State) : EventsStay x (rasLog x b i cls (code % 256) addr tenant) := by
    have hput : EventsStay x (perfAdd (putRas x (rasEntry x b i cls (code % 256) addr tenant)) .mgmt 0 2 1) :=
      .modPage (putRas x _) .mgmt 0 (fun _ _ e => e)
    unfold rasLog
    dsimp only
    split
    · exact hput.trans (.raiseEvent _ _ _ _)
    · exact hput
  unfold Machine.blkError
  dsimp only
  split
  · exact hnote.trans (hlog _)
  · exact hnote

theorem enterFault (s : State) (b : Block) (i tenant : Nat) : EventsStay s (enterFault s b i tenant) := by
  have hstate (x : State) : EventsStay x (setBlkState x b i 6) := modPage x b i (fun _ _ e => e)
  exact ((blkError s b i 4 0 0 tenant).trans (hstate _)).trans (raiseEvent _ .mgmt 0 2)

theorem failJobs (s : State) (u : EUnit) (b : Block) (i gone : Nat) : EventsStay s (failJobs s u b i gone) := by
  unfold Machine.failJobs raiseTimes
  refine EventsStay.trans ?_ (.foldl _ (fun x _ => .raiseEvent x _ _ _) _ _)
  split
  · exact .trans (u := { s with jobs := _ }) (.of_pages rfl) (.modPage _ b i (fun _ _ e => e))
  · exact .of_pages rfl

end EventsStay

/-- A raised event is shown (R651). -/
theorem event_raiseEvent_self (s : State) (b : Block) (i : Nat) {n : Nat} (hn : n < 32) :
    (page (raiseEvent s b i n) b i).event.getLsbD n = true := by
  rw [raiseEvent_event, BitVec.getLsbD_or, BitVec.getLsbD_ofNat, Nat.testBit_two_pow_self, decide_eq_true hn]
  simp

end Sys2Proof.Machine
end

section
/-! PROOFS. Ox arrays (chapters 4 and 5): what ends a command of an array, the held tile, and MM, MM_SPLIT and LOAD_STAT. -/

namespace Sys2Proof.Machine

theorem exec_mm (a : Nat) (par : Option BankParity) (errs : List MemErr) (s : State) :
    exec (.mm a par errs) s = .next (whenLive s (gateJob s (oxJob s a 0x10) (doMm s a par errs))) := rfl
theorem exec_mmSplit (a : Nat) (par : Option BankParity) (errs : List MemErr) (s : State) :
    exec (.mmSplit a par errs) s = .next (whenLive s (gateJob s (oxJob s a 0x11) (doMmSplit s a par errs))) := rfl
theorem exec_loadStat (a : Nat) (s : State) :
    exec (.loadStat a) s = .next (whenLive s (gateJob s (oxJob s a 0x12) (doLoadStat s a))) := rfl

/-- On a live node the part and the queue alone are those before a command. -/
theorem whenLive_of_live {s : State} (h : live s = true) (t : State) : whenLive s t = { t with part := s.part, pending := s.pending } :=
  if_pos h

/-! Arrays after an update. -/

/-- An array depends on the table of arrays alone. -/
theorem ox_congr {s u : State} (h : u.oxs = s.oxs) (a : Nat) : ox u a = ox s a := by simp only [ox, h]

@[simp] theorem ox_modOx_self (s : State) (a : Nat) (f : OxArr → OxArr) : ox (modOx s a f) a = f (ox s a) := by simp [ox, modOx]

/-- R167: the tile goes, the rest of the array stays. -/
@[simp] theorem ox_dropHeld (s : State) (a : Nat) (used : Bool) : ox (dropHeld s a used) a = { ox s a with held := none } := by
  unfold dropHeld
  split
  · rw [ox_congr (perfAdd_oxs _ _ _ _ _), ox_modOx_self]
  · next h => rw [← h]

@[simp] theorem dropHeld_jobs (s : State) (a : Nat) (used : Bool) : (dropHeld s a used).jobs = s.jobs := by
  unfold dropHeld; split <;> rfl

@[simp] theorem oxOwed_jobs (s : State) (a t : Nat) : (oxOwed s a t).jobs = s.jobs := by
  unfold oxOwed
  dsimp only
  split
  · rfl
  · exact dropHeld_jobs s a false

@[simp] theorem oxStart_jobs (s : State) (a t : Nat) : (oxStart s a t).jobs = s.jobs := by
  unfold oxStart
  dsimp only
  split
  · exact oxOwed_jobs s a t
  · exact oxOwed_jobs s a t

/-! The passes of a product leave the held tile alone: what drops it is `dropHeld`. -/

@[simp] theorem putBank_held (x : OxArr) (b : Nat) (v : OxBank) : (putBank x b v).held = x.held := by unfold putBank; split <;> rfl

@[simp] theorem putAcc_held (x : OxArr) (k : Nat) (rows : List (List Nat)) : (putAcc x k rows).held = x.held := by
  unfold putAcc; split <;> rfl

theorem foldl_held {β : Type} (step : OxArr → β → OxArr) (h : ∀ x b, (step x b).held = x.held) (l : List β) (x : OxArr) :
    (l.foldl step x).held = x.held :=
  List.foldlRecOn (motive := fun (y : OxArr) => y.held = x.held) l step rfl (fun y hy b _ => (h y b).trans hy)

theorem mmArr_held (x : OxArr) (t kt k np : Nat) (quad : Bool) (ps : List MPass) (b : Nat → Nat → Read1) (accs : List (List (List Nat))) :
    (mmArr x t kt k np quad ps b accs).held = x.held := by
  unfold mmArr
  dsimp only
  have hbanks := foldl_held (fun (y : OxArr) (p : MPass × Nat) => putBank y ((x.bank + p.2) % 2)
    (bankOf quad (min kt (k - kt * p.1.i)) p.1.x.nw (fun n i => (b (p.1.x.n0 + n) (kt * p.1.i + i)).bits))) (fun y p => putBank_held y _ _)
  split
  · exact hbanks _ x
  · exact (foldl_held _ (fun y r => putAcc_held y _ _) _ _).trans (hbanks _ x)

theorem splitArr_held (sl nk k : Nat) (y : OxArr) (q : SplitTile) : (splitArr sl nk k y q).held = y.held := by
  unfold splitArr
  exact foldl_held _ (fun y p => putAcc_held y _ _) _ y

/-! What an MM or MM_SPLIT has done when its passes have run. -/

/-- The array `a` before the `n` passes of a command of tenant `t`: it zeroes what it owes and drops its tile where a pass runs. -/
def passesBegin (s : State) (a t n : Nat) (used : Bool) : State := if n = 0 then s else dropHeld (oxStart s a t) a used

@[simp] theorem passesBegin_jobs (s : State) (a t n : Nat) (used : Bool) : (passesBegin s a t n used).jobs = s.jobs := by
  unfold passesBegin
  split
  · rfl
  · rw [dropHeld_jobs, oxStart_jobs]

theorem passesBegin_held {n : Nat} (h : n ≠ 0) (s : State) (a t : Nat) (used : Bool) : (ox (passesBegin s a t n used) a).held = none := by
  rw [passesBegin, if_neg h, ox_dropHeld]

/-- What a command of array `a` ran has left: it has read what it reads, and its passes have changed what the array holds but for the
held tile. -/
def RanPasses (s : State) (a : Nat) (j : Job) (k : MmWork) : Prop := ∃ errs spans used f,
  k.s = modOx (passesBegin (readSpans (addErrs s errs) j.tenant spans) a j.tenant k.run.passes used) a f ∧ ∀ x, (f x).held = x.held

theorem ranPasses_mmWork (s : State) (a : Nat) (par : Option BankParity) (errs : List MemErr) (j : Job) :
    RanPasses s a j (mmWork s a par errs j) := ⟨errs, _, _, _, rfl, fun x => mmArr_held x _ _ _ _ _ _ _ _⟩

theorem ranPasses_splitWork (s : State) (a : Nat) (par : Option BankParity) (errs : List MemErr) (j : Job) :
    RanPasses s a j (splitWork s a par errs j) := by
  refine ⟨errs, _, _, _, rfl, fun x => ?_⟩
  dsimp only
  split
  · rfl
  · exact foldl_held _ (fun y q => splitArr_held _ _ _ y q) _ x

theorem RanPasses.jobs {s : State} {a : Nat} {j : Job} {k : MmWork} (h : RanPasses s a j k) : k.s.jobs = s.jobs := by
  obtain ⟨errs, spans, used, f, hs, -⟩ := h
  rw [hs, modOx_jobs, passesBegin_jobs, jobs_of_engines (engines_readSpans _ _ _), jobs_of_engines (engines_addErrs s errs)]

theorem RanPasses.held {s : State} {a : Nat} {j : Job} {k : MmWork} (h : RanPasses s a j k) (hran : k.run.passes ≠ 0) :
    (ox k.s a).held = none := by
  obtain ⟨errs, spans, used, f, hs, hf⟩ := h
  rw [hs, ox_modOx_self, hf, passesBegin_held hran]

/-! How a command of an array ends. -/

/-- An array ends the command `j` in state `x` with result `r`: Goose is told, and the array stays active where another waits. -/
def arrayEnd (s x : State) (a : Nat) (j : Job) (r : Result) : State := oxStop (finishJob s x j r) a

section ArrayEnd

variable (s : State) {x : State} (a : Nat) (j : Job) (r : Result)

theorem finishedAs_arrayEnd (h : j ∈ x.jobs) : finishedAs (arrayEnd s x a j r) j r := finishedAs_finishJob h s r

theorem keepsJobs_arrayEnd : keepsJobs x (arrayEnd s x a j r) j := keepsJobs_finishJob s x j r

theorem held_arrayEnd : (ox (arrayEnd s x a j r) a).held = (ox x a).held := by
  rw [arrayEnd, oxStop, ox_modOx_self, ox_congr (finishJob_oxs s x j r)]

theorem pages_arrayEnd : (arrayEnd s x a j r).pages = x.pages := finishJob_pages s x j r

end ArrayEnd

/-! The parity error of a pass (R170). -/

section Parity

variable {s : State} (a : Nat) (p : BankParity) (t : Nat)

theorem finishedAs_oxParity {j : Job} {r : Result} (h : finishedAs s j r) : finishedAs (oxParity s a p t) j r := by
  unfold oxParity enterFault
  have hlog (x : State) (f : OxArr → OxArr) (hx : finishedAs x j r) : finishedAs (raiseEvent (modOx x a f) .ox a 0) j r := by
    simpa only [finishedAs, raiseEvent_jobs, modOx_jobs] using hx
  simpa only [finishedAs, raiseEvent_jobs, setBlkState_jobs, blkError_jobs] using finishedAs_failJobs (hlog s _ h) (.ox a) .ox a 5

theorem held_oxParity : (ox (oxParity s a p t) a).held = (ox s a).held := by
  have hoxs (f : OxArr → OxArr) : (enterFault (failJobs (raiseEvent (modOx s a f) .ox a 0) (.ox a) .ox a 5) .ox a t).oxs = (modOx s a f).oxs := by
    simp [enterFault]
  unfold oxParity
  rw [ox_congr (hoxs _), ox_modOx_self]
  split <;> rfl

theorem eventsStay_oxParity : EventsStay s (oxParity s a p t) := by
  unfold oxParity
  exact (((EventsStay.of_pages (u := modOx s a _) rfl).trans (.raiseEvent _ _ _ _)).trans (.failJobs _ _ _ _ _)).trans (.enterFault _ _ _ _)

theorem blkState_oxParity : blkState (oxParity s a p t) .ox a = 6 := by
  unfold oxParity enterFault
  rw [blkState_raiseEvent, blkState_setBlkState]

end Parity

/-! MM and MM_SPLIT (R140, R169 to R172, R199). -/

/-- The result that an MM or MM_SPLIT leaves. -/
def mmResult (k : MmWork) (a : Nat) (j : Job) : Result :=
  if (mmWrote k a j).gone then failResult 0x22 (mmFl k a j) (mmDetail k j) else ranResult (mmFl k a j) (mmDetail k j)

/-- R170: with a parity error the command ends as it does without, and then the array fails. -/
theorem mmEnd_of_met {k : MmWork} {p : BankParity} (h : k.met = some p) (s : State) (a : Nat) (j : Job) :
    mmEnd s a j k = oxParity (mmEnd s a j { k with met := none }) a p j.tenant := by
  unfold mmEnd
  rw [h]
  rfl

/-- R169, R172: without a parity error C is written and the events raised, TARGET_GONE's among them, before the command ends. -/
theorem mmEnd_of_unmet {k : MmWork} (h : k.met = none) (s : State) (a : Nat) (j : Job) : ∃ x, mmEnd s a j k = arrayEnd s x a j (mmResult k a j)
    ∧ engines x = engines k.s ∧ ((mmWrote k a j).gone = true → (page x .ox a).event.getLsbD 5 = true) := by
  unfold mmEnd
  rw [h]
  refine ⟨_, rfl, ?_, fun hgone => ?_⟩
  · simp only [apply_ite engines, engines_noteWithdrawn, engines_raiseEvent, engines_perfAdd, engines_withdrawNew, ite_self]
    have hwrote : engines (mmWrote k a j).st = engines k.s := engines_of_stored (storedFrom_copyOut _ _ _ _ _ _ _)
    split
    · split
      · exact hwrote
      · rw [engines_missAt, hwrote]
    · exact hwrote
  · simp only [hgone, Bool.or_true, if_true]
    rw [page_noteWithdrawn]
    exact event_raiseEvent_self _ _ _ (by decide)

/-- Everything that the end of an MM or MM_SPLIT can be: the command ends in a state `x` that holds the engines as the passes left them and
shows TARGET_GONE's event, and with a parity error the array then fails. -/
theorem mmEnd_cases (s : State) (a : Nat) (j : Job) (k : MmWork) : ∃ x, engines x = engines k.s
    ∧ ((mmWrote k a j).gone = true → (page x .ox a).event.getLsbD 5 = true)
    ∧ ((k.met = none ∧ mmEnd s a j k = arrayEnd s x a j (mmResult k a j))
      ∨ ∃ p, k.met = some p ∧ mmEnd s a j k = oxParity (arrayEnd s x a j (mmResult k a j)) a p j.tenant) := by
  cases hmet : k.met with
  | none =>
    obtain ⟨x, hend, heng, hevent⟩ := mmEnd_of_unmet hmet s a j
    exact ⟨x, heng, hevent, .inl ⟨rfl, hend⟩⟩
  | some p =>
    obtain ⟨x, hend, heng, hevent⟩ := mmEnd_of_unmet (k := { k with met := none }) rfl s a j
    exact ⟨x, heng, hevent, .inr ⟨p, rfl, (mmEnd_of_met hmet s a j).trans (congrArg (oxParity · a p j.tenant) hend)⟩⟩

section MmEnd

variable {s : State} {a : Nat} {j : Job} {k : MmWork}

/-- Whatever an MM or MM_SPLIT meets, its command ends with its own result. -/
theorem finishedAs_mmEnd (hran : RanPasses s a j k) (hj : j ∈ s.jobs) : finishedAs (mmEnd s a j k) j (mmResult k a j) := by
  obtain ⟨x, heng, -, hcases⟩ := mmEnd_cases s a j k
  have hfin : finishedAs (arrayEnd s x a j (mmResult k a j)) j (mmResult k a j) :=
    finishedAs_arrayEnd s a j _ (by rwa [jobs_of_engines heng, hran.jobs])
  obtain ⟨-, hend⟩ | ⟨p, -, hend⟩ := hcases <;> rw [hend]
  · exact hfin
  · exact finishedAs_oxParity a p _ hfin

theorem event_mmEnd_of_gone (hgone : (mmWrote k a j).gone = true) : (page (mmEnd s a j k) .ox a).event.getLsbD 5 = true := by
  obtain ⟨x, -, hevent, hcases⟩ := mmEnd_cases s a j k
  have hshown : (page (arrayEnd s x a j (mmResult k a j)) .ox a).event.getLsbD 5 = true := by
    rw [page_congr (pages_arrayEnd s a j _)]
    exact hevent hgone
  obtain ⟨-, hend⟩ | ⟨p, -, hend⟩ := hcases <;> rw [hend]
  · exact hshown
  · exact eventsStay_oxParity a p _ _ _ _ hshown

theorem held_mmEnd : (ox (mmEnd s a j k) a).held = (ox k.s a).held := by
  obtain ⟨x, heng, -, hcases⟩ := mmEnd_cases s a j k
  have hheld := held_arrayEnd s a j (x := x) (mmResult k a j)
  rw [ox_congr (oxs_of_engines heng)] at hheld
  obtain ⟨-, hend⟩ | ⟨p, -, hend⟩ := hcases <;> rw [hend]
  · exact hheld
  · rw [held_oxParity, hheld]

theorem keepsJobs_mmEnd (hran : RanPasses s a j k) (hmet : k.met = none) : keepsJobs s (mmEnd s a j k) j := by
  obtain ⟨x, hend, heng, -⟩ := mmEnd_of_unmet hmet s a j
  have hkeep := keepsJobs_arrayEnd s a j (x := x) (mmResult k a j)
  rw [keepsJobs, jobs_of_engines heng, hran.jobs] at hkeep
  rw [hend]
  exact hkeep

theorem blkState_mmEnd_of_met (hmet : k.met ≠ none) : blkState (mmEnd s a j k) .ox a = 6 := by
  obtain ⟨p, hp⟩ := Option.ne_none_iff_exists'.1 hmet
  rw [mmEnd_of_met hp, blkState_oxParity]

/-- What an MM or MM_SPLIT leaves on a live node, of which the commands, the arrays and the pages are those that its end makes. -/
theorem outcome_of_mmEnd (hlive : live s = true) (hran : RanPasses s a j k) (hj : j ∈ s.jobs) :
    ((mmWrote k a j).gone = false → finishedAs (whenLive s (mmEnd s a j k)) j (ranResult (mmFl k a j) (mmDetail k j)))
    ∧ ((mmWrote k a j).gone = true → endedGone (whenLive s (mmEnd s a j k)) j .ox a 5)
    ∧ (k.run.passes ≠ 0 → (ox (whenLive s (mmEnd s a j k)) a).held = none)
    ∧ (k.met = none → keepsJobs s (whenLive s (mmEnd s a j k)) j)
    ∧ (k.met ≠ none → blkState (whenLive s (mmEnd s a j k)) .ox a = 6) := by
  have hfin := finishedAs_mmEnd hran hj
  rw [whenLive_of_live hlive]
  refine ⟨fun hgone => ?_, fun hgone => ?_, fun hpasses => ?_, keepsJobs_mmEnd hran, blkState_mmEnd_of_met⟩
  · rw [mmResult, if_neg (by simp [hgone])] at hfin
    exact hfin
  · rw [mmResult, if_pos hgone] at hfin
    exact ⟨_, hfin, rfl, event_mmEnd_of_gone hgone⟩
  · exact held_mmEnd.trans (hran.held hpasses)

end MmEnd

/-! LOAD_STAT (R166). -/

/-- What an array serves is among the commands issued. -/
theorem mem_of_oxJob {s : State} {a op : Nat} {j : Job} (h : oxJob s a op = some j) : j ∈ s.jobs := by
  unfold oxJob at h
  split at h
  · next k hk =>
    split at h
    · cases h
      exact mem_of_nextJob hk
    · cases h
  · cases h

/-- The span that a LOAD_STAT cannot read, in the order of its elements. -/
def lsMiss (r : State) (a : Nat) (j : Job) : Option (Nat × Nat) :=
  (lsIdx j.cmd).findSome? (fun i => (readScaled r j.tenant a (lsB j.cmd) 1 0 i).miss)

/-- R166: a LOAD_STAT that reads all its elements ends with its array holding the tile. -/
theorem doLoadStat_read {s r : State} {a : Nat} {j : Job} (hj : oxJob s a 0x12 = some j) (hr : r = readSpans s j.tenant (lsSpans j.cmd))
    (hmiss : lsMiss r a j = none) :
    ∃ x, doLoadStat s a = arrayEnd s x a j { status := 0 } ∧ x.jobs = s.jobs ∧ (ox x a).held = some (lsTile r a j) := by
  subst hr
  unfold lsMiss at hmiss
  unfold doLoadStat
  simp only [hj, hmiss]
  refine ⟨_, rfl, ?_, ?_⟩
  · rw [jobs_of_engines (engines_withdrawNew _ _ _), modOx_jobs, dropHeld_jobs, oxStart_jobs, jobs_of_engines (engines_readSpans _ _ _)]
  · rw [ox_congr (oxs_of_engines (engines_withdrawNew _ _ _)), ox_modOx_self]

/-- R166, R172: a LOAD_STAT that cannot read an element ends TARGET_GONE, with the event. -/
theorem doLoadStat_missed {s r : State} {a : Nat} {j : Job} (hj : oxJob s a 0x12 = some j) (hr : r = readSpans s j.tenant (lsSpans j.cmd))
    (hmiss : lsMiss r a j ≠ none) :
    ∃ x, doLoadStat s a = arrayEnd s x a j (failResult 0x22 {} 0) ∧ x.jobs = s.jobs ∧ (page x .ox a).event.getLsbD 5 = true := by
  subst hr
  obtain ⟨p, hp⟩ := Option.ne_none_iff_exists'.1 hmiss
  unfold lsMiss at hp
  unfold doLoadStat
  simp only [hj, hp]
  refine ⟨_, rfl, ?_, ?_⟩
  · rw [jobs_of_engines (engines_noteWithdrawn _ _ _ _), raiseEvent_jobs, jobs_of_engines (engines_withdrawNew _ _ _),
      jobs_of_engines (engines_missAt _ _ _ _ _), dropHeld_jobs, jobs_of_engines (engines_readSpans _ _ _)]
  · rw [page_noteWithdrawn]
    exact event_raiseEvent_self _ _ _ (by decide)

/-- Settles O23: the outcome of the passes and of the writing of C, and the two ends of a LOAD_STAT. -/
theorem arrayCommandsComplete : Obligations.ArrayCommandsComplete := by
  intro s a j hlive hnowhere
  refine ⟨fun par errs hjob => ⟨?_, outcome_of_mmEnd hlive (ranPasses_mmWork s a par errs j) (mem_of_oxJob hjob)⟩,
    fun par errs hjob => ⟨?_, outcome_of_mmEnd hlive (ranPasses_splitWork s a par errs j) (mem_of_oxJob hjob)⟩,
    fun hjob => ⟨fun hmiss => ?_, fun hmiss => ?_⟩⟩
  · rw [exec_mm, gateJob_of_heldNowhere hnowhere, doMm, hjob]
  · rw [exec_mmSplit, gateJob_of_heldNowhere hnowhere, doMmSplit, hjob]
  · obtain ⟨x, hx, hjobs, hheld⟩ := doLoadStat_read hjob rfl hmiss
    rw [exec_loadStat, gateJob_of_heldNowhere hnowhere, hx, whenLive_of_live hlive]
    refine ⟨_, rfl, ?_, ?_, rfl, rfl, ?_⟩
    · exact finishedAs_arrayEnd s a j _ (hjobs ▸ mem_of_oxJob hjob)
    · exact (held_arrayEnd s a j _).trans hheld
    · rw [keepsJobs, ← hjobs]
      exact keepsJobs_arrayEnd s a j _
  · obtain ⟨x, hx, hjobs, hevent⟩ := doLoadStat_missed hjob rfl hmiss
    rw [exec_loadStat, gateJob_of_heldNowhere hnowhere, hx, whenLive_of_live hlive]
    refine ⟨_, rfl, ⟨failResult 0x22 {} 0, ?_, rfl, ?_⟩, ?_⟩
    · exact finishedAs_arrayEnd s a j _ (hjobs ▸ mem_of_oxJob hjob)
    · rw [← page_congr (pages_arrayEnd s a j _)] at hevent
      exact hevent
    · rw [keepsJobs, ← hjobs]
      exact keepsJobs_arrayEnd s a j _

end Sys2Proof.Machine
end

section
/-! PROOFS. Steer mode (4.10): the rows at the array's page, and the end of a test. -/

namespace Sys2Proof.Machine

theorem exec_steerEnter (r : Requester) (a : Nat) (s : State) : exec (.steerEnter r a) s = .next (whenLive s (doSteerEnter s r a)) := rfl
theorem exec_steerLeave (r : Requester) (a : Nat) (s : State) : exec (.steerLeave r a) s = .next (whenLive s (doSteerLeave s r a)) := rfl
theorem exec_steerGo (r : Requester) (a : Nat) (s : State) : exec (.steerGo r a) s = .next (whenLive s (doSteerGo s r a)) := rfl
theorem exec_steerTestEnd (a : Nat) (s : State) : exec (.steerTestEnd a) s = .next (whenLive s (doSteerTestEnd s a)) := rfl

/-! Pages and arrays in the state in which a write of a reached page takes effect. -/

/-- A write that reaches its page has moved counters and staged words alone. -/
theorem page_opened (s : State) (r : Requester) (b : Block) (i off : Nat) (c : Block) (k : Nat) :
    ∃ q l, page (opened s r b i off) c k = { page s c k with perf := q, staged := l } := by
  have hcount : ∃ q, page (bar0Count s r) c k = { page s c k with perf := q } := by
    cases r with
    | mgmt | cfg _ => exact ⟨_, rfl⟩
    | pf | vf _ =>
      simp only [bar0Count]
      split
      · exact page_perfAdd s .host 0 2 1 c k
      · exact ⟨_, rfl⟩
  obtain ⟨q, hq⟩ := hcount
  have hstaged (x : State) : ∃ l, page (useStaged x r b i off) c k = { page x c k with staged := l } := by
    unfold useStaged
    split
    · exact ⟨_, rfl⟩
    · rw [page_modPage]
      split
      · next h => rw [show page x b i = page x c k by simp only [page, h]]; exact ⟨_, rfl⟩
      · exact ⟨_, rfl⟩
  obtain ⟨l, hl⟩ := hstaged (bar0Count s r)
  exact ⟨q, l, by rw [opened, hl, hq]⟩

section Opened

variable (s : State) (r : Requester) (b : Block) (i off : Nat)

@[simp] theorem blkState_opened (c : Block) (k : Nat) : blkState (opened s r b i off) c k = blkState s c k := by
  obtain ⟨q, l, h⟩ := page_opened s r b i off c k
  rw [blkState, h]; rfl

@[simp] theorem regWord_opened (c : Block) (k o d : Nat) : regWord (opened s r b i off) c k o d = regWord s c k o d := by
  obtain ⟨q, l, h⟩ := page_opened s r b i off c k
  rw [regWord, h]; rfl

@[simp] theorem ox_opened (a : Nat) : ox (opened s r b i off) a = ox s a := ox_congr (by simp [opened]) a

@[simp] theorem steerSeed_opened (a : Nat) : steerSeed (opened s r b i off) a = steerSeed s a := by simp only [steerSeed, regWord2, regWord_opened]

@[simp] theorem steerCount_opened (a : Nat) : steerCount (opened s r b i off) a = steerCount s a := by simp only [steerCount, regWord_opened]

@[simp] theorem steerCol_opened (a : Nat) : steerCol (opened s r b i off) a = steerCol s a := by simp only [steerCol, regWord_opened]

end Opened

/-- An array whose page a write reaches exists (Table 20.4). -/
theorem lt_of_atPage_ox {s : State} {r : Requester} {a : Nat} (h : atPage s r .ox a = true) : a < 24 := by
  simp only [atPage, writeReaches, Bool.and_eq_true, decide_eq_true_eq] at h
  obtain ⟨-, ⟨-, ha⟩, -⟩ := h
  exact ha

theorem live_of_atPage {s : State} {r : Requester} {b : Block} {i : Nat} (h : atPage s r b i = true) : live s = true := by
  simp only [atPage, Bool.and_eq_true] at h
  exact h.1

/-- R752, R753: a Steer register of a reached page takes the management controller's write, and another's sets ERR_STATUS. -/
theorem steerBy_atPage {s : State} {r : Requester} {a : Nat} (h : atPage s r .ox a = true) (off : Nat) (f : State → State) :
    steerBy r s a off f = if r = .mgmt then f (opened s r .ox a off) else regError (bar0Count s r) .ox a off := by
  simp only [steerBy, regAccess_atPage h, decide_eq_true_eq]

/-! What leaving Steer mode zeroes (R185). -/

/-- An array whose banks, accumulator sets and bank alternation are zeroed and whose tile is dropped (R173, R209). -/
def zeroedArr (x : OxArr) : OxArr := { x with
  held := none, bank := 0, bank0 := {}, bank1 := {}, acc0 := [], acc1 := [], accNext := 0, recomb := [], accUse := [], owing := [] }

theorem ox_oxZero (s : State) (a : Nat) : ox (oxZero s a) a = zeroedArr (ox s a) := by
  rw [oxZero, ox_modOx_self, ox_dropHeld, zeroedArr]

/-- R185, R739: the STATE in which an array leaves Steer mode, case by case. -/
theorem steerTo_eq (x : OxArr) (st : Nat) : steerTo x st = if st = 4 then 4 else if x.ended = true ∧ x.lastFail = true then 6
    else if x.ended = true ∧ x.steerFrom ≠ 6 then 1 else x.steerFrom := by
  simp [steerTo]

/-- R185: the array out of Steer mode, the STATE that it takes, and the report of a failed test in MGMT.EVENT.fault. -/
theorem doSteerLeave_atPage {s : State} {a : Nat} (h : atPage s .mgmt .ox a = true) (hsteer : (ox s a).steer = true) :
    ox (doSteerLeave s .mgmt a) a = { zeroedArr (ox s a) with steer := false, busy := false }
    ∧ blkState (doSteerLeave s .mgmt a) .ox a = steerTo (ox s a) (blkState s .ox a)
    ∧ ((ox s a).ended = true → (ox s a).lastFail = true → (page (doSteerLeave s .mgmt a) .mgmt 0).event.getLsbD 2 = true) := by
  have ha : a < 24 := lt_of_atPage_ox h
  have hox (x : State) (n : Nat) : ox (setBlkState (modOx (oxZero x a) a (fun y => { y with steer := false, busy := false })) .ox a n) a
      = { zeroedArr (ox x a) with steer := false, busy := false } := by
    rw [ox_congr (setBlkState_oxs _ _ _ _), ox_modOx_self, ox_oxZero]
  simp only [doSteerLeave, steerBy_atPage h, if_true, ox_opened, blkState_opened, hsteer, decide_eq_true ha, Bool.and_self]
  split
  · refine ⟨?_, ?_, fun _ _ => event_raiseEvent_self _ _ _ (by decide)⟩
    · rw [ox_congr (raiseEvent_oxs _ _ _ _), hox, ox_opened]
    · rw [blkState_raiseEvent, blkState_setBlkState]
  · next hpass =>
    refine ⟨?_, ?_, fun hended hfail => absurd (by rw [hended, hfail]; rfl) hpass⟩
    · rw [hox, ox_opened]
    · rw [blkState_setBlkState]

/-- R183: the end of a test with a signature: what the array shows of it. -/
theorem ox_steerEnded (s : State) (a sg : Nat) : ox (steerEnded s a sg) a = { ox s a with
    busy := false, done := true, fail := sg != regWord2 s .ox a 0x138 0, ended := true, lastFail := sg != regWord2 s .ox a 0x138 0
    sig := BitVec.ofNat 64 sg } := by
  unfold steerEnded
  dsimp only
  split
  · rw [ox_congr ((raiseEvent_oxs _ _ _ _).trans (raiseEvent_oxs _ _ _ _)), ox_modOx_self]
  · rw [ox_congr (raiseEvent_oxs _ _ _ _), ox_modOx_self]

/-- R183: the end of a test raises its event. -/
theorem event_steerEnded (s : State) (a sg : Nat) : (page (steerEnded s a sg) .ox a).event.getLsbD 3 = true := by
  unfold steerEnded
  dsimp only
  split
  · exact EventsStay.raiseEvent _ _ _ _ _ _ _ (event_raiseEvent_self _ _ _ (by decide))
  · exact event_raiseEvent_self _ _ _ (by decide)

/-- R183: a signature other than the expected one raises the event of a failed test. -/
theorem event_steerEnded_of_ne {s : State} {a sg : Nat} (h : sg ≠ regWord2 s .ox a 0x138 0) :
    (page (steerEnded s a sg) .ox a).event.getLsbD 4 = true := by
  unfold steerEnded
  dsimp only
  rw [if_pos (by simpa using h)]
  exact event_raiseEvent_self _ _ _ (by decide)

/-- Settles O24: the three rows where the management controller's write reaches the page, the end of a test, and the same rows by another
requester. -/
theorem steerModeCommands : Obligations.SteerModeCommands := by
  refine ⟨fun s a h => ⟨fun hst hsteer => ?_, fun hsteer hbusy hseed hcount => ?_, fun hzero => ?_, fun hsteer => ?_⟩, fun s a hlive hbusy => ?_,
    fun s r a h hr => ⟨?_, ?_, ?_⟩⟩
  · have hfrom : (blkState s .ox a == 0 || blkState s .ox a == 6) = true := by simpa using hst
    simp only [exec_steerEnter, doSteerEnter, steerBy_atPage h, if_true, ox_opened, blkState_opened, hfrom, hsteer,
      decide_eq_true (lt_of_atPage_ox h), Bool.not_false, Bool.and_self]
  · have hnz : (decide (steerSeed s a = 0) || decide (steerCount s a = 0)) = false := by simp [hseed, hcount]
    simp only [exec_steerGo, doSteerGo, steerBy_atPage h, if_true, ox_opened, steerSeed_opened, steerCount_opened, steerCol_opened, hnz, hsteer,
      hbusy, decide_eq_true (lt_of_atPage_ox h), Bool.not_false, Bool.and_self, Bool.false_eq_true, if_false]
  · have hz : (decide (steerSeed s a = 0) || decide (steerCount s a = 0)) = true := by simpa using hzero
    simp only [exec_steerGo, doSteerGo, steerBy_atPage h, if_true, steerSeed_opened, steerCount_opened, hz]
  · obtain ⟨hox, hstate, hevent⟩ := doSteerLeave_atPage h hsteer
    rw [exec_steerLeave, whenLive_of_live (live_of_atPage h)]
    refine ⟨_, rfl, congrArg (·.steer) hox, congrArg (·.held) hox,
      congrArg (·.bank) hox, congrArg (·.bank0) hox, congrArg (·.bank1) hox, congrArg (·.acc0) hox, congrArg (·.acc1) hox,
      congrArg (·.recomb) hox, ?_, hevent⟩
    exact hstate.trans (steerTo_eq _ _)
  · intro sig
    have hend : doSteerTestEnd s a = steerEnded s a sig := by simp [doSteerTestEnd, hbusy, sig]
    have hox := ox_steerEnded s a sig
    have hfail := congrArg (·.fail) hox
    have hlast := congrArg (·.lastFail) hox
    rw [exec_steerTestEnd, hend, whenLive_of_live hlive]
    refine ⟨_, rfl, congrArg (·.busy) hox, congrArg (·.done) hox, congrArg (·.ended) hox,
      congrArg (·.sig) hox, event_steerEnded s a sig, ?_, hlast.trans hfail.symm, event_steerEnded_of_ne⟩
    exact (Bool.eq_iff_iff.1 hfail).trans bne_iff_ne
  · rw [exec_steerEnter, doSteerEnter, steerBy_atPage h, if_neg hr]
  · rw [exec_steerLeave, doSteerLeave, steerBy_atPage h, if_neg hr]
  · rw [exec_steerGo, doSteerGo, steerBy_atPage h, if_neg hr]

end Sys2Proof.Machine
end

section
/-! PROOFS. Pony slices (chapter 6): how a command of a slice ends, a function-table parity error, and VOP, VRED, VSUM and VGEN. -/

namespace Sys2Proof.Machine

theorem exec_vop (n : Nat) (bt : List Nat) (errs : List MemErr) (s : State) :
    exec (.vop n bt errs) s = .next (whenLive s (gateJob s (ponyJob s n 0x20) (doVop s n bt errs))) := rfl
theorem exec_vred (n : Nat) (errs : List MemErr) (s : State) :
    exec (.vred n errs) s = .next (whenLive s (gateJob s (ponyJob s n 0x21) (doVred s n errs))) := rfl
theorem exec_vsum (n : Nat) (errs : List MemErr) (s : State) :
    exec (.vsum n errs) s = .next (whenLive s (gateJob s (ponyJob s n 0x22) (doVsum s n errs))) := rfl
theorem exec_vgen (n : Nat) (bt : List Nat) (s : State) :
    exec (.vgen n bt) s = .next (whenLive s (gateJob s (ponyJob s n 0x23) (doVgen s n bt))) := rfl

/-- What a slice serves is among the commands issued. -/
theorem mem_of_ponyJob {s : State} {n op : Nat} {j : Job} (h : ponyJob s n op = some j) : j ∈ s.jobs := by
  unfold ponyJob at h
  split at h
  · next k hk =>
    split at h
    · cases h
      exact mem_of_nextJob hk
    · cases h
  · cases h

/-! Slices and summaries after an update. -/

theorem ponys_of_engines {s u : State} (h : engines u = engines s) : u.ponys = s.ponys := congrArg (·.2.2.1) h

/-- A slice depends on the table of slices alone. -/
theorem pony_congr {s u : State} (h : u.ponys = s.ponys) (n : Nat) : pony u n = pony s n := by simp only [pony, h]

@[simp] theorem pony_modPony_self (s : State) (n : Nat) (f : PonySl → PonySl) : pony (modPony s n f) n = f (pony s n) := by
  simp [pony, modPony]

@[simp] theorem jobSum_jobs (s : State) (j : Job) (slot v : Nat) : (jobSum s j slot v).jobs = s.jobs := by
  unfold jobSum; split <;> rfl

@[simp] theorem ponySum_jobs (s : State) (n : Nat) (j : Job) (slot v : Nat) : (ponySum s n j slot v).jobs = s.jobs := jobSum_jobs s j slot v

/-- R232: a summary's word, slot and tenant stand in the slice's LAST_SUM. -/
theorem pony_ponySum (s : State) (n : Nat) (j : Job) (slot v : Nat) : pony (ponySum s n j slot v) n =
    { pony (jobSum s j slot v) n with lastSum := BitVec.ofNat 64 v, lastSlot := slot, lastTenant := j.tenant } := by
  rw [ponySum, pony_congr (perfAdd_ponys _ _ _ _ _), pony_modPony_self]

/-- R51: the tenant's slot holds the word, where the command's context has not been reset. -/
theorem sums_ponySum {j : Job} (h : j.orphan = false) (s : State) (n slot v : Nat) :
    tabGet 0 (ten (ponySum s n j slot v) j.tenant).sums slot = BitVec.ofNat 64 v := by
  have hten : ten (ponySum s n j slot v) j.tenant = ten (jobSum s j slot v) j.tenant := rfl
  rw [hten, jobSum, if_neg (by simp [h]), writeSum, ten_modTen_self, tabGet_tabSet, if_pos rfl]

/-! The runs of a slice keep the commands issued: they read, write memory and leave summaries. -/

@[simp] theorem engines_ponyRead (sE s1 s : State) (t : Nat) (miss : Option (Nat × Nat)) : engines (ponyRead sE s1 s t miss) = engines s := by
  unfold ponyRead
  rw [engines_withdrawNew]
  split
  · exact engines_missAt s t _ _ false
  · rfl

@[simp] theorem engines_copyOut (s : State) (t : Nat) (die : Option Nat) (dst : TDesc) (rs : List (List Nat × Read1)) (short : Bool)
    (conv : List Nat → Read1 → Int → Nat × Fl) : engines (copyOut s t die dst rs short conv).st = engines s :=
  engines_of_stored (storedFrom_copyOut s t die dst rs short conv)

theorem vopRun_jobs (s : State) (n : Nat) (bt : List Nat) (errs : List MemErr) (j : Job) : (vopRun s n bt errs j).st.jobs = s.jobs := by
  apply jobs_of_engines
  simp only [vopRun, engines_ponyRead, engines_copyOut, engines_readSpans, engines_addErrs]

theorem vredRun_jobs (s : State) (n : Nat) (errs : List MemErr) (j : Job) : (vredRun s n errs j).st.jobs = s.jobs := by
  unfold vredRun
  simp only [apply_ite State.jobs, ponySum_jobs, ite_self]
  apply jobs_of_engines
  simp only [engines_ponyRead, engines_copyOut, engines_readSpans, engines_addErrs]

theorem vsumRun_jobs (s : State) (n : Nat) (errs : List MemErr) (j : Job) : (vsumRun s n errs j).st.jobs = s.jobs := by
  unfold vsumRun
  simp only [apply_ite State.jobs, ponySum_jobs, ite_self]
  apply jobs_of_engines
  simp only [engines_ponyRead, engines_readSpans, engines_addErrs]

theorem vgenRun_jobs (s : State) (n : Nat) (bt : List Nat) (j : Job) : (vgenRun s n bt j).st.jobs = s.jobs := by
  apply jobs_of_engines
  simp only [vgenRun, engines_copyOut, engines_fillSpans]

/-! How a command of a slice ends (R242, R247). -/

/-- The result that a run of a slice leaves. -/
def ponyResult (r : PonyRun) : Result := if r.gone then failResult 0x22 r.fl 0 else ranResult r.fl 0

@[simp] theorem noteWithdrawn_tenants (s : State) (t step : Nat) (spans : List (Option (Nat × Nat))) :
    (noteWithdrawn s t step spans).tenants = s.tenants := rfl

@[simp] theorem finishJob_ponys (before s : State) (j : Job) (r : Result) : (finishJob before s j r).ponys = s.ponys := by
  obtain ⟨n, f, e, -⟩ := finishJob_eq before s j r
  rw [e]; rfl

@[simp] theorem finishJob_tenants (before s : State) (j : Job) (r : Result) : (finishJob before s j r).tenants = s.tenants := by
  obtain ⟨n, f, e, -⟩ := finishJob_eq before s j r
  rw [e]; rfl

/-- A run is counted and its events raised, TARGET_GONE's among them, and then its command ends. -/
theorem ponyEnd_eq (s : State) (n : Nat) (j : Job) (r : PonyRun) : ∃ x, ponyEnd s n j r = finishJob s x j (ponyResult r)
    ∧ engines x = engines r.st ∧ x.tenants = r.st.tenants ∧ (r.gone = true → (page x .pony n).event.getLsbD 5 = true) := by
  refine ⟨_, rfl, ?_, ?_, fun hgone => ?_⟩
  · simp only [apply_ite engines, engines_noteWithdrawn, engines_raiseEvent, engines_perfAdd, ite_self]
  · simp only [apply_ite State.tenants, noteWithdrawn_tenants, raiseEvent_tenants, perfAdd_tenants, ite_self]
  · simp only [hgone, Bool.or_true, if_true]
    rw [page_noteWithdrawn]
    exact event_raiseEvent_self _ _ _ (by decide)

/-- What Goose and the slice's page show of a run's end: the result that its flags say, or TARGET_GONE with the event (R242). -/
def PonyEnded (u : State) (n : Nat) (j : Job) (r : PonyRun) : Prop :=
  (r.gone = false → finishedAs u j (ranResult r.fl 0)) ∧ (r.gone = true → endedGone u j .pony n 5)

theorem ponyEnded_of_result {u : State} {n : Nat} {j : Job} {r : PonyRun} (hfin : finishedAs u j (ponyResult r))
    (hevent : r.gone = true → (page u .pony n).event.getLsbD 5 = true) : PonyEnded u n j r := by
  unfold ponyResult at hfin
  refine ⟨fun hgone => ?_, fun hgone => ?_⟩
  · rwa [if_neg (by simp [hgone])] at hfin
  · rw [if_pos hgone] at hfin
    exact ⟨_, hfin, rfl, hevent hgone⟩

/-- The end of a run shows in the commands and the pages alone. -/
theorem PonyEnded.after_whenLive {s u : State} {n : Nat} {j : Job} {r : PonyRun} (h : PonyEnded u n j r) (hlive : live s = true) :
    PonyEnded (whenLive s u) n j r := by
  rw [whenLive_of_live hlive]
  exact h

section PonyEnd

variable {s : State} {n : Nat} {j : Job} {r : PonyRun}

theorem finishedAs_ponyEnd (hjobs : r.st.jobs = s.jobs) (hj : j ∈ s.jobs) : finishedAs (ponyEnd s n j r) j (ponyResult r) := by
  obtain ⟨x, hend, heng, -⟩ := ponyEnd_eq s n j r
  rw [hend]
  exact finishedAs_finishJob (by rwa [jobs_of_engines heng, hjobs]) s _

theorem event_ponyEnd_of_gone (hgone : r.gone = true) : (page (ponyEnd s n j r) .pony n).event.getLsbD 5 = true := by
  obtain ⟨x, hend, -, -, hevent⟩ := ponyEnd_eq s n j r
  rw [hend, page_congr (finishJob_pages s x j _)]
  exact hevent hgone

theorem keepsJobs_ponyEnd (hjobs : r.st.jobs = s.jobs) : keepsJobs s (ponyEnd s n j r) j := by
  obtain ⟨x, hend, heng, -⟩ := ponyEnd_eq s n j r
  have hkeep := keepsJobs_finishJob s x j (ponyResult r)
  rw [keepsJobs, jobs_of_engines heng, hjobs] at hkeep
  rw [hend]
  exact hkeep

theorem pony_ponyEnd (s : State) (n : Nat) (j : Job) (r : PonyRun) : pony (ponyEnd s n j r) n = pony r.st n := by
  obtain ⟨x, hend, heng, -⟩ := ponyEnd_eq s n j r
  rw [hend, pony_congr (finishJob_ponys s x j _), pony_congr (ponys_of_engines heng)]

theorem ten_ponyEnd (s : State) (n : Nat) (j : Job) (r : PonyRun) (t : Nat) : ten (ponyEnd s n j r) t = ten r.st t := by
  obtain ⟨x, hend, -, hten, -⟩ := ponyEnd_eq s n j r
  rw [hend, ten_congr (finishJob_tenants s x j _), ten_congr hten]

theorem ponyEnded_ponyEnd (hjobs : r.st.jobs = s.jobs) (hj : j ∈ s.jobs) : PonyEnded (ponyEnd s n j r) n j r :=
  ponyEnded_of_result (finishedAs_ponyEnd hjobs hj) event_ponyEnd_of_gone

end PonyEnd

/-! A function-table parity error (R243): the slice fails, and the command that met it keeps its own end. -/

theorem finishedAs_ponyParity {s : State} {j : Job} {r : Result} (h : finishedAs s j r) (n t : Nat) : finishedAs (ponyParity s n t) j r := by
  have hraised : finishedAs (raiseEvent s .pony n 4) j r := by simpa only [finishedAs, raiseEvent_jobs] using h
  unfold ponyParity enterFault
  simpa only [finishedAs, raiseEvent_jobs, setBlkState_jobs, blkError_jobs] using finishedAs_failJobs hraised (.pony n) .pony n 5

theorem eventsStay_ponyParity (s : State) (n t : Nat) : EventsStay s (ponyParity s n t) :=
  ((EventsStay.raiseEvent s .pony n 4).trans (.failJobs _ _ _ _ _)).trans (.enterFault _ _ _ _)

theorem blkState_ponyParity (s : State) (n t : Nat) : blkState (ponyParity s n t) .pony n = 6 := by
  unfold ponyParity enterFault
  rw [blkState_raiseEvent, blkState_setBlkState]

theorem ponyEnded_ponyParity {s : State} {n : Nat} {j : Job} {r : PonyRun} (hjobs : r.st.jobs = s.jobs) (hj : j ∈ s.jobs) (t : Nat) :
    PonyEnded (ponyParity (ponyEnd s n j r) n t) n j r :=
  ponyEnded_of_result (finishedAs_ponyParity (finishedAs_ponyEnd hjobs hj) n t)
    (fun hgone => eventsStay_ponyParity _ n t _ _ _ (event_ponyEnd_of_gone hgone))

/-! What a row of a slice answers. -/

section Rows

variable {s : State} {n : Nat} {j : Job} {r : PonyRun} {i : Instr}

/-- A row that answers the end of a run alone ends its command and keeps the others. -/
theorem plain_of_exec (hlive : live s = true) (hexec : exec i s = .next (whenLive s (ponyEnd s n j r))) (hjobs : r.st.jobs = s.jobs)
    (hj : j ∈ s.jobs) :
    (exec i s = .next (whenLive s (ponyEnd s n j r)) ∧ PonyEnded (whenLive s (ponyEnd s n j r)) n j r)
      ∧ keepsJobs s (whenLive s (ponyEnd s n j r)) j := by
  refine ⟨⟨hexec, (ponyEnded_ponyEnd hjobs hj).after_whenLive hlive⟩, ?_⟩
  rw [whenLive_of_live hlive]
  exact keepsJobs_ponyEnd hjobs

/-- A row of a command that may read the function tables: with a parity error that it meets the slice fails besides (R243). -/
theorem tables_of_exec {bt : List Nat} (hlive : live s = true)
    (hexec : exec i s = .next (whenLive s (if tableMet j.cmd bt then ponyParity (ponyEnd s n j r) n j.tenant else ponyEnd s n j r)))
    (hjobs : r.st.jobs = s.jobs) (hj : j ∈ s.jobs) :
    (tableMet j.cmd bt = false → (exec i s = .next (whenLive s (ponyEnd s n j r)) ∧ PonyEnded (whenLive s (ponyEnd s n j r)) n j r)
      ∧ keepsJobs s (whenLive s (ponyEnd s n j r)) j)
    ∧ (tableMet j.cmd bt = true → (exec i s = .next (whenLive s (ponyParity (ponyEnd s n j r) n j.tenant))
        ∧ PonyEnded (whenLive s (ponyParity (ponyEnd s n j r) n j.tenant)) n j r)
      ∧ blkState (whenLive s (ponyParity (ponyEnd s n j r) n j.tenant)) .pony n = 6) := by
  refine ⟨fun hmet => ?_, fun hmet => ⟨⟨?_, (ponyEnded_ponyParity hjobs hj _).after_whenLive hlive⟩, ?_⟩⟩
  · rw [if_neg (by simp [hmet])] at hexec
    exact plain_of_exec hlive hexec hjobs hj
  · rwa [if_pos hmet] at hexec
  · rw [whenLive_of_live hlive]
    exact blkState_ponyParity _ n j.tenant

end Rows

/-! The summary of a VSUM (R229, R232). -/

theorem whenLive_ponys {s u : State} (h : live s = true) : (whenLive s u).ponys = u.ponys := by rw [whenLive_of_live h]

/-- R232: a VSUM that reads every element is not gone, and leaves the summary of its active elements. -/
theorem vsumRun_of_read {s s1 : State} {n : Nat} {errs : List MemErr} {j : Job} {es : List RElem}
    (hs1 : s1 = readSpans (addErrs s errs) j.tenant (redSpans j.cmd)) (hes : es = (extIdx (pnX j.cmd)).map (redElem s1 j.tenant n j.cmd))
    (hread : es.all (·.miss.isNone) = true) :
    (vsumRun s n errs j).gone = false
    ∧ ∃ x, (vsumRun s n errs j).st
        = ponySum x n j (redSlot j.cmd) (redWord j.cmd (redResult j.cmd (es.filter (·.act))).1 (es.any (·.bad))) := by
  have hwhole : es.takeWhile (·.miss.isNone) = es := List.takeWhile_eq_self_iff.2 (List.all_eq_true.1 hread)
  subst hs1 hes
  unfold vsumRun
  simp only [hwhole, decide_true, Bool.not_true, if_true, true_and]
  exact ⟨_, rfl⟩

/-- The summary that a VSUM has left when it ends (R51, R232). -/
theorem summary_of_vsum {s x : State} {n : Nat} {j : Job} {r : PonyRun} {slot v : Nat} (hlive : live s = true)
    (hsum : r.st = ponySum x n j slot v) :
    (pony (whenLive s (ponyEnd s n j r)) n).lastSum = BitVec.ofNat 64 v
    ∧ (pony (whenLive s (ponyEnd s n j r)) n).lastSlot = slot
    ∧ (pony (whenLive s (ponyEnd s n j r)) n).lastTenant = j.tenant
    ∧ (j.orphan = false → tabGet 0 (ten (whenLive s (ponyEnd s n j r)) j.tenant).sums slot = BitVec.ofNat 64 v) := by
  have hpony : pony (whenLive s (ponyEnd s n j r)) n = pony (ponySum x n j slot v) n := by
    rw [pony_congr (whenLive_ponys hlive), pony_ponyEnd, hsum]
  have hten : ten (whenLive s (ponyEnd s n j r)) j.tenant = ten (ponySum x n j slot v) j.tenant := by
    rw [ten_congr (whenLive_tenants hlive), ten_ponyEnd, hsum]
  rw [hpony, hten, pony_ponySum]
  exact ⟨rfl, rfl, rfl, fun horphan => sums_ponySum horphan x n slot v⟩

/-- Settles O25: each row answers the end of its run, which moves no other command, and a VSUM that reads all its elements leaves its
summary. -/
theorem sliceCommandsComplete : Obligations.SliceCommandsComplete := by
  intro s n j hlive hnowhere
  refine ⟨fun bt errs hjob => ?vop, fun errs hjob => ?vred, fun errs hjob => ?vsum, fun bt hjob => ?vgen⟩
  case vop =>
    refine tables_of_exec hlive ?_ (vopRun_jobs s n bt errs j) (mem_of_ponyJob hjob)
    rw [exec_vop, gateJob_of_heldNowhere hnowhere, doVop, hjob]
  case vred =>
    refine plain_of_exec hlive ?_ (vredRun_jobs s n errs j) (mem_of_ponyJob hjob)
    rw [exec_vred, gateJob_of_heldNowhere hnowhere, doVred, hjob]
  case vsum =>
    have hexec : exec (.vsum n errs) s = .next (whenLive s (ponyEnd s n j (vsumRun s n errs j))) := by
      rw [exec_vsum, gateJob_of_heldNowhere hnowhere, doVsum, hjob]
    refine ⟨plain_of_exec hlive hexec (vsumRun_jobs s n errs j) (mem_of_ponyJob hjob), fun hread => ⟨_, hexec, ?_⟩⟩
    obtain ⟨hgone, x, hsum⟩ := vsumRun_of_read rfl rfl hread
    exact ⟨hgone, summary_of_vsum hlive hsum⟩
  case vgen =>
    refine tables_of_exec hlive ?_ (vgenRun_jobs s n bt j) (mem_of_ponyJob hjob)
    rw [exec_vgen, gateJob_of_heldNowhere hnowhere, doVgen, hjob]

end Sys2Proof.Machine
end

section
/-! PROOFS. One instruction of a Mule core (7.4 to 7.7): what executing it makes of the node, and what the core holds afterwards. -/

namespace Sys2Proof.Machine

/-! The core of a number after an update. -/

/-- The cores depend on the cluster's table of cores alone. -/
theorem mcore_congr {s u : State} (h : u.mule.cores = s.mule.cores) (n : Nat) : mcore u n = mcore s n := by simp only [mcore, h]

@[simp] theorem mcore_setCore_self (s : State) (n : Nat) (c : MCore) : mcore (setCore s n c) n = c := by simp [mcore, setCore]

/-- A write to memory and the events it raises leave every core. -/
theorem mcore_of_stored {s u : State} (h : StoredFrom s u) (n : Nat) : mcore u n = mcore s n := by
  obtain ⟨-, -, -, -, -, -, -, -, -, -, -, -, hcores, -⟩ := h.fields
  exact mcore_congr hcores n

@[simp] theorem mcore_raiseEvent (s : State) (b : Block) (i e n : Nat) : mcore (raiseEvent s b i e) n = mcore s n :=
  mcore_of_stored (storedFrom_raiseEvent s b i e) n

@[simp] theorem mcore_fillTlb (s : State) (t a k n : Nat) : mcore (fillTlb s t a k) n = mcore s n :=
  mcore_congr (congrArg Mule.cores (fillTlb_mule s t a k)) n

@[simp] theorem mcore_perfAdd (s : State) (b : Block) (i k a n : Nat) : mcore (perfAdd s b i k a) n = mcore s n := rfl

/-- Of a live node a command changes every core as its effect says. -/
theorem mcore_whenLive {s : State} (h : live s = true) (u : State) (n : Nat) : mcore (whenLive s u) n = mcore u n := by
  rw [whenLive_of_live h]; rfl

/-! A stop and the end of an instruction: registers and index stay. -/

/-- A save record written leaves the core but for the note that it could not be (R300). -/
theorem mcore_writeRecord (s : State) (n : Nat) (cmd : Cmd) : ∃ b, mcore (writeRecord s n cmd) n = { mcore s n with recBad := b } := by
  have hcore (t a k : Nat) (bs : List Byte) : mcore (tStore (fillTlb s t a k) t a bs).1 n = mcore s n := by
    rw [mcore_of_stored (storedFrom_tStore _ _ _ _), mcore_fillTlb]
  unfold writeRecord
  simp only [mcore_setCore_self, hcore]
  exact ⟨_, rfl⟩

/-- A core stopped for a cause, before its record is written (R297). -/
def stopNoted (s : State) (n cause : Nat) : State :=
  if cause = 2 then raiseEvent (raiseEvent (setCore s n { mcore s n with st := 5, cause := cause }) .mule (n / 8) 0) .mule (n / 8) 2
  else raiseEvent (setCore s n { mcore s n with st := 5, cause := cause }) .mule (n / 8) 0

theorem stopCore_eq (s : State) (n cause : Nat) : stopCore s n cause = match coreRun (stopNoted s n cause) n with
    | some (_, j) => if cause = 4 then coreFault (writeRecord (stopNoted s n cause) n j.cmd) n else writeRecord (stopNoted s n cause) n j.cmd
    | none => stopNoted s n cause := rfl

theorem mcore_stopNoted (s : State) (n cause : Nat) : mcore (stopNoted s n cause) n = { mcore s n with st := 5, cause := cause } := by
  unfold stopNoted
  split <;> simp

/-- R297: a core stopped for another cause than a parity error keeps its registers. -/
theorem mcore_stopCore {cause : Nat} (h : cause ≠ 4) (s : State) (n : Nat) :
    ∃ b, mcore (stopCore s n cause) n = { mcore s n with st := 5, cause := cause, recBad := b } := by
  rw [stopCore_eq]
  split
  · next r j _ =>
    obtain ⟨b, hb⟩ := mcore_writeRecord (stopNoted s n cause) n j.cmd
    exact ⟨b, by rw [if_neg h, hb, mcore_stopNoted]⟩
  · exact ⟨(mcore s n).recBad, mcore_stopNoted s n cause⟩

/-- R264, R294: the end of an instruction halts or stops the core, or lets it go on. -/
theorem mcore_afterInstr (s : State) (n : Nat) : ∃ st cause b, mcore (afterInstr s n) n = { mcore s n with st := st, cause := cause, recBad := b } := by
  unfold afterInstr
  dsimp only
  split
  · exact ⟨_, _, _, rfl⟩
  · split
    · exact ⟨4, _, _, mcore_setCore_self s n _⟩
    · split
      · split
        · obtain ⟨b, hb⟩ := mcore_stopCore (cause := 3) (by decide) s n
          exact ⟨_, _, b, hb⟩
        · exact ⟨_, _, _, rfl⟩
      · exact ⟨_, _, _, rfl⟩

/-- A core that no longer runs stays as it is. -/
theorem afterInstr_of_not_running {s : State} {n : Nat} (h : (mcore s n).st ≠ 2) : afterInstr s n = s := by
  simp [afterInstr, h]

/-- The state in which an instruction that leaves the core as `c` has been counted (R312), before its core goes on. -/
def counted (s : State) (n : Nat) (c : MCore) (beats ops : Nat) : State :=
  perfAdd (perfAdd (perfAdd (setCore s n { c with retired := c.retired + 1 }) .mule (n / 8) 1 1) .mule (n / 8) 2 beats) .mule (n / 8) 3 ops

theorem ranTo_eq (s : State) (n : Nat) (c : MCore) (beats ops : Nat) : ranTo s n c beats ops = afterInstr (counted s n c beats ops) n := rfl

@[simp] theorem mcore_counted (s : State) (n : Nat) (c : MCore) (beats ops : Nat) :
    mcore (counted s n c beats ops) n = { c with retired := c.retired + 1 } := by simp [counted]

/-- A retired instruction leaves the core as it says, with one more instruction retired, running, halted or stopped. -/
theorem mcore_ranTo (s : State) (n : Nat) (c : MCore) (beats ops : Nat) :
    ∃ st cause b, mcore (ranTo s n c beats ops) n = { c with retired := c.retired + 1, st := st, cause := cause, recBad := b } := by
  obtain ⟨st, cause, b, h⟩ := mcore_afterInstr (counted s n c beats ops) n
  rw [mcore_counted] at h
  exact ⟨st, cause, b, h⟩

/-- An instruction that halts its core, or has it wait, leaves it so. -/
theorem mcore_ranTo_of_not_running (s : State) (n : Nat) {c : MCore} (h : c.st ≠ 2) (beats ops : Nat) :
    mcore (ranTo s n c beats ops) n = { c with retired := c.retired + 1 } := by
  rw [ranTo_eq, afterInstr_of_not_running (by rw [mcore_counted]; exact h), mcore_counted]

/-! The next instruction of a core. -/

/-- What the result of an instruction makes of the node: retired, or its core stopped at it. -/
def mEnd (n : Nat) : MRes → State
  | .ok s c beats ops => ranTo s n c beats ops
  | .stop s c cause => stopCore (setCore s n c) n cause

theorem live_of_nextIs {s : State} {n op w : Nat} (h : nextIs s n op w = true) : live s = true := by
  simp only [nextIs, Bool.and_eq_true] at h
  obtain ⟨⟨⟨⟨⟨hlive, -⟩, -⟩, -⟩, -⟩, -⟩ := h
  exact hlive

/-- The next instruction runs where its row names its major opcode and function and no parity error is met. -/
theorem mRun_of_nextIs {s : State} {n op w : Nat} {ev : MuleEv} (h : nextIs s n op w = true) (hev : isParity ev = false)
    {fn : Option Nat} (hfn : fn = none ∨ fn = some (mFn w)) (body : State → MCore → Nat → MRes) :
    mRun s n op fn ev body = mEnd n (body (muleEvent s n ev) (mcore s n) w) := by
  simp only [nextIs, Bool.and_eq_true, Option.any_eq_true, beq_iff_eq] at h
  obtain ⟨⟨⟨⟨⟨-, ⟨r, j⟩, hrun, hstarted⟩, hunit⟩, hst⟩, x, hcode, rfl⟩, hop⟩ := h
  have hgo : ((mcore s n).st != 2 || !r.started || !unitRuns s .mule (n / 8) || mOp x.toNat != op
      || (fn.isSome && fn != some (mFn x.toNat))) = false := by
    rcases hfn with rfl | rfl <;> simp [hst, (show r.started = true from hstarted), hunit, hop]
  unfold mRun
  simp only [hrun, hcode, hgo]
  cases ev with
  | parity file reg => cases hev
  | _ => simp only [Bool.false_eq_true, if_false]; split <;> simp_all [mEnd, ranTo]

/-- A row that runs an instruction does so for the next instruction of a core. -/
theorem exec_of_mRun {s : State} {n op w : Nat} {ev : MuleEv} {i : Instr} {fn : Option Nat} {body : State → MCore → Nat → MRes}
    (hexec : exec i s = .next (whenLive s (mRun s n op fn ev body))) (h : nextIs s n op w = true) (hev : isParity ev = false)
    (hfn : fn = none ∨ fn = some (mFn w)) :
    exec i s = .next (whenLive s (mEnd n (body (muleEvent s n ev) (mcore s n) w))) := by
  rw [hexec, mRun_of_nextIs h hev hfn]

/-- The core `d` has the index, the return stack, the register file and the vector length of the core `c`. -/
structure SameFile (c d : MCore) : Prop where
  pc : d.pc = c.pc
  ret : d.ret = c.ret
  i : d.i = c.i
  v : d.v = c.v
  k : d.k = c.k
  vl : d.vl = c.vl

/-- What a core holds after an instruction that its row retires. -/
theorem sameFile_of_ranTo {s x : State} {n : Nat} {i : Instr} {c : MCore} {beats ops : Nat} (hlive : live s = true)
    (hexec : exec i s = .next (whenLive s (ranTo x n c beats ops))) : ∃ u, exec i s = .next u ∧ SameFile c (mcore u n) := by
  obtain ⟨st, cause, b, hcore⟩ := mcore_ranTo x n c beats ops
  refine ⟨_, hexec, ?_⟩
  rw [mcore_whenLive hlive, hcore]
  exact ⟨rfl, rfl, rfl, rfl, rfl, rfl⟩

end Sys2Proof.Machine
end

section
/-! PROOFS. Branches, jumps, calls and returns (R261, R262). -/

namespace Sys2Proof.Machine

/-! What the rows of this part stand for. -/

theorem exec_beq (n : Nat) (ev : MuleEv) (s : State) : exec (.beq n ev) s = .next (whenLive s (doBranch s n 0x38 ev)) := rfl
theorem exec_bne (n : Nat) (ev : MuleEv) (s : State) : exec (.bne n ev) s = .next (whenLive s (doBranch s n 0x39 ev)) := rfl
theorem exec_blt (n : Nat) (ev : MuleEv) (s : State) : exec (.blt n ev) s = .next (whenLive s (doBranch s n 0x3A ev)) := rfl
theorem exec_bge (n : Nat) (ev : MuleEv) (s : State) : exec (.bge n ev) s = .next (whenLive s (doBranch s n 0x3B ev)) := rfl
theorem exec_bltu (n : Nat) (ev : MuleEv) (s : State) : exec (.bltu n ev) s = .next (whenLive s (doBranch s n 0x3C ev)) := rfl
theorem exec_bgeu (n : Nat) (ev : MuleEv) (s : State) : exec (.bgeu n ev) s = .next (whenLive s (doBranch s n 0x3D ev)) := rfl
theorem exec_j (n : Nat) (ev : MuleEv) (s : State) : exec (.j n ev) s
    = .next (whenLive s (mRun s n 0x3E none ev (fun s c w => .ok s (jumpBy c (mOff w)) 0 0))) := rfl
theorem exec_call (n : Nat) (ev : MuleEv) (s : State) : exec (.call n ev) s
    = .next (whenLive s (mRun s n 0x3F none ev (fun s c w =>
        .ok s (jumpBy { c with ret := ((c.pc + 1) :: c.ret).take 16 } (mOff w)) 0 0))) := rfl
theorem exec_sysRet (n : Nat) (ev : MuleEv) (s : State) : exec (.sysRet n ev) s
    = .next (whenLive s (mRun s n 0x00 (some 3) ev (fun s c _ =>
        match c.ret with
        | [] => .ok s { nextPc c with st := 4 } 0 0
        | p :: t => .ok s { c with pc := p, ret := t } 0 0))) := rfl

/-- The low bits of a number read as two's complement are those of its bit vector. -/
theorem sgn_eq_toInt {w : Nat} (hw : 0 < w) (x : Nat) : sgn w x = (BitVec.ofNat w x).toInt := by
  obtain ⟨v, rfl⟩ := Nat.exists_eq_add_one.2 hw
  rw [sgn, BitVec.toInt_eq_toNat_cond, BitVec.toNat_ofNat, Nat.add_sub_cancel]
  have hhalf : x % 2 ^ (v + 1) < 2 ^ v ↔ 2 * (x % 2 ^ (v + 1)) < 2 ^ (v + 1) := by rw [Nat.pow_succ]; omega
  simp only [hhalf]

theorem ofNat_bits_zero (k w : Nat) : BitVec.ofNat k (bits w 0 k) = BitVec.ofNat k w := by
  apply BitVec.eq_of_toNat_eq
  simp [bits]

theorem mImm_eq_toInt (w : Nat) : mImm w = (BitVec.ofNat 16 w).toInt := by
  rw [mImm, sgn_eq_toInt (by decide), ofNat_bits_zero]

theorem mOff_eq_toInt (w : Nat) : mOff w = (BitVec.ofNat 26 w).toInt := by
  rw [mOff, sgn_eq_toInt (by decide), ofNat_bits_zero]

/-- An integer register as a word; i[0] is zero (R253). -/
theorem iReg_eq_toNat (c : MCore) (r : Nat) : iReg c r = (if r = 0 then 0 else tabGet 0 c.i r : BitVec 64).toNat := by
  unfold iReg
  split <;> rfl

/-- A word's number read as two's complement is the word's own value. -/
theorem sgn_toNat (x : BitVec 64) : sgn 64 x.toNat = x.toInt := by
  rw [sgn_eq_toInt (by decide), BitVec.ofNat_toNat, BitVec.setWidth_eq]

section Taken

variable {s : State} {n op w : Nat} {ev : MuleEv} (h : nextIs s n op w = true) (hev : isParity ev = false)
include h hev

/-- R261: where a branch goes. -/
theorem branch_goes {i : Instr} {taken : Prop} (hexec : exec i s = .next (whenLive s (doBranch s n op ev)))
    (hcond : branchCond op (iReg (mcore s n) (mD w)) (iReg (mcore s n) (mA w)) = true ↔ taken) :
    (taken → 0 ≤ ((mcore s n).pc : Int) + (BitVec.ofNat 16 w).toInt →
      ∃ u, exec i s = .next u ∧ ((mcore u n).pc : Int) = (mcore s n).pc + (BitVec.ofNat 16 w).toInt)
    ∧ (¬ taken → ∃ u, exec i s = .next u ∧ ((mcore u n).pc : Int) = (mcore s n).pc + 1) := by
  obtain ⟨u, hu, hfile⟩ := sameFile_of_ranTo (live_of_nextIs h) (exec_of_mRun hexec h hev (.inl rfl))
  have hpc := hfile.pc
  refine ⟨fun htaken hpos => ⟨u, hu, ?_⟩, fun hnot => ⟨u, hu, ?_⟩⟩
  · rw [if_pos (hcond.2 htaken), jumpBy, mImm_eq_toInt] at hpc
    rw [hpc, Int.toNat_of_nonneg hpos]
  · rw [if_neg (mt hcond.1 hnot)] at hpc
    rw [hpc]; rfl

/-- A retired instruction that jumps by the offset of format J goes there, with the return stack that it leaves. -/
theorem jump_goes {i : Instr} {ret : MCore → List Nat}
    (hexec : exec i s = .next (whenLive s (mRun s n op none ev (fun s c w => .ok s (jumpBy { c with ret := ret c } (mOff w)) 0 0))))
    (hpos : 0 ≤ ((mcore s n).pc : Int) + (BitVec.ofNat 26 w).toInt) :
    ∃ u, exec i s = .next u ∧ ((mcore u n).pc : Int) = (mcore s n).pc + (BitVec.ofNat 26 w).toInt ∧ (mcore u n).ret = ret (mcore s n) := by
  obtain ⟨u, hu, hfile⟩ := sameFile_of_ranTo (live_of_nextIs h) (exec_of_mRun hexec h hev (.inl rfl))
  refine ⟨u, hu, ?_, hfile.ret⟩
  rw [hfile.pc, jumpBy, mOff_eq_toInt]
  exact Int.toNat_of_nonneg hpos

/-- R262, R265: RET on an empty return stack halts. -/
theorem exec_sysRet_of_nil (hfn : mFn w = 3) (hop : op = 0) (hret : (mcore s n).ret = []) :
    exec (.sysRet n ev) s = .next (whenLive s (ranTo (muleEvent s n ev) n { nextPc (mcore s n) with st := 4 } 0 0)) := by
  subst hop
  have hexec := exec_of_mRun (exec_sysRet n ev s) h hev (.inr (by rw [hfn]))
  rwa [hret] at hexec

/-- R262: RET goes on at the index that it pops. -/
theorem exec_sysRet_of_cons (hfn : mFn w = 3) (hop : op = 0) {p : Nat} {t : List Nat} (hret : (mcore s n).ret = p :: t) :
    exec (.sysRet n ev) s = .next (whenLive s (ranTo (muleEvent s n ev) n { mcore s n with pc := p, ret := t } 0 0)) := by
  subst hop
  have hexec := exec_of_mRun (exec_sysRet n ev s) h hev (.inr (by rw [hfn]))
  rwa [hret] at hexec

end Taken

/-- Settles O30: each condition is that of its row on the two words, and a retired instruction keeps the index that it sets. -/
theorem branchesJumpsAndCalls : Obligations.BranchesJumpsAndCalls := by
  intro s n w ev hev
  have hd : iReg (mcore s n) (mD w) = (if bits w 21 5 = 0 then 0 else tabGet 0 (mcore s n).i (bits w 21 5) : BitVec 64).toNat :=
    iReg_eq_toNat _ _
  have ha : iReg (mcore s n) (mA w) = (if bits w 16 5 = 0 then 0 else tabGet 0 (mcore s n).i (bits w 16 5) : BitVec 64).toNat :=
    iReg_eq_toNat _ _
  refine ⟨fun h => branch_goes h hev (exec_beq n ev s) ?_, fun h => branch_goes h hev (exec_bne n ev s) ?_,
    fun h => branch_goes h hev (exec_blt n ev s) ?_, fun h => branch_goes h hev (exec_bge n ev s) ?_,
    fun h => branch_goes h hev (exec_bltu n ev s) ?_, fun h => branch_goes h hev (exec_bgeu n ev s) ?_,
    fun h hpos => ?j, fun h hpos => ?call, fun h hfn => ⟨fun p t hret => ?pop, fun hret => ?empty⟩⟩
  · simp [hd, ha, branchCond, BitVec.toNat_inj]
  · simp [hd, ha, branchCond, BitVec.toNat_inj]
  · simp [hd, ha, branchCond, sgn_toNat]
  · simp [hd, ha, branchCond, sgn_toNat]
  · simp [hd, ha, branchCond]
  · simp [hd, ha, branchCond]
  case j =>
    obtain ⟨u, hu, hpc, -⟩ := jump_goes (ret := MCore.ret) h hev (exec_j n ev s) hpos
    exact ⟨u, hu, hpc⟩
  case call =>
    obtain ⟨u, hu, hpc, hret⟩ := jump_goes (ret := fun c => ((c.pc + 1) :: c.ret).take 16) h hev (exec_call n ev s) hpos
    exact ⟨⟨u, hu, hpc⟩, u, hu, hret⟩
  case pop =>
    obtain ⟨u, hu, hfile⟩ := sameFile_of_ranTo (live_of_nextIs h) (exec_sysRet_of_cons h hev hfn rfl hret)
    exact ⟨⟨u, hu, by rw [hfile.pc]⟩, u, hu, hfile.ret⟩
  case empty =>
    refine ⟨_, exec_sysRet_of_nil h hev hfn rfl hret, ?_⟩
    rw [mcore_whenLive (live_of_nextIs h), mcore_ranTo_of_not_running _ _ (by simp)]

end Sys2Proof.Machine
end

section
/-! PROOFS. Control and scalar arithmetic of a Mule core (7.4, 7.5): each row retires with the core that its function leaves. -/

namespace Sys2Proof.Machine

/-! What the rows of this part stand for. -/

theorem exec_sysNop (n : Nat) (ev : MuleEv) (s : State) : exec (.sysNop n ev) s
    = .next (whenLive s (mRun s n 0x00 (some 0) ev (fun s c _ => .ok s (nextPc c) 0 0))) := rfl
theorem exec_sysHalt (n : Nat) (ev : MuleEv) (s : State) : exec (.sysHalt n ev) s
    = .next (whenLive s (mRun s n 0x00 (some 1) ev (fun s c _ => .ok s { nextPc c with st := 4 } 0 0))) := rfl
theorem exec_sysBar (n : Nat) (ev : MuleEv) (s : State) : exec (.sysBar n ev) s
    = .next (whenLive s (mRun s n 0x00 (some 2) ev (fun s c _ => .ok s { nextPc c with st := 3 } 0 0))) := rfl
theorem exec_sysSumi (n : Nat) (ev : MuleEv) (s : State) : exec (.sysSumi n ev) s
    = .next (whenLive s (mRun s n 0x00 (some 4) ev (fun s c w =>
        .ok s { nextPc c with sr := BitVec.ofNat 64 (iReg c (mA w)) } 0 0))) := rfl
theorem exec_sysSumf (n : Nat) (ev : MuleEv) (s : State) : exec (.sysSumf n ev) s
    = .next (whenLive s (mRun s n 0x00 (some 5) ev (fun s c w =>
        .ok s { nextPc c with sr := BitVec.ofNat 64 (fReg c (mA w)) } 0 0))) := rfl
theorem exec_sysFsrr (n : Nat) (ev : MuleEv) (s : State) : exec (.sysFsrr n ev) s
    = .next (whenLive s (mRun s n 0x00 (some 6) ev (fun s c w => .ok s (nextPc (setI c (mD w) c.fsr.toNat)) 0 0))) := rfl
theorem exec_sysFsrc (n : Nat) (ev : MuleEv) (s : State) : exec (.sysFsrc n ev) s
    = .next (whenLive s (mRun s n 0x00 (some 7) ev (fun s c w =>
        .ok s { nextPc c with fsr := c.fsr &&& ~~~(BitVec.ofNat 7 (iReg c (mA w))) } 0 0))) := rfl
theorem exec_sysSetvl (n : Nat) (ev : MuleEv) (s : State) : exec (.sysSetvl n ev) s
    = .next (whenLive s (mRun s n 0x00 (some 8) ev (fun s c w =>
        .ok s (nextPc (setI { c with vl := min (iReg c (mA w)) (64 * 2 ^ mB w) } (mD w) (min (iReg c (mA w)) (64 * 2 ^ mB w)))) 0 0))) := rfl
theorem exec_lis (n : Nat) (ev : MuleEv) (s : State) : exec (.lis n ev) s
    = .next (whenLive s (mRun s n 0x03 none ev (fun s c w =>
        putI s c (mD w) ((iReg c (mA w) <<< 16) ||| bits w 0 16, Fl.none)))) := rfl
theorem exec_jt (n : Nat) (ev : MuleEv) (s : State) : exec (.jt n ev) s
    = .next (whenLive s (mRun s n 0x04 none ev (fun s c w =>
        if iReg c (mA w) < bits w 0 9 then
          .ok s (jumpBy { c with pc := c.pc + 1 + iReg c (mA w) } (mOff (c.code.getD (c.pc + 1 + iReg c (mA w)) 0).toNat)) 0 0
        else .ok s { c with pc := c.pc + bits w 0 9 + 1 } 0 0))) := rfl
theorem exec_iop (n : Nat) (ev : MuleEv) (s : State) : exec (.iop n ev) s
    = .next (whenLive s (mRun s n 0x01 none ev (fun s c w =>
        putI s c (mD w) (iopFn (mFn w) (mOvf w) (iReg c (mA w)) (iReg c (mB w)))))) := rfl
theorem exec_addi (n : Nat) (ev : MuleEv) (s : State) : exec (.addi n ev) s
    = .next (whenLive s (mRun s n 0x02 none ev (fun s c w =>
        putI s c (mD w) (iAdd true true 64 (iReg c (mA w)) (unsgn 64 (mImm w)))))) := rfl
theorem exec_fop (n : Nat) (ev : MuleEv) (s : State) : exec (.fop n ev) s
    = .next (whenLive s (mRun s n 0x10 none ev (fun s c w =>
        putF s c (mD w) (fpFn (mFn w) (mRm w) (fReg c (mA w)) (fReg c (mB w))) (fpOps w)))) := rfl
theorem exec_fma (n : Nat) (ev : MuleEv) (s : State) : exec (.fma n ev) s
    = .next (whenLive s (mRun s n 0x11 none ev (fun s c w =>
        putF s c (mD w) (mFma (mRm w) (bits w 2 2) (fReg c (mA w)) (fReg c (mB w)) (fReg c (mFn w))) 2))) := rfl

/-- What FCMP writes: the class of a number, or a comparison of two (R268). -/
def fcmpRes (c : MCore) (w : Nat) : Nat × Fl :=
  if mFn w = 4 then (fpClass (fReg c (mA w)), Fl.none) else fpCmp (mFn w) (fReg c (mA w)) (fReg c (mB w))

theorem exec_fcmp (n : Nat) (ev : MuleEv) (s : State) : exec (.fcmp n ev) s
    = .next (whenLive s (mRun s n 0x12 none ev (fun s c w =>
        .ok s (nextPc (orFlags (setI c (mD w) (fcmpRes c w).1) (fcmpRes c w).2)) 0 1))) := rfl

/-- What FCVT writes (R269): conversions 0 to 2 and the move 7 read an integer register. -/
def fcvtRes (c : MCore) (w : Nat) : Nat × Fl :=
  fpCvt (mFn w) (mRm w) (mOvf w) (if mFn w ≤ 2 || mFn w = 7 then iReg c (mA w) else fReg c (mA w))

theorem exec_fcvt (n : Nat) (ev : MuleEv) (s : State) : exec (.fcvt n ev) s
    = .next (whenLive s (mRun s n 0x13 none ev (fun s c w =>
        .ok s (nextPc (orFlags (if mFn w ≤ 2 || mFn w == 7 || mFn w == 8 then setF c (mD w) (fcvtRes c w).1
          else setI c (mD w) (fcvtRes c w).1) (fcvtRes c w).2)) 0 (cvtOps w)))) := rfl

/-- An instruction without flags leaves the sticky and run flags (R270). -/
@[simp] theorem orFlags_none (c : MCore) : orFlags c Fl.none = c := by
  have hzero : BitVec.ofNat 7 (fsrBits Fl.none) = 0 := by decide
  simp [orFlags, hzero]

/-- Settles O29: the row of each function answers the core that the function leaves. -/
theorem muleControlInstructionsComplete : Obligations.MuleControlInstructionsComplete := by
  intro s n w ev hev
  refine ⟨fun h => ?sys, fun h => ?lis, fun h => ⟨fun hin => ?entry, fun hout => ?skip⟩⟩
  case sys =>
    exact ⟨fun hfn => exec_of_mRun (exec_sysNop n ev s) h hev (.inr (by rw [hfn])),
      fun hfn => exec_of_mRun (exec_sysHalt n ev s) h hev (.inr (by rw [hfn])),
      fun hfn => exec_of_mRun (exec_sysBar n ev s) h hev (.inr (by rw [hfn])),
      fun hfn hret => exec_sysRet_of_nil h hev hfn rfl hret, fun p t hfn hret => exec_sysRet_of_cons h hev hfn rfl hret,
      fun hfn => exec_of_mRun (exec_sysSumi n ev s) h hev (.inr (by rw [hfn])),
      fun hfn => exec_of_mRun (exec_sysSumf n ev s) h hev (.inr (by rw [hfn])),
      fun hfn => exec_of_mRun (exec_sysFsrr n ev s) h hev (.inr (by rw [hfn])),
      fun hfn => exec_of_mRun (exec_sysFsrc n ev s) h hev (.inr (by rw [hfn])),
      fun hfn => exec_of_mRun (exec_sysSetvl n ev s) h hev (.inr (by rw [hfn]))⟩
  case lis =>
    have hexec := exec_of_mRun (exec_lis n ev s) h hev (.inl rfl)
    rwa [putI, orFlags_none] at hexec
  case entry =>
    have hexec := exec_of_mRun (exec_jt n ev s) h hev (.inl rfl)
    rwa [if_pos hin] at hexec
  case skip =>
    have hexec := exec_of_mRun (exec_jt n ev s) h hev (.inl rfl)
    rwa [if_neg (Nat.not_lt.2 hout)] at hexec

/-- Settles O31: the row of each instruction answers its result and flags in the destination that the function names. -/
theorem muleArithmeticCompletes : Obligations.MuleArithmeticCompletes := by
  intro s n w ev hev
  refine ⟨fun h => exec_of_mRun (exec_iop n ev s) h hev (.inl rfl), fun h => exec_of_mRun (exec_addi n ev s) h hev (.inl rfl),
    fun h => exec_of_mRun (exec_fop n ev s) h hev (.inl rfl), fun h => exec_of_mRun (exec_fma n ev s) h hev (.inl rfl),
    fun h => ?fcmp, fun h => ?fcvt⟩
  case fcmp =>
    have hexec := exec_of_mRun (exec_fcmp n ev s) h hev (.inl rfl)
    refine ⟨fun hfn => ?_, fun hfn => ?_⟩
    · rwa [fcmpRes, if_pos hfn] at hexec
    · rwa [fcmpRes, if_neg hfn] at hexec
  case fcvt =>
    have hexec := exec_of_mRun (exec_fcvt n ev s) h hev (.inl rfl)
    rw [fcvtRes, cvtOps] at hexec
    refine ⟨fun hfn => ?_, fun hfn => ?_, fun hfn => ?_, fun hlo hhi => ?_⟩
    · simpa [hfn, show mFn w ≤ 5 by omega, mEnd] using hexec
    · simpa [hfn, mEnd] using hexec
    · simpa [hfn, mEnd] using hexec
    · have h2 : ¬ mFn w ≤ 2 := by omega
      have h7 : mFn w ≠ 7 := by omega
      have h8 : mFn w ≠ 8 := by omega
      simpa [h2, h7, h8, mEnd] using hexec

end Sys2Proof.Machine
end

section
/-! PROOFS. Vector loads and stores (R282, R298). -/

namespace Sys2Proof.Machine

/-! What the rows of this part stand for. -/

theorem exec_vld64 (n : Nat) (ev : MuleEv) (s : State) :
    exec (.vld64 n ev) s = .next (whenLive s (gateVector s n 0x30 64 false (doVmem s n 0x30 64 true ev))) := rfl
theorem exec_vld32 (n : Nat) (ev : MuleEv) (s : State) :
    exec (.vld32 n ev) s = .next (whenLive s (gateVector s n 0x31 32 false (doVmem s n 0x31 32 true ev))) := rfl
theorem exec_vld16 (n : Nat) (ev : MuleEv) (s : State) :
    exec (.vld16 n ev) s = .next (whenLive s (gateVector s n 0x32 16 false (doVmem s n 0x32 16 true ev))) := rfl
theorem exec_vst64 (n : Nat) (ev : MuleEv) (s : State) :
    exec (.vst64 n ev) s = .next (whenLive s (gateVector s n 0x33 64 true (doVmem s n 0x33 64 false ev))) := rfl
theorem exec_vst32 (n : Nat) (ev : MuleEv) (s : State) :
    exec (.vst32 n ev) s = .next (whenLive s (gateVector s n 0x34 32 true (doVmem s n 0x34 32 false ev))) := rfl
theorem exec_vst16 (n : Nat) (ev : MuleEv) (s : State) :
    exec (.vst16 n ev) s = .next (whenLive s (gateVector s n 0x35 16 true (doVmem s n 0x35 16 false ev))) := rfl

/-- The elements of a vector access of width `width` from vresume on, as far as they go (R298). -/
def vmemRun (s : State) (n w width : Nat) (load : Bool) (ev : MuleEv) (c : MCore) : VMem :=
  (natsFrom c.vresume (vecN c width - c.vresume)).foldl
    (if load then vldElem w width (vecN c width) ev else vstElem n w width (vecN c width) ev) { st := s, core := c }

/-- What a vector access that no element stops leaves its core as: a load's elements are cut to those it processes. -/
def vmemCore (m : VMem) (c : MCore) (w width : Nat) (load : Bool) : MCore :=
  nextPc { (if load then setV m.core (mD w) (bits (vReg m.core (mD w)) 0 (width * vecN c width)) else m.core) with vresume := 0 }

theorem doVmem_eq (s : State) (n op width : Nat) (load : Bool) (ev : MuleEv) : doVmem s n op width load ev = mRun s n op none ev (fun s c w =>
    match (vmemRun s n w width load ev c).stop with
    | some (e, cause) => .stop (vmemRun s n w width load ev c).st { (vmemRun s n w width load ev c).core with vresume := e } cause
    | none => .ok (vmemRun s n w width load ev c).st (vmemCore (vmemRun s n w width load ev c) c w width load)
        (beatsOf (vecN c width) width) 0) := rfl

/-- R282, R298: a vector access retires where none of its elements stops, and stops at the first one that does. -/
theorem vmem_completes {s : State} {n op w width : Nat} {ev : MuleEv} {i : Instr} {load : Bool}
    (hexec : exec i s = .next (whenLive s (gateVector s n op width (!load) (doVmem s n op width load ev))))
    (h : nextIs s n op w = true) (hev : isParity ev = false) (hnowhere : heldNowhere s = true) {m : VMem}
    (hm : m = vmemRun (muleEvent s n ev) n w width load ev (mcore s n)) :
    (m.stop = none → exec i s = .next (whenLive s (ranTo m.st n (vmemCore m (mcore s n) w width load)
      (beatsOf (vecN (mcore s n) width) width) 0)))
    ∧ (∀ e cause, m.stop = some (e, cause) →
      exec i s = .next (whenLive s (stopCore (setCore m.st n { m.core with vresume := e }) n cause))) := by
  rw [gateVector_of_heldNowhere hnowhere, doVmem_eq] at hexec
  have hrun := exec_of_mRun hexec h hev (.inl rfl)
  simp only [← hm] at hrun
  refine ⟨fun hstop => ?_, fun e cause hstop => ?_⟩ <;> rwa [hstop] at hrun

/-- Settles O35: each row is a vector access of its width, whose elements are those of the statement. -/
theorem vectorLoadsAndStoresComplete : Obligations.VectorLoadsAndStoresComplete := by
  intro s n w ev hev hnowhere
  exact ⟨fun h => vmem_completes (exec_vld64 n ev s) h hev hnowhere rfl, fun h => vmem_completes (exec_vld32 n ev s) h hev hnowhere rfl,
    fun h => vmem_completes (exec_vld16 n ev s) h hev hnowhere rfl, fun h => vmem_completes (exec_vst64 n ev s) h hev hnowhere rfl,
    fun h => vmem_completes (exec_vst32 n ev s) h hev hnowhere rfl, fun h => vmem_completes (exec_vst16 n ev s) h hev hnowhere rfl⟩

end Sys2Proof.Machine
end

section
/-! PROOFS. The register file of a core after a write (7.2), and vector instructions element by element (R271 to R277). -/

namespace Sys2Proof.Machine

/-! What a write of the core leaves as it is. -/

section Core

variable (c : MCore)

@[simp] theorem nextPc_pc : (nextPc c).pc = c.pc + 1 := rfl
@[simp] theorem nextPc_i : (nextPc c).i = c.i := rfl
@[simp] theorem nextPc_v : (nextPc c).v = c.v := rfl
@[simp] theorem nextPc_k : (nextPc c).k = c.k := rfl
@[simp] theorem nextPc_ret : (nextPc c).ret = c.ret := rfl
@[simp] theorem nextPc_vl : (nextPc c).vl = c.vl := rfl

@[simp] theorem orFlags_pc (f : Fl) : (orFlags c f).pc = c.pc := rfl
@[simp] theorem orFlags_i (f : Fl) : (orFlags c f).i = c.i := rfl
@[simp] theorem orFlags_v (f : Fl) : (orFlags c f).v = c.v := rfl
@[simp] theorem orFlags_k (f : Fl) : (orFlags c f).k = c.k := rfl
@[simp] theorem orFlags_ret (f : Fl) : (orFlags c f).ret = c.ret := rfl
@[simp] theorem orFlags_vl (f : Fl) : (orFlags c f).vl = c.vl := rfl

@[simp] theorem setV_pc (r x : Nat) : (setV c r x).pc = c.pc := rfl
@[simp] theorem setV_i (r x : Nat) : (setV c r x).i = c.i := rfl
@[simp] theorem setV_k (r x : Nat) : (setV c r x).k = c.k := rfl
@[simp] theorem setV_ret (r x : Nat) : (setV c r x).ret = c.ret := rfl
@[simp] theorem setV_vl (r x : Nat) : (setV c r x).vl = c.vl := rfl

@[simp] theorem setI_pc (r x : Nat) : (setI c r x).pc = c.pc := by unfold setI; split <;> rfl
@[simp] theorem setK_pc (r x : Nat) : (setK c r x).pc = c.pc := by unfold setK; split <;> rfl
@[simp] theorem setK_i (r x : Nat) : (setK c r x).i = c.i := by unfold setK; split <;> rfl
@[simp] theorem setK_v (r x : Nat) : (setK c r x).v = c.v := by unfold setK; split <;> rfl

end Core

/-! Registers read. -/

theorem vReg_congr {c d : MCore} (h : d.v = c.v) (r : Nat) : vReg d r = vReg c r := by simp only [vReg, h]
theorem iReg_congr {c d : MCore} (h : d.i = c.i) (r : Nat) : iReg d r = iReg c r := by simp only [iReg, h]
theorem kReg_congr {c d : MCore} (h : d.k = c.k) (r : Nat) : kReg d r = kReg c r := by simp only [kReg, h]

@[simp] theorem vReg_nextPc (c : MCore) (r : Nat) : vReg (nextPc c) r = vReg c r := rfl
@[simp] theorem vReg_orFlags (c : MCore) (f : Fl) (r : Nat) : vReg (orFlags c f) r = vReg c r := rfl
@[simp] theorem iReg_nextPc (c : MCore) (r : Nat) : iReg (nextPc c) r = iReg c r := rfl
@[simp] theorem kReg_nextPc (c : MCore) (r : Nat) : kReg (nextPc c) r = kReg c r := rfl
@[simp] theorem kReg_orFlags (c : MCore) (f : Fl) (r : Nat) : kReg (orFlags c f) r = kReg c r := rfl

/-- The word of a number, at any width: a literal width would be computed with. -/
theorem toNat_ofNat_mod (w x : Nat) : (BitVec.ofNat w x).toNat = x % 2 ^ w := BitVec.toNat_ofNat x w

theorem toNat_lt_two_pow {w : Nat} (x : BitVec w) : x.toNat < 2 ^ w := x.isLt

/-- A vector register after one is written. -/
theorem vReg_setV (c : MCore) (d x r : Nat) : vReg (setV c d x) r = if d = r then x % 2 ^ 4096 else vReg c r := by
  simp only [vReg, setV, tabGet_tabSet, apply_ite BitVec.toNat, toNat_ofNat_mod]

@[simp] theorem vReg_setV_self (c : MCore) (d x : Nat) : vReg (setV c d x) d = x % 2 ^ 4096 := by rw [vReg_setV, if_pos rfl]

/-- An integer register other than i[0] reads what was written. -/
theorem iReg_setI_self (c : MCore) {d : Nat} (hd : d ≠ 0) (x : Nat) : iReg (setI c d x) d = x % 2 ^ 64 := by
  simp [iReg, setI, hd]

/-- A mask register other than k[0] reads what was written. -/
theorem kReg_setK_self (c : MCore) {d : Nat} (hd : d ≠ 0) (x : Nat) : kReg (setK c d x) d = x % 2 ^ 256 := by
  rw [kReg, setK, if_neg hd, if_neg hd, tabGet_tabSet, if_pos rfl, toNat_ofNat_mod]

theorem vReg_lt (c : MCore) (r : Nat) : vReg c r < 2 ^ 4096 := toNat_lt_two_pow _

theorem iReg_lt (c : MCore) (r : Nat) : iReg c r < 2 ^ 64 := by
  rw [iReg_eq_toNat]
  exact toNat_lt_two_pow _

theorem kReg_lt (c : MCore) (r : Nat) : kReg c r < 2 ^ 256 := by
  unfold kReg
  split
  · decide
  · exact toNat_lt_two_pow _

theorem bits_lt (x lo w : Nat) : bits x lo w < 2 ^ w := Nat.mod_lt _ (Nat.two_pow_pos w)

theorem bits_eq_div (x lo w : Nat) : bits x lo w = x / 2 ^ lo % 2 ^ w := by rw [bits, Nat.shiftRight_eq_div_pow]

/-! A register value joined from elements. -/

theorem vecJoin_cons (w x : Nat) (l : List Nat) : vecJoin w (x :: l) = x % 2 ^ w + 2 ^ w * vecJoin w l := rfl

/-- Joined elements fit the places that they take. -/
theorem vecJoin_lt {w N : Nat} {l : List Nat} (h : w * l.length ≤ N) : vecJoin w l < 2 ^ N := by
  refine lt_of_lt_of_le ?_ (Nat.pow_le_pow_right (by decide) h)
  clear h
  induction l with
  | nil => simp [vecJoin]
  | cons x l ih =>
    rw [vecJoin_cons, List.length_cons, Nat.mul_succ, Nat.add_comm (w * l.length), Nat.pow_add]
    have hx : x % 2 ^ w < 2 ^ w := Nat.mod_lt _ (Nat.two_pow_pos w)
    calc x % 2 ^ w + 2 ^ w * vecJoin w l < 2 ^ w * (vecJoin w l + 1) := by rw [Nat.mul_succ]; omega
      _ ≤ 2 ^ w * 2 ^ (w * l.length) := Nat.mul_le_mul_left _ ih

/-- R254: element `e` of joined elements. -/
theorem bits_vecJoin (w : Nat) (l : List Nat) (e : Nat) : bits (vecJoin w l) (w * e) w = l.getD e 0 % 2 ^ w := by
  induction l generalizing e with
  | nil => simp [vecJoin, bits]
  | cons x l ih =>
    rw [vecJoin_cons]
    cases e with
    | zero => simp [bits]
    | succ e =>
      have hhigh : (x % 2 ^ w + 2 ^ w * vecJoin w l) / 2 ^ w = vecJoin w l := by
        rw [Nat.add_mul_div_left _ _ (Nat.two_pow_pos w), Nat.div_eq_of_lt (Nat.mod_lt _ (Nat.two_pow_pos w)), Nat.zero_add]
      rw [bits_eq_div, Nat.mul_succ, Nat.add_comm (w * e), Nat.pow_add, ← Nat.div_div_eq_div_mul, hhigh, ← bits_eq_div, ih, List.getD_cons_succ]

/-- R271, R272: element `e` of a vector instruction's results. -/
theorem getD_vecMap (c : MCore) (w msk : Nat) (f : Nat → Nat × Fl) (e : Nat) :
    ((vecMap c w msk f).map (·.1)).getD e 0 = if vecAct c msk (vecN c w) e then (f e).1 else 0 := by
  by_cases he : e < vecN c w
  · simp [vecMap, he, apply_ite Prod.fst]
  · simp [vecMap, vecAct, he]

/-- A vector instruction's results fit a register of a multiple of their width. -/
theorem vecJoin_vecMap_lt (c : MCore) (w msk : Nat) (f : Nat → Nat × Fl) : vecJoin w ((vecMap c w msk f).map (·.1)) < 2 ^ 4096 := by
  refine vecJoin_lt ?_
  simp only [vecMap, List.length_map, List.length_range]
  calc w * vecN c w ≤ w * (4096 / w) := Nat.mul_le_mul_left _ (Nat.min_le_right _ _)
    _ ≤ 4096 := Nat.mul_div_le 4096 w

/-- R272: a vector written element by element: an active element holds its result, every other one is zero. -/
theorem bits_vReg_vecMap (c x : MCore) (d w msk : Nat) (f : Nat → Nat × Fl) (e : Nat) :
    bits (vReg (setV x d (vecJoin w ((vecMap c w msk f).map (·.1)))) d) (w * e) w
      = if vecAct c msk (vecN c w) e then (f e).1 % 2 ^ w else 0 := by
  rw [vReg_setV_self, Nat.mod_eq_of_lt (vecJoin_vecMap_lt c w msk f), bits_vecJoin, getD_vecMap]
  split <;> simp

/-! What the rows of this part stand for. -/

theorem exec_vfop (n : Nat) (ev : MuleEv) (s : State) : exec (.vfop n ev) s = .next (whenLive s (doVfp s n 0x20 ev fpOps (fun c i e =>
    fpFn (mFn i) (mRm i) (vElem (vReg c (mA i)) 64 e) (vElem (vReg c (mB i)) 64 e)))) := rfl
theorem exec_vfops (n : Nat) (ev : MuleEv) (s : State) : exec (.vfops n ev) s = .next (whenLive s (doVfp s n 0x21 ev fpOps (fun c i e =>
    fpFn (mFn i) (mRm i) (vElem (vReg c (mA i)) 64 e) (fReg c (mB i))))) := rfl
theorem exec_vfcvt (n : Nat) (ev : MuleEv) (s : State) : exec (.vfcvt n ev) s = .next (whenLive s (doVfp s n 0x26 ev cvtOps (fun c i e =>
    fpCvt (mFn i) (mRm i) (mOvf i) (vElem (vReg c (mA i)) 64 e)))) := rfl
theorem exec_vfma (n : Nat) (ev : MuleEv) (s : State) : exec (.vfma n ev) s = .next (whenLive s (doVfma s n 0x22 ev false)) := rfl
theorem exec_vfmas (n : Nat) (ev : MuleEv) (s : State) : exec (.vfmas n ev) s = .next (whenLive s (doVfma s n 0x23 ev true)) := rfl
theorem exec_vi64 (n : Nat) (ev : MuleEv) (s : State) : exec (.vi64 n ev) s = .next (whenLive s (doVi s n 0x28 64 ev)) := rfl
theorem exec_vi32 (n : Nat) (ev : MuleEv) (s : State) : exec (.vi32 n ev) s = .next (whenLive s (doVi s n 0x29 32 ev)) := rfl
theorem exec_vi16 (n : Nat) (ev : MuleEv) (s : State) : exec (.vi16 n ev) s = .next (whenLive s (doVi s n 0x2A 16 ev)) := rfl

/-! Vector instructions. -/

/-- What an instruction that writes a vector element by element leaves: its results, every other register and the return stack as they
were, at the next index. -/
theorem elementwise_of_putV {s x : State} {n : Nat} {i : Instr} {d w msk bt ops : Nat} {f : Nat → Nat × Fl} (hlive : live s = true)
    (hexec : exec i s = .next (whenLive s (mEnd n (putV x (mcore s n) d w (vecMap (mcore s n) w msk f) bt ops)))) :
    ∃ u, exec i s = .next u
      ∧ (∀ e < 4096 / w, bits (vReg (mcore u n) d) (w * e) w
          = if vecAct (mcore s n) msk (vecN (mcore s n) w) e then (f e).1 % 2 ^ w else 0)
      ∧ (∀ r, r ≠ d → vReg (mcore u n) r = vReg (mcore s n) r)
      ∧ (mcore u n).i = (mcore s n).i ∧ (mcore u n).k = (mcore s n).k ∧ (mcore u n).ret = (mcore s n).ret
      ∧ (mcore u n).vl = (mcore s n).vl ∧ (mcore u n).pc = (mcore s n).pc + 1 := by
  obtain ⟨u, hu, hpc, hret, hi, hv, hk, hvl⟩ := sameFile_of_ranTo hlive hexec
  refine ⟨u, hu, fun e _ => ?_, fun r hr => ?_, hi, hk, hret, hvl, hpc⟩
  · rw [vReg_congr hv, vReg_nextPc, vReg_orFlags, bits_vReg_vecMap]
  · rw [vReg_congr hv, vReg_nextPc, vReg_orFlags, vReg_setV, if_neg (Ne.symm hr)]

/-- The element function of VI64, VI32 and VI16 (Table 7.9) on a core's registers. -/
def viElem (c : MCore) (w width e : Nat) : Nat × Fl :=
  viFn (mFn w) (mRm w) (mOvf w) width (vElem (vReg c (mA w)) width e) (vElem (vReg c (mB w)) width e)

section Rows

variable {s : State} {n op w : Nat} {ev : MuleEv} {i : Instr} (h : nextIs s n op w = true) (hev : isParity ev = false)
include h hev

/-- R277: an integer vector instruction that does not widen writes its element function's results, as a vector or as a mask. -/
theorem exec_of_doVi {width : Nat} (hexec : exec i s = .next (whenLive s (doVi s n op width ev))) (hfn : mFn w ≠ 19) :
    exec i s = .next (whenLive s (mEnd n (
      if 20 ≤ mFn w then putK (muleEvent s n ev) (mcore s n) (mD w) (vecMap (mcore s n) width (mMsk w) (viElem (mcore s n) w width))
        (beatsOf (vecN (mcore s n) width) width) 0
      else putV (muleEvent s n ev) (mcore s n) (mD w) (if mFn w = 18 then width / 2 else width)
        (vecMap (mcore s n) width (mMsk w) (viElem (mcore s n) w width)) (beatsOf (vecN (mcore s n) width) width) 0))) := by
  have hrun := exec_of_mRun hexec h hev (.inl rfl)
  simp only [if_neg hfn] at hrun
  exact hrun

/-- An integer vector instruction of an unchanged width writes a vector of that width. -/
theorem exec_of_doVi_vector {width : Nat} (hexec : exec i s = .next (whenLive s (doVi s n op width ev))) (hfn : mFn w ≤ 17) :
    exec i s = .next (whenLive s (mEnd n (putV (muleEvent s n ev) (mcore s n) (mD w) width
      (vecMap (mcore s n) width (mMsk w) (viElem (mcore s n) w width)) (beatsOf (vecN (mcore s n) width) width) 0))) := by
  have hrun := exec_of_doVi h hev hexec (by omega)
  rwa [if_neg (by omega), if_neg (by omega)] at hrun

end Rows

/-- Settles O32: each row writes the elements of one vector by its scalar function. -/
theorem vectorInstructionsAreElementwise : Obligations.VectorInstructionsAreElementwise := by
  intro s n w ev hev
  refine ⟨fun h => ?_, fun h => ?_, fun h => ?_, fun h => ?_, fun h => ?_, fun hfn => ⟨fun h => ?_, fun h => ?_, fun h => ?_⟩⟩
  · exact elementwise_of_putV (live_of_nextIs h) (exec_of_mRun (exec_vfop n ev s) h hev (.inl rfl))
  · exact elementwise_of_putV (live_of_nextIs h) (exec_of_mRun (exec_vfops n ev s) h hev (.inl rfl))
  · exact elementwise_of_putV (live_of_nextIs h) (exec_of_mRun (exec_vfcvt n ev s) h hev (.inl rfl))
  · exact elementwise_of_putV (live_of_nextIs h) (exec_of_mRun (exec_vfma n ev s) h hev (.inl rfl))
  · exact elementwise_of_putV (live_of_nextIs h) (exec_of_mRun (exec_vfmas n ev s) h hev (.inl rfl))
  · exact elementwise_of_putV (live_of_nextIs h) (exec_of_doVi_vector h hev (exec_vi64 n ev s) hfn)
  · exact elementwise_of_putV (live_of_nextIs h) (exec_of_doVi_vector h hev (exec_vi32 n ev s) hfn)
  · exact elementwise_of_putV (live_of_nextIs h) (exec_of_doVi_vector h hev (exec_vi16 n ev s) hfn)

end Sys2Proof.Machine
end

section
/-! PROOFS. Masks, reductions and moves between register files (R275 to R279). -/

namespace Sys2Proof.Machine

/-! Bits and fields. -/

theorem bitAt_eq_bits (x e : Nat) : bitAt x e = decide (bits x (1 * e) 1 = 1) := by
  rw [bitAt, bits_eq_div, Nat.one_mul, Nat.pow_one, Nat.testBit_eq_decide_div_mod_eq]

theorem testBit_bits (x lo w j : Nat) : (bits x lo w).testBit j = (decide (j < w) && x.testBit (lo + j)) := by
  rw [bits, Nat.testBit_mod_two_pow, Nat.testBit_shiftRight]

/-- A number whose field is set, in its three parts. -/
theorem setBits_eq (x lo w v : Nat) : setBits x lo w v = 2 ^ lo * (2 ^ w * (x / 2 ^ (lo + w)) + v % 2 ^ w) + x % 2 ^ lo := by
  have hx : x = 2 ^ lo * (2 ^ w * (x / 2 ^ (lo + w)) + x / 2 ^ lo % 2 ^ w) + x % 2 ^ lo := by
    rw [Nat.pow_add, ← Nat.div_div_eq_div_mul, Nat.div_add_mod, Nat.div_add_mod]
  rw [setBits, bits_eq_div, Nat.shiftLeft_eq, Nat.shiftLeft_eq]
  generalize x / 2 ^ (lo + w) = hi at hx ⊢
  generalize x / 2 ^ lo % 2 ^ w = mid at hx ⊢
  generalize x % 2 ^ lo = low at hx ⊢
  subst hx
  rw [Nat.mul_add, Nat.mul_add, Nat.mul_comm mid, Nat.mul_comm (v % 2 ^ w)]
  omega

/-- A bit of a number whose field is set: the value's within the field, the number's own elsewhere. -/
theorem testBit_setBits (x lo w v j : Nat) :
    (setBits x lo w v).testBit j = if lo ≤ j ∧ j < lo + w then v.testBit (j - lo) else x.testBit j := by
  have hmod (y k : Nat) : y % 2 ^ k < 2 ^ k := Nat.mod_lt _ (Nat.two_pow_pos k)
  rw [setBits_eq, Nat.testBit_two_pow_mul_add _ (hmod _ _), Nat.testBit_two_pow_mul_add _ (hmod _ _), Nat.testBit_mod_two_pow,
    Nat.testBit_mod_two_pow, Nat.testBit_div_two_pow]
  by_cases hlo : j < lo
  · simp [hlo, Nat.not_le.2 hlo]
  · by_cases hhi : j < lo + w
    · simp [hlo, hhi, show j - lo < w by omega, Nat.not_lt.1 hlo]
    · simp [hlo, hhi, show ¬ j - lo < w by omega, show j - lo - w + (lo + w) = j by omega]

/-- R254: an element of a register one element of which is set. -/
theorem bits_setBits_elem (x w i v e : Nat) :
    bits (setBits x (w * i) w v) (w * e) w = if e = i then v % 2 ^ w else bits x (w * e) w := by
  apply Nat.eq_of_testBit_eq
  intro j
  rw [testBit_bits, testBit_setBits]
  by_cases hj : j < w
  · by_cases he : e = i
    · subst he
      simp [hj, Nat.testBit_mod_two_pow]
    · have hout : ¬ (w * i ≤ w * e + j ∧ w * e + j < w * i + w) := by
        rcases Nat.lt_or_gt_of_ne he with hlt | hgt
        · have := Nat.mul_le_mul_left w (show e + 1 ≤ i from hlt)
          rw [Nat.mul_succ] at this
          omega
        · have := Nat.mul_le_mul_left w (show i + 1 ≤ e from hgt)
          rw [Nat.mul_succ] at this
          omega
      rw [if_neg hout, if_neg he, testBit_bits]
  · split_ifs <;> simp [hj, testBit_bits, Nat.testBit_mod_two_pow]

/-- A field below the bits that are cut off. -/
theorem bits_mod_two_pow {x lo w N : Nat} (h : lo + w ≤ N) : bits (x % 2 ^ N) lo w = bits x lo w := by
  apply Nat.eq_of_testBit_eq
  intro j
  rw [testBit_bits, testBit_bits, Nat.testBit_mod_two_pow]
  by_cases hj : j < w
  · simp [hj, show lo + j < N by omega]
  · simp [hj]

theorem bitAt_mod_two_pow {e N : Nat} (h : e < N) (x : Nat) : bitAt (x % 2 ^ N) e = bitAt x e := by
  rw [bitAt, Nat.testBit_mod_two_pow, decide_eq_true h, Bool.true_and, bitAt]

theorem bitAt_xor (x y e : Nat) : bitAt (Nat.xor x y) e = (bitAt x e != bitAt y e) := Nat.testBit_xor x y e

theorem bitAt_ones {e N : Nat} (h : e < N) : bitAt (2 ^ N - 1) e = true := by
  rw [bitAt, Nat.testBit_two_pow_sub_one, decide_eq_true h]

/-! Masks. -/

/-- R275: a mask written element by element: the bit of an active element is its result's lowest, every other one is zero. -/
theorem bitAt_kReg_vecMap (c x : MCore) {d w : Nat} (hd : d ≠ 0) (hw : 16 ≤ w) (msk : Nat) (f : Nat → Nat × Fl) (e : Nat) :
    bitAt (kReg (setK x d (vecJoin 1 ((vecMap c w msk f).map (·.1)))) d) e
      = (vecAct c msk (vecN c w) e && decide ((f e).1 % 2 = 1)) := by
  have hfit : vecJoin 1 ((vecMap c w msk f).map (·.1)) < 2 ^ 256 := by
    refine vecJoin_lt ?_
    have hplaces : 4096 / w ≤ 4096 / 16 := Nat.div_le_div_left hw (by decide)
    have hn : vecN c w ≤ 4096 / w := Nat.min_le_right _ _
    simp only [vecMap, List.length_map, List.length_range]
    omega
  rw [kReg_setK_self x hd, Nat.mod_eq_of_lt hfit, bitAt_eq_bits, bits_vecJoin, getD_vecMap]
  cases vecAct c msk (vecN c w) e <;> simp

/-- What an instruction that writes a mask element by element leaves. -/
theorem mask_of_putK {s x : State} {n : Nat} {i : Instr} {d w msk bt ops : Nat} {f : Nat → Nat × Fl} (hlive : live s = true)
    (hexec : exec i s = .next (whenLive s (mEnd n (putK x (mcore s n) d (vecMap (mcore s n) w msk f) bt ops)))) (hw : 16 ≤ w) (hd : d ≠ 0) :
    ∃ u, exec i s = .next u
      ∧ (∀ e < 256, bitAt (kReg (mcore u n) d) e = (vecAct (mcore s n) msk (vecN (mcore s n) w) e && decide ((f e).1 % 2 = 1)))
      ∧ (mcore u n).v = (mcore s n).v ∧ (mcore u n).i = (mcore s n).i ∧ (mcore u n).pc = (mcore s n).pc + 1 := by
  obtain ⟨u, hu, hpc, -, hi, hv, hk, -⟩ := sameFile_of_ranTo hlive hexec
  refine ⟨u, hu, fun e _ => ?_, by simpa using hv, by simpa using hi, by simpa using hpc⟩
  rw [kReg_congr hk, kReg_nextPc, kReg_orFlags, bitAt_kReg_vecMap _ _ hd hw]

/-! What the rows of this part stand for. -/

theorem exec_vfcmp (n : Nat) (ev : MuleEv) (s : State) : exec (.vfcmp n ev) s = .next (whenLive s (mRun s n 0x24 none ev (fun s c i =>
    putK s c (mD i) (vecMap c 64 (mMsk i) (fun e => fpCmp (mFn i) (vElem (vReg c (mA i)) 64 e) (vElem (vReg c (mB i)) 64 e)))
      (beatsOf (vecN c 64) 64) (vecActive c 64 (mMsk i))))) := rfl

/-- What VFRED writes (R276): the active elements of a register reduced. -/
def vfredRes (c : MCore) (w : Nat) : Nat × Fl :=
  vfRed (mFn w) (mRm w) ((List.range 64).map (fun e => if vecAct c (mMsk w) (vecN c 64) e then some (vElem (vReg c (mA w)) 64 e) else none))

theorem exec_vfred (n : Nat) (ev : MuleEv) (s : State) : exec (.vfred n ev) s = .next (whenLive s (mRun s n 0x25 none ev (fun s c w =>
    .ok s (nextPc (orFlags (setF c (mD w) (vfredRes c w).1) (vfredRes c w).2)) (beatsOf (vecN c 64) 64) (vecActive c 64 (mMsk w) - 1)))) := rfl
theorem exec_vmisc (n : Nat) (ev : MuleEv) (s : State) :
    exec (.vmisc n ev) s = .next (whenLive s (mRun s n 0x2C none ev vmiscBody)) := rfl

/-- An integer compare writes a mask. -/
theorem exec_of_doVi_mask {s : State} {n op w width : Nat} {ev : MuleEv} {i : Instr} (h : nextIs s n op w = true) (hev : isParity ev = false)
    (hexec : exec i s = .next (whenLive s (doVi s n op width ev))) (hfn : 20 ≤ mFn w) :
    exec i s = .next (whenLive s (mEnd n (putK (muleEvent s n ev) (mcore s n) (mD w)
      (vecMap (mcore s n) width (mMsk w) (viElem (mcore s n) w width)) (beatsOf (vecN (mcore s n) width) width) 0))) := by
  have hrun := exec_of_doVi h hev hexec (by omega)
  rwa [if_pos hfn] at hrun

/-! VMISC (R279). -/

/-- The core that an instruction's result leaves. -/
def MRes.core : MRes → MCore
  | .ok _ c _ _ => c
  | .stop _ c _ => c

/-- VMISC always retires, at the next index. -/
theorem vmiscBody_retires (s : State) (c : MCore) (w : Nat) :
    (∃ beats, vmiscBody s c w = .ok s (vmiscBody s c w).core beats 0) ∧ (vmiscBody s c w).core.pc = c.pc + 1 := by
  unfold vmiscBody
  dsimp only
  split <;> exact ⟨⟨_, rfl⟩, by simp [MRes.core, putV, apply_ite MCore.pc]⟩

/-- R272: the elements that a VMISC function writes to a vector. -/
theorem bits_core_putV (s : State) (c : MCore) (d w msk : Nat) (f : Nat → Nat × Fl) (bt ops e : Nat) :
    bits (vReg (putV s c d w (vecMap c w msk f) bt ops).core d) (w * e) w = if vecAct c msk (vecN c w) e then (f e).1 % 2 ^ w else 0 :=
  bits_vReg_vecMap c c d w msk f e

/-- A count of ones is at most the width counted. -/
theorem popCount_le (w x : Nat) : popCount w x ≤ w := by
  induction w generalizing x with
  | zero => exact Nat.le_refl 0
  | succ w ih =>
    have := ih (x / 2)
    rw [popCount]
    omega

/-- The first bit of those below `w` that are 1. -/
theorem head?_bitsOf {w x e : Nat} (he : e < w) (hbit : bitAt x e = true) (hnone : ∀ e' < e, bitAt x e' = false) :
    (bitsOf w x).head? = some e := by
  rw [bitsOf, List.head?_filter, List.find?_range_eq_some]
  simpa [he, bitAt] using ⟨hbit, hnone⟩

section Vmisc

variable (s : State) (c : MCore) (w : Nat)

/-- R279: the splats and the index vector. -/
theorem vmisc_splats :
    (mFn w = 0 → ∀ e, bits (vReg (vmiscBody s c w).core (mD w)) (64 * e) 64
      = if vecAct c (mMsk w) (vecN c 64) e then iReg c (mA w) % 2 ^ 64 else 0)
    ∧ (mFn w = 1 → ∀ e, bits (vReg (vmiscBody s c w).core (mD w)) (64 * e) 64
      = if vecAct c (mMsk w) (vecN c 64) e then fReg c (mA w) % 2 ^ 64 else 0)
    ∧ (mFn w = 2 → ∀ e, bits (vReg (vmiscBody s c w).core (mD w)) (32 * e) 32
      = if vecAct c (mMsk w) (vecN c 32) e then iReg c (mA w) % 2 ^ 32 else 0)
    ∧ (mFn w = 3 → ∀ e, bits (vReg (vmiscBody s c w).core (mD w)) (16 * e) 16
      = if vecAct c (mMsk w) (vecN c 16) e then iReg c (mA w) % 2 ^ 16 else 0)
    ∧ (mFn w = 5 → ∀ e < 64, bits (vReg (vmiscBody s c w).core (mD w)) (64 * e) 64 = if vecAct c (mMsk w) (vecN c 64) e then e else 0) := by
  refine ⟨fun hfn e => ?_, fun hfn e => ?_, fun hfn e => ?_, fun hfn e => ?_, fun hfn e he => ?_⟩
  · simp only [vmiscBody, hfn, bits_core_putV]
  · simp only [vmiscBody, hfn, bits_core_putV]
  · simp [vmiscBody, hfn, vmWidth, bits_core_putV]
  · simp [vmiscBody, hfn, vmWidth, bits_core_putV]
  · simp only [vmiscBody, hfn, bits_core_putV, Nat.mod_eq_of_lt (show e < 2 ^ 64 by omega)]

/-- R279: the functions of masks. -/
theorem vmisc_masks :
    (mD w ≠ 0 → mFn w = 6 → kReg (vmiscBody s c w).core (mD w) = kReg c (mA w) &&& kReg c (mB w))
    ∧ (mD w ≠ 0 → mFn w = 7 → kReg (vmiscBody s c w).core (mD w) = kReg c (mA w) ||| kReg c (mB w))
    ∧ (mD w ≠ 0 → mFn w = 8 → ∀ e < 256, bitAt (kReg (vmiscBody s c w).core (mD w)) e = (bitAt (kReg c (mA w)) e != bitAt (kReg c (mB w)) e))
    ∧ (mD w ≠ 0 → mFn w = 9 → ∀ e < 256, bitAt (kReg (vmiscBody s c w).core (mD w)) e = !bitAt (kReg c (mA w)) e) := by
  refine ⟨fun hd hfn => ?_, fun hd hfn => ?_, fun hd hfn e he => ?_, fun hd hfn e he => ?_⟩
  · simp only [vmiscBody, hfn, MRes.core, kReg_nextPc, kReg_setK_self c hd]
    exact Nat.mod_eq_of_lt (Nat.and_lt_two_pow _ (kReg_lt c _))
  · simp only [vmiscBody, hfn, MRes.core, kReg_nextPc, kReg_setK_self c hd]
    exact Nat.mod_eq_of_lt (Nat.or_lt_two_pow (kReg_lt c _) (kReg_lt c _))
  · simp only [vmiscBody, hfn, MRes.core, kReg_nextPc, kReg_setK_self c hd, bitAt_mod_two_pow he, bitAt_xor]
  · simp only [vmiscBody, hfn, MRes.core, kReg_nextPc, kReg_setK_self c hd, bitAt_mod_two_pow he, bitAt_xor, bitAt_ones he, Bool.bne_true]

/-- R279: the functions that write an integer register. -/
theorem vmisc_integers :
    (mD w ≠ 0 → c.vl ≤ 256 → mFn w = 10 → iReg (vmiscBody s c w).core (mD w) = popCount c.vl (kReg c (mA w)))
    ∧ (mD w ≠ 0 → mFn w = 11 → ∀ e < c.vl, bitAt (kReg c (mA w)) e = true → (∀ e' < e, bitAt (kReg c (mA w)) e' = false) → e < 2 ^ 64 →
        iReg (vmiscBody s c w).core (mD w) = e)
    ∧ (mD w ≠ 0 → mFn w = 12 → iReg (vmiscBody s c w).core (mD w) = if iReg c (mB w) < 64 then bits (vReg c (mA w)) (64 * iReg c (mB w)) 64 else 0) := by
  refine ⟨fun hd hvl hfn => ?_, fun hd hfn e he hbit hnone hlt => ?_, fun hd hfn => ?_⟩
  · simp only [vmiscBody, hfn, MRes.core, iReg_nextPc, iReg_setI_self c hd]
    have hcount := popCount_le c.vl (kReg c (mA w))
    exact Nat.mod_eq_of_lt (by omega)
  · simp only [vmiscBody, hfn, MRes.core, iReg_nextPc, iReg_setI_self c hd, head?_bitsOf he hbit hnone, Option.getD_some]
    exact Nat.mod_eq_of_lt hlt
  · simp only [vmiscBody, hfn, MRes.core, iReg_nextPc, iReg_setI_self c hd]
    split
    · exact Nat.mod_eq_of_lt (bits_lt _ _ _)
    · rfl

/-- R279: a register copied, and one element written. -/
theorem vmisc_moves :
    (mFn w = 4 → vReg (vmiscBody s c w).core (mD w) = vReg c (mA w))
    ∧ (mFn w = 13 → 64 ≤ iReg c (mB w) → (vmiscBody s c w).core.v = c.v)
    ∧ (mFn w = 13 → iReg c (mB w) < 64 → ∀ e < 64,
        bits (vReg (vmiscBody s c w).core (mD w)) (64 * e) 64 = if e = iReg c (mB w) then iReg c (mA w) else bits (vReg c (mD w)) (64 * e) 64) := by
  refine ⟨fun hfn => ?_, fun hfn hout => ?_, fun hfn hin e he => ?_⟩
  · simp only [vmiscBody, hfn, MRes.core, vReg_nextPc, vReg_setV_self]
    exact Nat.mod_eq_of_lt (vReg_lt c _)
  · simp only [vmiscBody, hfn, MRes.core, if_neg (Nat.not_lt.2 hout), nextPc_v]
  · simp only [vmiscBody, hfn, MRes.core, if_pos hin, vReg_nextPc, vReg_setV_self]
    rw [bits_mod_two_pow (by omega), bits_setBits_elem, Nat.mod_eq_of_lt (iReg_lt c _)]

end Vmisc

/-- Settles O33: a mask row writes its bits, VFRED the low element of one register, and each VMISC function its own destination. -/
theorem maskResultsReductionsAndMoves : Obligations.MaskResultsReductionsAndMoves := by
  intro s n w ev hev
  refine ⟨fun h hd => ?_, fun hfn => ⟨fun h hd => ?_, fun h hd => ?_, fun h hd => ?_⟩, fun h => ?vfred, fun h => ?vmisc⟩
  · exact mask_of_putK (live_of_nextIs h) (exec_of_mRun (exec_vfcmp n ev s) h hev (.inl rfl)) (by decide) hd
  · exact mask_of_putK (live_of_nextIs h) (exec_of_doVi_mask h hev (exec_vi64 n ev s) hfn) (by decide) hd
  · exact mask_of_putK (live_of_nextIs h) (exec_of_doVi_mask h hev (exec_vi32 n ev s) hfn) (by decide) hd
  · exact mask_of_putK (live_of_nextIs h) (exec_of_doVi_mask h hev (exec_vi16 n ev s) hfn) (by decide) hd
  case vfred =>
    obtain ⟨u, hu, hpc, -, hi, hv, hk, -⟩ := sameFile_of_ranTo (live_of_nextIs h) (exec_of_mRun (exec_vfred n ev s) h hev (.inl rfl))
    refine ⟨u, hu, ?_, fun r hr => ?_, hi, hk, hpc⟩
    · rw [vReg_congr hv, vReg_nextPc, vReg_orFlags, setF, vReg_setV_self]
      rfl
    · rw [vReg_congr hv, vReg_nextPc, vReg_orFlags, setF, vReg_setV, if_neg (Ne.symm hr)]
  case vmisc =>
    obtain ⟨⟨beats, hok⟩, hnext⟩ := vmiscBody_retires (muleEvent s n ev) (mcore s n) w
    have hexec := exec_of_mRun (exec_vmisc n ev s) h hev (.inl rfl)
    rw [hok] at hexec
    obtain ⟨u, hu, hpc, -, hi, hv, hk, -⟩ := sameFile_of_ranTo (live_of_nextIs h) hexec
    refine ⟨u, hu, hpc.trans hnext, ?_⟩
    simp only [vReg_congr hv, iReg_congr hi, kReg_congr hk, hv]
    obtain ⟨hsplatI, hsplatF, hsplat32, hsplat16, hindex⟩ := vmisc_splats (muleEvent s n ev) (mcore s n) w
    obtain ⟨hcopy, hbeyond, hinsert⟩ := vmisc_moves (muleEvent s n ev) (mcore s n) w
    obtain ⟨hand, hor, hxor, hnot⟩ := vmisc_masks (muleEvent s n ev) (mcore s n) w
    obtain ⟨hcount, hfirst, helem⟩ := vmisc_integers (muleEvent s n ev) (mcore s n) w
    exact ⟨fun hfn e _ => hsplatI hfn e, fun hfn e _ => hsplatF hfn e, fun hfn e _ => hsplat32 hfn e, fun hfn e _ => hsplat16 hfn e,
      hcopy, hindex, hand, hor, hxor, hnot, hcount, hfirst, helem, hbeyond, hinsert⟩

end Sys2Proof.Machine
end

section
/-! PROOFS. Scalar loads and stores (R280, R281) of a node whose memory has its canonical form (log 4): what O34 says of every state
holds of these. -/

namespace Sys2Proof.Machine

/-! Walks of the page tables. -/

/-- A walk of the page tables finds in `u` what it finds in `s`: memory, poison, the windows over it and the pages that wait for zeroes. -/
structure SameWalks (s u : State) : Prop where
  mem : u.mem = s.mem
  poison : u.poison = s.poison
  ports : u.ports = s.ports
  zreq : u.hostIf.zreq = s.hostIf.zreq
  regs : ∀ b i, (page u b i).regs = (page s b i).regs
  st : ∀ b i, (page u b i).st = (page s b i).st
  root : ∀ t, ((ten u t).rootValid, (ten u t).root) = ((ten s t).rootValid, (ten s t).root)

namespace SameWalks

theorem refl (s : State) : SameWalks s s := ⟨rfl, rfl, rfl, rfl, fun _ _ => rfl, fun _ _ => rfl, fun _ => rfl⟩

theorem trans {s u v : State} (h : SameWalks s u) (k : SameWalks u v) : SameWalks s v :=
  ⟨k.mem.trans h.mem, k.poison.trans h.poison, k.ports.trans h.ports, k.zreq.trans h.zreq, fun b i => (k.regs b i).trans (h.regs b i),
    fun b i => (k.st b i).trans (h.st b i), fun t => (k.root t).trans (h.root t)⟩

/-- An update of a page that leaves its registers and STATE. -/
theorem modPage (s : State) (b : Block) (i : Nat) {f : Page → Page} (hregs : ∀ p, (f p).regs = p.regs) (hst : ∀ p, (f p).st = p.st) :
    SameWalks s (modPage s b i f) := by
  have hpage (c : Block) (k : Nat) : page (Machine.modPage s b i f) c k = f (page s c k) ∨ page (Machine.modPage s b i f) c k = page s c k := by
    rw [page_modPage]
    split
    · next heq => exact .inl (by simp only [page, heq])
    · exact .inr rfl
  refine ⟨rfl, rfl, rfl, rfl, fun c k => ?_, fun c k => ?_, fun _ => rfl⟩
  · rcases hpage c k with h | h <;> rw [h]
    exact hregs _
  · rcases hpage c k with h | h <;> rw [h]
    exact hst _

theorem perfAdd (s : State) (b : Block) (i k n : Nat) : SameWalks s (perfAdd s b i k n) := modPage s b i (fun _ => rfl) (fun _ => rfl)

theorem raiseVec (s : State) (fn vec : Nat) : SameWalks s (raiseVec s fn vec) := by
  unfold Machine.raiseVec
  split
  · exact .trans (u := emit s (.msix fn vec)) ⟨rfl, rfl, rfl, rfl, fun _ _ => rfl, fun _ _ => rfl, fun _ => rfl⟩ (perfAdd _ _ _ _ _)
  · exact ⟨rfl, rfl, rfl, rfl, fun _ _ => rfl, fun _ _ => rfl, fun _ => rfl⟩

theorem raiseEvent (s : State) (b : Block) (i n : Nat) : SameWalks s (raiseEvent s b i n) := by
  unfold Machine.raiseEvent
  dsimp only
  split
  · exact .trans (modPage s b i (by intro; rfl) (by intro; rfl)) (raiseVec _ _ _)
  · exact modPage s b i (fun _ => rfl) (fun _ => rfl)

/-- A cached translation. -/
theorem modTlb (s : State) (t : Nat) (f : List TlbEntry → List TlbEntry) : SameWalks s (modTen s t (fun x => { x with tlb := f x.tlb })) :=
  ⟨rfl, rfl, rfl, rfl, fun _ _ => rfl, fun _ _ => rfl, Keeps.modTen (f := fun x => (x.rootValid, x.root)) s t (fun _ => rfl)⟩

theorem fillPage (s : State) (t vp : Nat) : SameWalks s (fillPage s t vp) := by
  unfold Machine.fillPage
  split
  · exact refl s
  · refine (perfAdd s .ten t 4 1).trans ?_
    dsimp only
    split
    · exact modTlb _ t _
    · exact refl _
    · exact raiseEvent _ _ _ _

variable {s u : State} (h : SameWalks s u)
include h

theorem backed_eq : backed u = backed s := by
  have hwindow : windowOf u = windowOf s := by funext n; simp only [windowOf, regWord2, regWord, h.regs]
  have hport : portOf u = portOf s := by funext p; simp only [portOf, h.ports]
  have hst : blkState u = blkState s := by funext b i; exact h.st b i
  have hup : portUp u = portUp s := by funext p; simp only [portUp, blkReady, hst]
  funext a
  simp only [backed, winValid, windowAt, windows, hwindow, hport, hup, blkReady, hst]

theorem walkFrom_eq (va lvl tbl : Nat) (wr : Bool) : walkFrom u va lvl tbl wr = walkFrom s va lvl tbl wr := by
  have hbyte : memByte u = memByte s := by funext a; simp only [memByte, h.mem]
  have hpoison : linePoison u = linePoison s := by funext l; simp only [linePoison, h.poison]
  have hzero : zeroPending u = zeroPending s := by funext a; simp only [zeroPending, h.zreq]
  have hnat : memNat u = memNat s := by funext a n; simp only [memNat, memBytes, hbyte]
  induction lvl generalizing tbl wr with
  | zero => rfl
  | succ lvl ih => simp only [walkFrom, backed_eq h, hpoison, hnat, hzero, ih]

theorem walk_eq (t va : Nat) : walk u t va = walk s t va := by
  obtain ⟨hvalid, hroot⟩ := Prod.mk.inj (h.root t)
  simp only [walk, hvalid, hroot, walkFrom_eq h]

end SameWalks

/-! Translations cached. -/

/-- The tenant's translation of a page is cached. -/
def Cached (s : State) (t vp : Nat) : Prop := (ten s t).tlb.any (fun e => e.vpage == vp) = true

/-- A cached page is translated as one piece, by the tenant's context alone. -/
theorem xlate_of_cached {s : State} {t vp : Nat} (h : Cached s t vp) :
    ∃ base wr, ∀ u va, u.tenants = s.tenants → va / 4096 = vp → xlate u t va = some (base + va % 4096, wr) := by
  obtain ⟨e, he⟩ := Option.isSome_iff_exists.1 ((List.find?_isSome (p := fun (e : TlbEntry) => e.vpage == vp)).2 (List.any_eq_true.1 h))
  refine ⟨e.ppage * 4096, e.wr, fun u va hu hva => ?_⟩
  simp only [xlate, ten_congr hu, hva, he]

/-- A page that is not cached is translated by a walk. -/
theorem walk_of_not_cached {s : State} {t vp : Nat} (h : ¬ Cached s t vp) (hx : (xlate s t (vp * 4096)).isSome = true) :
    ∃ base sh wr, walk s t (vp * 4096) = .page base sh wr := by
  have hnone : (ten s t).tlb.find? (fun e => e.vpage == vp * 4096 / 4096) = none := by
    rw [Nat.mul_div_cancel _ (by decide), List.find?_eq_none]
    intro e he hvp
    exact h (List.any_eq_true.2 ⟨e, he, hvp⟩)
  simp only [xlate, hnone] at hx
  split at hx
  · exact ⟨_, _, _, ‹_›⟩
  · cases hx

/-- R622: a walk that ends at a page has it cached, and nothing leaves the cache. -/
theorem tlb_fillPage (s : State) (t vp : Nat) :
    (ten (fillPage s t vp) t).tlb = (ten s t).tlb ∧ (Cached s t vp ∨ ∀ base sh wr, walk s t (vp * 4096) ≠ .page base sh wr)
    ∨ ∃ e, e.vpage = vp ∧ (ten (fillPage s t vp) t).tlb = e :: (ten s t).tlb := by
  have hwalk : walk (perfAdd s .ten t 4 1) t (vp * 4096) = walk s t (vp * 4096) := (SameWalks.perfAdd s .ten t 4 1).walk_eq t _
  unfold fillPage
  split
  · next hcached => exact .inl ⟨rfl, .inl hcached⟩
  · dsimp only
    rw [hwalk]
    split
    · exact .inr ⟨_, rfl, by rw [ten_modTen_self, ten_congr (perfAdd_tenants s _ _ _ _)]⟩
    · next hnone => exact .inl ⟨rfl, .inr (by simp [hnone])⟩
    · next hbad => exact .inl ⟨by rw [ten_congr (raiseEvent_tenants _ _ _ _), ten_congr (perfAdd_tenants s _ _ _ _)], .inr (by simp [hbad])⟩

theorem cached_fillPage {s : State} {t p : Nat} (h : Cached s t p) (vp : Nat) : Cached (fillPage s t vp) t p := by
  rcases tlb_fillPage s t vp with ⟨heq, -⟩ | ⟨e, -, heq⟩
  · rwa [Cached, heq]
  · rw [Cached, heq, List.any_cons, show ((ten s t).tlb.any fun e => e.vpage == p) = true from h, Bool.or_true]

/-- Once the pages of a list have been walked, one that is translated is cached. -/
theorem cached_foldl_fillPage {t p : Nat} {l : List Nat} (hp : p ∈ l) (s : State) :
    Cached (l.foldl (fun x q => fillPage x t q) s) t p
    ∨ ∀ base sh wr, walk (l.foldl (fun x q => fillPage x t q) s) t (p * 4096) ≠ .page base sh wr := by
  have hkeep (l : List Nat) (x : State) (hx : Cached x t p) : Cached (l.foldl (fun x q => fillPage x t q) x) t p :=
    List.foldlRecOn (motive := fun (y : State) => Cached y t p) l _ hx (fun y hy q _ => cached_fillPage hy q)
  have hwalk (l : List Nat) (x : State) : SameWalks x (l.foldl (fun x q => fillPage x t q) x) :=
    List.foldlRecOn (motive := fun (y : State) => SameWalks x y) l _ (.refl x) (fun y hy q _ => hy.trans (.fillPage y t q))
  induction l generalizing s with
  | nil => cases hp
  | cons q l ih =>
    rcases List.mem_cons.1 hp with rfl | hl
    · rcases tlb_fillPage s t p with ⟨-, hcached | hno⟩ | ⟨e, he, heq⟩
      · exact .inl (hkeep _ _ hcached)
      · exact .inr (by rwa [(hwalk (p :: l) s).walk_eq])
      · exact .inl (hkeep l _ (by rw [Cached, heq]; simp [he]))
    · exact ih hl _

/-- The pages of an access that nothing stops are cached in the state as the access finds it. -/
theorem cached_of_accCause {s : State} {t a n : Nat} {w : Bool} {ev : MuleEv} (hev : ev = .ok ∨ ev = .eccCorr)
    (h : accCause (accState s t a n true ev) t a n w = 0) :
    accState s t a n true ev = fillTlb s t a n ∧ ∀ p ∈ pagesOf a n, Cached (fillTlb s t a n) t p := by
  unfold accCause at h
  split at h
  · cases h
  · next hrange =>
    have hstate : accState s t a n true ev = fillTlb s t a n := by
      rcases hev with rfl | rfl <;> simp only [accState, if_pos (Nat.not_lt.1 hrange), if_true]
    rw [hstate] at h
    refine ⟨hstate, fun p hp => ?_⟩
    split at h
    · cases h
    · next hall =>
      simp only [Bool.not_eq_true', Bool.not_eq_false, List.all_eq_true] at hall
      have hsome : (xlate (fillTlb s t a n) t (p * 4096)).isSome = true := by
        have := hall p hp
        split at this
        · next heq => rw [heq]; rfl
        · cases this
      by_contra hnot
      obtain ⟨base, sh, wr, hpage⟩ := walk_of_not_cached hnot hsome
      exact (cached_foldl_fillPage hp s).elim hnot (fun hno => hno base sh wr hpage)

/-! What a store leaves of memory. -/

/-- No write waits for Hen, no stored byte has gone wrong, and the memory has its canonical form. -/
structure Quiet (s : State) : Prop where
  cuts : s.hen.cuts = []
  errs : s.memErrs = []
  wf : s.mem.wf = true

/-- The quiet state `u` comes of the quiet state `s` by a store that reaches the bytes of `P` alone. -/
structure StoresAt (P : Nat → Prop) (s u : State) : Prop where
  quiet : Quiet u
  tenants : u.tenants = s.tenants
  other : ∀ b, ¬ P b → memByte u b = memByte s b

theorem StoresAt.trans {P Q R : Nat → Prop} {s u v : State} (h : StoresAt P s u) (k : StoresAt Q u v) (hP : ∀ b, P b → R b)
    (hQ : ∀ b, Q b → R b) : StoresAt R s v :=
  ⟨k.quiet, k.tenants.trans h.tenants, fun b hb => (k.other b (mt (hQ b) hb)).trans (h.other b (mt (hP b) hb))⟩

/-- An update that leaves memory, its errors, Hen and the tenants alone. -/
theorem storesAt_of_frame {s u : State} (P : Nat → Prop) (hq : Quiet s) (hhen : u.hen = s.hen) (herrs : u.memErrs = s.memErrs)
    (hmem : u.mem = s.mem) (htenants : u.tenants = s.tenants) : StoresAt P s u :=
  ⟨⟨by rw [hhen, hq.cuts], by rw [herrs, hq.errs], by rw [hmem, hq.wf]⟩, htenants, fun b _ => by rw [memByte, hmem, memByte]⟩

section Quiet

variable {s : State} (hq : Quiet s) (P : Nat → Prop) (a : Nat)
include hq

theorem storesAt_goneHit : StoresAt P s (goneHit s a) := by
  unfold goneHit
  split
  · exact storesAt_of_frame P hq (by simp) (by simp) (by simp) (by simp)
  · split
    · exact storesAt_of_frame P hq rfl rfl rfl rfl
    · exact storesAt_of_frame P hq rfl rfl rfl rfl
  · exact storesAt_of_frame P hq rfl rfl rfl rfl

theorem storesAt_sealHit : StoresAt P s (sealHit s a) := by
  unfold sealHit
  split
  · exact storesAt_of_frame P hq (by simp) (by simp) (by simp) (by simp)
  · exact storesAt_of_frame P hq (by simp) (by simp) (by simp) (by simp)
  · exact storesAt_of_frame P hq rfl rfl rfl rfl

theorem storesAt_memPut (bs : List Byte) : StoresAt (fun b => a ≤ b ∧ b < a + bs.length) s (memPut s a bs) :=
  ⟨⟨hq.cuts, hq.errs, memPut_wf a bs hq.wf⟩, rfl, fun b hb => memByte_memPut_other a b bs hq.wf (by omega)⟩

theorem storesAt_storeLine (bs : List Byte) : StoresAt (fun b => a ≤ b ∧ b < a + bs.length) s (storeLine s a bs).1 := by
  have hhold : holdFor s a = s := by simp [holdFor, uncopied, hq.cuts]
  unfold storeLine
  split
  · exact storesAt_goneHit hq _ a
  · split
    · exact storesAt_sealHit hq _ a
    · dsimp only
      rw [hhold, meetErrs_none s _ hq.errs]
      split
      · have hclear : Quiet (clrPoison s (a / 64)) := ⟨hq.cuts, by simp [clrPoison, hq.errs], hq.wf⟩
        obtain ⟨hquiet, htenants, hother⟩ := storesAt_memPut hclear a bs
        exact ⟨hquiet, htenants, hother⟩
      · split
        · exact storesAt_of_frame _ hq rfl rfl rfl rfl
        · exact storesAt_memPut hq a bs

end Quiet

theorem storesAt_storeLines (fuel : Nat) {s : State} (hq : Quiet s) (a : Nat) (bs : List Byte) :
    StoresAt (fun b => a ≤ b ∧ b < a + bs.length) s (storeLines fuel s a bs).1 := by
  induction fuel generalizing s a bs with
  | zero => exact storesAt_of_frame _ hq rfl rfl rfl rfl
  | succ fuel ih =>
    unfold storeLines
    split
    · exact storesAt_of_frame _ hq rfl rfl rfl rfl
    · have hline := storesAt_storeLine hq a (bs.take (64 - a % 64))
      refine hline.trans (ih hline.quiet _ _) (fun b hb => ?_) (fun b hb => ?_)
      · simp only [List.length_take] at hb
        omega
      · simp only [List.length_drop] at hb
        omega

theorem storesAt_store {s : State} (hq : Quiet s) (a : Nat) (bs : List Byte) :
    StoresAt (fun b => a ≤ b ∧ b < a + bs.length) s (store s a bs).1 :=
  storesAt_storeLines _ hq a bs

/-- A store at a tenant address reaches the local bytes of its own addresses alone, where their pages are cached. -/
theorem storesAt_tStorePages (fuel : Nat) {s : State} {t va : Nat} {bs : List Byte} (hq : Quiet s)
    (hcached : ∀ q < bs.length, Cached s t ((va + q) / 4096)) :
    StoresAt (fun b => ∃ q < bs.length, localOf s t (va + q) = b) s (tStorePages fuel s t va bs).1 := by
  induction fuel generalizing s va bs with
  | zero => exact storesAt_of_frame _ hq rfl rfl rfl rfl
  | succ fuel ih =>
    unfold tStorePages
    split
    · exact storesAt_of_frame _ hq rfl rfl rfl rfl
    · next hsome =>
      have hlen : 0 < bs.length := List.length_pos_iff.2 (by simpa using hsome)
      have hpage : StoresAt (fun b => ∃ q < bs.length, localOf s t (va + q) = b) s (tStorePage s t va (bs.take (4096 - va % 4096))).1 := by
        obtain ⟨base, wr, hx⟩ := xlate_of_cached (hcached 0 hlen)
        unfold tStorePage
        split
        · next la hla =>
          have hla : la = base + va % 4096 := by
            rw [xlateW, hx s va rfl rfl] at hla
            split at hla <;> simp_all
          have hstore := storesAt_store hq la (bs.take (4096 - va % 4096))
          refine ⟨hstore.quiet, hstore.tenants, fun b hb => hstore.other b (fun hin => hb ⟨b - la, ?_⟩)⟩
          simp only [List.length_take] at hin
          refine ⟨by omega, ?_⟩
          rw [localOf, hx s _ rfl (by omega)]
          simp only [Option.map_some, Option.getD_some]
          omega
        · exact storesAt_of_frame _ hq rfl rfl rfl rfl
      have hlocal (q : Nat) (hlt : q < bs.length) :
          localOf (tStorePage s t va (bs.take (4096 - va % 4096))).1 t (va + q) = localOf s t (va + q) := by
        obtain ⟨base, wr, hx⟩ := xlate_of_cached (hcached q hlt)
        rw [localOf, localOf, hx _ _ hpage.tenants rfl, hx s _ rfl rfl]
      refine hpage.trans (ih hpage.quiet (fun q hlt => ?_)) (fun b hb => hb) (fun b hb => ?_)
      · have := hcached (4096 - va % 4096 + q) (by simp at hlt; omega)
        rw [Cached, ten_congr hpage.tenants, Nat.add_assoc]
        exact this
      · obtain ⟨q, hlt, rfl⟩ := hb
        have hin : 4096 - va % 4096 + q < bs.length := by simp at hlt; omega
        exact ⟨_, hin, by rw [Nat.add_assoc, hlocal _ hin]⟩

/-- The page of an access's byte is one of those it touches. -/
theorem page_mem_pagesOf {va n q : Nat} (h : q < n) : (va + q) / 4096 ∈ pagesOf va n := by
  have hle : va / 4096 ≤ (va + q) / 4096 := Nat.div_le_div_right (Nat.le_add_right va q)
  have hge : (va + q) / 4096 ≤ (va + n - 1) / 4096 := Nat.div_le_div_right (by omega)
  rw [pagesOf, if_neg (by omega), natsFrom, List.mem_map]
  exact ⟨(va + q) / 4096 - va / 4096, List.mem_range.2 (by omega), by omega⟩

theorem length_leBytes (n x : Nat) : (leBytes n x).length = n := by
  induction n generalizing x with
  | zero => rfl
  | succ n ih => rw [leBytes, List.length_cons, ih]

theorem leNat_lt (bs : List Byte) : leNat bs < 256 ^ bs.length := by
  induction bs with
  | nil => decide
  | cons b bs ih =>
    have hb : b.toNat < 256 := b.isLt
    rw [leNat, List.length_cons, Nat.pow_succ]
    omega

theorem tNat_lt (s : State) (t va n : Nat) : tNat s t va n < 256 ^ n := by
  have h := leNat_lt (tBytes s t va n)
  rwa [tBytes, natsFrom, List.length_map, List.length_map, List.length_range] at h

/-- What an instruction's own event does leaves memory's form and errors, Hen's cuts and the tenants. -/
theorem quiet_muleEvent {s : State} {ev : MuleEv} (hev : ev = .ok ∨ ev = .eccCorr) (hq : Quiet s) (n : Nat) :
    StoresAt (fun _ => False) s (muleEvent s n ev) := by
  rcases hev with rfl | rfl
  · exact storesAt_of_frame _ hq rfl rfl rfl rfl
  · exact storesAt_of_frame _ hq (raiseEvent_hen _ _ _ _) (raiseEvent_memErrs _ _ _ _) (raiseEvent_mem _ _ _ _) (raiseEvent_tenants _ _ _ _)

/-! What the rows of this part stand for. -/

theorem exec_ld (n : Nat) (ev : MuleEv) (s : State) :
    exec (.ld n ev) s = .next (whenLive s (gateScalar s n 0x05 8 false (doLoad s n 0x05 8 ev setI))) := rfl
theorem exec_ldw (n : Nat) (ev : MuleEv) (s : State) : exec (.ldw n ev) s
    = .next (whenLive s (gateScalar s n 0x07 4 false (doLoad s n 0x07 4 ev (fun c d v => setI c d (unsgn 64 (sgn 32 v)))))) := rfl
theorem exec_ldwu (n : Nat) (ev : MuleEv) (s : State) : exec (.ldwu n ev) s
    = .next (whenLive s (gateScalar s n 0x08 4 false (doLoad s n 0x08 4 ev (fun c d v => setI c d (v % 2 ^ 32))))) := rfl
theorem exec_fld (n : Nat) (ev : MuleEv) (s : State) :
    exec (.fld n ev) s = .next (whenLive s (gateScalar s n 0x0A 8 false (doLoad s n 0x0A 8 ev setF))) := rfl
theorem exec_st (n : Nat) (ev : MuleEv) (s : State) :
    exec (.st n ev) s = .next (whenLive s (gateScalar s n 0x06 8 true (doStore s n 0x06 8 ev iReg))) := rfl
theorem exec_stw (n : Nat) (ev : MuleEv) (s : State) :
    exec (.stw n ev) s = .next (whenLive s (gateScalar s n 0x09 4 true (doStore s n 0x09 4 ev iReg))) := rfl
theorem exec_fst (n : Nat) (ev : MuleEv) (s : State) :
    exec (.fst n ev) s = .next (whenLive s (gateScalar s n 0x0B 8 true (doStore s n 0x0B 8 ev fReg))) := rfl

/-- The load `i` of `k` bytes, where nothing stops it, retires with the core that `c'` makes of the value. -/
def LoadCompletes (s : State) (n w : Nat) (ev : MuleEv) (i : Instr) (k : Nat) (c' : Nat → MCore) : Prop :=
  let t := (mcore s n).tenant
  let a := memAddr (mcore s n) w
  let x := accState (muleEvent s n ev) t a k false ev
  accCause x t a k false = 0 → exec i s = .next (whenLive s (ranTo x n (nextPc (c' (tNat x t a k))) 0 0))

/-- The store `i` of the low `k` bytes of `v`, where nothing stops it, retires, and reaches its own bytes alone. -/
def StoreCompletes (s : State) (n w : Nat) (ev : MuleEv) (i : Instr) (k v : Nat) : Prop :=
  let t := (mcore s n).tenant
  let a := memAddr (mcore s n) w
  let x := accState (muleEvent s n ev) t a k true ev
  accCause x t a k true = 0 →
    exec i s = .next (whenLive s (ranTo (markDirty (tStore x t a (leBytes k v)).1 n t a k) n (nextPc (mcore s n)) 0 0))
    ∧ (s.hen.cuts = [] → s.memErrs = [] → ∀ b, (∀ q < k, localOf x t (a + q) ≠ b) → memByte (tStore x t a (leBytes k v)).1 b = memByte s b)

/-- A load that nothing stops. -/
theorem mLoad_of_reached {s : State} {t a k e : Nat} {ev : MuleEv} (hgone : evGone ev e = false)
    (h : accCause (accState s t a k false ev) t a k false = 0) :
    mLoad s t a k e ev = (accState s t a k false ev, 0, tNat (accState s t a k false ev) t a k) := by
  simp only [mLoad, hgone]
  rw [if_neg (by decide : ¬ (false = true)), h]
  rfl

/-- A store that nothing stops. -/
theorem mStore_of_reached {s : State} {p t a k v e : Nat} {ev : MuleEv} (hgone : evGone ev e = false)
    (h : accCause (accState s t a k true ev) t a k true = 0) :
    mStore s p t a k v e ev = (markDirty (tStore (accState s t a k true ev) t a (leBytes k v)).1 p t a k, 0) := by
  simp only [mStore, hgone]
  rw [if_neg (by decide : ¬ (false = true)), h]
  rfl

/-- R281: where a store that nothing stops leaves memory, of a quiet node. -/
theorem memByte_tStore_of_reached {s : State} {t a k : Nat} {ev : MuleEv} (hev : ev = .ok ∨ ev = .eccCorr) (hq : Quiet s)
    (h : accCause (accState s t a k true ev) t a k true = 0) (v : Nat) {b : Nat}
    (hb : ∀ q < k, localOf (accState s t a k true ev) t (a + q) ≠ b) :
    memByte (tStore (accState s t a k true ev) t a (leBytes k v)).1 b = memByte s b := by
  obtain ⟨hx, hcached⟩ := cached_of_accCause hev h
  rw [hx] at hb ⊢
  have hquiet : Quiet (fillTlb s t a k) := ⟨by rw [fillTlb_hen, hq.cuts], by rw [fillTlb_memErrs, hq.errs], by rw [fillTlb_mem, hq.wf]⟩
  have hstore := storesAt_tStorePages ((leBytes k v).length / 4096 + 2) (bs := leBytes k v) hquiet
    (fun q hlt => hcached _ (page_mem_pagesOf (by rwa [length_leBytes] at hlt)))
  rw [length_leBytes] at hstore
  calc memByte (tStore (fillTlb s t a k) t a (leBytes k v)).1 b
      _ = memByte (fillTlb s t a k) b := by
        rw [tStore, length_leBytes]
        exact hstore.other b (fun ⟨q, hlt, heq⟩ => hb q hlt heq)
      _ = memByte s b := by rw [memByte, fillTlb_mem, memByte]

section Scalar

variable {s : State} {n op w k : Nat} {ev : MuleEv} {i : Instr} (h : nextIs s n op w = true) (hev : ev = .ok ∨ ev = .eccCorr)
  (hnowhere : heldNowhere s = true)
include h hev hnowhere

theorem loadCompletes {put : MCore → Nat → Nat → MCore}
    (hexec : exec i s = .next (whenLive s (gateScalar s n op k false (doLoad s n op k ev put)))) :
    LoadCompletes s n w ev i k (put (mcore s n) (mD w)) := by
  intro hcause
  rw [gateScalar_of_heldNowhere hnowhere] at hexec
  have hrun := exec_of_mRun hexec h (by rcases hev with rfl | rfl <;> rfl) (.inl rfl)
  rwa [mLoad_of_reached (by rcases hev with rfl | rfl <;> rfl) hcause] at hrun

theorem storeCompletes (hwf : s.mem.wf = true) {get : MCore → Nat → Nat}
    (hexec : exec i s = .next (whenLive s (gateScalar s n op k true (doStore s n op k ev get)))) :
    StoreCompletes s n w ev i k (get (mcore s n) (mD w)) := by
  intro hcause
  refine ⟨?_, fun hcuts herrs b hb => ?_⟩
  · rw [gateScalar_of_heldNowhere hnowhere] at hexec
    have hrun := exec_of_mRun hexec h (by rcases hev with rfl | rfl <;> rfl) (.inl rfl)
    rwa [mStore_of_reached (by rcases hev with rfl | rfl <;> rfl) hcause] at hrun
  · have hevent := quiet_muleEvent hev ⟨hcuts, herrs, hwf⟩ n
    rw [memByte_tStore_of_reached hev hevent.quiet hcause _ hb]
    exact hevent.other b id

end Scalar

/-- What O34 states holds of every state whose memory has its canonical form, which every command keeps (O6). -/
theorem scalarLoadsAndStoresComplete_of_wf (s : State) (n w : Nat) (ev : MuleEv) (hev : ev = .ok ∨ ev = .eccCorr)
    (hnowhere : heldNowhere s = true) (hwf : s.mem.wf = true) :
    let c := mcore s n
    (nextIs s n 0x05 w = true → LoadCompletes s n w ev (.ld n ev) 8 (fun v => setI c (mD w) v))
    ∧ (nextIs s n 0x07 w = true → LoadCompletes s n w ev (.ldw n ev) 4 (fun v => setI c (mD w) (unsgn 64 (sgn 32 v))))
    ∧ (nextIs s n 0x08 w = true → LoadCompletes s n w ev (.ldwu n ev) 4 (fun v => setI c (mD w) v))
    ∧ (nextIs s n 0x0A w = true → LoadCompletes s n w ev (.fld n ev) 8 (fun v => setF c (mD w) v))
    ∧ (nextIs s n 0x06 w = true → StoreCompletes s n w ev (.st n ev) 8 (iReg c (mD w)))
    ∧ (nextIs s n 0x09 w = true → StoreCompletes s n w ev (.stw n ev) 4 (iReg c (mD w)))
    ∧ (nextIs s n 0x0B w = true → StoreCompletes s n w ev (.fst n ev) 8 (fReg c (mD w))) := by
  refine ⟨fun h => loadCompletes (put := setI) h hev hnowhere (exec_ld n ev s),
    fun h => loadCompletes (put := fun c d v => setI c d (unsgn 64 (sgn 32 v))) h hev hnowhere (exec_ldw n ev s), fun h => ?ldwu,
    fun h => loadCompletes (put := setF) h hev hnowhere (exec_fld n ev s),
    fun h => storeCompletes h hev hnowhere hwf (exec_st n ev s), fun h => storeCompletes h hev hnowhere hwf (exec_stw n ev s),
    fun h => storeCompletes h hev hnowhere hwf (exec_fst n ev s)⟩
  case ldwu =>
    intro hcause
    have hload := loadCompletes (put := fun c d v => setI c d (v % 2 ^ 32)) h hev hnowhere (exec_ldwu n ev s) hcause
    have hword (x : State) (t a : Nat) : tNat x t a 4 % 2 ^ 32 = tNat x t a 4 := Nat.mod_eq_of_lt (tNat_lt x t a 4)
    simp only [hword] at hload
    exact hload

end Sys2Proof.Machine
end

section
/-! PROOFS. Scalar loads and stores (R280, R281): the statement fails where the memory's cells stand out of order. -/

namespace Sys2Proof.Machine

/-- The pages of MULE cluster 0 and of ports 0 to 3, READY, with one window over the four ports. -/
def storePages : Tab Page :=
  [(pageKey .mule 0, { st := 1 }), (pageKey .lpc 0, { st := 1, regs := [(0x140, 0x44000)] }), (pageKey .lpc 1, { st := 1 }),
    (pageKey .lpc 2, { st := 1 }), (pageKey .lpc 3, { st := 1 })]

/-- The word of ST i[0], 0(i[0]): eight zero bytes to tenant address 0. -/
def zeroStore : Nat := 0x18000000

/-- A node whose core 0 executes that word next, tenant address 0 being local address 0x1000. Its memory breaks the canonical form
(log 4): the byte 7 that it lists for address 0 stands behind the cell of address 0x1000, where it is not read. -/
def unsortedNode : State :=
  { mgmt := { por := false }, pages := storePages
    ports := [(0, { usable := 60 }), (1, { usable := 60 }), (2, { usable := 60 }), (3, { usable := 60 })]
    tenants := [(0, { tlb := [⟨0, 1, true⟩] })], jobs := [{ tenant := 0, stream := 0, cmd := { words := [] }, unit := .mule }]
    mule := { cores := [(0, { st := 2, run := 1, code := [BitVec.ofNat 32 zeroStore] })], runs := [⟨1, 0, 0, 0, none, 0, [0], true, []⟩] }
    mem := { cells := [(0x1000, 1), (0, 7)] } }

/-- The node as the store finds it. -/
def unsortedAccess : State :=
  accState (muleEvent unsortedNode 0 .ok) (mcore unsortedNode 0).tenant (memAddr (mcore unsortedNode 0) zeroStore) 8 true .ok

theorem unsortedNode_next : nextIs unsortedNode 0 0x06 zeroStore = true ∧ heldNowhere unsortedNode = true := by decide +kernel

theorem unsortedNode_accesses :
    accCause unsortedAccess (mcore unsortedNode 0).tenant (memAddr (mcore unsortedNode 0) zeroStore) 8 true = 0 := by decide +kernel

theorem unsortedNode_outside : ∀ q < 8,
    localOf unsortedAccess (mcore unsortedNode 0).tenant (memAddr (mcore unsortedNode 0) zeroStore + q) ≠ 0 := by decide +kernel

/-- The zero stored at 0x1000 takes its cell out of the list, and the cell behind it is read. -/
theorem unsortedNode_changed : memByte (tStore unsortedAccess (mcore unsortedNode 0).tenant (memAddr (mcore unsortedNode 0) zeroStore)
    (leBytes 8 (iReg (mcore unsortedNode 0) (mD zeroStore)))).1 0 ≠ memByte unsortedNode 0 := by decide +kernel

/-- Refutes O34: the frame of a store is stated of every state, and in one whose memory is not in canonical form (log 4, O6) the byte
at address 0, which the store does not reach, reads 0 before it and 7 after it. Of a state whose memory has that form the statement holds
(`scalarLoadsAndStoresComplete_of_wf`). -/
theorem not_scalarLoadsAndStoresComplete : ¬ Obligations.ScalarLoadsAndStoresComplete := by
  intro h
  obtain ⟨hnext, hnowhere⟩ := unsortedNode_next
  obtain ⟨-, -, -, -, hst, -, -⟩ := h unsortedNode 0 zeroStore .ok (.inl rfl) hnowhere
  obtain ⟨-, hframe⟩ := hst hnext unsortedNode_accesses
  exact unsortedNode_changed (hframe rfl rfl 0 unsortedNode_outside)

end Sys2Proof.Machine
end

section
/-! PROOFS. Solver units (chapter 8): how a command of a unit ends, SOLVE_SETUP and SOLVE_UPD, and SOLVE by each of its methods. -/

namespace Sys2Proof.Machine

theorem exec_solveSetupCreate (u : Nat) (s : State) :
    exec (.solveSetupCreate u) s = .next (whenLive s (gateJob s (solvJob s u 0x33) (doSetupCreate s u))) := rfl
theorem exec_solveSetupMeasure (u : Nat) (s : State) :
    exec (.solveSetupMeasure u) s = .next (whenLive s (gateJob s (solvJob s u 0x33) (doSetupMeasure s u))) := rfl
theorem exec_solveSetupRelease (u : Nat) (s : State) : exec (.solveSetupRelease u) s = .next (whenLive s (doSetupRelease s u)) := rfl
theorem exec_solveUpd (u : Nat) (se : StructErr) (s : State) :
    exec (.solveUpd u se) s = .next (whenLive s (gateJob s (solvJob s u 0x32) (doSolveUpd s u se))) := rfl
theorem exec_factor (u : Nat) (se : StructErr) (s : State) :
    exec (.factor u se) s = .next (whenLive s (gateSolve s u 0 (doSolve s u se 0))) := rfl
theorem exec_direct (u : Nat) (se : StructErr) (s : State) :
    exec (.direct u se) s = .next (whenLive s (gateSolve s u 1 (doSolve s u se 1))) := rfl
theorem exec_refine (u : Nat) (se : StructErr) (s : State) :
    exec (.refine u se) s = .next (whenLive s (gateSolve s u 2 (doSolve s u se 2))) := rfl
theorem exec_cg (u : Nat) (se : StructErr) (s : State) :
    exec (.cg u se) s = .next (whenLive s (gateSolve s u 3 (doSolve s u se 3))) := rfl
theorem exec_bicgstab (u : Nat) (se : StructErr) (s : State) :
    exec (.bicgstab u se) s = .next (whenLive s (gateSolve s u 4 (doSolve s u se 4))) := rfl

/-- What a unit serves is among the commands issued. -/
theorem mem_of_solvJob {s : State} {u op : Nat} {j : Job} (h : solvJob s u op = some j) : j ∈ s.jobs := by
  unfold solvJob at h
  split at h
  · next k hk =>
    split at h
    · cases h
      exact mem_of_nextJob hk
    · cases h
  · cases h

/-! Systems and summaries after an update. -/

/-- A system depends on the table of systems alone. -/
theorem sysAt_congr {s t : State} (h : t.solvs = s.solvs) (u k : Nat) : sysAt t u k = sysAt s u k := by simp only [sysAt, solvSystems, h]

@[simp] theorem sysAt_putSys_self (s : State) (u k : Nat) (y : SolSys) : sysAt (putSys s u k y) u k = some y := by
  simp [sysAt, solvSystems, putSys, modSolv]

@[simp] theorem sysAt_perfAdd (s : State) (b : Block) (i c n u k : Nat) : sysAt (perfAdd s b i c n) u k = sysAt s u k := rfl

@[simp] theorem sysAt_raiseEvent (s : State) (b : Block) (i n u k : Nat) : sysAt (raiseEvent s b i n) u k = sysAt s u k :=
  sysAt_congr (raiseEvent_solvs s b i n) u k

@[simp] theorem engines_putSys (s : State) (u k : Nat) (y : SolSys) : engines (putSys s u k y) = engines s := rfl

@[simp] theorem engines_structFixed (s : State) (u : Nat) (se : StructErr) : engines (structFixed s u se) = engines s :=
  engines_raiseTimes s .solv u 2 se.corrected

@[simp] theorem engines_tStore (s : State) (t va : Nat) (bs : List Byte) : engines (tStore s t va bs).1 = engines s :=
  engines_of_stored (storedFrom_tStore s t va bs)

@[simp] theorem jobSum_solvs (s : State) (j : Job) (slot v : Nat) : (jobSum s j slot v).solvs = s.solvs := by
  unfold jobSum; split <;> rfl

/-- R51: the tenant's slot holds the word, where the command's context has not been reset. -/
theorem sums_jobSum {j : Job} (h : j.orphan = false) (s : State) (slot v : Nat) :
    tabGet 0 (ten (jobSum s j slot v) j.tenant).sums slot = BitVec.ofNat 64 v := by
  rw [jobSum, if_neg (by simp [h]), writeSum, ten_modTen_self, tabGet_tabSet, if_pos rfl]

@[simp] theorem solveSum_jobs (s : State) (j : Job) (v : Nat) : (solveSum s j v).jobs = s.jobs := by
  unfold solveSum; split
  · exact jobSum_jobs s j _ v
  · rfl

@[simp] theorem solveSum_solvs (s : State) (j : Job) (v : Nat) : (solveSum s j v).solvs = s.solvs := by
  unfold solveSum; split
  · exact jobSum_solvs s j _ v
  · rfl

/-- R345: a SOLVE that has a summary slot leaves its summary there. -/
theorem sums_solveSum {j : Job} (hslot : soSlotEn j.cmd = true) (h : j.orphan = false) (s : State) (v : Nat) :
    tabGet 0 (ten (solveSum s j v) j.tenant).sums (soSlot j.cmd) = BitVec.ofNat 64 v := by
  rw [solveSum, if_pos hslot, sums_jobSum h]

@[simp] theorem finishJob_solvs (before s : State) (j : Job) (r : Result) : (finishJob before s j r).solvs = s.solvs := by
  obtain ⟨n, f, e, -⟩ := finishJob_eq before s j r
  rw [e]; rfl

/-! How a command of a unit ends. -/

/-- The end of a command is counted and its events raised, and then Goose is told. -/
theorem solvEnd_eq (s0 s : State) (u : Nat) (j : Job) (r : Result) : ∃ x, solvEnd s0 s u j r = finishJob s0 x j r
    ∧ x.jobs = s.jobs ∧ x.tenants = s.tenants ∧ x.solvs = s.solvs := by
  refine ⟨_, rfl, ?_, ?_, ?_⟩
  · simp only [apply_ite State.jobs, raiseEvent_jobs, perfAdd_jobs, ite_self]
  · simp only [apply_ite State.tenants, raiseEvent_tenants, perfAdd_tenants, ite_self]
  · simp only [apply_ite State.solvs, raiseEvent_solvs, perfAdd_solvs, ite_self]

section SolvEnd

variable {s x : State} {u : Nat} {j : Job} {r : Result} (hlive : live s = true)
include hlive

theorem finishedAs_solvEnd (hjobs : x.jobs = s.jobs) (hj : j ∈ s.jobs) : finishedAs (whenLive s (solvEnd s x u j r)) j r := by
  obtain ⟨z, hend, hz, -⟩ := solvEnd_eq s x u j r
  rw [whenLive_of_live hlive, hend]
  exact finishedAs_finishJob (by rwa [hz, hjobs]) s r

theorem keepsJobs_solvEnd (hjobs : x.jobs = s.jobs) : keepsJobs s (whenLive s (solvEnd s x u j r)) j := by
  obtain ⟨z, hend, hz, -⟩ := solvEnd_eq s x u j r
  have hkeep := keepsJobs_finishJob s z j r
  rw [keepsJobs, hz, hjobs] at hkeep
  rw [whenLive_of_live hlive, hend]
  exact hkeep

/-- The end of a command moves no system. -/
theorem sysAt_solvEnd (v k : Nat) : sysAt (whenLive s (solvEnd s x u j r)) v k = sysAt x v k := by
  obtain ⟨z, hend, -, -, hsolvs⟩ := solvEnd_eq s x u j r
  rw [whenLive_of_live hlive, hend]
  exact sysAt_congr ((finishJob_solvs s z j r).trans hsolvs) v k

/-- The end of a command leaves every tenant as it is. -/
theorem ten_solvEnd (t : Nat) : ten (whenLive s (solvEnd s x u j r)) t = ten x t := by
  obtain ⟨z, hend, -, htenants, -⟩ := solvEnd_eq s x u j r
  rw [ten_congr (whenLive_tenants hlive), hend]
  exact ten_congr ((finishJob_tenants s z j r).trans htenants) t

end SolvEnd

/-! SOLVE_SETUP (R320 to R328). -/

/-- R315, R321 to R327: a create that nothing refuses puts the system in its place and writes its record. -/
theorem doSetupCreate_of_built {s s1 s2 : State} {u : Nat} {j : Job} {y : SolSys} (hjob : solvJob s u 0x33 = some j) (hop : suOp j.cmd = 0)
    (hgood : onFailed s j = false) (hs1 : s1 = setupFill s j.tenant j.cmd) (hbuilt : setupRead s1 j.tenant j.cmd = .built y)
    (hs2 : s2 = fillTlb (fillTlb s1 j.tenant y.farea (4096 * y.fpages)) j.tenant y.log (32 * y.logcap))
    (hareas : areasOk s2 j.tenant j.cmd y = true) (hown : ∀ old, sysAt s2 u (svSys j.cmd) = some old → old.tenant = j.tenant)
    (hquota : quotaHit s2 u j.tenant (svSys j.cmd) y.granules = none) :
    doSetupCreate s u = setupDone s (putSys s2 u (svSys j.cmd) y) u j y := by
  subst hs1 hs2
  unfold doSetupCreate
  simp only [hjob, hop, bne_self_eq_false, Bool.false_eq_true, if_false, hgood, hbuilt, hareas, Bool.not_true, hquota]
  split
  · next old hold => rw [hown old hold, bne_self_eq_false, if_neg (by decide)]
  · rfl

/-- R324: a measure whose arrays pass their checks writes the record alone. -/
theorem doSetupMeasure_of_built {s : State} {u : Nat} {j : Job} {y : SolSys} (hjob : solvJob s u 0x33 = some j) (hop : suOp j.cmd = 2)
    (hgood : onFailed s j = false) (hbuilt : setupRead (setupFill s j.tenant j.cmd) j.tenant j.cmd = .built y) :
    doSetupMeasure s u = setupDone s (setupFill s j.tenant j.cmd) u j y := by
  simp [doSetupMeasure, hjob, hop, hgood, hbuilt]

/-- R328: a release takes the tenant's own system away. -/
theorem doSetupRelease_of_own {s : State} {u : Nat} {j : Job} {y : SolSys} (hjob : solvJob s u 0x33 = some j) (hop : suOp j.cmd = 1)
    (hsys : cmdSys s j = some y) :
    doSetupRelease s u = solvEnd s (modSolv s u (fun t => tabDel t (svSys j.cmd))) u j { detail := y.granules } := by
  simp [doSetupRelease, hjob, hop, hsys]

/-- R324, R346: the two ends of a setup that writes its record: with its granules, or TARGET_GONE where the write is discarded. -/
theorem recorded_of_exec {s x : State} {u : Nat} {j : Job} {y : SolSys} {i : Instr}
    (hexec : exec i s = .next (whenLive s (setupDone s x u j y))) :
    let w := tStore x j.tenant (suRec j.cmd) (setupRecord y)
    (w.2 = false → exec i s = .next (whenLive s (solvEnd s w.1 u j { detail := y.granules })))
    ∧ (w.2 = true → exec i s = .next (whenLive s (solvGone s w.1 u j))) := by
  refine ⟨fun htaken => ?_, fun hgone => ?_⟩
  · rw [hexec, setupDone, if_neg (by simp [htaken])]
  · rw [hexec, setupDone, if_pos hgone]

/-! SOLVE_UPD (R329 to R331). -/

/-- R331: a SOLVE_UPD that nothing stops applies its pairs in order and marks the system stale. -/
theorem doSolveUpd_of_read {s s1 : State} {u : Nat} {j : Job} {y : SolSys} {se : StructErr} {ps : List (Nat × Nat)}
    (hjob : solvJob s u 0x32 = some j) (hsys : cmdSys s j = some y) (hgood : y.failed = false) (hue : se.ue = false)
    (hs1 : s1 = readSpans (structFixed s u se) j.tenant [some (svAddr j.cmd, 16 * upCount j.cmd)])
    (hxlated : lpddrXlated s1 j.tenant (svAddr j.cmd) (16 * upCount j.cmd) false = true)
    (husable : usable s1 j.tenant (svAddr j.cmd) (16 * upCount j.cmd) false = true)
    (hpoison : tPoison s1 j.tenant (svAddr j.cmd) (16 * upCount j.cmd) = false)
    (hps : ps = (List.range (upCount j.cmd)).map (fun i =>
      (tNat s1 j.tenant (svAddr j.cmd + 16 * i) 8, tNat s1 j.tenant (svAddr j.cmd + 16 * i + 8) 8)))
    (hnamed : firstBad ps.length (fun i => decide ((ps.getD i (0, 0)).1 < y.vals.length)) = none) :
    let r := (ps.foldlM (updPair (upAdd j.cmd)) y.vals) {}
    doSolveUpd s u se = solvEnd s (perfAdd (perfAdd (putSys s1 u (svSys j.cmd) { y with vals := r.1, stale := true }) .solv u 5 (upCount j.cmd))
      .solv u 2 r.2.ops) u j (ranResult r.2.fl (upCount j.cmd)) := by
  subst hs1 hps
  unfold doSolveUpd
  simp only [hjob, hsys, hgood, hue, hxlated, husable, hpoison, hnamed, Bool.false_eq_true, if_false, Bool.not_true, Bool.or_self]

/-- R315: a SOLVE_UPD of a number that holds no system of the tenant completes TARGET_GONE. -/
theorem doSolveUpd_of_absent {s : State} {u : Nat} {j : Job} (hjob : solvJob s u 0x32 = some j) (hsys : cmdSys s j = none) (se : StructErr) :
    doSolveUpd s u se = solvGone s s u j := by
  simp [doSolveUpd, hjob, hsys]

/-- Settles O27: what each of SOLVE_SETUP's operations and SOLVE_UPD leaves where nothing refuses it, and SOLVE_UPD of no system. -/
theorem solverSystemsComplete : Obligations.SolverSystemsComplete := by
  intro s u j hlive hnowhere
  refine ⟨fun y hjob hop hgood hbuilt hareas hown hquota => recorded_of_exec ?create,
    fun y hjob hop hgood hbuilt => recorded_of_exec ?measure, fun y hjob hop hsys => ?release,
    fun y se hjob hsys hgood hue hxlated husable hpoison hnamed => ?update, fun se hjob hsys => ?absent⟩
  case create =>
    rw [exec_solveSetupCreate, gateJob_of_heldNowhere hnowhere, doSetupCreate_of_built hjob hop hgood rfl hbuilt rfl hareas hown hquota]
  case measure =>
    rw [exec_solveSetupMeasure, gateJob_of_heldNowhere hnowhere, doSetupMeasure_of_built hjob hop hgood hbuilt]
  case release =>
    rw [exec_solveSetupRelease, doSetupRelease_of_own hjob hop hsys]
  case update =>
    have hjobs (z : SolSys) (a b : Nat) : (perfAdd (perfAdd (putSys (readSpans (structFixed s u se) j.tenant
        [some (svAddr j.cmd, 16 * upCount j.cmd)]) u (svSys j.cmd) z) .solv u 5 a) .solv u 2 b).jobs = s.jobs := by
      apply jobs_of_engines
      simp only [engines_perfAdd, engines_putSys, engines_readSpans, engines_structFixed]
    rw [exec_solveUpd, gateJob_of_heldNowhere hnowhere, doSolveUpd_of_read hjob hsys hgood hue rfl hxlated husable hpoison rfl hnamed]
    refine ⟨_, rfl, finishedAs_solvEnd hlive (hjobs _ _ _) (mem_of_solvJob hjob), ?_, keepsJobs_solvEnd hlive (hjobs _ _ _)⟩
    rw [sysAt_solvEnd hlive, sysAt_perfAdd, sysAt_perfAdd, sysAt_putSys_self]
  case absent =>
    rw [exec_solveUpd, gateJob_of_heldNowhere hnowhere, doSolveUpd_of_absent hjob hsys, solvGone]

/-! The factorisation of a SOLVE (R334, R337, R341). -/

theorem storedFrom_writeLog (s : State) (t : Nat) (y : SolSys) (c : Cmd) (es : List Replaced) : StoredFrom s (writeLog s t y c es).1 :=
  List.foldlRecOn (motive := fun (p : State × Bool) => StoredFrom s p.1) _ _ (.refl s) (fun p hp e _ => by
    split
    · exact hp
    · exact hp.trans (storedFrom_tStore _ _ _ _))

/-- What a SOLVE has factored when its method begins (R341). -/
def solveFactored (s : State) (u : Nat) (j : Job) (y : SolSys) (p : SolPar) : Factored :=
  if mustFactor j.cmd y then runFactor s u j.tenant j.cmd y p else { st := s, y := y }

/-- R337: a factorisation writes memory, puts its system in place, counts and raises its event: no command moves. -/
theorem runFactor_jobs (s : State) (u t : Nat) (c : Cmd) (y : SolSys) (p : SolPar) : (runFactor s u t c y p).st.jobs = s.jobs := by
  unfold runFactor
  simp only [apply_ite State.jobs, raiseEvent_jobs, perfAdd_jobs, ite_self]
  apply jobs_of_engines
  rw [engines_putSys]
  have hlog := engines_of_stored (storedFrom_writeLog s t y c ((factorise y p.pivtol p.preg) {}).1.2)
  split
  · exact hlog
  · exact (engines_tStore _ _ _ _).trans hlog

theorem solveFactored_jobs (s : State) (u : Nat) (j : Job) (y : SolSys) (p : SolPar) : (solveFactored s u j y p).st.jobs = s.jobs := by
  unfold solveFactored
  split
  · exact runFactor_jobs _ _ _ _ _ _
  · rfl

/-- R341: a factorisation whose writes are taken leaves the system with its factor, not stale. -/
theorem sysAt_runFactor {s : State} {u t : Nat} {c : Cmd} {y : SolSys} {p : SolPar} (htaken : (runFactor s u t c y p).gone = false) :
    ∃ z, sysAt (runFactor s u t c y p).st u (svSys c) = some z ∧ z.factor.isSome = true ∧ z.stale = false := by
  refine ⟨(runFactor s u t c y p).y, ?_, ?_, rfl⟩
  · unfold runFactor
    simp only [apply_ite (sysAt · u (svSys c)), sysAt_raiseEvent, sysAt_perfAdd, sysAt_putSys_self, ite_self]
  · unfold runFactor at htaken ⊢
    dsimp only at htaken ⊢
    rw [htaken]
    rfl

/-! SOLVE (R338 to R348). -/

/-- What a SOLVE that starts reads before its factorisation moves no command. -/
theorem jobs_of_solveStarts {s s' : State} {u m : Nat} {j : Job} {y : SolSys} {p : SolPar} (h : solveStarts s u m j y p s') :
    s'.jobs = s.jobs := by
  obtain ⟨-, -, -, -, -, -, -, rfl, -⟩ := h
  exact jobs_of_engines ((engines_foldl _ (fun x e => engines_fillTlb x _ _ _) _ _).trans (engines_readSpans _ _ _))

/-- R341: a factorisation alone always factors. -/
theorem solveFactored_of_factor {j : Job} (h : soMethod j.cmd = 0) (s : State) (u : Nat) (y : SolSys) (p : SolPar) :
    solveFactored s u j y p = runFactor s u j.tenant j.cmd y p := if_pos (by simp [mustFactor, h])

/-- R338 to R341: a SOLVE that nothing refuses and that meets no error factors where it must. Where the writes of that are taken, a
factorisation alone ends; any other method goes on. -/
theorem doSolve_of_starts {s s' : State} {u m : Nat} {j : Job} {y : SolSys} {p : SolPar} {se : StructErr}
    (h : solveStarts s u m j y p s') (hue : se.ue = false) {f : Factored} (hf : f = solveFactored (structFixed s' u se) u j y p)
    (htaken : f.gone = false) :
    doSolve s u se m = if m = 0 then
      solvEnd s (solveSum f.st j f.count) u j (ranResult (flRec f.fl) (solveDetail 0 0 f.count)) else solveRest s u j p f := by
  obtain ⟨hjob, hm, hsys, hgood, husable, hpoison, rfl, rfl, hrefusal⟩ := h
  subst hf
  unfold solveFactored at htaken ⊢
  unfold doSolve
  simp only [hjob, hm, bne_self_eq_false, Bool.false_eq_true, if_false, hsys, hgood, husable, Bool.not_true, hpoison, hrefusal, hue, htaken]

/-- R342 to R345: a method whose reads are served and good, and whose writes of x are taken, ends with its own result. -/
theorem solveRest_of_served {s s2 : State} {u : Nat} {j : Job} {p : SolPar} {f : Factored} (hs2 : s2 = solveReads f.st j p f.y)
    (hserved : solveServed s2 j p f.y = true) (hgood : solveSpoilt s2 j p f.y = false) {r : (Iterated × Nat) × Cnt}
    (hr : r = solveRun s2 j p f) {w : State × Bool} (hw : w = tStore s2 j.tenant p.x (r.1.1.x.flatMap (leBytes 8))) (htaken : w.2 = false) :
    solveRest s u j p f
      = solvEnd s (solveSum (perfAdd (perfAdd w.1 .solv u 2 r.2.ops) .solv u 3 r.1.1.k) j r.1.2) u j (solveResult f r false) := by
  subst hs2 hr hw
  unfold solveRest
  simp only [hserved, Bool.not_true, Bool.false_eq_true, if_false, hgood, htaken]

/-- R340: DIRECT is one solve with the factor, which always has its answer. -/
theorem solveRun_stop_of_direct {j : Job} (h : soMethod j.cmd = 1) (s : State) (p : SolPar) (f : Factored) :
    (solveRun s j p f).1.1.stop = 0 := by
  unfold solveRun
  simp only [h, if_true]
  rfl

/-- A method that stops with its answer ends as its flags say (R344). -/
theorem solveResult_of_stop {f : Factored} {r : (Iterated × Nat) × Cnt} (h : r.1.1.stop = 0) :
    solveResult f r false = ranResult (flRec r.2.fl) (solveDetail r.1.1.k 0 f.count) := by
  simp [solveResult, h]

/-- A method that stops without its answer ends NO_CONV (R344). -/
theorem solveResult_of_noConv {f : Factored} {r : (Iterated × Nat) × Cnt} (h : r.1.1.stop ≠ 0) :
    solveResult f r false = failResult 0x26 (flRec r.2.fl) (solveDetail r.1.1.k r.1.1.stop f.count) := by
  simp [solveResult, h]

/-- What a SOLVE that ends with the result `r` and the summary `v` shows: its result, its summary, and no other command changed. -/
theorem solve_ends {s x : State} {u v : Nat} {j : Job} {r : Result} (hlive : live s = true) (hjobs : x.jobs = s.jobs) (hj : j ∈ s.jobs) :
    finishedAs (whenLive s (solvEnd s (solveSum x j v) u j r)) j r ∧ keepsJobs s (whenLive s (solvEnd s (solveSum x j v) u j r)) j
    ∧ (soSlotEn j.cmd = true → j.orphan = false →
      tabGet 0 (ten (whenLive s (solvEnd s (solveSum x j v) u j r)) j.tenant).sums (soSlot j.cmd) = BitVec.ofNat 64 v) := by
  have hsum := (solveSum_jobs x j v).trans hjobs
  refine ⟨finishedAs_solvEnd hlive hsum hj, keepsJobs_solvEnd hlive hsum, fun hslot horphan => ?_⟩
  rw [ten_solvEnd hlive]
  exact sums_solveSum hslot horphan x v

/-- Settles O28: a factorisation alone, and the four methods, each of which ends through the same rest of a SOLVE. -/
theorem solveMethodsComplete : Obligations.SolveMethodsComplete := by
  intro s u m j y p s' se hlive hnowhere hstarts hue s1 f htaken
  have hdo := doSolve_of_starts hstarts hue (f := f) rfl htaken
  have hjobs : f.st.jobs = s.jobs :=
    (solveFactored_jobs s1 u j y p).trans ((jobs_of_engines (engines_structFixed s' u se)).trans (jobs_of_solveStarts hstarts))
  obtain ⟨hjob, hm, -⟩ := hstarts
  have hj : j ∈ s.jobs := mem_of_solvJob hjob
  refine ⟨fun hzero => ?_, ?_⟩
  · subst hzero
    have hexec : exec (.factor u se) s = .next (whenLive s
        (solvEnd s (solveSum f.st j f.count) u j (ranResult (flRec f.fl) (solveDetail 0 0 f.count)))) := by
      rw [exec_factor, gateSolve_of_heldNowhere hnowhere, hdo, if_pos rfl]
    have hf : f = runFactor s1 u j.tenant j.cmd y p := solveFactored_of_factor hm s1 u y p
    obtain ⟨hfin, -, hsum⟩ := solve_ends (u := u) (v := f.count) (r := ranResult (flRec f.fl) (solveDetail 0 0 f.count)) hlive hjobs hj
    refine ⟨hexec, _, hexec, hfin, ?_, hsum⟩
    rw [sysAt_solvEnd hlive, sysAt_congr (solveSum_solvs _ _ _), hf]
    exact sysAt_runFactor (hf ▸ htaken)
  · intro s2 hserved hgood r w hwrote res ran
    have hran (i : Instr) (hne : m ≠ 0) (hexec : exec i s = .next (whenLive s (gateSolve s u m (doSolve s u se m)))) : ran i := by
      have hx : (perfAdd (perfAdd w.1 .solv u 2 r.2.ops) .solv u 3 r.1.1.k).jobs = s.jobs :=
        (jobs_of_engines ((engines_tStore _ _ _ _).trans (engines_readSpans _ _ _))).trans hjobs
      rw [gateSolve_of_heldNowhere hnowhere, hdo, if_neg hne, solveRest_of_served rfl hserved hgood rfl rfl hwrote] at hexec
      exact ⟨hexec, _, hexec, solve_ends hlive hx hj⟩
    refine ⟨solveResult_of_stop, solveResult_of_noConv, fun hmethod => ⟨solveRun_stop_of_direct (hm.trans hmethod) _ p f, ?_⟩,
      fun hmethod => ?_, fun hmethod => ?_, fun hmethod => ?_⟩
    all_goals subst hmethod
    · exact hran _ (by decide) (exec_direct u se s)
    · exact hran _ (by decide) (exec_refine u se s)
    · exact hran _ (by decide) (exec_cg u se s)
    · exact hran _ (by decide) (exec_bicgstab u se s)

end Sys2Proof.Machine
end

section
/-! PROOFS. The form of memory is kept (log 4): for every operation of the node, either that it leaves what the memories hold as it is
(`contents_…`), or that memories in canonical form are so after it (`formed_…`). -/

namespace Sys2Proof.Machine

/-- What the node's memories hold: the bytes that local addresses show, and the contents of LPDDR that no window shows. -/
def contents (s : State) : Memory × List Host.Cell := (s.mem, s.dark)

/-- Both are in canonical form. -/
def Formed (c : Memory × List Host.Cell) : Prop := c.1.wf = true ∧ cellsWf 0 c.2 = true

theorem contents_of_same {s t : State} (hm : t.mem = s.mem) (hd : t.dark = s.dark) : contents t = contents s := by simp only [contents, hm, hd]

@[simp] theorem contents_ite (c : Prop) [Decidable c] (a b : State) :
    contents (if c then a else b) = if c then contents a else contents b := apply_ite contents c a b

@[simp] theorem formed_ite (c : Prop) [Decidable c] (a b : Memory × List Host.Cell) :
    Formed (if c then a else b) ↔ if c then Formed a else Formed b := by split <;> rfl

section Update

variable (s : State) (part : Part) (pages : Tab Page) (poison darkPoison sealedG : List Nat) (darkErrs memErrs : List MemErr)
  (seals : List SealReq) (spads : Tab Spad) (ports : Tab Port) (tenants : Tab Tenant) (jobs : List Job) (hostIf : HostIf) (hen : Hen)
  (ledger : Ledger) (drakes : Tab DrakeGrp) (oxs : Tab OxArr) (ponys : Tab PonySl) (mule : Mule) (solvs : Tab (Tab SolSys))
  (links : Tab Link) (sw : Switch) (coll : Coll) (xag : Xag) (mgmt : Mgmt) (pwr : Pwr) (arbs : Tab Arb) (tap : TapInstr) (gclk : Nat)
  (out : List Out) (freeCount : Nat) (pending : List Instr)

/-- An update of any other fields leaves what the memories hold. -/
@[simp] theorem contents_mk :
    contents ⟨part, pages, s.mem, poison, s.dark, darkPoison, darkErrs, memErrs, sealedG, seals, spads, ports, tenants, jobs, hostIf, hen,
      ledger, drakes, oxs, ponys, mule, solvs, links, sw, coll, xag, mgmt, pwr, arbs, tap, gclk, out, freeCount, pending⟩ = contents s :=
  contents_of_same rfl rfl

end Update

@[simp] theorem contents_foldl {β : Type} {s : State} {step : State → β → State} (h : ∀ x b, contents (step x b) = contents x)
    (l : List β) : contents (l.foldl step s) = contents s :=
  List.foldlRecOn (motive := fun (x : State) => contents x = contents s) l step rfl (fun x hx b _ => (h x b).trans hx)

@[simp] theorem formed_foldl {β : Type} {s : State} {step : State → β → State}
    (h : ∀ x b, Formed (contents x) → Formed (contents (step x b))) (l : List β) (w : Formed (contents s)) :
    Formed (contents (l.foldl step s)) :=
  List.foldlRecOn (motive := fun (x : State) => Formed (contents x)) l step w (fun x hx b _ => h x b hx)

/-- Writes to memory keep the form. -/
theorem Formed.stored {s t : State} (h : StoredFrom s t) (w : Formed (contents s)) : Formed (contents t) := by
  obtain ⟨hmem, hdark⟩ := w
  obtain ⟨-, same, -⟩ := h.fields
  exact ⟨h.wf hmem, by simpa [contents, same] using hdark⟩

/-! The shared operations over the state. -/

@[simp] theorem formed_whenLive {s t : State} (w : Formed (contents s)) (h : Formed (contents t)) : Formed (contents (whenLive s t)) := by
  unfold whenLive
  split <;> simpa

@[simp] theorem contents_modPage (s : State) (b : Block) (i : Nat) (f : Page → Page) : contents (modPage s b i f) = contents s :=
  contents_of_same rfl rfl

@[simp] theorem contents_setBlkState (s : State) (b : Block) (i st : Nat) : contents (setBlkState s b i st) = contents s := contents_of_same rfl rfl

@[simp] theorem contents_setRegWord (s : State) (b : Block) (i off v : Nat) : contents (setRegWord s b i off v) = contents s :=
  contents_of_same rfl rfl

@[simp] theorem contents_perfAdd (s : State) (b : Block) (i k n : Nat) : contents (perfAdd s b i k n) = contents s := contents_of_same rfl rfl
@[simp] theorem contents_emit (s : State) (o : Out) : contents (emit s o) = contents s := contents_of_same rfl rfl
@[simp] theorem contents_raiseVec (s : State) (fn vec : Nat) : contents (raiseVec s fn vec) = contents s := by
  unfold raiseVec
  split <;> simp

@[simp] theorem contents_raiseEvent (s : State) (b : Block) (i n : Nat) : contents (raiseEvent s b i n) = contents s := by simp [raiseEvent]
@[simp] theorem contents_putRas (s : State) (e : Nat) : contents (putRas s e) = contents s := contents_of_same rfl rfl
@[simp] theorem contents_rasLog (s : State) (b : Block) (i cls code addr tenant : Nat) : contents (rasLog s b i cls code addr tenant) = contents s := by
  simp [rasLog]

@[simp] theorem contents_blkError (s : State) (b : Block) (i cls code addr tenant : Nat) :
    contents (blkError s b i cls code addr tenant) = contents s := by simp [blkError]

@[simp] theorem contents_enterFault (s : State) (b : Block) (i tenant : Nat) : contents (enterFault s b i tenant) = contents s := by simp [enterFault]
@[simp] theorem contents_regError (s : State) (b : Block) (i off : Nat) : contents (regError s b i off) = contents s := contents_of_same rfl rfl
@[simp] theorem contents_modPort (s : State) (p : Nat) (f : Port → Port) : contents (modPort s p f) = contents s := contents_of_same rfl rfl
@[simp] theorem contents_modSpad (s : State) (d : Nat) (f : Spad → Spad) : contents (modSpad s d f) = contents s := contents_of_same rfl rfl
@[simp] theorem contents_setFailed (s : State) (d k : Nat) : contents (setFailed s d k) = contents s := by simp [setFailed]
@[simp] theorem contents_addErrs (s : State) (es : List MemErr) : contents (addErrs s es) = contents s := contents_of_same rfl rfl

@[simp] theorem formed_meetErrs {s : State} (p : Nat → Bool) (w : Formed (contents s)) : Formed (contents (meetErrs s p)) :=
  w.stored (storedFrom_meetErrs _ _)

@[simp] theorem contents_modTen (s : State) (t : Nat) (f : Tenant → Tenant) : contents (modTen s t f) = contents s := contents_of_same rfl rfl
@[simp] theorem contents_fillPage (s : State) (t vp : Nat) : contents (fillPage s t vp) = contents s := by
  unfold fillPage
  dsimp only
  (repeat' split) <;> simp

@[simp] theorem contents_fillTlb (s : State) (t va n : Nat) : contents (fillTlb s t va n) = contents s := by simp [fillTlb]

/-! Writes and what they wait for. -/

@[simp] theorem contents_modHenTen (s : State) (t : Nat) (f : HenTen → HenTen) : contents (modHenTen s t f) = contents s := contents_of_same rfl rfl
@[simp] theorem contents_sealHit (s : State) (a : Nat) : contents (sealHit s a) = contents s := by
  unfold sealHit
  split <;> simp

@[simp] theorem formed_pageRead {s : State} (pg : Nat) (w : Formed (contents s)) : Formed (contents (pageRead s pg)) := by simp [pageRead, w]

@[simp] theorem formed_henPage {s : State} (dst : Nat) (bs : List Byte) (bad : List Nat) (w : Formed (contents s)) :
    Formed (contents (henPage s dst bs bad)) := w.stored (storedFrom_henPage _ _ _ _)

@[simp] theorem formed_copyChunk {s : State} (c : Cutting) (i : Nat) (w : Formed (contents s)) : Formed (contents (copyChunk s c i)) :=
  w.stored (storedFrom_copyChunk _ _ _)

@[simp] theorem contents_goneHit (s : State) (a : Nat) : contents (goneHit s a) = contents s := by
  unfold goneHit
  split <;> simp

@[simp] theorem contents_missAt (s : State) (t va n : Nat) (w : Bool) : contents (missAt s t va n w) = contents s := by
  unfold missAt
  (repeat' split) <;> simp

@[simp] theorem formed_store {s : State} (a : Nat) (bs : List Byte) (w : Formed (contents s)) : Formed (contents (store s a bs).1) :=
  w.stored (storedFrom_store _ _ _)

@[simp] theorem formed_storePoison {s : State} (a : Nat) (w : Formed (contents s)) : Formed (contents (storePoison s a).1) :=
  w.stored (storedFrom_storePoison _ _)

@[simp] theorem formed_tStore {s : State} (t va : Nat) (bs : List Byte) (w : Formed (contents s)) : Formed (contents (tStore s t va bs).1) :=
  w.stored (storedFrom_tStore _ _ _ _)

@[simp] theorem formed_tStorePoison {s : State} (t va : Nat) (w : Formed (contents s)) : Formed (contents (tStorePoison s t va).1) :=
  w.stored (storedFrom_tStorePoison _ _ _)

@[simp] theorem formed_zeroEngine {s : State} (a n : Nat) (w : Formed (contents s)) : Formed (contents (zeroEngine s a n)) :=
  w.stored (storedFrom_zeroEngine _ _ _)

/-! The ledger. -/

@[simp] theorem contents_modChain (s : State) (c : Nat) (f : Chain → Chain) : contents (modChain s c f) = contents s := contents_of_same rfl rfl
@[simp] theorem contents_ledgerPush (s : State) (e : Entry) : contents (ledgerPush s e) = contents s := by simp [ledgerPush]
@[simp] theorem contents_ledgerDue (s : State) (e : Entry) : contents (ledgerDue s e) = contents s := by simp [ledgerDue]
@[simp] theorem contents_sealNow (s : State) (c : Nat) (fail : Bool) : contents (sealNow s c fail) = contents s := by simp [sealNow]
@[simp] theorem contents_sealDue (s : State) (c : Nat) (fail : Bool) : contents (sealDue s c fail) = contents s := by simp [sealDue]
@[simp] theorem contents_sealAll (s : State) (fail : Bool) : contents (sealAll s fail) = contents s := by simp [sealAll]
@[simp] theorem contents_sealFree (s : State) (c : Nat) : contents (sealFree s c) = contents s := by simp [sealFree]
@[simp] theorem contents_sealGained (s : State) : contents (sealGained s) = contents s := by simp [sealGained]

theorem formed_of_writeUnit {s u : State} (h : writeUnit s = some u) (w : Formed (contents s)) : Formed (contents u) := by
  unfold writeUnit at h
  dsimp only at h
  split at h
  · cases h
  · cases h
    simp [w]

@[simp] theorem contents_entryDone (s : State) (e : Entry) (hash : Nat) : contents (entryDone s e hash) = contents s := by
  unfold entryDone
  (repeat' split) <;> simp

@[simp] theorem formed_writeUnits (e : Entry) (hash n : Nat) {s : State} (w : Formed (contents s)) : Formed (contents (writeUnits e hash n s)) := by
  induction n generalizing s with
  | zero => exact w
  | succ n ih =>
    unfold writeUnits
    split
    · simpa
    · split
      · simpa
      · next u hu => exact ih (formed_of_writeUnit hu w)

@[simp] theorem formed_ledgerWrite {s : State} (w : Formed (contents s)) : Formed (contents (ledgerWrite s)) := by
  unfold ledgerWrite
  split <;> simp [w]

@[simp] theorem formed_ledgerDrain (n : Nat) {s : State} (w : Formed (contents s)) : Formed (contents (ledgerDrain n s)) := by
  induction n generalizing s with
  | zero => exact w
  | succ n ih =>
    unfold ledgerDrain
    (repeat' split) <;> simp [ih, w]

@[simp] theorem contents_memoryEntries (s : State) (sub die sn src pg : Nat) (w : Withdrawn) :
    contents (memoryEntries s sub die sn src pg w) = contents s := by simp [memoryEntries]

@[simp] theorem contents_overrideEntry (s : State) (cause us : Nat) : contents (overrideEntry s cause us) = contents s := by simp [overrideEntry]

/-! Operands. -/

@[simp] theorem formed_tStoreLine {s : State} (t l : Nat) (cs : List (Nat × Byte)) (bad : Bool) (w : Formed (contents s)) :
    Formed (contents (tStoreLine s t l cs bad).1) := w.stored (storedFrom_tStoreLine _ _ _ _ _)

@[simp] theorem formed_writeLine (t : Nat) (bad : List Nat) {x : Wrote} (l : Nat × List (Nat × Byte)) (w : Formed (contents x.st)) :
    Formed (contents (writeLine t bad x l).st) := by
  unfold writeLine
  dsimp only
  (repeat' split) <;> simp [w]

@[simp] theorem formed_writeOut {s : State} (t : Nat) (es : List OutElem) (badAt : List Nat) (w : Formed (contents s)) :
    Formed (contents (writeOut s t es badAt).st) :=
  List.foldlRecOn (motive := fun (x : Wrote) => Formed (contents x.st)) _ _ w (fun _ hx l _ => formed_writeLine t _ l hx)

/-! Errors met by reads, withdrawn pages. -/

@[simp] theorem contents_memEvents (s : State) (a n : Nat) : contents (memEvents s a n) = contents s := by simp [memEvents]

@[simp] theorem contents_modSet (s : State) (d k : Nat) (f : SharedSet → SharedSet) : contents (modSet s d k f) = contents s :=
  contents_of_same rfl rfl

@[simp] theorem contents_failSet (s : State) (d k : Nat) (w : Withdrawn) : contents (failSet s d k w) = contents s := by simp [failSet]
@[simp] theorem contents_withdrawPage (s : State) (d k p : Nat) : contents (withdrawPage s d k p) = contents s := by simp [withdrawPage]
@[simp] theorem contents_withdrawLine (s : State) (l : Nat) : contents (withdrawLine s l) = contents s := by
  unfold withdrawLine
  dsimp only
  (repeat' split) <;> simp

@[simp] theorem contents_withdrawNew (s0 s1 s : State) : contents (withdrawNew s0 s1 s) = contents s := contents_foldl contents_withdrawLine _
@[simp] theorem formed_readNow {s : State} (p : Nat → Bool) (w : Formed (contents s)) : Formed (contents (readNow s p)) := by simp [readNow, w]

@[simp] theorem contents_fillSpans (s : State) (t : Nat) (spans : List (Option (Nat × Nat))) : contents (fillSpans s t spans) = contents s :=
  contents_foldl (fun x sp => by cases sp <;> simp) spans

@[simp] theorem formed_readSpans {s : State} (t : Nat) (spans : List (Option (Nat × Nat))) (w : Formed (contents s)) :
    Formed (contents (readSpans s t spans)) := by simp [readSpans, w]

@[simp] theorem contents_noteWithdrawn (s : State) (t step : Nat) (spans : List (Option (Nat × Nat))) :
    contents (noteWithdrawn s t step spans) = contents s := contents_of_same rfl rfl

/-! Streams and their records. -/

@[simp] theorem contents_modStream (s : State) (t st : Nat) (f : Stream → Stream) : contents (modStream s t st f) = contents s :=
  contents_of_same rfl rfl

@[simp] theorem contents_takeFront (s : State) (t st : Nat) : contents (takeFront s t st) = contents s := by
  unfold takeFront
  split <;> simp

@[simp] theorem contents_tokenErr (s : State) (t n : Nat) : contents (tokenErr s t n) = contents s := by simp [tokenErr]
@[simp] theorem contents_tokenAdd (s : State) (t n inc : Nat) : contents (tokenAdd s t n inc) = contents s := contents_of_same rfl rfl
@[simp] theorem contents_signal (s : State) (t : Nat) (c : Cmd) (status : Nat) : contents (signal s t c status) = contents s := by simp [signal]
@[simp] theorem contents_atTime (s : State) (now : Nat) : contents (atTime s now) = contents s := contents_of_same rfl rfl

@[simp] theorem contents_passOver (s : State) (t st now cause code : Nat) : contents (passOver s t st now cause code) = contents s :=
  contents_of_same rfl rfl

@[simp] theorem contents_markReady (s : State) (t : Nat) : contents (markReady s t) = contents s := by simp [markReady]
@[simp] theorem formed_putRec {s : State} (t st : Nat) (r : Rec) (w : Formed (contents s)) : Formed (contents (putRec s t st r).1) := by
  unfold putRec
  dsimp only
  (repeat' split) <;> simp [w]

@[simp] theorem contents_cplFault (s : State) (t st : Nat) : contents (cplFault s t st) = contents s := by simp [cplFault]
@[simp] theorem formed_writeRec {s : State} (t st : Nat) (r : Rec) (w : Formed (contents s)) : Formed (contents (writeRec s t st r)) := by
  simp [writeRec, w]

@[simp] theorem formed_flushHeld (n : Nat) {s : State} (t st : Nat) (w : Formed (contents s)) : Formed (contents (flushHeld n s t st)) := by
  induction n generalizing s with
  | zero => exact w
  | succ n ih =>
    unfold flushHeld
    dsimp only
    (repeat' split) <;> simp [ih, w]

@[simp] theorem contents_countCompletion (s : State) (t : Nat) (r : Result) (tm : Timing) : contents (countCompletion s t r tm) = contents s := by
  simp [countCompletion]

@[simp] theorem formed_record {s : State} (t st : Nat) (c : Cmd) (r : Result) (tm : Timing) (w : Formed (contents s)) :
    Formed (contents (record s t st c r tm)) := by simp [record, w]

@[simp] theorem formed_completePlain {s : State} (t st : Nat) (c : Cmd) (r : Result) (tm : Timing) (w : Formed (contents s)) :
    Formed (contents (completePlain s t st c r tm)) := by simp [completePlain, w]

@[simp] theorem formed_writeBodies {s : State} (t st k n : Nat) (w : Formed (contents s)) : Formed (contents (writeBodies s t st k n)) := by
  induction n with
  | zero => exact w
  | succ n ih =>
    unfold writeBodies
    dsimp only
    (repeat' split) <;> simp [ih]

@[simp] theorem formed_closeLoop {s : State} (t st k : Nat) (w : Formed (contents s)) : Formed (contents (closeLoop s t st k)) := by
  unfold closeLoop
  dsimp only
  (repeat' split) <;> simp [w]

@[simp] theorem formed_completeBody {s : State} (t st : Nat) (c : Cmd) (i : Nat) (r : Result) (tm : Timing) (hold : Nat) (w : Formed (contents s)) :
    Formed (contents (completeBody s t st c i r tm hold)) := by
  unfold completeBody
  split <;> simp [w]

@[simp] theorem formed_complete {s : State} (t st : Nat) (c : Cmd) (iter : Option Nat) (r : Result) (tm : Timing) (hold : Nat) (w : Formed (contents s)) :
    Formed (contents (complete s t st c iter r tm hold)) := by
  unfold complete
  split <;> simp [w]

@[simp] theorem formed_completeFront {s : State} (t st now : Nat) (c : Cmd) (iter : Option Nat) (r : Result) (w : Formed (contents s)) :
    Formed (contents (completeFront s t st now c iter r)) := by simp [completeFront, w]

@[simp] theorem contents_modJob (s : State) (j : Job) (f : Job → Job) : contents (modJob s j f) = contents s := contents_of_same rfl rfl
@[simp] theorem contents_finishJob (before s : State) (j : Job) (r : Result) : contents (finishJob before s j r) = contents s := by simp [finishJob]
@[simp] theorem contents_writeSum (s : State) (t slot v : Nat) : contents (writeSum s t slot v) = contents s := contents_of_same rfl rfl
@[simp] theorem contents_jobSum (s : State) (j : Job) (slot v : Nat) : contents (jobSum s j slot v) = contents s := by
  unfold jobSum
  split <;> simp

/-! Links and the switch. -/

@[simp] theorem contents_modLink (s : State) (n : Nat) (f : Link → Link) : contents (modLink s n f) = contents s := contents_of_same rfl rfl

@[simp] theorem contents_sendCtl (s : State) (n typ : Nat) (body : List Byte) : contents (sendCtl s n typ body) = contents s :=
  contents_of_same rfl rfl

@[simp] theorem contents_sendData (s : State) (n seq : Nat) (f : TxFlit) : contents (sendData s n seq f) = contents s := contents_of_same rfl rfl
@[simp] theorem contents_sendIdle (s : State) (n : Nat) : contents (sendIdle s n) = contents s := contents_of_same rfl rfl
@[simp] theorem contents_tell (k : Nat) (s : State) (n : Nat) : contents (tell k s n) = contents s := by
  induction k generalizing s with
  | zero => rfl
  | succ k ih =>
    unfold tell
    dsimp only
    split <;> simp [ih]

@[simp] theorem contents_tellAll (s : State) (n : Nat) : contents (tellAll s n) = contents s := by simp [tellAll]
@[simp] theorem contents_freeInput (s : State) (p : Parcel) : contents (freeInput s p) = contents s := by
  unfold freeInput
  split <;> simp

@[simp] theorem contents_leaveInput (s : State) (p : Parcel) : contents (leaveInput s p) = contents s := by
  unfold leaveInput
  split <;> simp

@[simp] theorem contents_sendRetry (s : State) (n : Nat) : contents (sendRetry s n) = contents s := contents_of_same rfl rfl
@[simp] theorem contents_pumpLink (k : Nat) (s : State) (n : Nat) : contents (pumpLink k s n) = contents s := by
  induction k generalizing s with
  | zero => rfl
  | succ k ih =>
    unfold pumpLink
    dsimp only
    (repeat' split) <;> simp [ih]

@[simp] theorem contents_pump (s : State) (n : Nat) : contents (pump s n) = contents s := by simp [pump]
@[simp] theorem contents_countSent (s : State) (p : Parcel) : contents (countSent s p) = contents s := by
  unfold countSent
  split <;> simp

@[simp] theorem contents_enqueue (s : State) (n : Nat) (p : Parcel) : contents (enqueue s n p) = contents s := by simp [enqueue]
@[simp] theorem contents_routeMiss (s : State) : contents (routeMiss s) = contents s := by simp [routeMiss]
@[simp] theorem contents_dropMsg (s : State) (p : Parcel) : contents (dropMsg s p) = contents s := by simp [dropMsg]
@[simp] theorem contents_jobsHeld (s : State) (serves : Job → Bool) : contents (jobsHeld s serves) = contents s := contents_of_same rfl rfl
@[simp] theorem contents_holdJobs (before s : State) (serves : Job → Bool) : contents (holdJobs before s serves) = contents s := by simp [holdJobs]
@[simp] theorem contents_sendMsg (s : State) (p : Parcel) : contents (sendMsg s p) = contents s := by
  unfold sendMsg
  (repeat' split) <;> simp

@[simp] theorem contents_sendAll (s : State) (ps : List Parcel) : contents (sendAll s ps) = contents s := by simp [sendAll]
@[simp] theorem contents_spareEvents (s : State) (before : List Nat) : contents (spareEvents before s) = contents s := by simp [spareEvents]
@[simp] theorem contents_routesChanged (s : State) (before : List Nat) : contents (routesChanged before s) = contents s := by simp [routesChanged]
@[simp] theorem contents_endHold (s : State) (id : Nat) : contents (endHold s id) = contents s := by
  unfold endHold
  split <;> simp

@[simp] theorem contents_latchPolicies (s : State) : contents (latchPolicies s) = contents s := by simp [latchPolicies]
@[simp] theorem contents_sendCap (s : State) (n : Nat) : contents (sendCap s n) = contents s := contents_of_same rfl rfl
@[simp] theorem contents_setMode (s : State) (n : Nat) (m : LinkMode) : contents (setMode s n m) = contents s := contents_of_same rfl rfl
@[simp] theorem contents_retrain (s : State) (n : Nat) (m : LinkMode) : contents (retrain s n m) = contents s := contents_of_same rfl rfl
@[simp] theorem contents_linkLost (s : State) (n : Nat) : contents (linkLost s n) = contents s := by simp [linkLost]
@[simp] theorem contents_linkIdle (s : State) (n st : Nat) : contents (linkIdle s n st) = contents s := contents_of_same rfl rfl
@[simp] theorem contents_attemptFails (s : State) (n : Nat) : contents (attemptFails s n) = contents s := by simp [attemptFails]
@[simp] theorem contents_trainAt (s : State) (n : Nat) (m : LinkMode) : contents (trainAt s n m) = contents s := contents_of_same rfl rfl
@[simp] theorem contents_enterActive (s : State) (n : Nat) : contents (enterActive s n) = contents s := by
  unfold enterActive
  dsimp only
  (repeat' split) <;> simp

@[simp] theorem contents_resendReplay (s : State) (n : Nat) : contents (resendReplay s n) = contents s := by simp [resendReplay]
@[simp] theorem contents_retrainDone (s : State) (n : Nat) : contents (retrainDone s n) = contents s := by simp [retrainDone]
@[simp] theorem contents_sendTests (s : State) (n : Nat) : contents (sendTests s n) = contents s := contents_of_same rfl rfl
@[simp] theorem contents_takeHead (s : State) (n : Nat) (f : Flit) : contents (takeHead s n f) = contents s := by simp [takeHead]
@[simp] theorem contents_crcFailed (s : State) (n : Nat) : contents (crcFailed s n) = contents s := by simp [crcFailed]
@[simp] theorem contents_discardFlit (s : State) (n : Nat) : contents (discardFlit s n) = contents s := by
  unfold discardFlit
  split <;> simp

@[simp] theorem contents_ejectFlit (s : State) (n : Nat) (f : Flit) : contents (ejectFlit s n f) = contents s := contents_of_same rfl rfl

@[simp] theorem contents_keepPath (s : State) (n : Nat) (f : Flit) (a : Transit) (left : Nat) (via : Option Nat) :
    contents (keepPath s n f a left via) = contents s := contents_of_same rfl rfl

@[simp] theorem contents_passTo (s : State) (n : Nat) (f : Flit) (a : Transit) : contents (passTo s n f a) = contents s := by simp [passTo]
@[simp] theorem contents_passRest (s : State) (n : Nat) (f : Flit) (q : FlitPath) : contents (passRest s n f q) = contents s := by
  unfold passRest
  split <;> simp

@[simp] theorem contents_passOn (s : State) (n : Nat) (f : Flit) : contents (passOn s n f) = contents s := by
  unfold passOn
  split <;> simp

@[simp] theorem contents_bufParity (s : State) (n : Nat) (f : Flit) : contents (bufParity s n f) = contents s := by simp [bufParity]
@[simp] theorem contents_countFixed (s : State) (n : Nat) (f : Flit) : contents (countFixed s n f) = contents s := by
  unfold countFixed
  split <;> simp

@[simp] theorem contents_doDataFlit (s : State) (n : Nat) (f : Flit) : contents (doDataFlit s n f) = contents s := by simp [doDataFlit]
@[simp] theorem contents_doIdleFlit (s : State) (n : Nat) (f : Flit) : contents (doIdleFlit s n f) = contents s := by simp [doIdleFlit]
@[simp] theorem contents_doRetryRequest (s : State) (n : Nat) (f : Flit) : contents (doRetryRequest s n f) = contents s := by simp [doRetryRequest]
@[simp] theorem contents_doRetryRepeat (s : State) (n : Nat) : contents (doRetryRepeat s n) = contents s := by
  unfold doRetryRepeat
  split <;> simp

/-! Register accesses. -/

@[simp] theorem contents_bar0Count (s : State) (r : Requester) : contents (bar0Count s r) = contents s := by
  unfold bar0Count
  split <;> simp

@[simp] theorem contents_useStaged (s : State) (r : Requester) (b : Block) (i off : Nat) : contents (useStaged s r b i off) = contents s := by
  unfold useStaged
  split <;> simp

@[simp] theorem contents_regAccess (s : State) (r : Requester) (b : Block) (i off : Nat) (ok : Bool) {f : State → State}
    (h : ∀ x, contents (f x) = contents x) : contents (regAccess s r b i off ok f) = contents s := by
  simp [regAccess, h]

theorem formed_regAccess {s : State} (r : Requester) (b : Block) (i off : Nat) (ok : Bool) {f : State → State}
    (h : ∀ x, Formed (contents x) → Formed (contents (f x))) (w : Formed (contents s)) : Formed (contents (regAccess s r b i off ok f)) := by
  unfold regAccess
  dsimp only
  (repeat' split) <;> simp [h, w]

end Sys2Proof.Machine
end

section
/-! PROOFS. The form of memory is kept (log 4): the engines. -/

namespace Sys2Proof.Machine

/-! Drake. -/

@[simp] theorem formed_copyOut {s : State} (t : Nat) (die : Option Nat) (dst : TDesc) (rs : List (List Nat × Read1)) (short : Bool)
    (conv : List Nat → Read1 → Int → Nat × Fl) (w : Formed (contents s)) : Formed (contents (copyOut s t die dst rs short conv).st) := by
  unfold copyOut
  dsimp only
  split <;> simp [w]

@[simp] theorem contents_readMissed (s : State) (t : Nat) (rs : List Read1) : contents (readMissed s t rs) = contents s := by
  unfold readMissed
  split <;> simp

@[simp] theorem contents_raiseTimes (s : State) (b : Block) (i e n : Nat) : contents (raiseTimes s b i e n) = contents s := by simp [raiseTimes]
@[simp] theorem contents_failJobs (s : State) (u : EUnit) (b : Block) (i gone : Nat) : contents (failJobs s u b i gone) = contents s := by
  simp [failJobs]

@[simp] theorem contents_drakeEnd (s0 : State) (g : Nat) (j : Job) (r : Copied) (spans : List (Option (Nat × Nat))) :
    contents (drakeEnd s0 g j r spans) = contents r.st := by simp [drakeEnd]

@[simp] theorem formed_copyRun {s : State} (j : Job) (spans : List (Option (Nat × Nat))) (errs : List MemErr)
    (rd : State → List Nat → Read1) (conv : State → List Nat → Read1 → Int → Nat × Fl) (w : Formed (contents s)) :
    Formed (contents (copyRun s j spans errs rd conv).st) := by
  simp [copyRun, w]

@[simp] theorem formed_moveRun {s : State} (j : Job) (errs : List MemErr) (w : Formed (contents s)) : Formed (contents (moveRun s j errs).st) :=
  formed_copyRun _ _ _ _ _ w

@[simp] theorem formed_doMove {s : State} (g idx : Nat) (errs : List MemErr) (w : Formed (contents s)) : Formed (contents (doMove s g idx errs)) := by
  unfold doMove
  (repeat' split) <;> simp [w]

@[simp] theorem formed_convertRun {s : State} (j : Job) (errs : List MemErr) (w : Formed (contents s)) :
    Formed (contents (convertRun s j errs).st) := formed_copyRun _ _ _ _ _ w

@[simp] theorem formed_doConvert {s : State} (g idx : Nat) (errs : List MemErr) (w : Formed (contents s)) :
    Formed (contents (doConvert s g idx errs)) := by
  unfold doConvert
  (repeat' split) <;> simp [w]

@[simp] theorem formed_gatherRun {s : State} (j : Job) (errs : List MemErr) (w : Formed (contents s)) : Formed (contents (gatherRun s j errs).st) :=
  formed_copyRun _ _ _ _ _ w

@[simp] theorem formed_doGather {s : State} (g idx : Nat) (errs : List MemErr) (w : Formed (contents s)) :
    Formed (contents (doGather s g idx errs)) := by
  unfold doGather
  (repeat' split) <;> simp [w]

@[simp] theorem formed_zeroPage (t : Nat) {x : Wrote} (vp : Nat) (w : Formed (contents x.st)) : Formed (contents (zeroPage t x vp).st) := by
  unfold zeroPage
  (repeat' split) <;> simp [w]

@[simp] theorem formed_zeroRun {s : State} (j : Job) (w : Formed (contents s)) : Formed (contents (zeroRun s j).st) := by
  unfold zeroRun
  split
  · exact formed_copyOut _ _ _ _ _ _ w
  · exact List.foldlRecOn (motive := fun (x : Wrote) => Formed (contents x.st)) _ _ w (fun _ hx p _ => formed_zeroPage _ p hx)

@[simp] theorem formed_doZero {s : State} (g idx : Nat) (w : Formed (contents s)) : Formed (contents (doZero s g idx)) := by
  unfold doZero
  (repeat' split) <;> simp [w]

@[simp] theorem contents_modDrake (s : State) (g : Nat) (f : DrakeGrp → DrakeGrp) : contents (modDrake s g f) = contents s := contents_of_same rfl rfl

@[simp] theorem contents_modRun (s : State) (g : Nat) (j : Job) (f : PfRun → PfRun) : contents (modRun s g j f) = contents s :=
  contents_of_same rfl rfl

@[simp] theorem contents_doPrefetch (s : State) (g idx : Nat) : contents (doPrefetch s g idx) = contents s := by
  unfold doPrefetch
  split <;> simp

@[simp] theorem formed_doRunahead {s : State} (g idx e : Nat) (w : Formed (contents s)) : Formed (contents (doRunahead s g idx e)) := by
  unfold doRunahead
  (repeat' split) <;> simp [w]

@[simp] theorem contents_dropStaged (s : State) (g : Nat) (r : PfRun) : contents (dropStaged s g r) = contents s := by simp [dropStaged]
@[simp] theorem contents_fillRest (s : State) (t : Nat) (c : Cmd) (committed : Nat) : contents (fillRest s t c committed) = contents s := by
  simp [fillRest]

@[simp] theorem contents_endRun (s : State) (g : Nat) (j : Job) : contents (endRun s g j) = contents s := contents_of_same rfl rfl
@[simp] theorem formed_commitRead {s : State} (j : Job) (r : PfRun) (w : Formed (contents s)) : Formed (contents (commitRead s j r).1) := by
  unfold commitRead
  split <;> simp [w]

@[simp] theorem formed_commitWrote {s : State} (j : Job) (r : PfRun) (w : Formed (contents s)) : Formed (contents (commitWrote s j r).st) := by
  simp [commitWrote, w]

@[simp] theorem formed_doCommit {s : State} (g idx : Nat) (w : Formed (contents s)) : Formed (contents (doCommit s g idx)) := by
  unfold doCommit
  dsimp only
  (repeat' split) <;> simp [w]

@[simp] theorem contents_doPromote (s : State) (g idx : Nat) : contents (doPromote s g idx) = contents s := by
  unfold doPromote
  (repeat' split) <;> simp

/-! Ox. -/

@[simp] theorem contents_modOx (s : State) (a : Nat) (f : OxArr → OxArr) : contents (modOx s a f) = contents s := contents_of_same rfl rfl
@[simp] theorem contents_dropHeld (s : State) (a : Nat) (used : Bool) : contents (dropHeld s a used) = contents s := by
  unfold dropHeld
  split <;> simp

@[simp] theorem contents_oxZero (s : State) (a : Nat) : contents (oxZero s a) = contents s := by simp [oxZero]
@[simp] theorem contents_oxOwed (s : State) (a t : Nat) : contents (oxOwed s a t) = contents s := by simp [oxOwed]
@[simp] theorem contents_oxTenant (s : State) (t : Nat) : contents (oxTenant s t) = contents s := by simp [oxTenant]
@[simp] theorem contents_oxStart (s : State) (a t : Nat) : contents (oxStart s a t) = contents s := by simp [oxStart]
@[simp] theorem contents_oxStop (s : State) (a : Nat) : contents (oxStop s a) = contents s := contents_of_same rfl rfl
@[simp] theorem contents_oxParity (s : State) (a : Nat) (p : BankParity) (tenant : Nat) : contents (oxParity s a p tenant) = contents s := by
  simp [oxParity]

@[simp] theorem formed_mmWrote {k : MmWork} (a : Nat) (j : Job) (w : Formed (contents k.s)) : Formed (contents (mmWrote k a j).st) :=
  formed_copyOut _ _ _ _ _ _ w

/-- The end of an MM changes pages, jobs and its array alone beyond what it wrote. -/
@[simp] theorem contents_mmEnd (s0 : State) (a : Nat) (j : Job) (k : MmWork) :
    contents (mmEnd s0 a j k) = contents (mmWrote k a j).st := by
  unfold mmEnd
  extract_lets r w st s1 s2 s3 fl s4 s5 s6 s7 s8 s9
  have hst : contents st = contents w.st := by simp only [st]; (repeat' split) <;> simp
  have h3 : contents s3 = contents st := by simp [s3, s2, s1]
  have h7 : contents s7 = contents s3 := by simp [s7, s6, s5, s4]
  have h9 : contents s9 = contents s7 := by simp [s9, s8]
  rw [← hst, ← h3, ← h7, ← h9]
  split <;> simp

theorem formed_mmWork {s : State} (a : Nat) (par : Option BankParity) (errs : List MemErr) (j : Job) (w : Formed (contents s)) :
    Formed (contents (mmWork s a par errs j).s) := by
  unfold mmWork
  simp [w]

@[simp] theorem formed_doMm {s : State} (a : Nat) (par : Option BankParity) (errs : List MemErr) (w : Formed (contents s)) :
    Formed (contents (doMm s a par errs)) := by
  unfold doMm
  (repeat' split) <;> simp [formed_mmWork, w]

@[simp] theorem formed_doLoadStat {s0 : State} (a : Nat) (w : Formed (contents s0)) : Formed (contents (doLoadStat s0 a)) := by
  unfold doLoadStat
  dsimp only
  (repeat' split) <;> simp [w]

theorem formed_splitWork {s : State} (a : Nat) (par : Option BankParity) (errs : List MemErr) (j : Job) (w : Formed (contents s)) :
    Formed (contents (splitWork s a par errs j).s) := by
  unfold splitWork
  simp [w]

@[simp] theorem formed_doMmSplit {s : State} (a : Nat) (par : Option BankParity) (errs : List MemErr) (w : Formed (contents s)) :
    Formed (contents (doMmSplit s a par errs)) := by
  unfold doMmSplit
  (repeat' split) <;> simp [formed_splitWork, w]

@[simp] theorem contents_steerBy (r : Requester) (s : State) (a off : Nat) {f : State → State} (h : ∀ x, contents (f x) = contents x) :
    contents (steerBy r s a off f) = contents s := contents_regAccess _ _ _ _ _ _ h

@[simp] theorem contents_doSteerEnter (s : State) (r : Requester) (a : Nat) : contents (doSteerEnter s r a) = contents s := by simp [doSteerEnter]
@[simp] theorem contents_doSteerLeave (s : State) (r : Requester) (a : Nat) : contents (doSteerLeave s r a) = contents s := by simp [doSteerLeave]
@[simp] theorem contents_doSteerGo (s : State) (r : Requester) (a : Nat) : contents (doSteerGo s r a) = contents s := by simp [doSteerGo]
@[simp] theorem contents_steerEnded (s : State) (a sg : Nat) : contents (steerEnded s a sg) = contents s := by simp [steerEnded]
@[simp] theorem contents_doSteerTestEnd (s : State) (a : Nat) : contents (doSteerTestEnd s a) = contents s := by simp [doSteerTestEnd]
@[simp] theorem contents_setReg64 (s : State) (b : Block) (i off v : Nat) : contents (setReg64 s b i off v) = contents s := contents_of_same rfl rfl
@[simp] theorem contents_steerCheck (s : State) (a : Nat) (pass : Bool) : contents (steerCheck s a pass) = contents s := by simp [steerCheck]
@[simp] theorem contents_edgeLost (s : State) (a : Nat) : contents (edgeLost s a) = contents s := by
  unfold edgeLost
  split <;> simp

/-! Pony. -/

@[simp] theorem contents_modPony (s : State) (n : Nat) (f : PonySl → PonySl) : contents (modPony s n f) = contents s := contents_of_same rfl rfl
@[simp] theorem contents_ponyEnd (s0 : State) (n : Nat) (j : Job) (r : PonyRun) : contents (ponyEnd s0 n j r) = contents r.st := by simp [ponyEnd]
@[simp] theorem contents_ponyParity (s : State) (n tenant : Nat) : contents (ponyParity s n tenant) = contents s := by simp [ponyParity]
@[simp] theorem contents_ponyRead (sE s1 s : State) (t : Nat) (miss : Option (Nat × Nat)) : contents (ponyRead sE s1 s t miss) = contents s := by
  unfold ponyRead
  cases miss <;> simp

@[simp] theorem formed_vopRun {s : State} (n : Nat) (badTable : List Nat) (errs : List MemErr) (j : Job) (w : Formed (contents s)) :
    Formed (contents (vopRun s n badTable errs j).st) := by
  simp [vopRun, w]

@[simp] theorem formed_doVop {s : State} (n : Nat) (badTable : List Nat) (errs : List MemErr) (w : Formed (contents s)) :
    Formed (contents (doVop s n badTable errs)) := by
  unfold doVop
  dsimp only
  (repeat' split) <;> simp [w]

@[simp] theorem contents_ponySum (s : State) (n : Nat) (j : Job) (slot v : Nat) : contents (ponySum s n j slot v) = contents s := by simp [ponySum]

@[simp] theorem formed_vsumRun {s : State} (n : Nat) (errs : List MemErr) (j : Job) (w : Formed (contents s)) :
    Formed (contents (vsumRun s n errs j).st) := by
  simp [vsumRun, w]

@[simp] theorem formed_doVsum {s : State} (n : Nat) (errs : List MemErr) (w : Formed (contents s)) : Formed (contents (doVsum s n errs)) := by
  unfold doVsum
  split <;> simp [w]

@[simp] theorem formed_vredRun {s : State} (n : Nat) (errs : List MemErr) (j : Job) (w : Formed (contents s)) :
    Formed (contents (vredRun s n errs j).st) := by
  simp [vredRun, w]

@[simp] theorem formed_doVred {s : State} (n : Nat) (errs : List MemErr) (w : Formed (contents s)) : Formed (contents (doVred s n errs)) := by
  unfold doVred
  split <;> simp [w]

@[simp] theorem formed_vgenRun {s : State} (n : Nat) (badTable : List Nat) (j : Job) (w : Formed (contents s)) :
    Formed (contents (vgenRun s n badTable j).st) := by
  simp [vgenRun, w]

@[simp] theorem formed_doVgen {s : State} (n : Nat) (badTable : List Nat) (w : Formed (contents s)) : Formed (contents (doVgen s n badTable)) := by
  unfold doVgen
  dsimp only
  (repeat' split) <;> simp [w]

/-! Mule: runs. -/

@[simp] theorem contents_setCore (s : State) (n : Nat) (c : MCore) : contents (setCore s n c) = contents s := contents_of_same rfl rfl
@[simp] theorem contents_freeCore (s : State) (n : Nat) : contents (freeCore s n) = contents s := contents_of_same rfl rfl
@[simp] theorem contents_modRunM (s : State) (id : Nat) (f : MuleRun → MuleRun) : contents (modRunM s id f) = contents s := contents_of_same rfl rfl
@[simp] theorem contents_loseCore (s : State) (n st : Nat) (e : MEnd) : contents (loseCore s n st e) = contents s := contents_of_same rfl rfl
@[simp] theorem contents_endRunMule (s0 s : State) (r : MuleRun) (j : Job) (res : Result) : contents (endRunMule s0 s r j res) = contents s := by
  simp [endRunMule]

@[simp] theorem formed_clearValid {s : State} (t a : Nat) (w : Formed (contents s)) : Formed (contents (clearValid s t a).1) := by
  simp [clearValid, w]

@[simp] theorem formed_clearRecords {s : State} (t : Nat) (c : Cmd) (w : Formed (contents s)) : Formed (contents (clearRecords s t c).1) :=
  List.foldlRecOn (motive := fun (x : State × Bool) => Formed (contents x.1)) _ _ w (fun _ hx _ _ => formed_clearValid t _ hx)

@[simp] theorem formed_writeRecord {s : State} (n : Nat) (cmd : Cmd) (w : Formed (contents s)) : Formed (contents (writeRecord s n cmd)) := by
  simp [writeRecord, w]

@[simp] theorem contents_coreFault (s : State) (n : Nat) : contents (coreFault s n) = contents s := by simp [coreFault]
@[simp] theorem formed_stopCore {s : State} (n cause : Nat) (w : Formed (contents s)) : Formed (contents (stopCore s n cause)) := by
  unfold stopCore
  dsimp only
  (repeat' split) <;> simp [w]

@[simp] theorem formed_afterInstr {s : State} (n : Nat) (w : Formed (contents s)) : Formed (contents (afterInstr s n)) := by
  unfold afterInstr
  split <;> simp [w]

@[simp] theorem contents_takeCores (s : State) (j : Job) (cores : List Nat) : contents (takeCores s j cores) = contents s := by simp [takeCores]
@[simp] theorem formed_doMuleRun {s : State} (n : Nat) (w : Formed (contents s)) : Formed (contents (doMuleRun s n)) := by
  unfold doMuleRun
  split
  · exact w
  · next r j _ =>
    split
    · exact w
    · extract_lets c t code args save s1 cl ends img av q start x p
      have h1 : Formed (contents s1) := formed_readSpans _ _ w
      have hends : ∀ y st f, Formed (contents y) → Formed (contents (ends y st f)) := fun y st f hy => by simp [ends, hy]
      have hq : Formed (contents q.1) := by simp [q, h1]
      have hx : Formed (contents x) := by simp [x, hq]
      have hp : Formed (contents p.1) :=
        List.foldlRecOn (motive := fun (y : State × List MEnd) => Formed (contents y.1)) _ _ hx (fun y hy e _ => by simp [hy])
      have hrun : ∀ f, Formed (contents ((runCores r).foldl afterInstr (modRunM p.1 r.id f))) := fun f =>
        formed_foldl (fun y m hy => formed_afterInstr m hy) _ (by simpa)
      clear_value s1 ends q x p
      (repeat' split) <;> simp only [contents_raiseEvent, hends, h1, hq, hrun]

@[simp] theorem formed_doBarrierRelease {s : State} (n : Nat) (w : Formed (contents s)) : Formed (contents (doBarrierRelease s n)) := by
  unfold doBarrierRelease
  dsimp only
  split
  · exact w
  · split
    · exact w
    · exact formed_foldl (fun _ m hx => formed_afterInstr m hx) _ (by simpa)

@[simp] theorem formed_doMuleRunEnd {s : State} (n : Nat) (w : Formed (contents s)) : Formed (contents (doMuleRunEnd s n)) := by
  unfold doMuleRunEnd
  split
  · exact w
  · next r j _ =>
    split
    · exact w
    · have h : Formed (contents (((runCores r).filter (fun m => (mcore s m).cause == 0)).foldl (fun y m => writeRecord y m j.cmd) s)) :=
        formed_foldl (fun _ m hx => formed_writeRecord m j.cmd hx) _ w
      dsimp only
      split <;> (split <;> simp [h, w])

/-! The solver units. -/

@[simp] theorem contents_modSolv (s : State) (u : Nat) (f : Tab SolSys → Tab SolSys) : contents (modSolv s u f) = contents s :=
  contents_of_same rfl rfl

@[simp] theorem contents_putSys (s : State) (u k : Nat) (y : SolSys) : contents (putSys s u k y) = contents s := contents_of_same rfl rfl
@[simp] theorem contents_releaseSystems (s : State) (t : Nat) : contents (releaseSystems s t) = contents s := contents_of_same rfl rfl
@[simp] theorem contents_solvEnd (s0 s : State) (u : Nat) (j : Job) (r : Result) : contents (solvEnd s0 s u j r) = contents s := by simp [solvEnd]
@[simp] theorem contents_solvRefuse (s0 s : State) (u : Nat) (j : Job) (code idx : Nat) : contents (solvRefuse s0 s u j code idx) = contents s := by
  simp [solvRefuse]

@[simp] theorem contents_solvPoisoned (s0 s : State) (u : Nat) (j : Job) : contents (solvPoisoned s0 s u j) = contents s := by simp [solvPoisoned]
@[simp] theorem contents_solvGone (s0 s : State) (u : Nat) (j : Job) : contents (solvGone s0 s u j) = contents s := by simp [solvGone]
@[simp] theorem contents_spansMissed (s : State) (t : Nat) (spans : List (Nat × Nat)) : contents (spansMissed s t spans) = contents s := by
  unfold spansMissed
  split <;> simp

@[simp] theorem contents_structFixed (s : State) (u : Nat) (e : StructErr) : contents (structFixed s u e) = contents s := by simp [structFixed]
@[simp] theorem formed_setupFill {s : State} (t : Nat) (c : Cmd) (w : Formed (contents s)) : Formed (contents (setupFill s t c)) := by
  simp [setupFill, w]

@[simp] theorem contents_setupMissed (s : State) (t : Nat) (c : Cmd) : contents (setupMissed s t c) = contents s := by simp [setupMissed]

@[simp] theorem formed_setupDone {s : State} (s0 : State) (u : Nat) (j : Job) (y : SolSys) (w : Formed (contents s)) :
    Formed (contents (setupDone s0 s u j y)) := by
  unfold setupDone
  dsimp only
  split <;> simp [w]

@[simp] theorem formed_doSetupCreate {s : State} (u : Nat) (w : Formed (contents s)) : Formed (contents (doSetupCreate s u)) := by
  unfold doSetupCreate
  dsimp only
  (repeat' split) <;> simp [formed_setupFill, w]

@[simp] theorem formed_doSetupMeasure {s : State} (u : Nat) (w : Formed (contents s)) : Formed (contents (doSetupMeasure s u)) := by
  unfold doSetupMeasure
  dsimp only
  (repeat' split) <;> simp [formed_setupFill, w]

@[simp] theorem contents_doSetupRelease (s0 : State) (u : Nat) : contents (doSetupRelease s0 u) = contents s0 := by
  unfold doSetupRelease
  (repeat' split) <;> simp

@[simp] theorem contents_failSys (s : State) (u k tenant : Nat) : contents (failSys s u k tenant) = contents s := by simp [failSys]
@[simp] theorem formed_doSolveUpd {s0 : State} (u : Nat) (se : StructErr) (w : Formed (contents s0)) : Formed (contents (doSolveUpd s0 u se)) := by
  unfold doSolveUpd
  dsimp only
  (repeat' split) <;> simp [w]

@[simp] theorem formed_writeLog {s : State} (t : Nat) (y : SolSys) (c : Cmd) (es : List Replaced) (w : Formed (contents s)) :
    Formed (contents (writeLog s t y c es).1) :=
  List.foldlRecOn (motive := fun (x : State × Bool) => Formed (contents x.1)) _ _ w
    (fun _ hx _ _ => by split <;> simp [hx])

@[simp] theorem formed_runFactor {s : State} (u t : Nat) (c : Cmd) (y : SolSys) (p : SolPar) (w : Formed (contents s)) :
    Formed (contents (runFactor s u t c y p).st) := by
  unfold runFactor
  dsimp only
  (repeat' split) <;> simp [w]

@[simp] theorem formed_poisonX {s : State} (t a n : Nat) (w : Formed (contents s)) : Formed (contents (poisonX s t a n).1) :=
  List.foldlRecOn (motive := fun (x : State × Bool) => Formed (contents x.1)) _ _ w
    (fun _ hx _ _ => by split <;> simp [hx])

@[simp] theorem contents_solveSum (s : State) (j : Job) (v : Nat) : contents (solveSum s j v) = contents s := by simp [solveSum]

@[simp] theorem formed_solveReads {s : State} (j : Job) (p : SolPar) (y : SolSys) (w : Formed (contents s)) :
    Formed (contents (solveReads s j p y)) := by simp [solveReads, w]

theorem formed_solveRest (s0 : State) (u : Nat) (j : Job) (p : SolPar) {f : Factored} (w : Formed (contents f.st)) :
    Formed (contents (solveRest s0 u j p f)) := by
  have hs := formed_solveReads j p f.y w
  unfold solveRest
  dsimp only
  (repeat' split) <;> simp [hs]

@[simp] theorem formed_doSolve {s : State} (u : Nat) (se : StructErr) (method : Nat) (w : Formed (contents s)) :
    Formed (contents (doSolve s u se method)) := by
  unfold doSolve
  dsimp only
  split
  · exact w
  · next j _ =>
    have h := formed_readSpans j.tenant [some (svAddr j.cmd, 64)] w
    (repeat' split) <;> simp [formed_solveRest, w, h]

@[simp] theorem contents_solvReset (s : State) (u : Nat) : contents (solvReset s u) = contents s := by simp [solvReset]

/-! Collectives. -/

@[simp] theorem contents_putOp (s : State) (k : Nat) (o : CollOpn) : contents (putOp s k o) = contents s := contents_of_same rfl rfl
@[simp] theorem contents_dropOp (s : State) (k : Nat) : contents (dropOp s k) = contents s := contents_of_same rfl rfl
@[simp] theorem formed_freeOp {s : State} (k : Nat) (w : Formed (contents s)) : Formed (contents (freeOp s k)) := by
  unfold freeOp
  split
  · simp only [contents_dropOp]
    exact formed_foldl (fun _ _ hx => formed_tStore _ _ _ hx) _ w
  · simpa

@[simp] theorem contents_collSend (s : State) (o : CollOpn) (rank vc : Nat) (op : CollOp) (m : CollMsg) :
    contents (collSend s o rank vc op m) = contents s := by
  unfold collSend
  split <;> simp

@[simp] theorem contents_collData (s : State) (o : CollOpn) (rank vc : Nat) (op : CollOp) (m : CollMsg) :
    contents (collData s o rank vc op m) = contents s := by simp [collData]

@[simp] theorem contents_collLate (s : State) : contents (collLate s) = contents s := by simp [collLate]
@[simp] theorem contents_arFailSum (s : State) (j : Job) : contents (arFailSum s j) = contents s := by simp [arFailSum]

@[simp] theorem contents_arFail (s0 s : State) (j : Job) (status : Nat) (f : Fl) (detail : Nat) :
    contents (arFail s0 s j status f detail) = contents s := by simp [arFail]

@[simp] theorem formed_abortOp {s : State} (s0 : State) (k : Nat) (o : CollOpn) (cause origin : Nat) (sender : Option Nat) (status detail : Nat)
    (w : Formed (contents s)) :
    Formed (contents (abortOp s0 s k o cause origin sender status detail)) := by
  unfold abortOp
  dsimp only
  (repeat' split) <;> simp [w]

@[simp] theorem formed_raiseAbort {s : State} (s0 : State) (k : Nat) (o : CollOpn) (cause : Nat) (w : Formed (contents s)) :
    Formed (contents (raiseAbort s0 s k o cause)) := by simp [raiseAbort, w]

@[simp] theorem formed_doAllreduce {s0 : State} (w : Formed (contents s0)) : Formed (contents (doAllreduce s0)) := by
  unfold doAllreduce
  dsimp only
  (repeat' split) <;> simp [w]

@[simp] theorem contents_doGrantSend (s : State) (k p : Nat) : contents (doGrantSend s k p) = contents s := by
  unfold doGrantSend
  (repeat' split) <;> simp

@[simp] theorem formed_doGrant {s : State} (m : CollMsg) (w : Formed (contents s)) : Formed (contents (doGrant s m)) := by
  unfold doGrant
  (repeat' split) <;> simp [w]

@[simp] theorem contents_doPartialSum (s : State) (m : CollMsg) : contents (doPartialSum s m) = contents s := by
  unfold doPartialSum
  dsimp only
  (repeat' split) <;> simp

@[simp] theorem formed_arRead {s : State} (j : Job) (p : Nat) (w : Formed (contents s)) : Formed (contents (arRead s j p)) := by simp [arRead, w]
@[simp] theorem formed_arWrite {s : State} (j : Job) (p : Nat) (v : PieceVal) (w : Formed (contents s)) : Formed (contents (arWrite s j p v).1) := by
  unfold arWrite
  dsimp only
  split <;> simp [w]

@[simp] theorem contents_sendResult (s : State) (o : CollOpn) (p fmt : Nat) (a : CollPiece) (v : PieceVal) :
    contents (sendResult s o p fmt a v) = contents s := by simp [sendResult]

@[simp] theorem formed_opDone {s : State} (s0 : State) (k : Nat) (w : Formed (contents s)) : Formed (contents (opDone s0 s k)) := by
  unfold opDone
  dsimp only
  (repeat' split) <;> simp [w]

@[simp] theorem formed_doPieceCombine {s : State} (k p : Nat) (struck : List Nat) (w : Formed (contents s)) :
    Formed (contents (doPieceCombine s k p struck)) := by
  unfold doPieceCombine
  split
  · exact w
  · split
    · next j x _ _ =>
      extract_lets c root r s1 v st s2 nv fl r2 q o s3
      have h1 : Formed (contents s1) := by simp [s1, r, w]
      have hst : Formed (contents st.1) := by simp only [st]; split <;> simp [h1]
      have h2 : Formed (contents s2) := by simpa [s2] using hst
      have hq : Formed (contents q.1) := by simp [q, h2]
      have h3 : Formed (contents s3) := by simpa [s3] using h2
      clear_value s1 st s2 q s3
      (repeat' split) <;> simp [w, h1, hst, hq, h3]
    · exact w

@[simp] theorem formed_doResultPiece {s : State} (m : CollMsg) (w : Formed (contents s)) : Formed (contents (doResultPiece s m)) := by
  unfold doResultPiece
  dsimp only
  (repeat' split) <;> simp [w]

@[simp] theorem formed_doAck {s : State} (m : CollMsg) (w : Formed (contents s)) : Formed (contents (doAck s m)) := by
  unfold doAck
  dsimp only
  (repeat' split) <;> simp [w]

@[simp] theorem formed_doAbort {s : State} (m : CollMsg) (w : Formed (contents s)) : Formed (contents (doAbort s m)) := by
  unfold doAbort
  dsimp only
  (repeat' split) <;> simp [w]

@[simp] theorem formed_doCollTimeout {s : State} (k : Nat) (w : Formed (contents s)) : Formed (contents (doCollTimeout s k)) := by
  unfold doCollTimeout
  (repeat' split) <;> simp [w]

@[simp] theorem contents_doAbortExpire (s : State) (key : CollKey) : contents (doAbortExpire s key) = contents s := contents_of_same rfl rfl
@[simp] theorem formed_collReset {s : State} (w : Formed (contents s)) : Formed (contents (collReset s)) := by
  simp only [collReset, contents_mk, contents_failJobs]
  exact formed_foldl (fun _ _ hx => by split <;> simp [hx]) _ w

@[simp] theorem formed_collTenant {s : State} (t status : Nat) (w : Formed (contents s)) : Formed (contents (collTenant s t status)) := by
  simp only [collTenant, contents_mk]
  exact formed_foldl (fun _ _ hx => by split <;> simp [hx]) _ w

@[simp] theorem formed_collLamb {s : State} (w : Formed (contents s)) : Formed (contents (collLamb s)) :=
  formed_foldl (fun _ _ hx => by split <;> simp [hx]) _ w

/-! Mule: instructions. -/

@[simp] theorem formed_muleParity {s : State} (n file reg : Nat) (w : Formed (contents s)) : Formed (contents (muleParity s n file reg)) := by
  simp [muleParity, w]

@[simp] theorem formed_muleEvent {s : State} (n : Nat) (ev : MuleEv) (w : Formed (contents s)) : Formed (contents (muleEvent s n ev)) := by
  unfold muleEvent
  (repeat' split) <;> simp [w]

/-- What an instruction of a core ends in, retired or stopped, holds memories in form. -/
def resFormed : MRes → Prop
  | .ok s _ _ _ => Formed (contents s)
  | .stop s _ _ => Formed (contents s)

@[simp] theorem resFormed_ok (s : State) (c : MCore) (beats ops : Nat) : resFormed (.ok s c beats ops) ↔ Formed (contents s) := Iff.rfl
@[simp] theorem resFormed_stop (s : State) (c : MCore) (cause : Nat) : resFormed (.stop s c cause) ↔ Formed (contents s) := Iff.rfl
@[simp] theorem resFormed_ite (p : Prop) [Decidable p] (a b : MRes) : resFormed (if p then a else b) ↔ if p then resFormed a else resFormed b := by
  split <;> rfl

theorem formed_mRun {s : State} (n op : Nat) (fn : Option Nat) (ev : MuleEv) {body : State → MCore → Nat → MRes}
    (h : ∀ x c i, Formed (contents x) → resFormed (body x c i)) (w : Formed (contents s)) : Formed (contents (mRun s n op fn ev body)) := by
  unfold mRun
  dsimp only
  split
  · exact w
  · split
    · exact w
    · next code _ =>
      split
      · exact w
      · split
        · simp [w]
        · have hb := h (muleEvent s n ev) (mcore s n) code.toNat (formed_muleEvent n ev w)
          split
          · next heq => rw [heq, resFormed_ok] at hb; simp [hb]
          · next heq => rw [heq, resFormed_stop] at hb; simp [hb]

@[simp] theorem resFormed_putI (s : State) (c : MCore) (d : Nat) (r : Nat × Fl) : resFormed (putI s c d r) ↔ Formed (contents s) := Iff.rfl

@[simp] theorem resFormed_putF (s : State) (c : MCore) (d : Nat) (r : Nat × Fl) (ops : Nat) : resFormed (putF s c d r ops) ↔ Formed (contents s) :=
  Iff.rfl

@[simp] theorem formed_doBranch {s : State} (n op : Nat) (ev : MuleEv) (w : Formed (contents s)) : Formed (contents (doBranch s n op ev)) :=
  formed_mRun n op none ev (fun _ _ _ hx => by simp [hx]) w

@[simp] theorem resFormed_putV (s : State) (c : MCore) (d dw : Nat) (r : List (Nat × Fl)) (beats ops : Nat) :
    resFormed (putV s c d dw r beats ops) ↔ Formed (contents s) := Iff.rfl

@[simp] theorem resFormed_putK (s : State) (c : MCore) (d : Nat) (r : List (Nat × Fl)) (beats ops : Nat) :
    resFormed (putK s c d r beats ops) ↔ Formed (contents s) := Iff.rfl

@[simp] theorem formed_doVi {s : State} (n op width : Nat) (ev : MuleEv) (w : Formed (contents s)) : Formed (contents (doVi s n op width ev)) :=
  formed_mRun n op none ev (fun _ _ _ hx => by simp [hx]) w

@[simp] theorem resFormed_vmiscBody (s : State) (c : MCore) (i : Nat) : resFormed (vmiscBody s c i) ↔ Formed (contents s) := by
  unfold vmiscBody
  dsimp only
  split <;> simp

@[simp] theorem formed_accState {s : State} (t a n : Nat) (w : Bool) (ev : MuleEv) (hs : Formed (contents s)) :
    Formed (contents (accState s t a n w ev)) := by
  unfold accState
  (repeat' split) <;> simp [hs]

@[simp] theorem contents_markDirty (s : State) (k t a n : Nat) : contents (markDirty s k t a n) = contents s := contents_of_same rfl rfl
@[simp] theorem contents_accSeal (s : State) (t a n : Nat) : contents (accSeal s t a n) = contents s := by simp [accSeal]
@[simp] theorem formed_mLoad {s : State} (t a n e : Nat) (ev : MuleEv) (w : Formed (contents s)) : Formed (contents (mLoad s t a n e ev).1) := by
  unfold mLoad
  dsimp only
  split <;> simp [w]

@[simp] theorem formed_mStore {s : State} (p t a n v e : Nat) (ev : MuleEv) (w : Formed (contents s)) :
    Formed (contents (mStore s p t a n v e ev).1) := by
  unfold mStore
  dsimp only
  (repeat' split) <;> simp [w]

@[simp] theorem formed_doLoad {s : State} (k op n : Nat) (ev : MuleEv) (put : MCore → Nat → Nat → MCore) (w : Formed (contents s)) :
    Formed (contents (doLoad s k op n ev put)) := formed_mRun k op none ev (fun _ _ _ hx => by simp [hx]) w

@[simp] theorem formed_doStore {s : State} (k op n : Nat) (ev : MuleEv) (get : MCore → Nat → Nat) (w : Formed (contents s)) :
    Formed (contents (doStore s k op n ev get)) := formed_mRun k op none ev (fun _ _ _ hx => by simp [hx]) w

@[simp] theorem formed_vldElem (i width n : Nat) (ev : MuleEv) {m : VMem} (e : Nat) (w : Formed (contents m.st)) :
    Formed (contents (vldElem i width n ev m e).st) := by
  unfold vldElem
  dsimp only
  (repeat' split) <;> simp [w]

@[simp] theorem formed_vstElem (p i width n : Nat) (ev : MuleEv) {m : VMem} (e : Nat) (w : Formed (contents m.st)) :
    Formed (contents (vstElem p i width n ev m e).st) := by
  unfold vstElem
  dsimp only
  (repeat' split) <;> simp [w]

@[simp] theorem formed_doVmem {s : State} (k op width : Nat) (load : Bool) (ev : MuleEv) (w : Formed (contents s)) :
    Formed (contents (doVmem s k op width load ev)) :=
  formed_mRun k op none ev (fun x c i hx => by
    have hm := List.foldlRecOn (motive := fun (m : VMem) => Formed (contents m.st))
      (natsFrom c.vresume (vecN c width - c.vresume))
      (if load then vldElem i width (vecN c width) ev else vstElem k i width (vecN c width) ev) (b := { st := x, core := c }) hx
      (fun m hm e _ => by cases load <;> simp [hm])
    dsimp only
    split <;> simpa using hm) w

@[simp] theorem formed_doVfp {s : State} (n op : Nat) (ev : MuleEv) (ops : Nat → Nat) (f : MCore → Nat → Nat → Nat × Fl) (w : Formed (contents s)) :
    Formed (contents (doVfp s n op ev ops f)) := formed_mRun n op none ev (fun _ _ _ hx => by simp [hx]) w

@[simp] theorem formed_doVfma {s : State} (n op : Nat) (ev : MuleEv) (b : Bool) (w : Formed (contents s)) : Formed (contents (doVfma s n op ev b)) :=
  formed_mRun n op none ev (fun _ _ _ hx => by simp [hx]) w

end Sys2Proof.Machine
end

section
/-! PROOFS. The form of memory is kept (log 4): the fabric agent, power, checkpoint. -/

namespace Sys2Proof.Machine

/-! Herds. -/

@[simp] theorem contents_modDir (s : State) (k : Nat) (f : DirLine → DirLine) : contents (modDir s k f) = contents s := contents_of_same rfl rfl
@[simp] theorem contents_sendHerd (s : State) (node : Nat) (op : HerdOp) (m : HerdMsg) : contents (sendHerd s node op m) = contents s := by
  simp [sendHerd]

@[simp] theorem contents_sendMember (s : State) (member k : Nat) (op : HerdOp) (f : HerdMsg → HerdMsg) :
    contents (sendMember s member k op f) = contents s := by
  unfold sendMember
  split <;> simp

@[simp] theorem formed_readHome {s : State} (k : Nat) (w : Formed (contents s)) : Formed (contents (readHome s k)) := by
  unfold readHome
  split <;> simp [w]

@[simp] theorem formed_writeLineData {s : State} (k : Nat) (d : List Byte) (poison : Bool) (w : Formed (contents s)) :
    Formed (contents (writeLineData s k d poison)) := by
  unfold writeLineData
  split <;> simp [w]

@[simp] theorem formed_sendDataS {s : State} (k member : Nat) (w : Formed (contents s)) : Formed (contents (sendDataS s k member)) := by
  simp [sendDataS, w]

@[simp] theorem formed_sendDataM {s : State} (k member : Nat) (w : Formed (contents s)) : Formed (contents (sendDataM s k member)) := by
  simp [sendDataM, w]

@[simp] theorem contents_snoop (s : State) (k : Nat) (op : HerdOp) (ms : List Nat) : contents (snoop s k op ms) = contents s := by simp [snoop]

@[simp] theorem contents_openTrans (s : State) (k : Nat) (req : Option (HerdOp × HerdMsg)) (op : HerdOp) (ms : List Nat) :
    contents (openTrans s k req op ms) = contents s := by simp [openTrans]

@[simp] theorem formed_serveHerd {s : State} (k : Nat) (op : HerdOp) (m : HerdMsg) (w : Formed (contents s)) :
    Formed (contents (serveHerd s k op m)) := by simp [serveHerd, w]

@[simp] theorem formed_serveNext {s : State} (k : Nat) (w : Formed (contents s)) : Formed (contents (serveNext s k)) := by
  unfold serveNext
  split <;> simp [w]

@[simp] theorem formed_endTrans {s : State} (k : Nat) (t : HerdTrans) (w : Formed (contents s)) : Formed (contents (endTrans s k t)) := by
  unfold endTrans
  split <;> simp [w]

@[simp] theorem formed_stepTrans {s : State} (k : Nat) (t : HerdTrans) (w : Formed (contents s)) : Formed (contents (stepTrans s k t)) := by
  simp [stepTrans, w]

@[simp] theorem formed_takeWb {s : State} (k : Nat) (t : HerdTrans) (m : HerdMsg) (w : Formed (contents s)) : Formed (contents (takeWb s k t m)) := by
  simp [takeWb, w]

@[simp] theorem formed_doSrsp {s : State} (m : HerdMsg) (w : Formed (contents s)) : Formed (contents (doSrsp s m)) := by
  unfold doSrsp
  dsimp only
  (repeat' split) <;> simp [w]

@[simp] theorem formed_doWb {s : State} (m : HerdMsg) (w : Formed (contents s)) : Formed (contents (doWb s m)) := by
  unfold doWb
  dsimp only
  (repeat' split) <;> simp [w]

@[simp] theorem contents_doEvc (s : State) (m : HerdMsg) : contents (doEvc s m) = contents s := by simp [doEvc]
@[simp] theorem contents_startRecall (s : State) (w : Bool) (k : Nat) : contents (startRecall s w k) = contents s := by simp [startRecall]

/-- Where the home's filter lets a step wait, the recalls it begins leave the memories as they are (R587). -/
theorem contents_of_herdGate {s u : State} {t : Nat} {rs ws : List (Nat × Nat)} (h : herdGate s t rs ws = some u) : contents u = contents s := by
  unfold herdGate at h
  split at h
  · cases h
  · dsimp only at h
    split at h
    · cases h
    · cases h
      simp

@[simp] theorem formed_memberLeaves {s : State} (m : Nat) (w : Formed (contents s)) : Formed (contents (memberLeaves s m)) :=
  formed_foldl (fun x e hx => by
    dsimp only
    generalize hy : (modDir _ _ _ : State) = y
    have h : Formed (contents y) := by
      subst hy
      simp only [contents_modDir]
      split <;> simp [hx]
    (repeat' split) <;> simp [h]) _ w

@[simp] theorem formed_checkSplits {s : State} (w : Formed (contents s)) : Formed (contents (checkSplits s)) := by
  unfold checkSplits
  exact formed_foldl (fun _ _ hx => by simp [hx]) _ (by simpa)

/-! The fabric agent. -/

@[simp] theorem contents_notePeer (s : State) (node e tenant g : Nat) : contents (notePeer s node e tenant g) = contents s := by simp [notePeer]
@[simp] theorem contents_nextTag (s : State) : contents (nextTag s).1 = contents s := contents_of_same rfl rfl
@[simp] theorem contents_sendPart (s : State) (j : Job) (p : XPart) : contents (sendPart s j p).1 = contents s := by simp [sendPart]
@[simp] theorem contents_sendParts (s : State) (j : Job) (ps : List XPart) : contents (sendParts s j ps).1 = contents s := by
  induction ps generalizing s with
  | nil => rfl
  | cons p ps ih =>
    unfold sendParts
    split <;> simp [ih]

@[simp] theorem contents_modCache (s : State) (f : List CacheLine → List CacheLine) : contents (modCache s f) = contents s := contents_of_same rfl rfl
@[simp] theorem contents_fillOpen (s : State) (e : CacheLine) : contents (fillOpen s e) = contents s := by
  unfold fillOpen
  split <;> simp

@[simp] theorem contents_updateOpen (s : State) (t node rt off : Nat) (data : List Byte) (bad : List Nat) :
    contents (updateOpen s t node rt off data bad) = contents s := by simp [updateOpen]

@[simp] theorem contents_xEnd (s0 s : State) (j : Job) (r : Result) (spans : List (Option (Nat × Nat))) :
    contents (xEnd s0 s j r spans) = contents s := by simp [xEnd]

@[simp] theorem formed_xFinish {s : State} (s0 : State) (j : Job) (ps : List XPart) (w : Formed (contents s)) :
    Formed (contents (xFinish s0 s j ps)) := by
  unfold xFinish
  dsimp only
  (repeat' split) <;> simp [w]

@[simp] theorem contents_closeSignals (s : State) (j : Job) (all ps : List XPart) : contents (closeSignals s j all ps).1 = contents s := by
  induction ps generalizing s with
  | nil => rfl
  | cons p ps ih =>
    unfold closeSignals
    dsimp only
    (repeat' split) <;> simp [ih]

theorem contents_of_xGate {s u : State} {j : Job} (h : xGate s j = some u) : contents u = contents s := by
  unfold xGate at h
  split at h
  · exact contents_of_herdGate h
  · cases h

@[simp] theorem formed_xStep {s : State} (s0 : State) (r : XRun) (ps : List XPart) (w : Formed (contents s)) : Formed (contents (xStep s0 s r ps)) := by
  unfold xStep
  split
  · simpa
  · next j _ =>
    dsimp only
    split
    · split
      · next hx => simpa [contents_of_xGate hx] using w
      · simp [w]
    · simpa

@[simp] theorem formed_xResume {s : State} (w : Formed (contents s)) : Formed (contents (xResume s)) :=
  formed_foldl (fun _ _ hx => by split <;> simp [hx]) _ w

@[simp] theorem contents_modHerdLine (s : State) (l : HerdLine) (f : CacheLine → CacheLine) : contents (modHerdLine s l f) = contents s :=
  contents_of_same rfl rfl

@[simp] theorem contents_dropHerdLine (s : State) (l : HerdLine) : contents (dropHerdLine s l) = contents s := contents_of_same rfl rfl
@[simp] theorem contents_evictHerd (s : State) (l : HerdLine) : contents (evictHerd s l) = contents s := by
  unfold evictHerd
  split <;> simp

@[simp] theorem contents_askHome (s : State) (l : HerdLine) (op : HerdOp) (t gen : Nat) (st : LineSt) :
    contents (askHome s l op t gen st).1 = contents s := by
  unfold askHome
  dsimp only
  (repeat' split) <;> simp

@[simp] theorem contents_pumpPart (s : State) (j : Job) (p : XPart) : contents (pumpPart s j p).1 = contents s := by
  unfold pumpPart
  dsimp only
  (repeat' split) <;> simp

@[simp] theorem contents_pumpParts (s : State) (j : Job) (ps : List XPart) : contents (pumpParts s j ps).1 = contents s := by
  induction ps generalizing s with
  | nil => rfl
  | cons p ps ih =>
    unfold pumpParts
    simp [ih]

@[simp] theorem formed_xPump {s : State} (s0 : State) (w : Formed (contents s)) : Formed (contents (xPump s0 s)) :=
  formed_foldl (fun _ _ hx => by (repeat' split) <;> simp [hx]) _ w

@[simp] theorem contents_xSent (s : State) (j : Job) (ps : List XPart) : contents (xSent s j ps).1 = contents s := by
  unfold xSent
  dsimp only
  split <;> simp

@[simp] theorem formed_xBegin {s : State} (s0 : State) (j : Job) (ps : List XPart) (w : Formed (contents s)) :
    Formed (contents (xBegin s0 s j ps)) := by simp [xBegin, w]

theorem formed_xReadLocal {s : State} (j : Job) {f : State → List Byte → List Nat → State}
    (h : ∀ x bs bad, Formed (contents x) → Formed (contents (f x bs bad))) (w : Formed (contents s)) : Formed (contents (xReadLocal s j f)) := by
  unfold xReadLocal
  dsimp only
  split
  · next hx => simpa [contents_of_herdGate hx] using w
  · (repeat' split) <;> simp [h, w]

@[simp] theorem contents_xloadParts (s : State) (j : Job) : contents (xloadParts s j).1 = contents s := by
  unfold xloadParts
  dsimp only
  (repeat' split) <;> simp

@[simp] theorem formed_doXload {s : State} (w : Formed (contents s)) : Formed (contents (doXload s)) := by
  unfold doXload
  dsimp only
  (repeat' split) <;> simp [w]

@[simp] theorem formed_doXstore {s : State} (w : Formed (contents s)) : Formed (contents (doXstore s)) := by
  unfold doXstore
  split
  · exact w
  · exact formed_xReadLocal _ (fun _ _ _ hx => formed_xBegin _ _ _ hx) w

@[simp] theorem formed_doXmcast {s : State} (w : Formed (contents s)) : Formed (contents (doXmcast s)) := by
  unfold doXmcast
  split
  · exact w
  · exact formed_xReadLocal _ (fun _ _ _ hx => by dsimp only; split <;> simp [hx]) w

@[simp] theorem formed_doXadd {s : State} (w : Formed (contents s)) : Formed (contents (doXadd s)) := by
  unfold doXadd
  split
  · exact w
  · exact formed_xReadLocal _ (fun _ _ _ hx => formed_xBegin _ _ _ hx) w

@[simp] theorem contents_doXinval (s0 : State) : contents (doXinval s0) = contents s0 := by
  unfold doXinval
  split <;> simp

@[simp] theorem formed_doLockCmd {s : State} (op : Nat) (w : Formed (contents s)) : Formed (contents (doLockCmd s op)) := by
  unfold doLockCmd
  (repeat' split) <;> simp [w]

@[simp] theorem contents_herdRefused (s : State) (p : XPart) : contents (herdRefused s p) = contents s := by
  unfold herdRefused
  split <;> simp

@[simp] theorem contents_cacheResponse (s : State) (j : Job) (p : XPart) (m : FabResp) : contents (cacheResponse s j p m) = contents s := by
  simp [cacheResponse]

@[simp] theorem contents_discardReply (s : State) : contents (discardReply s) = contents s := contents_of_same rfl rfl
@[simp] theorem formed_doResponse {s : State} (m : FabResp) (w : Formed (contents s)) : Formed (contents (doResponse s m)) := by
  unfold doResponse
  dsimp only
  (repeat' split) <;> simp [w]

@[simp] theorem contents_respond (s : State) (q : FabReq) (cause flags val : Nat) (data : List Byte) (bad : List Nat) :
    contents (respond s q cause flags val data bad) = contents s := by simp [respond]

@[simp] theorem contents_refused (s : State) (t va len : Nat) (w : Bool) (cause : Nat) : contents (refused s t va len w cause) = contents s := by
  unfold refused
  (repeat' split) <;> simp

@[simp] theorem contents_putLock (s : State) (l : Lock) : contents (putLock s l) = contents s := contents_of_same rfl rfl
@[simp] theorem contents_giveLock (s : State) (l : Lock) (q : FabReq) : contents (giveLock s l q) = contents s := by simp [giveLock]
@[simp] theorem contents_serveLock (s : State) (q : FabReq) : contents (serveLock s q) = contents s := by
  unfold serveLock
  split <;> simp

@[simp] theorem contents_lockEntries (k : Nat) (s : State) : contents (lockEntries k s) = contents s := by
  induction k generalizing s with
  | zero => rfl
  | succ k ih =>
    unfold lockEntries
    (repeat' split) <;> simp [ih]

@[simp] theorem contents_passLock (s : State) (l : Lock) : contents (passLock s l) = contents s := by
  unfold passLock
  split <;> simp

@[simp] theorem contents_serveUnlock (s : State) (q : FabReq) : contents (serveUnlock s q) = contents s := by
  unfold serveUnlock
  split <;> simp

@[simp] theorem contents_breakLock (s : State) (l : Lock) : contents (breakLock s l) = contents s := by simp [breakLock]
@[simp] theorem contents_feedLines (s : State) (r : RmwJob) (ls : List Nat) : contents (feedLines s r ls).1 = contents s := by
  induction ls generalizing s with
  | nil => rfl
  | cons l t ih =>
    unfold feedLines
    dsimp only
    split <;> simp [ih]

@[simp] theorem contents_feedUnits (l : List RmwJob) (s : State) : contents (feedUnits l s) = contents s := by
  induction l generalizing s with
  | nil => rfl
  | cons r t ih =>
    unfold feedUnits
    dsimp only
    split <;> simp only [ih, contents_feedLines]

@[simp] theorem contents_addHeld (s : State) (r : RmwJob) : contents (addHeld s r) = contents s := by
  unfold addHeld
  split <;> simp

@[simp] theorem contents_remoteSignal (s : State) (q : FabReq) : contents (remoteSignal s q) = contents s := by simp [remoteSignal]
@[simp] theorem contents_serveAdd (s : State) (q : FabReq) : contents (serveAdd s q) = contents s := by simp [serveAdd]

theorem contents_of_reqGate {s u : State} {q : FabReq} {va : Nat} (h : reqGate s q va = some u) : contents u = contents s := by
  unfold reqGate at h
  split at h
  · exact contents_of_herdGate h
  · exact contents_of_herdGate h
  · exact contents_of_herdGate h
  · cases h

@[simp] theorem formed_serveReq {s : State} (q : FabReq) (w : Formed (contents s)) : Formed (contents (serveReq s q)) := by
  unfold serveReq
  dsimp only
  split
  · next hx => simpa [contents_of_reqGate hx] using w
  · (repeat' split) <;> simp [w]

@[simp] theorem formed_takeReq {s : State} (q : FabReq) (w : Formed (contents s)) : Formed (contents (takeReq s q)) := by simp [takeReq, w]
@[simp] theorem formed_retryWaiting {s : State} (w : Formed (contents s)) : Formed (contents (retryWaiting s)) := by
  unfold retryWaiting
  split
  · exact w
  · exact formed_foldl (fun _ q hx => formed_takeReq q hx) _ (by simpa)

@[simp] theorem formed_doRequest {s : State} (q : FabReq) (w : Formed (contents s)) : Formed (contents (doRequest s q)) := by simp [doRequest, w]
@[simp] theorem formed_rmwLine {s : State} (r : RmwJob) (line : Nat) (w : Formed (contents s)) : Formed (contents (rmwLine s r line).1) := by
  unfold rmwLine
  dsimp only
  (repeat' split) <;> simp [w]

@[simp] theorem formed_doRmwServe {s : State} (u : Nat) (w : Formed (contents s)) : Formed (contents (doRmwServe s u)) := by
  unfold doRmwServe
  split
  · exact w
  · split
    · simpa
    · split
      · exact w
      · split
        · next hx => simpa [contents_of_herdGate hx] using w
        · dsimp only
          (repeat' split) <;> simp [w]

@[simp] theorem formed_doFabTimeout {s : State} (node tag : Nat) (w : Formed (contents s)) : Formed (contents (doFabTimeout s node tag)) := by
  unfold doFabTimeout
  dsimp only
  (repeat' split) <;> simp [w]

@[simp] theorem contents_refusedHerd (s : State) (w : Bool) (m : HerdMsg) (cause : Nat) : contents (refusedHerd s w m cause) = contents s := by
  unfold refusedHerd
  split <;> simp

@[simp] theorem formed_takeHerd {s : State} (op : HerdOp) (m : HerdMsg) (w : Formed (contents s)) : Formed (contents (takeHerd s op m)) := by
  unfold takeHerd
  split <;> simp [w]

@[simp] theorem formed_doHerdReq {s : State} (op : HerdOp) (m : HerdMsg) (w : Formed (contents s)) : Formed (contents (doHerdReq s op m)) := by
  simp [doHerdReq, w]

theorem formed_atHome {s : State} (m : HerdMsg) {f : State → State} (h : ∀ x, Formed (contents x) → Formed (contents (f x)))
    (w : Formed (contents s)) : Formed (contents (atHome s m f)) := by
  unfold atHome
  split
  · exact w
  · exact formed_xResume (formed_retryWaiting (h _ w))

@[simp] theorem contents_atMember (s : State) (m : HerdMsg) {f : State → State} (h : ∀ x, contents (f x) = contents x) :
    contents (atMember s m f) = contents s := by simp [atMember, h]

theorem formed_atMember {s : State} (m : HerdMsg) {f : State → State} (h : ∀ x, Formed (contents x) → Formed (contents (f x)))
    (w : Formed (contents s)) : Formed (contents (atMember s m f)) := by
  unfold atMember
  split <;> simp [h, w]

@[simp] theorem contents_sendSrsp (s : State) (m : HerdMsg) (tag : Nat) (f : HerdMsg → HerdMsg) : contents (sendSrsp s m tag f) = contents s := by
  simp [sendSrsp]

@[simp] theorem contents_doSnoop (s : State) (inv : Bool) (m : HerdMsg) : contents (doSnoop s inv m) = contents s :=
  contents_atMember s m (fun x => by (repeat' split) <;> simp)

@[simp] theorem formed_doDataS {s : State} (m : HerdMsg) (w : Formed (contents s)) : Formed (contents (doDataS s m)) :=
  formed_atMember m (fun _ hx => by (repeat' split) <;> simp [hx]) w

@[simp] theorem formed_doDataM {s : State} (m : HerdMsg) (w : Formed (contents s)) : Formed (contents (doDataM s m)) :=
  formed_atMember m (fun _ hx => by (repeat' split) <;> simp [hx]) w

@[simp] theorem formed_doWbAck {s : State} (m : HerdMsg) (w : Formed (contents s)) : Formed (contents (doWbAck s m)) :=
  formed_atMember m (fun _ hx => by (repeat' split) <;> simp [hx]) w

@[simp] theorem contents_doHerdEvict (s : State) (l : HerdLine) : contents (doHerdEvict s l) = contents s := by simp [doHerdEvict]
@[simp] theorem formed_doMemberLeave {s : State} (m : Nat) (w : Formed (contents s)) : Formed (contents (doMemberLeave s m)) := by
  unfold doMemberLeave
  split
  · exact formed_xResume (formed_retryWaiting (formed_memberLeaves m w))
  · exact w

@[simp] theorem contents_doLockProbe (s : State) (t k : Nat) : contents (doLockProbe s t k) = contents s := by
  unfold doLockProbe
  (repeat' split) <;> simp

@[simp] theorem contents_doOwnerProbe (s : State) (node t k owner : Nat) : contents (doOwnerProbe s node t k owner) = contents s := by
  simp [doOwnerProbe]

@[simp] theorem contents_doLockNews (s : State) (t k v ot : Nat) (news : LockNews) : contents (doLockNews s t k v ot news) = contents s := by
  unfold doLockNews
  (repeat' split) <;> simp

@[simp] theorem contents_releaseNotices (s : State) (p : Nat → Bool) : contents (releaseNotices s p) = contents s := by simp [releaseNotices]
@[simp] theorem contents_doRegionSync (s : State) (r : Requester) : contents (doRegionSync s r) = contents s := by simp [doRegionSync]
@[simp] theorem formed_doRegionEnd {s : State} (w : Formed (contents s)) : Formed (contents (doRegionEnd s)) := by
  unfold doRegionEnd
  split
  · exact w
  · refine formed_retryWaiting (formed_foldl (fun _ _ hx => formed_takeHerd _ _ hx) _ ?_)
    simp only [contents_mk]
    split <;> simp [w]

@[simp] theorem contents_doHerdCfg (s : State) (r : Requester) (off v : Nat) : contents (doHerdCfg s r off v) = contents s := by simp [doHerdCfg]
@[simp] theorem contents_doFabTmo (s : State) (r : Requester) (v : Nat) : contents (doFabTmo s r v) = contents s := by simp [doFabTmo]
@[simp] theorem contents_dropTenantLines (s : State) (p : CacheLine → Bool) : contents (dropTenantLines s p) = contents s := by simp [dropTenantLines]
@[simp] theorem contents_recallAll (s : State) : contents (recallAll s) = contents s := by simp [recallAll]
@[simp] theorem contents_xagReset (s : State) : contents (xagReset s) = contents s := by simp [xagReset]
@[simp] theorem contents_xagTenant (s : State) (t : Nat) : contents (xagTenant s t) = contents s := by simp [xagTenant]

/-! The home's filter and the steps behind it. -/

/-- A step behind the home's filter leaves the memories in form where the step itself does. -/
@[simp] theorem formed_gateSpans {s go : State} (t : Nat) (sp : List (Option (Nat × Nat)) × List (Option (Nat × Nat)))
    (w : Formed (contents s)) (h : Formed (contents go)) : Formed (contents (gateSpans s t sp go)) := by
  unfold gateSpans
  split
  · exact h
  · cases hg : herdGate s t (sp.1.filterMap id) (sp.2.filterMap id) with
    | none => exact h
    | some u => simpa [contents_of_herdGate hg] using w

@[simp] theorem formed_gateJob {s go : State} (j : Option Job) (w : Formed (contents s)) (h : Formed (contents go)) :
    Formed (contents (gateJob s j go)) := by
  cases j <;> simp [gateJob, w, h]

@[simp] theorem formed_gateDrake {s go : State} (g idx op : Nat) (w : Formed (contents s)) (h : Formed (contents go)) :
    Formed (contents (gateDrake s g idx op go)) := by
  unfold gateDrake
  split <;> simp [w, h]

@[simp] theorem formed_gateEntry {s go : State} (g idx e : Nat) (commit : Bool) (w : Formed (contents s)) (h : Formed (contents go)) :
    Formed (contents (gateEntry s g idx e commit go)) := by
  unfold gateEntry
  (repeat' split) <;> simp [w, h]

@[simp] theorem formed_gateSolve {s go : State} (u m : Nat) (w : Formed (contents s)) (h : Formed (contents go)) :
    Formed (contents (gateSolve s u m go)) := by
  exact formed_gateJob _ w h

@[simp] theorem formed_gateOp {s go : State} (k : Nat) (w : Formed (contents s)) (h : Formed (contents go)) :
    Formed (contents (gateOp s k go)) := by
  exact formed_gateJob _ w h

@[simp] theorem formed_gateScalar {s go : State} (n op k : Nat) (b : Bool) (w : Formed (contents s)) (h : Formed (contents go)) :
    Formed (contents (gateScalar s n op k b go)) := by
  unfold gateScalar
  dsimp only
  (repeat' split) <;> simp [w, h]

@[simp] theorem formed_gateVector {s go : State} (n op k : Nat) (b : Bool) (w : Formed (contents s)) (h : Formed (contents go)) :
    Formed (contents (gateVector s n op k b go)) := by
  unfold gateVector
  dsimp only
  (repeat' split) <;> simp [w, h]

/-! Power. -/

@[simp] theorem contents_modGrp (s : State) (g : Nat) (f : PwrGrp → PwrGrp) : contents (modGrp s g f) = contents s := contents_of_same rfl rfl
@[simp] theorem contents_modDom (s : State) (d : Nat) (f : PwrDom → PwrDom) : contents (modDom s d f) = contents s := contents_of_same rfl rfl
@[simp] theorem contents_addDemand (s : State) (cs : List (Nat × Nat)) : contents (addDemand s cs) = contents s := by simp [addDemand]
@[simp] theorem contents_chargeAll (s : State) (t : Nat) (c : Cmd) : contents (chargeAll s t c) = contents s := by simp [chargeAll]
@[simp] theorem contents_passEnergy (s : State) (t st now : Nat) (c : Cmd) : contents (passEnergy s t st now c) = contents s := by simp [passEnergy]
@[simp] theorem contents_decide649 (s : State) (d f : Nat) : contents (decide649 s d f) = contents s := by
  unfold decide649
  split <;> simp

@[simp] theorem contents_adaptClocks (s : State) (m : PowerMeas) : contents (adaptClocks s m) = contents s := by simp [adaptClocks]
@[simp] theorem contents_latchGroups (s : State) : contents (latchGroups s) = contents s := by simp [latchGroups]
@[simp] theorem contents_doGrantBoundary (s : State) (m : PowerMeas) : contents (doGrantBoundary s m) = contents s := by simp [doGrantBoundary]
@[simp] theorem contents_doClockSwitch (s : State) (d : Nat) : contents (doClockSwitch s d) = contents s := by
  unfold doClockSwitch
  split <;> simp

@[simp] theorem contents_policyRefused (s : State) (off : Nat) : contents (policyRefused s off) = contents s := by simp [policyRefused]
@[simp] theorem contents_setLimit (s : State) (v : Nat) : contents (setLimit s v) = contents s := by simp [setLimit]
@[simp] theorem contents_setGrpPol (s : State) (v : Nat) : contents (setGrpPol s v) = contents s := by simp [setGrpPol]
@[simp] theorem contents_setClkPol (s : State) (v : Nat) : contents (setClkPol s v) = contents s := by simp [setClkPol]
@[simp] theorem contents_beginEpisode (s : State) (cause who : Nat) : contents (beginEpisode s cause who) = contents s := by simp [beginEpisode]
@[simp] theorem contents_capDom (s : State) (d f : Nat) : contents (capDom s d f) = contents s := by simp [capDom]
@[simp] theorem contents_doCurrentLimit (s : State) (rail : Nat) : contents (doCurrentLimit s rail) = contents s := by simp [doCurrentLimit]
@[simp] theorem contents_noteTemp (s : State) (die temp : Nat) : contents (noteTemp s die temp) = contents s := contents_of_same rfl rfl
@[simp] theorem contents_doThermWarn (s : State) (die temp : Nat) : contents (doThermWarn s die temp) = contents s := by simp [doThermWarn]
@[simp] theorem contents_doBrake (s : State) : contents (doBrake s) = contents s := by simp [doBrake]
@[simp] theorem contents_doTrip (s : State) (die : Nat) : contents (doTrip s die) = contents s := by
  unfold doTrip
  split <;> simp

@[simp] theorem contents_liftCaps (s : State) : contents (liftCaps s) = contents s := by
  unfold liftCaps
  split <;> simp

@[simp] theorem formed_endEpisode {s : State} (cause us : Nat) (w : Formed (contents s)) : Formed (contents (endEpisode s cause us)) := by
  simp [endEpisode, w]

@[simp] theorem formed_doEpisodeEnd {s : State} (cause us : Nat) (w : Formed (contents s)) : Formed (contents (doEpisodeEnd s cause us)) := by
  simp [doEpisodeEnd, w]

/-! Checkpoint and restore. -/

@[simp] theorem contents_modHen (s : State) (f : Hen → Hen) : contents (modHen s f) = contents s := contents_of_same rfl rfl
@[simp] theorem contents_modSlot (s : State) (t k : Nat) (f : Slot → Slot) : contents (modSlot s t k f) = contents s := contents_of_same rfl rfl
@[simp] theorem contents_restartTimer (s : State) (t : Nat) : contents (restartTimer s t) = contents s := contents_of_same rfl rfl
@[simp] theorem formed_tableRead {s : State} (t : Nat) (w : Formed (contents s)) : Formed (contents (tableRead s t)) := by simp [tableRead, w]
@[simp] theorem contents_clearTriggers (s : State) (t : Nat) : contents (clearTriggers s t) = contents s := contents_of_same rfl rfl
@[simp] theorem contents_cutFails (s : State) (t code : Nat) : contents (cutFails s t code) = contents s := by simp [cutFails]
@[simp] theorem formed_cutDecide {s : State} (t : Nat) (w : Formed (contents s)) : Formed (contents (cutDecide s t).1) := by
  unfold cutDecide
  dsimp only
  (repeat' split) <;> simp [w]

@[simp] theorem contents_cutBegin (s : State) (t : Nat) (c : W64) : contents (cutBegin s t c) = contents s := by
  unfold cutBegin
  split <;> simp

@[simp] theorem contents_henStepClosed (s : State) (t : Nat) (c : W64) : contents (henStepClosed s t c) = contents s := by simp [henStepClosed]

@[simp] theorem formed_henWrite {s : State} (dst : Nat) (bs : List Byte) (w : Formed (contents s)) : Formed (contents (henWrite s dst bs)) :=
  formed_foldl (fun _ _ hx => formed_henPage _ _ _ hx) _ w

@[simp] theorem formed_doChunkCopy {s : State} (t : Nat) (w : Formed (contents s)) : Formed (contents (doChunkCopy s t)) := by
  unfold doChunkCopy
  (repeat' split) <;> simp [w]

@[simp] theorem formed_doCutComplete {s : State} (t : Nat) (w : Formed (contents s)) : Formed (contents (doCutComplete s t)) := by
  unfold doCutComplete
  (repeat' split) <;> simp [w]

@[simp] theorem contents_sendHen (s : State) (dst : Nat) (op : HenOp) (m : HenMsg) : contents (sendHen s dst op m) = contents s := by simp [sendHen]
@[simp] theorem formed_partRead {s : State} (base size k : Nat) (w : Formed (contents s)) : Formed (contents (partRead s base size k)) := by
  unfold partRead
  split
  · exact w
  · split
    · exact formed_foldl (fun _ _ hx => formed_pageRead _ hx) _ w
    · simp [w]

@[simp] theorem formed_sendDrainPart {s : State} (d : Drain) (k : Nat) (w : Formed (contents s)) : Formed (contents (sendDrainPart s d k)) := by
  simp [sendDrainPart, w]

@[simp] theorem formed_doDrainChunk {s : State} (w : Formed (contents s)) : Formed (contents (doDrainChunk s)) := by
  unfold doDrainChunk
  (repeat' split) <;> simp [w]

@[simp] theorem contents_drainFails (s : State) : contents (drainFails s) = contents s := by
  unfold drainFails
  split <;> simp

@[simp] theorem contents_doBuddyAck (s : State) (m : HenMsg) : contents (doBuddyAck s m) = contents s := by
  unfold doBuddyAck
  (repeat' split) <;> simp

@[simp] theorem formed_doAgain {s : State} (m : HenMsg) (w : Formed (contents s)) : Formed (contents (doAgain s m)) := by
  unfold doAgain
  (repeat' split) <;> simp [w]

@[simp] theorem contents_doDrainRestart (s : State) : contents (doDrainRestart s) = contents s := by
  unfold doDrainRestart
  (repeat' split) <;> simp

@[simp] theorem contents_modHeld (s : State) (d : Held) (f : Held → Held) : contents (modHeld s d f) = contents s := contents_of_same rfl rfl
@[simp] theorem contents_forgetHeld (s : State) (d : Held) : contents (forgetHeld s d) = contents s := contents_of_same rfl rfl

@[simp] theorem contents_answerHen (s : State) (op : HenOp) (m : HenMsg) (chunk : Nat) (refused : Bool) :
    contents (answerHen s op m chunk refused) = contents s := by simp [answerHen]

@[simp] theorem formed_holdManifest {s : State} (m : HenMsg) (w : Formed (contents s)) : Formed (contents (holdManifest s m)) := by
  unfold holdManifest
  split <;> simp [w]

@[simp] theorem formed_holdChunk {s : State} (m : HenMsg) (w : Formed (contents s)) : Formed (contents (holdChunk s m)) := by
  unfold holdChunk
  (repeat' split) <;> simp [w]

@[simp] theorem formed_doHold {s : State} (m : HenMsg) (w : Formed (contents s)) : Formed (contents (doHold s m)) := by simp [doHold, w]

@[simp] theorem formed_sendHeldPart {s : State} (m : HenMsg) (d : Held) (k : Nat) (w : Formed (contents s)) :
    Formed (contents (sendHeldPart m d s k)) := by simp [sendHeldPart, w]

@[simp] theorem formed_doRebuild {s : State} (m : HenMsg) (w : Formed (contents s)) : Formed (contents (doRebuild s m)) := by
  unfold doRebuild
  dsimp only
  repeat' split
  · exact w
  · simpa
  · simpa
  · exact formed_foldl (fun _ k hx => formed_sendHeldPart m _ k hx) _ w

@[simp] theorem contents_modRest (s : State) (f : Restore → Restore) : contents (modRest s f) = contents s := contents_of_same rfl rfl
@[simp] theorem contents_restAborts (s : State) (cause : Nat) : contents (restAborts s cause) = contents s := by simp [restAborts]
@[simp] theorem contents_doRestGo (s : State) (r : Requester) (v : Nat) : contents (doRestGo s r v) = contents s := by simp [doRestGo]
@[simp] theorem formed_doRebuildChunk {s : State} (m : HenMsg) (w : Formed (contents s)) : Formed (contents (doRebuildChunk s m)) := by
  unfold doRebuildChunk
  dsimp only
  (repeat' split) <;> simp [w]

@[simp] theorem formed_restList {s : State} (miss : List Nat) (w : Formed (contents s)) : Formed (contents (restList s miss)) := by simp [restList, w]
@[simp] theorem formed_restChecked {s : State} (hosted : Bool) (w : Formed (contents s)) : Formed (contents (restChecked s hosted)) := by
  unfold restChecked
  extract_lets r x miss old
  have h : Formed (contents x) := formed_meetErrs _ w
  clear_value x
  (repeat' split) <;> simp [h]

@[simp] theorem formed_doRestCheck {s : State} (w : Formed (contents s)) : Formed (contents (doRestCheck s)) := by simp [doRestCheck, w]

@[simp] theorem formed_doHostDone {s : State} (r : Requester) (w : Formed (contents s)) : Formed (contents (doHostDone s r)) :=
  formed_regAccess r .hen 0 0x188 true (fun _ hx => by (repeat' split) <;> simp [hx]) w

@[simp] theorem contents_doRestAbort (s : State) (r : Requester) : contents (doRestAbort s r) = contents s := by simp [doRestAbort]
@[simp] theorem contents_doRestTimeout (s : State) : contents (doRestTimeout s) = contents s := by simp [doRestTimeout]

theorem formed_of_applyEntry {s u : State} {t : Nat} {m : Manifest} {e : CutEntry} (h : applyEntry s t m e = some u)
    (w : Formed (contents s)) : Formed (contents u) := by
  unfold applyEntry at h
  dsimp only at h
  split at h
  · cases h
    exact formed_foldl (fun _ _ hx => formed_foldl (fun y i hy => formed_tStorePoison _ _ hy) _ (by simp [hx])) _ w
  · split at h
    · cases h
    · obtain ⟨y, -, rfl⟩ := Option.map_eq_some_iff.mp h
      exact formed_foldl (fun _ _ hx => formed_foldl (fun y i hy => formed_tStorePoison _ _ hy) _ (by simp [hx])) _ (by simpa)

theorem formed_of_applyEntries {s u : State} {t : Nat} {m : Manifest} {es : List CutEntry} (h : applyEntries t m es s = some u)
    (w : Formed (contents s)) : Formed (contents u) := by
  induction es generalizing s with
  | nil =>
    cases h
    exact w
  | cons e es ih =>
    unfold applyEntries at h
    split at h
    · cases h
    · next v hv => exact ih h (formed_of_applyEntry hv w)

@[simp] theorem formed_doRestApply {s : State} (w : Formed (contents s)) : Formed (contents (doRestApply s)) := by
  unfold doRestApply
  extract_lets r t
  clear_value r t
  split
  · exact w
  · split
    · simpa
    · split
      · simpa
      · extract_lets es
        split
        · simpa
        · split
          · simpa
          · next v hv =>
            have h := formed_of_applyEntries hv w
            simp [h]

@[simp] theorem contents_doTenCopy (s : State) (r : Requester) (v : Nat) : contents (doTenCopy s r v) = contents s := by simp [doTenCopy]
@[simp] theorem contents_doTenTrig (s : State) (r : Requester) (v : Nat) : contents (doTenTrig s r v) = contents s := by simp [doTenTrig]
@[simp] theorem contents_abandonCut (s : State) (t : Nat) : contents (abandonCut s t) = contents s := contents_of_same rfl rfl
@[simp] theorem contents_henTenant (s : State) (t : Nat) : contents (henTenant s t) = contents s := by simp [henTenant]
@[simp] theorem contents_henEnabled (s : State) (t : Nat) : contents (henEnabled s t) = contents s := by simp [henEnabled]
@[simp] theorem contents_henReset (s : State) : contents (henReset s) = contents s := by simp [henReset]
@[simp] theorem contents_henTimeout (s : State) : contents (henTimeout s) = contents s := by simp [henTimeout]

end Sys2Proof.Machine
end

section
/-! PROOFS. The form of memory is kept (log 4): streams and rows. -/

namespace Sys2Proof.Machine

/-! Fetch. -/

@[simp] theorem formed_lookAt {s : State} (t : Nat) (c : Cmd) (ls : List Nat) (w : Formed (contents s)) : Formed (contents (lookAt s t c ls).1) := by
  unfold lookAt
  dsimp only
  (repeat' split) <;> simp [w]

@[simp] theorem formed_checkCmd {s : State} (t st : Nat) (c : Cmd) (w : Formed (contents s)) : Formed (contents (checkCmd s t st c).1) := by
  unfold checkCmd
  split
  · exact w
  · split
    · exact w
    · have h := formed_lookAt t c (namedLines st c) w
      dsimp only
      split
      · next heq => rw [heq] at h; exact h
      · next heq => rw [heq] at h; exact h
      · next x c1 heq =>
        rw [heq] at h
        have k := formed_lookAt t c1 (listedLines st c1) h
        split
        · next heq => rw [heq] at k; exact k
        · next heq => rw [heq] at k; exact k
        · next heq => rw [heq] at k; split <;> exact k

@[simp] theorem contents_fetchFault (s : State) (t st : Nat) : contents (fetchFault s t st) = contents s := by simp [fetchFault]
@[simp] theorem formed_doFetch {s0 : State} (t st now : Nat) (w : Formed (contents s0)) : Formed (contents (doFetch s0 t st now)) := by
  simp [doFetch, w]

@[simp] theorem contents_doTail (s : State) (r : Requester) (t st v : Nat) : contents (doTail s r t st v) = contents s := by simp [doTail]
@[simp] theorem contents_doCplRel (s : State) (r : Requester) (t st v : Nat) : contents (doCplRel s r t st v) = contents s := by simp [doCplRel]

/-! Issue. -/

@[simp] theorem contents_arbTake (s : State) (u : EUnit) (o : Offer) : contents (arbTake s u o) = contents s := contents_of_same rfl rfl
@[simp] theorem contents_leavesFront (s : State) (t st : Nat) : contents (leavesFront s t st) = contents s := by simp [leavesFront]
@[simp] theorem contents_accept (s : State) (u : EUnit) (o : Offer) : contents (accept s u o) = contents s := by
  unfold accept
  split <;> simp

@[simp] theorem contents_tryOffers (u : EUnit) (l : List Offer) (s : State) : contents (tryOffers u l s) = contents s := by
  induction l generalizing s with
  | nil => rfl
  | cons o os ih =>
    unfold tryOffers
    dsimp only
    (repeat' split) <;> simp [ih]

@[simp] theorem formed_restartStream {s : State} (t st : Nat) (w : Formed (contents s)) : Formed (contents (restartStream s t st)) := by
  simp [restartStream, w]

@[simp] theorem formed_applyEn {s : State} (t : Nat) (w : Formed (contents s)) : Formed (contents (applyEn s t)) := by
  simp only [applyEn, contents_markReady, contents_henEnabled]
  exact formed_foldl (fun _ _ hx => formed_restartStream _ _ hx) _ (by simpa)

@[simp] theorem formed_writeEn {s : State} (t v : Nat) (w : Formed (contents s)) : Formed (contents (writeEn s t v)) := by simp [writeEn, w]
@[simp] theorem formed_settleEn {s : State} (t : Nat) (w : Formed (contents s)) : Formed (contents (settleEn s t)) := by simp [settleEn, w]

@[simp] theorem formed_endFront {s : State} (t st : Nat) (c : Cmd) (it : Option Nat) (r : Result) (w : Formed (contents s)) :
    Formed (contents (endFront s t st c it r)) := by simp [endFront, w]

@[simp] theorem formed_refuseLoop {s : State} (t st : Nat) (c : Cmd) (w : Formed (contents s)) : Formed (contents (refuseLoop s t st c)) := by
  simp [refuseLoop, w]

@[simp] theorem contents_lostFills (s : State) (t : Nat) (c : Cmd) : contents (lostFills s t c) = contents s := by simp [lostFills]
@[simp] theorem contents_noteLooked (s : State) (t st : Nat) (c : Cmd) (status : Nat) : contents (noteLooked s t st c status) = contents s := by
  unfold noteLooked
  split <;> simp

@[simp] theorem contents_goneEvent (s : State) (u : EUnit) : contents (goneEvent s u) = contents s := by
  cases u <;> simp [goneEvent]

@[simp] theorem contents_goneNamed (s : State) (c : Cmd) : contents (goneNamed s c) = contents s := by
  unfold goneNamed
  split <;> simp

@[simp] theorem formed_doFrontEnd {s : State} (t st now : Nat) (w : Formed (contents s)) : Formed (contents (doFrontEnd s t st now)) := by
  unfold doFrontEnd
  dsimp only
  (repeat' split) <;> simp [w]

@[simp] theorem formed_doIssue {s0 : State} (site : IssueAt) (now : Nat) (w : Formed (contents s0)) : Formed (contents (doIssue s0 site now)) := by
  unfold doIssue
  dsimp only
  (repeat' split) <;> simp [w]

@[simp] theorem formed_doComplete {s : State} (t st n iter now : Nat) (w : Formed (contents s)) : Formed (contents (doComplete s t st n iter now)) := by
  unfold doComplete
  (repeat' split) <;> simp [w]

@[simp] theorem formed_doDeferLimit {s0 : State} (t st now : Nat) (w : Formed (contents s0)) : Formed (contents (doDeferLimit s0 t st now)) := by
  unfold doDeferLimit
  dsimp only
  (repeat' split) <;> simp [w]

/-! Control commands. -/

theorem formed_ctlFront {s : State} (t st now op : Nat) {f : State → Cmd → Option Nat → State}
    (h : ∀ x c it, Formed (contents x) → Formed (contents (f x c it))) (w : Formed (contents s)) : Formed (contents (ctlFront s t st now op f)) := by
  unfold ctlFront
  dsimp only
  (repeat' split) <;> simp [h, w]

@[simp] theorem formed_ctlDone {s : State} (t st : Nat) (c : Cmd) (it : Option Nat) (r : Result) (w : Formed (contents s)) :
    Formed (contents (ctlDone s t st c it r)) := by simp [ctlDone, w]

@[simp] theorem formed_doNop {s : State} (t st now : Nat) (w : Formed (contents s)) : Formed (contents (doNop s t st now)) :=
  formed_ctlFront t st now _ (fun _ _ _ hx => by simp [hx]) w

@[simp] theorem formed_doWait {s : State} (t st now : Nat) (w : Formed (contents s)) : Formed (contents (doWait s t st now)) :=
  formed_ctlFront t st now _ (fun _ _ _ hx => by simp [hx]) w

@[simp] theorem contents_clearErr (s : State) (t n : Nat) : contents (clearErr s t n) = contents s := contents_of_same rfl rfl

@[simp] theorem formed_doSignal {s : State} (t st now : Nat) (w : Formed (contents s)) : Formed (contents (doSignal s t st now)) :=
  formed_ctlFront t st now _ (fun _ _ _ hx => by dsimp only; split <;> simp [hx]) w

@[simp] theorem formed_doFence {s : State} (t st now : Nat) (w : Formed (contents s)) : Formed (contents (doFence s t st now)) :=
  formed_ctlFront t st now _ (fun _ _ _ hx => by simp [hx]) w

@[simp] theorem formed_doTest {s : State} (t st now : Nat) (w : Formed (contents s)) : Formed (contents (doTest s t st now)) :=
  formed_ctlFront t st now _ (fun _ _ _ hx => by dsimp only; split <;> simp [hx]) w

theorem formed_doLoop {s : State} (t st now : Nat) (w : Formed (contents s)) : Formed (contents (doLoop s t st now)) :=
  formed_ctlFront t st now 0x07 (fun _ _ _ _ => by simpa) w

@[simp] theorem formed_doCut {s : State} (t st now : Nat) (w : Formed (contents s)) : Formed (contents (doCut s t st now)) :=
  formed_ctlFront t st now _ (fun _ _ _ hx => by simp [hx]) w

@[simp] theorem formed_closeRead {s : State} (t : Nat) (spans : List (Option (Nat × Nat))) (w : Formed (contents s)) :
    Formed (contents (closeRead s t spans).2) := by simp [closeRead, w]

@[simp] theorem formed_witTensor {s : State} (t : Nat) (d : TDesc) (bad : Bool) (w : Formed (contents s)) :
    Formed (contents (witTensor s t d bad).1) := by
  unfold witTensor
  dsimp only
  (repeat' split) <;> simp [w]

@[simp] theorem formed_witness {s : State} (t a i : Nat) (w : Formed (contents s)) : Formed (contents (witness s t a i).1) := by
  have h := formed_closeRead t [some (a + 8 * i, 8)] w
  unfold witness
  dsimp only
  (repeat' split) <;> simp [h]

@[simp] theorem formed_witnesses {s : State} (t a n : Nat) (w : Formed (contents s)) : Formed (contents (witnesses s t a n).1) :=
  List.foldlRecOn (motive := fun (x : State × List Witness) => Formed (contents x.1)) _ _ w (fun _ hx _ _ => formed_witness t a _ hx)

@[simp] theorem formed_finishStep {s : State} (t : Nat) (w : Formed (contents s)) : Formed (contents (finishStep s t)) := by
  unfold finishStep
  split <;> simp [w]

@[simp] theorem formed_finishSteps {s : State} (w : Formed (contents s)) : Formed (contents (finishSteps s)) :=
  formed_foldl (fun _ _ hx => by split <;> simp [hx]) _ w

@[simp] theorem formed_ledgerRun {s : State} (w : Formed (contents s)) : Formed (contents (ledgerRun s)) := by simp [ledgerRun, w]
@[simp] theorem formed_closeStep {s : State} (t : Nat) (c : Cmd) (w : Formed (contents s)) : Formed (contents (closeStep s t c)) := by
  have hr := formed_witnesses t (witAddr c) (witCount c) w
  unfold closeStep
  dsimp only
  generalize hd : cutDecide _ t = d
  have h : Formed (contents d.1) := by subst hd; simp [hr]
  (repeat' split) <;> simp [h]

@[simp] theorem formed_doStep {s : State} (t st now : Nat) (w : Formed (contents s)) : Formed (contents (doStep s t st now)) := by
  unfold doStep
  split
  · simp [w]
  · exact formed_ctlFront t st now _ (fun _ _ _ hx => by split <;> simp [hx]) w

@[simp] theorem formed_quitLoop {s : State} (t st : Nat) (w : Formed (contents s)) : Formed (contents (quitLoop s t st)) := by
  unfold quitLoop
  split
  · exact w
  · exact formed_closeLoop _ _ _ (formed_foldl (fun _ _ hx => by split <;> simp [hx]) _ (by simpa))

@[simp] theorem formed_flushFetched (n : Nat) {s : State} (t st status : Nat) (w : Formed (contents s)) :
    Formed (contents (flushFetched n s t st status)) := by
  induction n generalizing s with
  | zero => exact w
  | succ n ih =>
    unfold flushFetched
    dsimp only
    split <;> simp [ih, w]

@[simp] theorem contents_blankContext (s : State) (t : Nat) : contents (blankContext s t) = contents s := contents_of_same rfl rfl
@[simp] theorem formed_endCommands {s : State} (t status : Nat) (w : Formed (contents s)) : Formed (contents (endCommands s t status)) := by
  unfold endCommands
  exact formed_foldl (fun _ _ hx => formed_completePlain _ _ _ _ _ hx) _ (by simpa)

@[simp] theorem contents_bumpEpoch (s : State) (b : Block) (i : Nat) : contents (bumpEpoch s b i) = contents s := contents_of_same rfl rfl
@[simp] theorem formed_gooseBegin {s : State} (g follow : Nat) (w : Formed (contents s)) : Formed (contents (gooseBegin s g follow)) := by
  unfold gooseBegin
  exact formed_foldl (fun _ t hx => formed_settleEn t
    (formed_foldl (fun y st hy => formed_flushFetched _ _ _ _ (formed_quitLoop _ _ hy)) _ hx)) _ (by simpa)

@[simp] theorem formed_gooseEnd {s : State} (g follow : Nat) (w : Formed (contents s)) : Formed (contents (gooseEnd s g follow)) := by
  unfold gooseEnd
  have h : Formed (contents ((coreTenants s g).foldl (fun x t => endCommands x t 0x22) s)) :=
    formed_foldl (fun _ _ hx => formed_endCommands _ _ hx) _ w
  dsimp only
  split <;> simpa

@[simp] theorem formed_gooseSettle {s : State} (g : Nat) (w : Formed (contents s)) : Formed (contents (gooseSettle s g)) := by
  unfold gooseSettle
  split <;> simp [w]

/-! The ledger's rows. -/

@[simp] theorem contents_genesisAfter (s : State) (t reason : Nat) (f : Tenant → Tenant) : contents (genesisAfter s t reason f) = contents s := by
  simp [genesisAfter]

@[simp] theorem contents_askSeal (s : State) (c : Nat) : contents (askSeal s c) = contents s := contents_of_same rfl rfl
@[simp] theorem contents_doTenMode (s : State) (r : Requester) (v : Nat) : contents (doTenMode s r v) = contents s := by simp [doTenMode]
@[simp] theorem contents_doTenSeed (s : State) (r : Requester) (v : Nat) : contents (doTenSeed s r v) = contents s := by simp [doTenSeed]
@[simp] theorem contents_doSealRequest (s : State) (r : Requester) : contents (doSealRequest s r) = contents s := by simp [doSealRequest]
@[simp] theorem contents_doSealPeriod (s : State) (fail : Bool) : contents (doSealPeriod s fail) = contents s := by simp [doSealPeriod]
@[simp] theorem contents_sealAsked (s : State) : contents (sealAsked s) = contents s := by simp [sealAsked]
@[simp] theorem formed_doLedgerWrite {s : State} (w : Formed (contents s)) : Formed (contents (doLedgerWrite s)) := by simp [doLedgerWrite, w]
@[simp] theorem formed_doRingRetry {s : State} (w : Formed (contents s)) : Formed (contents (doRingRetry s)) := by simp [doRingRetry, w]
@[simp] theorem contents_nodeGenesis (s : State) : contents (nodeGenesis s) = contents s := by simp [nodeGenesis]
@[simp] theorem contents_doRingConfig (s : State) (r : Requester) (off v : Nat) : contents (doRingConfig s r off v) = contents s := by
  simp [doRingConfig]

@[simp] theorem contents_doRdPtr (s : State) (r : Requester) (v : Nat) : contents (doRdPtr s r v) = contents s := by simp [doRdPtr]
@[simp] theorem contents_doTenStop (s : State) (r : Requester) (off v : Nat) : contents (doTenStop s r off v) = contents s := by simp [doTenStop]
@[simp] theorem contents_doStopHit (s : State) (t : Nat) : contents (doStopHit s t) = contents s := by simp [doStopHit]

@[simp] theorem contents_doSystime (s : State) (r : Requester) (v : Nat) : contents (doSystime s r v) = contents s :=
  contents_regAccess _ _ _ _ _ _ (fun _ => rfl)

/-! The links' rows. -/

@[simp] theorem formed_endLinkEpisode {s : State} (n us : Nat) (w : Formed (contents s)) : Formed (contents (endLinkEpisode s n us)) := by
  simp [endLinkEpisode, w]

@[simp] theorem formed_endLinkOverride {s : State} (n : Nat) (w : Formed (contents s)) : Formed (contents (endLinkOverride s n)) := by
  simp [endLinkOverride, w]

@[simp] theorem formed_linkMoved {s : State} (before : List Nat) (n : Nat) (w : Formed (contents s)) : Formed (contents (linkMoved before s n)) := by
  simp [linkMoved, w]

@[simp] theorem formed_attemptLost {s : State} (n : Nat) (w : Formed (contents s)) : Formed (contents (attemptLost s n)) := by simp [attemptLost, w]
@[simp] theorem contents_doLinkEnable (s : State) (r : Requester) (n : Nat) : contents (doLinkEnable s r n) = contents s := by simp [doLinkEnable]
@[simp] theorem contents_doLinkDetect (s : State) (n : Nat) : contents (doLinkDetect s n) = contents s := by
  unfold doLinkDetect
  split <;> simp

@[simp] theorem contents_doLinkAdvance (s : State) (n lanes : Nat) : contents (doLinkAdvance s n lanes) = contents s := by
  unfold doLinkAdvance
  split <;> simp

@[simp] theorem formed_doLinkTimeout {s : State} (n : Nat) (w : Formed (contents s)) : Formed (contents (doLinkTimeout s n)) := by
  simp [doLinkTimeout, w]

@[simp] theorem contents_doBackoffEnd (s : State) (n : Nat) : contents (doBackoffEnd s n) = contents s := by
  unfold doBackoffEnd
  split <;> simp

@[simp] theorem contents_doFailedRetry (s : State) (n : Nat) : contents (doFailedRetry s n) = contents s := by
  unfold doFailedRetry
  split <;> simp

@[simp] theorem formed_doCap {s : State} (n : Nat) (c : CapBody) (w : Formed (contents s)) : Formed (contents (doCap s n c)) := by
  unfold doCap
  dsimp only
  (repeat' split) <;> simp [w]

@[simp] theorem contents_doCapRepeat (s : State) (n : Nat) : contents (doCapRepeat s n) = contents s := by
  unfold doCapRepeat
  split <;> simp

@[simp] theorem formed_doVerifyEnd {s : State} (n : Nat) (got : List (List Byte)) (w : Formed (contents s)) :
    Formed (contents (doVerifyEnd s n got)) := by
  unfold doVerifyEnd
  (repeat' split) <;> simp [w]

@[simp] theorem formed_protectLink {s : State} (n : Nat) (w : Formed (contents s)) : Formed (contents (protectLink s n)) := by
  unfold protectLink
  dsimp only
  (repeat' split) <;> simp [w]

@[simp] theorem contents_adaptDown (s : State) (n : Nat) : contents (adaptDown s n) = contents s := by
  unfold adaptDown
  dsimp only
  (repeat' split) <;> simp

@[simp] theorem formed_doErrorWindow {s : State} (n : Nat) (w : Formed (contents s)) : Formed (contents (doErrorWindow s n)) := by
  simp [doErrorWindow, w]

@[simp] theorem formed_doLaneLoss {s : State} (n lane : Nat) (w : Formed (contents s)) : Formed (contents (doLaneLoss s n lane)) := by
  simp [doLaneLoss, w]

@[simp] theorem contents_doStepUp (s : State) (n : Nat) : contents (doStepUp s n) = contents s := by
  unfold doStepUp
  split <;> simp

@[simp] theorem contents_doIdleDown (s : State) (n : Nat) : contents (doIdleDown s n) = contents s := by simp [doIdleDown]
@[simp] theorem formed_doRetrainEnd {s : State} (n : Nat) (w : Formed (contents s)) : Formed (contents (doRetrainEnd s n)) := by
  simp [doRetrainEnd, w]

@[simp] theorem contents_doOverrideReturn (s : State) (n us : Nat) : contents (doOverrideReturn s n us) = contents s := by
  unfold doOverrideReturn
  (repeat' split) <;> simp

@[simp] theorem formed_doLinkDown {s : State} (n : Nat) (failed : Bool) (w : Formed (contents s)) : Formed (contents (doLinkDown s n failed)) := by
  simp [doLinkDown, w]

@[simp] theorem formed_disableLink {s : State} (n : Nat) (w : Formed (contents s)) : Formed (contents (disableLink s n)) := by simp [disableLink, w]
@[simp] theorem contents_lockChecked (s : State) : contents (lockChecked s) = contents s := by simp [lockChecked]
@[simp] theorem contents_doNodeCfg (s : State) (r : Requester) (off v : Nat) : contents (doNodeCfg s r off v) = contents s := by simp [doNodeCfg]
@[simp] theorem contents_switchReset (s : State) : contents (switchReset s) = contents s := by simp [switchReset]

/-! The memory tiers' rows. -/

@[simp] theorem formed_darken {s : State} (w : Formed (contents s)) : Formed (contents (darken s)) := by
  unfold darken
  split
  · exact w
  · obtain ⟨hm, hd⟩ := w
    exact ⟨cellsWf_filter _ hm, cellsWf_foldl_of _ (fun c e h => by
      split
      · exact cellsWf_cellSet _ (Nat.zero_le _) h
      · exact h) _ hd⟩

@[simp] theorem formed_lighten {s : State} (w : Formed (contents s)) : Formed (contents (lighten s)) := by
  refine ⟨lighten_wf w.1, ?_⟩
  unfold lighten
  split
  · exact w.2
  · exact cellsWf_filter _ w.2

theorem formed_rewindow {s : State} {f : State → State} (h : ∀ x, contents (f x) = contents x) (w : Formed (contents s)) :
    Formed (contents (rewindow s f)) := formed_lighten (by rw [h]; exact formed_darken w)

@[simp] theorem formed_putWindow {s : State} (n v : Nat) (w : Formed (contents s)) : Formed (contents (putWindow s n v)) := by
  unfold putWindow
  exact formed_rewindow (fun x => by simp only [contents_setRegWord]) w

@[simp] theorem formed_doWinWrite {s : State} (r : Requester) (n v : Nat) (w : Formed (contents s)) : Formed (contents (doWinWrite s r n v)) := by
  unfold doWinWrite
  split
  · exact w
  · exact formed_regAccess _ _ _ _ _ (fun _ hx => by split <;> simp [hx]) w

@[simp] theorem contents_doWinLock (s : State) (r : Requester) : contents (doWinLock s r) = contents s := by simp [doWinLock]
@[simp] theorem contents_doSetLoad (s : State) (r : Requester) (d : Nat) : contents (doSetLoad s r d) = contents s := by simp [doSetLoad]
@[simp] theorem contents_doSetActivate (s : State) (r : Requester) (d : Nat) : contents (doSetActivate s r d) = contents s := by simp [doSetActivate]

theorem storedFrom_pageRead (s : State) (pg : Nat) : StoredFrom s (pageRead s pg) := storedFrom_meetErrs s _

/-- A page's copies are written under the rules of every write. The definition is unfolded as a function: the kernel would otherwise
evaluate the last write. -/
theorem storedFrom_publishPage (s : State) (d p : Nat) : StoredFrom s (publishPage s d p) := by
  generalize hf : publishPage = f
  delta publishPage at hf
  subst hf
  beta_reduce
  extract_lets s1 bs bad dg s2 s3
  have h3 : StoredFrom s2 s3 := .foldl _ _ (fun x j => storedFrom_storePoison x _) _
  exact ((((storedFrom_pageRead s _).trans (storedFrom_store _ _ _)).trans h3).trans (storedFrom_store _ _ _)).trans (storedFrom_store _ _ _)

@[simp] theorem formed_publishPage {s : State} (d p : Nat) (w : Formed (contents s)) : Formed (contents (publishPage s d p)) :=
  w.stored (storedFrom_publishPage s d p)

@[simp] theorem formed_doActivateDone {s : State} (d k : Nat) (w : Formed (contents s)) : Formed (contents (doActivateDone s d k)) := by
  unfold doActivateDone
  dsimp only
  split
  · simp only [contents_modSet]
    exact formed_foldl (fun _ p hx => formed_publishPage d p hx) _ w
  · exact w

@[simp] theorem formed_zeroOpen {s : State} (a n : Nat) (w : Formed (contents s)) : Formed (contents (zeroOpen s a n)) := by
  unfold zeroOpen
  split
  · exact w
  · exact formed_foldl (fun _ _ hx => by dsimp only; split <;> simp [hx]) _ w

@[simp] theorem formed_retireSet {s : State} (d k : Nat) (w : Formed (contents s)) : Formed (contents (retireSet s d k)) := by
  simp only [retireSet, contents_modSpad]
  exact formed_zeroOpen _ _ (formed_zeroOpen _ _ (formed_zeroOpen _ _ (formed_zeroOpen _ _ w)))

@[simp] theorem formed_doSetRetire {s : State} (r : Requester) (d : Nat) (w : Formed (contents s)) : Formed (contents (doSetRetire s r d)) :=
  formed_regAccess _ _ _ _ _ (fun _ hx => by dsimp only; (repeat' split) <;> simp [hx]) w

@[simp] theorem formed_putPage {s : State} (a : Nat) (bs : List Byte) (w : Formed (contents s)) : Formed (contents (putPage s a bs)) :=
  w.stored (storedFrom_putPage _ _ _)

@[simp] theorem formed_bringBack {s : State} (d p src : Nat) (bs : List Byte) (w : Formed (contents s)) :
    Formed (contents (bringBack s d p src bs)) := by
  unfold bringBack
  split <;> simp [w]

@[simp] theorem formed_fixGolden {s : State} (d p : Nat) (w : Formed (contents s)) : Formed (contents (fixGolden s d p)) := by
  unfold fixGolden
  split <;> simp [w]

@[simp] theorem formed_fixDigest {s : State} (a other : Nat) (w : Formed (contents s)) : Formed (contents (fixDigest s a other)) := by
  simp [fixDigest, w]

@[simp] theorem formed_lowerError {s : State} (a : Nat) (w : Formed (contents s)) : Formed (contents (lowerError s a)) := by
  unfold lowerError
  split <;> simp [w]

@[simp] theorem formed_lowerRead {s : State} (p : Nat → Bool) (w : Formed (contents s)) : Formed (contents (lowerRead s p)) :=
  formed_foldl (fun _ _ hx => formed_lowerError _ hx) _ (formed_meetErrs p w)

@[simp] theorem contents_askImage (s : State) (d : Nat) (w : Withdrawn) : contents (askImage s d w) = contents s := by simp [askImage]
@[simp] theorem formed_doPageRestore {s : State} (d p : Nat) (w : Formed (contents s)) : Formed (contents (doPageRestore s d p)) := by
  unfold doPageRestore
  split <;> simp [w]

@[simp] theorem contents_spadSettle (s : State) (d : Nat) : contents (spadSettle s d) = contents s := by
  unfold spadSettle
  split <;> simp

@[simp] theorem formed_takeImage {s : State} (d addr : Nat) (w : Formed (contents s)) : Formed (contents (takeImage s d addr)) := by
  unfold takeImage
  split
  · exact w
  · dsimp only
    split
    · simp only [contents_spadSettle]
      exact formed_bringBack _ _ _ _ (formed_putPage _ _ (formed_meetErrs _ w))
    · simp [w]

@[simp] theorem formed_doHostImg {s : State} (r : Requester) (d addr : Nat) (w : Formed (contents s)) : Formed (contents (doHostImg s r d addr)) :=
  formed_regAccess _ _ _ _ _ (fun _ hx => by dsimp only; split <;> simp [hx]) w

@[simp] theorem contents_doImageTimeout (s : State) (d k : Nat) : contents (doImageTimeout s d k) = contents s := by
  unfold doImageTimeout
  split <;> simp

@[simp] theorem formed_doScrub {s : State} (l : Nat) (bad : List Nat) (w : Formed (contents s)) : Formed (contents (doScrub s l bad)) := by
  simp [doScrub, w]

@[simp] theorem contents_refreshCause (s : State) (p : Nat) : contents (refreshCause s p) = contents s := by simp [refreshCause]
@[simp] theorem contents_doMr4 (s : State) (p : Nat) (reports : List Mr4) : contents (doMr4 s p reports) = contents s := by
  unfold doMr4
  split <;> simp

@[simp] theorem contents_doRefresh (s : State) (p rank : Nat) (closed busy : Bool) : contents (doRefresh s p rank closed busy) = contents s := by
  simp [doRefresh]

@[simp] theorem contents_doTenantSeal (s : State) (r : Requester) (t va : Nat) : contents (doTenantSeal s r t va) = contents s :=
  contents_regAccess _ _ _ _ _ _ (fun x => by dsimp only; (repeat' split) <;> simp)

@[simp] theorem contents_doOwnerSeal (s : State) (r : Requester) (a : Nat) : contents (doOwnerSeal s r a) = contents s := by simp [doOwnerSeal]
@[simp] theorem formed_doSeal {s : State} (g : Nat) (w : Formed (contents s)) : Formed (contents (doSeal s g)) := by
  unfold doSeal
  split <;> simp [w]

@[simp] theorem contents_doZreq (s : State) (r : Requester) (pages : Nat) : contents (doZreq s r pages) = contents s := by simp [doZreq]
@[simp] theorem contents_endSeals (s : State) (a n : Nat) : contents (endSeals s a n) = contents s := contents_of_same rfl rfl
@[simp] theorem formed_zeroReleased {s : State} (a n : Nat) (w : Formed (contents s)) : Formed (contents (zeroReleased s a n)) := by
  unfold zeroReleased
  split
  · exact formed_foldl (fun _ _ hx => by dsimp only; (repeat' split) <;> simp [hx]) _ w
  · simp [w]

@[simp] theorem formed_doZeroDone {s : State} (i : Nat) (w : Formed (contents s)) : Formed (contents (doZeroDone s i)) := by
  unfold doZeroDone
  split <;> simp [w]

@[simp] theorem formed_zeroPort {s : State} (p : Nat) (w : Formed (contents s)) : Formed (contents (zeroPort s p)) :=
  ⟨cellsWf_filter _ w.1, cellsWf_filter _ w.2⟩

@[simp] theorem formed_doFillEnd {s : State} (p : Nat) (w : Formed (contents s)) : Formed (contents (doFillEnd s p)) := by simp [doFillEnd, w]

end Sys2Proof.Machine
end

section
/-! PROOFS. The form of memory is kept (log 4): tenants, resets, registers. -/

namespace Sys2Proof.Machine

/-! Tenants, ownership and host accesses. -/

@[simp] theorem contents_doCmdBase (s : State) (r : Requester) (t st v : Nat) : contents (doCmdBase s r t st v) = contents s := by simp [doCmdBase]
@[simp] theorem contents_doCplBase (s : State) (r : Requester) (t st v : Nat) : contents (doCplBase s r t st v) = contents s := by simp [doCplBase]
@[simp] theorem contents_doArb (s : State) (r : Requester) (t v : Nat) : contents (doArb s r t v) = contents s := by simp [doArb]
@[simp] theorem contents_invalidate (s : State) (t : Nat) : contents (invalidate s t) = contents s := contents_of_same rfl rfl
@[simp] theorem contents_putInv (s : State) (t v : Nat) : contents (putInv s t v) = contents s := contents_of_same rfl rfl
@[simp] theorem contents_doInv (s : State) (r : Requester) (t v : Nat) : contents (doInv s r t v) = contents s := by simp [doInv]
@[simp] theorem contents_answerUr (s : State) : contents (answerUr s) = contents s := contents_of_same rfl rfl

theorem contents_of_hostRecalls {s u : State} {a n : Nat} {w : Bool} (h : hostRecalls s a n w = some u) : contents u = contents s := by
  unfold hostRecalls at h
  split at h
  · cases h
  · cases h
    simp

theorem contents_of_barGate {s u : State} {b : BarAcc} (h : barGate s b = some u) : contents u = contents s := by
  unfold barGate at h
  split at h
  · exact contents_of_hostRecalls h
  · split at h <;> exact contents_of_herdGate h

@[simp] theorem formed_barDo {s : State} (b : BarAcc) (w : Formed (contents s)) : Formed (contents (barDo s b)) := by
  unfold barDo
  split <;> simp [w]

@[simp] theorem formed_barRun (l : List BarAcc) {s : State} (w : Formed (contents s)) : Formed (contents (barRun l s)) := by
  induction l generalizing s with
  | nil => exact w
  | cons b l ih =>
    unfold barRun
    split
    · next hx => simpa [contents_of_barGate hx] using w
    · exact ih (formed_barDo b w)

@[simp] theorem formed_barTake {s : State} (b : BarAcc) (w : Formed (contents s)) : Formed (contents (barTake s b)) := by simp [barTake, w]
@[simp] theorem formed_barResume {s : State} (w : Formed (contents s)) : Formed (contents (barResume s)) := by simp [barResume, w]
@[simp] theorem formed_doPfRead {s : State} (a n : Nat) (errs : List MemErr) (w : Formed (contents s)) : Formed (contents (doPfRead s a n errs)) := by
  simp [doPfRead, w]

@[simp] theorem formed_doPfWrite {s : State} (a : Nat) (bs : List Byte) (w : Formed (contents s)) : Formed (contents (doPfWrite s a bs)) := by
  simp [doPfWrite, w]

@[simp] theorem contents_barFault (s : State) (t a n : Nat) (w : Bool) : contents (barFault s t a n w) = contents s := by simp [barFault]

@[simp] theorem formed_doVfRead {s : State} (t a n : Nat) (errs : List MemErr) (w : Formed (contents s)) :
    Formed (contents (doVfRead s t a n errs)) := by simp [doVfRead, w]

@[simp] theorem formed_doVfWrite {s : State} (t a : Nat) (bs : List Byte) (w : Formed (contents s)) : Formed (contents (doVfWrite s t a bs)) := by
  simp [doVfWrite, w]

@[simp] theorem contents_muleTenant (s : State) (t : Nat) : contents (muleTenant s t) = contents s := by simp [muleTenant]
@[simp] theorem contents_drakeTenant (s : State) (t : Nat) : contents (drakeTenant s t) = contents s := by simp [drakeTenant]
@[simp] theorem formed_startReset {s : State} (t : Nat) (w : Formed (contents s)) : Formed (contents (startReset s t)) := by simp [startReset, w]

@[simp] theorem formed_resetAll {s : State} (w : Formed (contents s)) : Formed (contents (resetAll s)) :=
  formed_foldl (fun _ t hx => formed_startReset t hx) _ w

@[simp] theorem contents_blankTenant (s : State) (t : Nat) : contents (blankTenant s t) = contents s := contents_of_same rfl rfl
@[simp] theorem contents_resetEntries (s : State) (t : Nat) : contents (resetEntries s t) = contents s := by simp [resetEntries]
@[simp] theorem formed_releaseSeal {s : State} (w : Formed (contents s)) : Formed (contents (releaseSeal s)) := by simp [releaseSeal, w]
@[simp] theorem formed_doResetDone {s : State} (t : Nat) (w : Formed (contents s)) : Formed (contents (doResetDone s t)) := by simp [doResetDone, w]

@[simp] theorem formed_doTenReset {s : State} (r : Requester) (t : Nat) (w : Formed (contents s)) : Formed (contents (doTenReset s r t)) :=
  formed_regAccess _ _ _ _ _ (fun _ hx => formed_startReset t hx) w

@[simp] theorem formed_doVfFlr {s : State} (t : Nat) (w : Formed (contents s)) : Formed (contents (doVfFlr s t)) := by simp [doVfFlr, w]
@[simp] theorem formed_doPfFlr {s : State} (w : Formed (contents s)) : Formed (contents (doPfFlr s)) := by simp [doPfFlr, w]
@[simp] theorem formed_doVfClear {s : State} (w : Formed (contents s)) : Formed (contents (doVfClear s)) := by simp [doVfClear, w]
@[simp] theorem contents_doVfSet (s : State) (n : Nat) : contents (doVfSet s n) = contents s := by
  unfold doVfSet
  split <;> simp

@[simp] theorem contents_flushVecs (s : State) (fn : Nat) : contents (flushVecs s fn) = contents s := by simp [flushVecs]
@[simp] theorem contents_maskVec (s : State) (fn v : Nat) (masked : Bool) : contents (maskVec s fn v masked) = contents s := by simp [maskVec]
@[simp] theorem contents_doUnmask (s : State) (fn v : Nat) : contents (doUnmask s fn v) = contents s := by simp [doUnmask]
@[simp] theorem contents_hostReset (s : State) : contents (hostReset s) = contents s := contents_of_same rfl rfl
@[simp] theorem contents_doPcieReset (s : State) : contents (doPcieReset s) = contents s := by simp [doPcieReset]
@[simp] theorem contents_doLinkUp (s : State) (gen width : Nat) (flit : Bool) : contents (doLinkUp s gen width flit) = contents s := by
  simp [doLinkUp]

@[simp] theorem contents_doD3 (s : State) (fn : Nat) (on : Bool) : contents (doD3 s fn on) = contents s := by simp [doD3]
@[simp] theorem contents_ownChanged (s : State) : contents (ownChanged s) = contents s := by simp [ownChanged]
@[simp] theorem contents_claimFor (s : State) (viaPf : Bool) (eid : Nat) (smbus : Bool) : contents (claimFor s viaPf eid smbus) = contents s := by
  simp [claimFor]

@[simp] theorem contents_doCtrlClaim (s : State) (r : Requester) : contents (doCtrlClaim s r) = contents s := by simp [doCtrlClaim]
@[simp] theorem formed_startRelease {s : State} (w : Formed (contents s)) : Formed (contents (startRelease s)) := by
  unfold startRelease
  exact formed_resetAll (formed_foldl (fun _ _ hx => formed_foldl (fun y st hy => formed_flushFetched _ _ _ _ hy) _ hx) _ (by simpa))

@[simp] theorem formed_doCtrlRelease {s : State} (r : Requester) (w : Formed (contents s)) : Formed (contents (doCtrlRelease s r)) :=
  formed_regAccess _ _ _ _ _ (fun _ hx => by (repeat' split) <;> simp [hx]) w

@[simp] theorem formed_doLedgerWaitEnd {s : State} (timedOut : Bool) (w : Formed (contents s)) : Formed (contents (doLedgerWaitEnd s timedOut)) := by
  unfold doLedgerWaitEnd
  split
  · exact w
  · exact formed_foldl (fun _ _ hx => formed_foldl (fun y e hy => formed_retireSet _ _ hy) _ hx) _ (by simpa)

@[simp] theorem contents_clearPage (s : State) (b : Block) (i : Nat) (keep : Nat → Bool) : contents (clearPage s b i keep) = contents s :=
  contents_of_same rfl rfl

@[simp] theorem contents_clearLedger (s : State) : contents (clearLedger s) = contents s := contents_of_same rfl rfl

/-- What is blanked holds nothing. -/
theorem formed_empty : Formed (({}, []) : Memory × List Host.Cell) := ⟨rfl, rfl⟩

@[simp] theorem formed_clearOwned (s : State) : Formed (contents (clearOwned s)) := by
  simp only [clearOwned, contents_clearLedger]
  generalize hx : List.foldl _ (_ : State) (List.range 512) = x
  have h : Formed (contents x) := by
    subst hx
    exact formed_foldl (fun y t hy => by split <;> simp [hy]) _ formed_empty
  split <;> simp [h]

@[simp] theorem formed_doZeroingEnd {s : State} (w : Formed (contents s)) : Formed (contents (doZeroingEnd s)) := by simp [doZeroingEnd, w]

/-! Resets, Lamb mode, the control interface. -/

@[simp] theorem formed_stopForReset {s : State} (n : Nat) (w : Formed (contents s)) : Formed (contents (stopForReset s n)) := by
  unfold stopForReset
  split <;> simp [w]

@[simp] theorem formed_muleQuiesce {s : State} (cl : Nat) (w : Formed (contents s)) : Formed (contents (muleQuiesce s cl)) := by
  unfold muleQuiesce
  exact formed_foldl (fun _ _ hx => by split <;> simp [hx]) _
    (by simp only [contents_mk]; exact formed_foldl (fun _ n hx => formed_stopForReset n hx) _ w)

@[simp] theorem contents_setCores (s : State) (cl st : Nat) : contents (setCores s cl st) = contents s := by simp [setCores]
@[simp] theorem contents_checkCores (s : State) (cl : Nat) (bad : List Nat) : contents (checkCores s cl bad) = contents s := by simp [checkCores]
@[simp] theorem contents_pfCancel (s : State) (g : Nat) (j : Job) : contents (pfCancel s g j) = contents s := by
  unfold pfCancel
  (repeat' split) <;> simp

@[simp] theorem contents_dropRuns (s : State) (g : Nat) : contents (dropRuns s g) = contents s := by simp [dropRuns]
@[simp] theorem contents_drakeQuiesce (s : State) (g : Nat) : contents (drakeQuiesce s g) = contents s := by simp [drakeQuiesce]
@[simp] theorem formed_quiesceInst {s : State} (b : Block) (i : Nat) (w : Formed (contents s)) : Formed (contents (quiesceInst s b i)) := by
  unfold quiesceInst
  split <;> simp [w]

@[simp] theorem formed_restorePage {s : State} (d : Nat) (w : Withdrawn) (hs : Formed (contents s)) : Formed (contents (restorePage s d w)) := by
  simp [restorePage, hs]

@[simp] theorem formed_restoreSet (was : List Withdrawn) {s : State} (d k : Nat) (w : Formed (contents s)) :
    Formed (contents (restoreSet was s d k)) := formed_foldl (fun _ _ hx => formed_restorePage _ _ hx) _ (by simpa)

@[simp] theorem formed_spadReset {s : State} (d : Nat) (w : Formed (contents s)) : Formed (contents (spadReset s d)) := by
  unfold spadReset
  exact formed_foldl (fun _ _ hx => by split <;> simp [hx]) _ (by simp [w])

@[simp] theorem formed_linkReset {s : State} (n : Nat) (w : Formed (contents s)) : Formed (contents (linkReset s n)) := by simp [linkReset, w]
@[simp] theorem formed_zeroInst {s : State} (b : Block) (i : Nat) (w : Formed (contents s)) : Formed (contents (zeroInst s b i)) := by
  unfold zeroInst
  split <;> simp [w]

@[simp] theorem contents_unstage (s : State) (b : Block) (i : Nat) : contents (unstage s b i) = contents s := contents_of_same rfl rfl
@[simp] theorem contents_resetEpoch (s0 s : State) (b : Block) (i : Nat) : contents (resetEpoch s0 s b i) = contents s := by simp [resetEpoch]
@[simp] theorem formed_resetInst {s : State} (b : Block) (i st : Nat) (w : Formed (contents s)) : Formed (contents (resetInst s b i st)) := by
  unfold resetInst
  extract_lets s1 m s2
  have h1 : Formed (contents s1) := by simpa [s1] using w
  have h2 : Formed (contents s2) := by simp [s2, h1]
  clear_value s1 s2
  (repeat' split) <;> simp [h1, h2, w]

@[simp] theorem formed_quiesceOff {s : State} (b : Block) (i : Nat) (w : Formed (contents s)) : Formed (contents (quiesceOff s b i)) := by
  simp [quiesceOff, w]

@[simp] theorem formed_doQuiesce {s : State} (r : Requester) (b : Block) (i : Nat) (w : Formed (contents s)) :
    Formed (contents (doQuiesce s r b i)) := formed_regAccess _ _ _ _ _ (fun _ hx => by dsimp only; (repeat' split) <;> simp [hx]) w

@[simp] theorem contents_resetMerged (s : State) (b : Block) (i : Nat) : contents (resetMerged s b i) = contents s := contents_of_same rfl rfl

@[simp] theorem formed_doBlockReset {s : State} (r : Requester) (b : Block) (i : Nat) (w : Formed (contents s)) :
    Formed (contents (doBlockReset s r b i)) := formed_regAccess _ _ _ _ _ (fun _ hx => by dsimp only; (repeat' split) <;> simp [hx]) w

@[simp] theorem contents_fenceBlock (s : State) (b : Block) (i : Nat) : contents (fenceBlock s b i) = contents s := by simp [fenceBlock]
@[simp] theorem contents_unfence (s : State) (b : Block) (i : Nat) : contents (unfence s b i) = contents s := contents_of_same rfl rfl
@[simp] theorem formed_toReady {s : State} (b : Block) (i : Nat) (w : Formed (contents s)) : Formed (contents (toReady s b i)) := by simp [toReady, w]
@[simp] theorem formed_makeReady {s : State} (b : Block) (i : Nat) (w : Formed (contents s)) : Formed (contents (makeReady s b i)) := by
  simp [makeReady, w]

@[simp] theorem formed_makeOff {s : State} (b : Block) (i : Nat) (w : Formed (contents s)) : Formed (contents (makeOff s b i)) := by simp [makeOff, w]

@[simp] theorem formed_resetCheck {s : State} (b : Block) (i : Nat) (bad : List Nat) (w : Formed (contents s)) :
    Formed (contents (resetCheck s b i bad)) := by simp [resetCheck, w]

@[simp] theorem formed_leaveFenced {s : State} (b : Block) (i : Nat) (w : Formed (contents s)) : Formed (contents (leaveFenced s b i)) := by
  simp [leaveFenced, w]

theorem formed_doAvail {s : State} (action expect : Nat) {f : State → Block → Nat → State}
    (h : ∀ x b i, Formed (contents x) → Formed (contents (f x b i))) (w : Formed (contents s)) : Formed (contents (doAvail s action expect f)) := by
  unfold doAvail
  dsimp only
  (repeat' split) <;> simp [h, w]

@[simp] theorem formed_reconcile {s : State} (w : Formed (contents s)) : Formed (contents (reconcile s)) :=
  formed_foldl (fun _ _ hx => by dsimp only; (repeat' split) <;> simp [hx]) _ w

@[simp] theorem formed_doQuiesceTimeout {s : State} (b : Block) (i : Nat) (w : Formed (contents s)) : Formed (contents (doQuiesceTimeout s b i)) := by
  unfold doQuiesceTimeout
  (repeat' split) <;> simp [w]

@[simp] theorem formed_jobGone {s : State} (u : EUnit) (j : Job) (w : Formed (contents s)) : Formed (contents (jobGone s u j)) := by
  unfold jobGone
  (repeat' split) <;> simp [w]

@[simp] theorem formed_goneAt {s : State} (u : EUnit) (k : Nat) (w : Formed (contents s)) : Formed (contents (goneAt s u k)) := by
  unfold goneAt
  (repeat' split) <;> simp [w]

@[simp] theorem formed_doD2dTimeout {s : State} (b : Block) (i : Nat) (u : EUnit) (k : Nat) (w : Formed (contents s)) :
    Formed (contents (doD2dTimeout s b i u k)) := by simp [doD2dTimeout, w]

/-! Start-up. -/

@[simp] theorem contents_lambPower (s : State) : contents (lambPower s) = contents s := by simp [lambPower]
@[simp] theorem contents_freeSpan (s : State) : contents (freeSpan s).2 = contents s := contents_of_same rfl rfl
@[simp] theorem formed_endEpisodes {s : State} (w : Formed (contents s)) : Formed (contents (endEpisodes s)) := by
  unfold endEpisodes
  refine formed_foldl (fun x _ hx => by split <;> simp [hx]) _ (formed_foldl (fun x c hx => ?_) _ w)
  dsimp only
  split <;> simp [hx]

@[simp] theorem contents_lambStates (s : State) : contents (lambStates s) = contents s := by simp [lambStates]
@[simp] theorem formed_lambStop {s : State} (w : Formed (contents s)) : Formed (contents (lambStop s)) := by
  simp only [lambStop, contents_lambPower]
  refine formed_foldl (fun _ n hx => formed_disableLink n hx) _ ?_
  simp only [contents_mk]
  refine formed_collLamb (formed_foldl (fun _ _ hx => formed_endCommands _ _ hx) _ ?_)
  simpa

@[simp] theorem formed_lambRecord {s : State} (w : Formed (contents s)) : Formed (contents (lambRecord s)) := by simp [lambRecord, w]
@[simp] theorem formed_enterLamb {s : State} (cause : Nat) (w : Formed (contents s)) : Formed (contents (enterLamb s cause)) := by simp [enterLamb, w]
@[simp] theorem formed_doControlFault {s : State} (b : Block) (i : Nat) (w : Formed (contents s)) : Formed (contents (doControlFault s b i)) := by
  simp [doControlFault, w]

@[simp] theorem formed_doLambCtrl {s : State} (r : Requester) (w : Formed (contents s)) : Formed (contents (doLambCtrl s r)) :=
  formed_regAccess _ _ _ _ _ (fun _ hx => formed_enterLamb 5 hx) w

@[simp] theorem formed_doThermalHold {s : State} (die temp : Nat) (w : Formed (contents s)) : Formed (contents (doThermalHold s die temp)) := by
  simp [doThermalHold, w]

@[simp] theorem formed_blankNode (s : State) (m : Mgmt) : Formed (contents (blankNode s m)) := formed_empty
@[simp] theorem formed_nodeResetNow (s : State) : Formed (contents (nodeResetNow s)) := by simp [nodeResetNow]
@[simp] theorem formed_startNodeReset {s : State} (w : Formed (contents s)) : Formed (contents (startNodeReset s)) := by simp [startNodeReset, w]

@[simp] theorem formed_doNodeReset {s : State} (r : Requester) (w : Formed (contents s)) : Formed (contents (doNodeReset s r)) :=
  formed_regAccess _ _ _ _ _ (fun _ hx => formed_startNodeReset hx) w

@[simp] theorem formed_powerOn (s : State) : Formed (contents (powerOn s)) := by simp [powerOn]
@[simp] theorem formed_doRailFault {s : State} (rail : Nat) (w : Formed (contents s)) : Formed (contents (doRailFault s rail)) := by
  simp [doRailFault, w]

@[simp] theorem contents_doPorRelease (s : State) : contents (doPorRelease s) = contents s := by
  unfold doPorRelease
  split <;> simp

@[simp] theorem contents_toPhase (s : State) (n : Nat) : contents (toPhase s n) = contents s := contents_of_same rfl rfl
@[simp] theorem formed_phase2 {s : State} (w : Formed (contents s)) : Formed (contents (phase2 s)) := by simp [phase2, w]
@[simp] theorem contents_trainPort (s : State) (rs : List CheckResult) (e : Nat × PortCfg) : contents (trainPort rs s e) = contents s := by
  simp [trainPort]

@[simp] theorem contents_checkInst (s : State) (rs : List CheckResult) (b : Block) (i : Nat) : contents (checkInst rs b s i) = contents s := by
  simp [checkInst]

@[simp] theorem contents_checkCluster (s : State) (rs : List CheckResult) (cl : Nat) : contents (checkCluster rs s cl) = contents s := by
  simp [checkCluster]

@[simp] theorem contents_phase6 (s : State) (rs : List CheckResult) : contents (phase6 s rs) = contents s := by simp [phase6]
@[simp] theorem contents_setWin (s : State) (n w : Nat) : contents (setWin s n w) = contents s := contents_of_same rfl rfl
@[simp] theorem contents_defaultWindows (s : State) : contents (defaultWindows s) = contents s := by simp [defaultWindows]
@[simp] theorem contents_boardWindows (s : State) : contents (boardWindows s) = contents s := by simp [boardWindows]
@[simp] theorem contents_setupWindows (s : State) : contents (setupWindows s) = contents s := by simp [setupWindows]
@[simp] theorem contents_setupSwitch (s : State) : contents (setupSwitch s) = contents s := by simp [setupSwitch]
@[simp] theorem formed_doPhaseEnd {s : State} (rs : List CheckResult) (w : Formed (contents s)) : Formed (contents (doPhaseEnd s rs)) := by
  unfold doPhaseEnd
  (repeat' split) <;> simp [w]

@[simp] theorem contents_restartFrom (s : State) (b : Bool) : contents (restartFrom s b) = contents s := contents_of_same rfl rfl
@[simp] theorem formed_rollBack {s : State} (w : Formed (contents s)) : Formed (contents (rollBack s)) := by simp [rollBack, w]
@[simp] theorem formed_startRestart {s : State} (w : Formed (contents s)) : Formed (contents (startRestart s)) := by simp [startRestart, w]

@[simp] theorem formed_doMgmtRestart {s : State} (r : Requester) (w : Formed (contents s)) : Formed (contents (doMgmtRestart s r)) :=
  formed_regAccess _ _ _ _ _ (fun _ hx => by split <;> simp [hx]) w

@[simp] theorem formed_doRestartEnd {s : State} (w : Formed (contents s)) : Formed (contents (doRestartEnd s)) := by
  unfold doRestartEnd
  split
  · exact w
  · dsimp only
    generalize hx : (ledgerRun _ : State) = x
    have h : Formed (contents x) := by subst hx; simp [w]
    (repeat' split) <;> simp [h]

@[simp] theorem formed_doWatchdog {s : State} (w : Formed (contents s)) : Formed (contents (doWatchdog s)) := by simp [doWatchdog, w]
@[simp] theorem formed_doTick {s : State} (w : Formed (contents s)) : Formed (contents (doTick s)) := by simp [doTick, w]

/-! The test access port. -/

@[simp] theorem contents_loadTap (s : State) (i : TapInstr) : contents (loadTap s i) = contents s := contents_of_same rfl rfl
@[simp] theorem contents_bypassNow (s : State) : contents (bypassNow s) = contents s := contents_of_same rfl rfl
@[simp] theorem contents_boundary (s : State) (i : TapInstr) : contents (boundary s i) = contents s := by simp [boundary]

/-! Management messages. -/

@[simp] theorem contents_mctpIn (s : State) (src : McSender) {f : State → State} (h : ∀ x, contents (f x) = contents x) :
    contents (mctpIn s src f) = contents s := by
  simp [mctpIn, h]

theorem formed_mctpIn {s : State} (src : McSender) {f : State → State} (h : ∀ x, Formed (contents x) → Formed (contents (f x)))
    (w : Formed (contents s)) : Formed (contents (mctpIn s src f)) := by
  unfold mctpIn
  split <;> simp [h, w]

@[simp] theorem contents_reply (s : State) (src : McSender) (code : Nat) (data : List Nat) : contents (reply s src code data) = contents s :=
  contents_of_same rfl rfl

@[simp] theorem contents_refuseOwner (s : State) (src : McSender) : contents (refuseOwner s src) = contents s := by simp [refuseOwner]

@[simp] theorem contents_aqtanIn (s : State) (src : McSender) {f : State → State} (h : ∀ x, contents (f x) = contents x) :
    contents (aqtanIn s src f) = contents s := by
  simp [aqtanIn, h]

theorem formed_aqtanIn {s : State} (src : McSender) {f : State → State} (h : ∀ x, Formed (contents x) → Formed (contents (f x)))
    (w : Formed (contents s)) : Formed (contents (aqtanIn s src f)) := by
  exact formed_mctpIn src (fun _ hx => by split <;> simp [h, hx]) w

@[simp] theorem contents_doOwnClaim (s : State) (src : McSender) : contents (doOwnClaim s src) = contents s := by simp [doOwnClaim]
@[simp] theorem contents_doOwnStatus (s : State) (src : McSender) : contents (doOwnStatus s src) = contents s := by simp [doOwnStatus]
@[simp] theorem formed_releaseFor {s : State} (src : McSender) (w : Formed (contents s)) : Formed (contents (releaseFor s src)) := by
  simp [releaseFor, w]

@[simp] theorem formed_doOwnRelease {s : State} (src : McSender) (w : Formed (contents s)) : Formed (contents (doOwnRelease s src)) :=
  formed_aqtanIn src (fun _ hx => by split <;> simp [hx]) w

@[simp] theorem formed_doOwnForce {s : State} (src : McSender) (w : Formed (contents s)) : Formed (contents (doOwnForce s src)) :=
  formed_aqtanIn src (fun _ hx => by split <;> simp [hx]) w

@[simp] theorem contents_doSetEid (s : State) (smbus : Bool) (eid : Nat) : contents (doSetEid s smbus eid) = contents s := by simp [doSetEid]

@[simp] theorem contents_pldmIn (s : State) (src : McSender) {f : State → State} (h : ∀ x, contents (f x) = contents x) :
    contents (pldmIn s src f) = contents s := by
  simp [pldmIn, h]

theorem formed_pldmIn {s : State} (src : McSender) {f : State → State} (h : ∀ x, Formed (contents x) → Formed (contents (f x)))
    (w : Formed (contents s)) : Formed (contents (pldmIn s src f)) := by
  exact formed_mctpIn src (fun _ hx => by split <;> simp [h, hx]) w

@[simp] theorem contents_doPldmDiscovery (s : State) (src : McSender) : contents (doPldmDiscovery s src) = contents s := by simp [doPldmDiscovery]
@[simp] theorem contents_doSensorRead (s : State) (src : McSender) (k : Nat) : contents (doSensorRead s src k) = contents s := by simp [doSensorRead]

@[simp] theorem formed_doPldmSet {s : State} (src : McSender) (reg value : Nat) (w : Formed (contents s)) :
    Formed (contents (doPldmSet s src reg value)) := formed_pldmIn src (fun _ hx => by (repeat' split) <;> simp [hx]) w

@[simp] theorem contents_stageImage (s : State) (m : FwImage) : contents (stageImage s m) = contents s := by simp [stageImage]
@[simp] theorem contents_doFwUpdate (s : State) (src : McSender) (m : FwImage) : contents (doFwUpdate s src m) = contents s := by simp [doFwUpdate]

@[simp] theorem contents_spdmIn (s : State) (src : McSender) {f : State → State} (h : ∀ x, contents (f x) = contents x) :
    contents (spdmIn s src f) = contents s := by
  simp [spdmIn, h]

@[simp] theorem contents_doGetVersion (s : State) (src : McSender) : contents (doGetVersion s src) = contents s := by simp [doGetVersion]
@[simp] theorem contents_doGetCaps (s : State) (src : McSender) : contents (doGetCaps s src) = contents s := by simp [doGetCaps]
@[simp] theorem contents_doNegotiate (s : State) (src : McSender) : contents (doNegotiate s src) = contents s := by simp [doNegotiate]
@[simp] theorem contents_doGetDigests (s : State) (src : McSender) : contents (doGetDigests s src) = contents s := by simp [doGetDigests]
@[simp] theorem contents_doGetCert (s : State) (src : McSender) (slot : Nat) : contents (doGetCert s src slot) = contents s := by simp [doGetCert]
@[simp] theorem contents_doChallenge (s : State) (src : McSender) (slot nonce : Nat) : contents (doChallenge s src slot nonce) = contents s := by
  simp [doChallenge]

@[simp] theorem contents_doMeasure (s : State) (src : McSender) (k : Nat) : contents (doMeasure s src k) = contents s := by simp [doMeasure]

/-! Register reads. -/

@[simp] theorem contents_takeSnap (s : State) (r : Requester) (b : Block) (i : Nat) (g : RegSpec) : contents (takeSnap s r b i g) = contents s :=
  contents_of_same rfl rfl

@[simp] theorem contents_readWord (s : State) (r : Requester) (b : Block) (i off : Nat) : contents (readWord s r b i off).2 = contents s := by
  unfold readWord
  split <;> simp

@[simp] theorem contents_readWords (s : State) (r : Requester) (b : Block) (i off n : Nat) : contents (readWords s r b i off n).2 = contents s := by
  induction n generalizing s off with
  | zero => rfl
  | succ n ih =>
    unfold readWords
    simp [ih]

@[simp] theorem contents_readPage (s : State) (r : Requester) (b : Block) (i off width : Nat) :
    contents (readPage s r b i off width).2 = contents s := by
  unfold readPage
  dsimp only
  (repeat' split) <;> simp

@[simp] theorem contents_answer (x : Nat × State) : contents (answer x) = contents x.2 := contents_of_same rfl rfl
@[simp] theorem contents_readNothing (s : State) (r : Requester) : contents (readNothing s r) = contents s := by
  unfold readNothing
  split <;> simp

@[simp] theorem contents_cfgRead (s : State) (fn addr : Nat) : contents (cfgRead s fn addr) = contents s := by simp [cfgRead]
@[simp] theorem contents_doRegRead (s : State) (r : Requester) (addr width : Nat) : contents (doRegRead s r addr width) = contents s := by
  unfold doRegRead
  (repeat' split) <;> simp

/-! Register writes. -/

@[simp] theorem contents_storeReg (s : State) (b : Block) (i : Nat) (g : RegSpec) (v : Nat) : contents (storeReg s b i g v) = contents s := by
  simp [storeReg]

@[simp] theorem contents_orBad (s : State) (b : Block) (i off : Nat) (ok : Bool) {f : State → State} (h : ∀ x, contents (f x) = contents x) :
    contents (orBad s b i off ok f) = contents s := by simp [orBad, h]

theorem formed_orBad {s : State} (b : Block) (i off : Nat) (ok : Bool) {f : State → State} (h : ∀ x, Formed (contents x) → Formed (contents (f x)))
    (w : Formed (contents s)) : Formed (contents (orBad s b i off ok f)) := by
  unfold orBad
  split <;> simp [h, w]

@[simp] theorem contents_clearEvents (s : State) (b : Block) (i v : Nat) : contents (clearEvents s b i v) = contents s := contents_of_same rfl rfl
@[simp] theorem contents_clearErrs (s : State) (b : Block) (i v : Nat) : contents (clearErrs s b i v) = contents s := contents_of_same rfl rfl

@[simp] theorem formed_putCtrl {s : State} (r : Requester) (b : Block) (i v : Nat) (w : Formed (contents s)) :
    Formed (contents (putCtrl s r b i v)) := by
  unfold putCtrl
  (repeat' split) <;> simp [w]

@[simp] theorem formed_putCommon {s : State} (r : Requester) (b : Block) (i : Nat) (g : RegSpec) (v : Nat) (w : Formed (contents s)) :
    Formed (contents (putCommon s r b i g v)) := by
  unfold putCommon
  split <;> simp [w]

@[simp] theorem formed_putCtrl2 {s : State} (r : Requester) (t v : Nat) (w : Formed (contents s)) : Formed (contents (putCtrl2 s r t v)) := by
  simp [putCtrl2, w]

@[simp] theorem formed_putTen {s : State} (r : Requester) (t : Nat) (g : RegSpec) (v : Nat) (w : Formed (contents s)) :
    Formed (contents (putTen s r t g v)) := by
  unfold putTen
  (repeat' split) <;> simp [w]

@[simp] theorem contents_putHost (s : State) (g : RegSpec) (v : Nat) : contents (putHost s g v) = contents s := by
  unfold putHost
  split <;> simp

@[simp] theorem contents_putPwr (s : State) (g : RegSpec) (v : Nat) : contents (putPwr s g v) = contents s := by
  unfold putPwr
  split <;> simp

@[simp] theorem contents_putLedg (s : State) (g : RegSpec) (v : Nat) : contents (putLedg s g v) = contents s := by
  unfold putLedg
  split <;> simp

@[simp] theorem formed_putRestCtrl {s : State} (g : RegSpec) (v : Nat) (w : Formed (contents s)) : Formed (contents (putRestCtrl s g v)) :=
  formed_orBad _ _ _ _ (fun _ hx => by (repeat' split) <;> simp [hx]) w

@[simp] theorem formed_putHen {s : State} (g : RegSpec) (v : Nat) (w : Formed (contents s)) : Formed (contents (putHen s g v)) := by
  unfold putHen
  split <;> simp [w]

@[simp] theorem formed_putAvail {s : State} (g : RegSpec) (v : Nat) (w : Formed (contents s)) : Formed (contents (putAvail s g v)) := by
  unfold putAvail
  dsimp only
  repeat' split
  · simpa
  · exact formed_doAvail _ _ (fun _ _ _ hx => formed_makeReady _ _ hx) w
  · exact formed_doAvail _ _ (fun _ _ _ hx => formed_makeOff _ _ hx) w
  · exact formed_doAvail _ _ (fun _ _ _ hx => formed_resetCheck _ _ _ hx) (by simpa)
  · exact formed_doAvail _ _ (fun _ _ _ hx => formed_leaveFenced _ _ hx) w
  · simpa

@[simp] theorem formed_putMgmt {s : State} (g : RegSpec) (v : Nat) (w : Formed (contents s)) : Formed (contents (putMgmt s g v)) := by
  unfold putMgmt
  split <;> simp [w]

@[simp] theorem formed_putGoose {s : State} (c : Nat) (g : RegSpec) (v : Nat) (w : Formed (contents s)) : Formed (contents (putGoose s c g v)) := by
  unfold putGoose
  dsimp only
  split <;> simp [w]

@[simp] theorem contents_putSteer (s : State) (a : Nat) (g : RegSpec) (v : Nat) : contents (putSteer s a g v) = contents s := by simp [putSteer]
@[simp] theorem contents_putOx (s : State) (a : Nat) (g : RegSpec) (v : Nat) : contents (putOx s a g v) = contents s := by
  unfold putOx
  split <;> simp

@[simp] theorem formed_putSpad {s : State} (d : Nat) (g : RegSpec) (v : Nat) (w : Formed (contents s)) : Formed (contents (putSpad s d g v)) := by
  unfold putSpad
  (repeat' split) <;> simp [w]

@[simp] theorem contents_putWinCtrl (s : State) (v : Nat) : contents (putWinCtrl s v) = contents s := by simp [putWinCtrl]
@[simp] theorem formed_putLpc {s : State} (p : Nat) (g : RegSpec) (v : Nat) (w : Formed (contents s)) : Formed (contents (putLpc s p g v)) := by
  unfold putLpc
  split <;> simp [w]

@[simp] theorem formed_putWsw {s : State} (g : RegSpec) (v : Nat) (w : Formed (contents s)) : Formed (contents (putWsw s g v)) := by
  unfold putWsw
  split <;> simp [w]

@[simp] theorem contents_putColl (s : State) (g : RegSpec) (v : Nat) : contents (putColl s g v) = contents s := by
  unfold putColl
  split <;> simp

@[simp] theorem contents_modXten (s : State) (f : XTen → XTen) : contents (modXten s f) = contents s := contents_of_same rfl rfl
@[simp] theorem contents_putXag (s : State) (g : RegSpec) (v : Nat) : contents (putXag s g v) = contents s := by
  unfold putXag
  split <;> simp

@[simp] theorem contents_putIndex (s : State) (r : Requester) (b : Block) (i : Nat) (g : RegSpec) (v : Nat) :
    contents (putIndex s r b i g v) = contents s := by simp [putIndex]

@[simp] theorem formed_putReg {s : State} (r : Requester) (b : Block) (i : Nat) (g : RegSpec) (v : Nat) (w : Formed (contents s)) :
    Formed (contents (putReg s r b i g v)) := by
  unfold putReg
  (repeat' split) <;> simp [w]

@[simp] theorem contents_dropWords (s : State) (r : Requester) (b : Block) (i : Nat) (g : RegSpec) : contents (dropWords s r b i g) = contents s := by
  unfold dropWords
  split <;> simp

@[simp] theorem formed_commitReg {s : State} (r : Requester) (b : Block) (i : Nat) (g : RegSpec) (v : Nat) (w : Formed (contents s)) :
    Formed (contents (commitReg s r b i g v)) := by
  unfold commitReg
  repeat' split
  · simpa
  · exact formed_doCtrlRelease r w
  · simpa
  · exact formed_regAccess _ _ _ _ _ (fun _ _ => formed_putReg _ _ _ _ _ (by simpa)) w

@[simp] theorem contents_stageWord (s : State) (r : Requester) (b : Block) (i : Nat) (g : RegSpec) (off v : Nat) :
    contents (stageWord s r b i g off v) = contents s := by simp [stageWord]

@[simp] theorem formed_writeWord {s : State} (r : Requester) (b : Block) (i off v : Nat) (w : Formed (contents s)) :
    Formed (contents (writeWord s r b i off v)) := by
  unfold writeWord
  split <;> simp [w]

@[simp] theorem formed_writeWords {s : State} (r : Requester) (b : Block) (i off n v : Nat) (w : Formed (contents s)) :
    Formed (contents (writeWords s r b i off n v)) := by
  induction n generalizing s off v with
  | zero => exact w
  | succ n ih => exact ih _ _ (formed_writeWord _ _ _ _ _ w)

@[simp] theorem formed_writePage {s : State} (r : Requester) (b : Block) (i off width v : Nat) (w : Formed (contents s)) :
    Formed (contents (writePage s r b i off width v)) := by
  unfold writePage
  (repeat' split) <;> simp [w]

@[simp] theorem contents_msixWrite (s : State) (fn off v : Nat) : contents (msixWrite s fn off v) = contents s := by simp [msixWrite]
@[simp] theorem formed_vfWrite {s : State} (t addr width v : Nat) (w : Formed (contents s)) : Formed (contents (vfWrite s t addr width v)) := by
  simp [vfWrite, w]

@[simp] theorem formed_doRegWrite {s : State} (r : Requester) (addr width v : Nat) (w : Formed (contents s)) :
    Formed (contents (doRegWrite s r addr width v)) := by
  unfold doRegWrite
  (repeat' split) <;> simp [w]

@[simp] theorem formed_doIndexWrite {s : State} (r : Requester) (b : Block) (i off v : Nat) (w : Formed (contents s)) :
    Formed (contents (doIndexWrite s r b i off v)) := by
  unfold doIndexWrite
  split <;> simp [w]

@[simp] theorem formed_doEventWrite {s : State} (r : Requester) (b : Block) (i v : Nat) (w : Formed (contents s)) :
    Formed (contents (doEventWrite s r b i v)) := by simp [doEventWrite, w]

end Sys2Proof.Machine
end

section
/-! PROOFS. Every step keeps the canonical form of memory (log 4). -/

namespace Sys2Proof.Machine

/-- Where the command goes on to a next state, the memories are in form there. -/
def EndsFormed (o : Host.Outcome State Fault Refusal) : Prop := ∀ t, o = .next t → Formed (contents t)

theorem endsFormed_next {t : State} (h : Formed (contents t)) : EndsFormed (.next t) := fun _ e => by cases e; exact h

theorem endsFormed_live {s t : State} (w : Formed (contents s)) (h : Formed (contents t)) : EndsFormed (.next (whenLive s t)) :=
  endsFormed_next (formed_whenLive w h)

theorem endsFormed_mRun {s : State} (n op : Nat) (fn : Option Nat) (ev : MuleEv) {body : State → MCore → Nat → MRes}
    (h : ∀ x c i, Formed (contents x) → resFormed (body x c i)) (w : Formed (contents s)) :
    EndsFormed (.next (whenLive s (mRun s n op fn ev body))) := endsFormed_live w (formed_mRun n op fn ev h w)

theorem exec_endsFormed (c : Instr) {s : State} (w : Formed (contents s)) : EndsFormed (exec c s) := by
  cases c with
  | sysNop | sysHalt | sysBar | sysSumi | sysSumf | sysFsrr | sysFsrc | sysSetvl | iop | addi | lis | fop | fma | fcmp | fcvt
  | vfcmp | vfred | vmisc | j | call => exact endsFormed_mRun _ _ _ _ (fun _ _ _ hx => by simp [hx]) w
  | sysRet => exact endsFormed_mRun _ _ _ _ (fun _ _ _ hx => by dsimp only; split <;> simp [hx]) w
  | jt => exact endsFormed_mRun _ _ _ _ (fun _ _ _ hx => by dsimp only; split <;> simp [hx]) w
  | railFault | powerOnReset | porRelease | tapReset | idcode | bypassTap | samplePreload | extestTap | extestPulse | extestTrain =>
    exact endsFormed_next (by simp [w])
  | loopRun => exact endsFormed_live w (formed_doLoop _ _ _ w)
  | srsp | wb | evc => exact endsFormed_live w (formed_barResume (formed_atHome _ (fun _ hx => by simp [hx]) w))
  | streamEnWrite => exact endsFormed_live w (formed_regAccess _ _ _ _ _ (fun _ hx => formed_writeEn _ _ hx) w)
  | availMakeReady => exact endsFormed_live w (formed_doAvail _ _ (fun _ b i hx => formed_makeReady b i hx) w)
  | availQuiesceOff => exact endsFormed_live w (formed_doAvail _ _ (fun _ b i hx => formed_makeOff b i hx) w)
  | availResetCheck => exact endsFormed_live w (formed_doAvail _ _ (fun _ b i hx => formed_resetCheck b i _ hx) w)
  | availLeaveFenced => exact endsFormed_live w (formed_doAvail _ _ (fun _ b i hx => formed_leaveFenced b i hx) w)
  | _ => exact endsFormed_live w (by simp [w])

/-- Settles O6: no command breaks the form, by the lemmas about its operation. -/
theorem memoryKeepsItsForm : Obligations.MemoryKeepsItsForm := by
  unfold Obligations.MemoryKeepsItsForm
  intro s t hm hd h
  have w : Formed (contents s) := ⟨hm, hd⟩
  unfold step at h
  split at h
  · cases h
    exact w
  · next c rest _ => exact exec_endsFormed c (s := { s with pending := rest }) w t h

end Sys2Proof.Machine
end

section
/-! PROOFS. The memory tiers: their rows of the dispatch, and what is only recorded of a state. -/

namespace Sys2Proof.Machine

/-! The rows of the dispatch. -/

theorem exec_setLoad (r : Requester) (d : Nat) (s : State) : exec (.setLoad r d) s = .next (whenLive s (doSetLoad s r d)) := rfl
theorem exec_setActivate (r : Requester) (d : Nat) (s : State) : exec (.setActivate r d) s = .next (whenLive s (doSetActivate s r d)) := rfl
theorem exec_setRetire (r : Requester) (d : Nat) (s : State) : exec (.setRetire r d) s = .next (whenLive s (doSetRetire s r d)) := rfl
theorem exec_setActivateDone (d k : Nat) (s : State) : exec (.setActivateDone d k) s = .next (whenLive s (doActivateDone s d k)) := rfl
theorem exec_sharedPageRestore (d p : Nat) (s : State) : exec (.sharedPageRestore d p) s = .next (whenLive s (doPageRestore s d p)) := rfl
theorem exec_setImageTimeout (d k : Nat) (s : State) : exec (.setImageTimeout d k) s = .next (whenLive s (doImageTimeout s d k)) := rfl
theorem exec_hostImgSubmit (r : Requester) (d a : Nat) (s : State) : exec (.hostImgSubmit r d a) s = .next (whenLive s (doHostImg s r d a)) := rfl
theorem exec_scrubRead (l : Nat) (bad : List Nat) (s : State) : exec (.scrubRead l bad) s = .next (whenLive s (doScrub s l bad)) := rfl
theorem exec_mr4Poll (p : Nat) (rank0 rank1 : List Mr4) (s : State) :
    exec (.mr4Poll p rank0 rank1) s = .next (whenLive s (doMr4 s p (rank0 ++ rank1))) := rfl
theorem exec_refreshDue (p rank : Nat) (row : RowUse) (s : State) :
    exec (.refreshDue p rank row) s = .next (whenLive s (doRefresh s p rank row.closed row.busy)) := rfl
theorem exec_winWrite (r : Requester) (n v : Nat) (s : State) : exec (.winWrite r n v) s = .next (whenLive s (doWinWrite s r n v)) := rfl
theorem exec_winLock (r : Requester) (s : State) : exec (.winLock r) s = .next (whenLive s (doWinLock s r)) := rfl
theorem exec_zeroFillEnd (p : Nat) (s : State) : exec (.zeroFillEnd p) s = .next (whenLive s (doFillEnd s p)) := rfl
theorem exec_tenantSeal (r : Requester) (t a : Nat) (s : State) : exec (.tenantSeal r t a) s = .next (whenLive s (doTenantSeal s r t a)) := rfl
theorem exec_ownerSeal (r : Requester) (a : Nat) (s : State) : exec (.ownerSeal r a) s = .next (whenLive s (doOwnerSeal s r a)) := rfl
theorem exec_sealTakeEffect (g : Nat) (s : State) : exec (.sealTakeEffect g) s = .next (whenLive s (doSeal s g)) := rfl
theorem exec_zreqSubmit (r : Requester) (n : Nat) (s : State) : exec (.zreqSubmit r n) s = .next (whenLive s (doZreq s r n)) := rfl
theorem exec_zeroDone (i : Nat) (s : State) : exec (.zeroDone i) s = .next (whenLive s (doZeroDone s i)) := rfl

/-- On a live node a command goes on to its effect. -/
theorem next_of_live {s : State} (h : live s = true) {x : State} {P : State → Prop} (hx : P { x with part := s.part, pending := s.pending }) :
    ∃ u, (Host.Outcome.next (whenLive s x) : Host.Outcome State Fault Refusal) = .next u ∧ P u :=
  ⟨_, rfl, by rwa [whenLive_of_live h]⟩

/-! What is recorded. -/

/-- `u` is `s` but for what is recorded of it: pages, of which no event is cleared, vectors, what is sent, the ledger, and what the
management block and the power unit keep. -/
structure Recorded (s u : State) : Prop where
  mem : u.mem = s.mem
  poison : u.poison = s.poison
  memErrs : u.memErrs = s.memErrs
  freeCount : u.freeCount = s.freeCount
  sealedG : u.sealedG = s.sealedG
  seals : u.seals = s.seals
  spads : u.spads = s.spads
  ports : u.ports = s.ports
  tenants : u.tenants = s.tenants
  hen : u.hen = s.hen
  hostIf : ∃ v, u.hostIf = { s.hostIf with msix := v }
  events : EventsStay s u
  sent : s.out ⊆ u.out

namespace Recorded

theorem refl (s : State) : Recorded s s := ⟨rfl, rfl, rfl, rfl, rfl, rfl, rfl, rfl, rfl, rfl, ⟨_, rfl⟩, fun _ _ _ e => e, fun _ h => h⟩

theorem trans {s u v : State} (h : Recorded s u) (k : Recorded u v) : Recorded s v := by
  obtain ⟨x, hx⟩ := h.hostIf
  obtain ⟨y, hy⟩ := k.hostIf
  exact ⟨k.mem.trans h.mem, k.poison.trans h.poison, k.memErrs.trans h.memErrs, k.freeCount.trans h.freeCount, k.sealedG.trans h.sealedG,
    k.seals.trans h.seals, k.spads.trans h.spads, k.ports.trans h.ports, k.tenants.trans h.tenants, k.hen.trans h.hen, ⟨y, by rw [hy, hx]⟩,
    h.events.trans k.events, fun _ e => k.sent (h.sent e)⟩

/-- Updates of the ledger, the RAS log and the power unit. -/
theorem of_log (s : State) (l : Ledger) (m : Mgmt) (w : Pwr) : Recorded s { s with ledger := l, mgmt := m, pwr := w } :=
  ⟨rfl, rfl, rfl, rfl, rfl, rfl, rfl, rfl, rfl, rfl, ⟨_, rfl⟩, .of_pages rfl, fun _ h => h⟩

theorem foldl {β : Type} (step : State → β → State) (h : ∀ x b, Recorded x (step x b)) (l : List β) (s : State) :
    Recorded s (l.foldl step s) :=
  List.foldlRecOn (motive := Recorded s) l step (refl s) (fun x hx b _ => hx.trans (h x b))

theorem modPage (s : State) (b : Block) (i : Nat) {f : Page → Page} (h : ∀ p n, p.event.getLsbD n = true → (f p).event.getLsbD n = true) :
    Recorded s (modPage s b i f) := 
  ⟨rfl, rfl, rfl, rfl, rfl, rfl, rfl, rfl, rfl, rfl, ⟨_, rfl⟩, .modPage s b i h, fun _ h => h⟩

theorem perfAdd (s : State) (b : Block) (i k n : Nat) : Recorded s (perfAdd s b i k n) := modPage s b i (fun _ _ e => e)

theorem setRegWord (s : State) (b : Block) (i off v : Nat) : Recorded s (setRegWord s b i off v) := modPage s b i (fun _ _ e => e)

theorem emit (s : State) (o : Out) : Recorded s (emit s o) := 
  ⟨rfl, rfl, rfl, rfl, rfl, rfl, rfl, rfl, rfl, rfl, ⟨_, rfl⟩, .of_pages rfl, List.subset_append_left _ _⟩

theorem raiseVec (s : State) (fn vec : Nat) : Recorded s (raiseVec s fn vec) := by
  unfold Machine.raiseVec
  split
  · exact (emit s _).trans (perfAdd _ _ _ _ _)
  · exact ⟨rfl, rfl, rfl, rfl, rfl, rfl, rfl, rfl, rfl, rfl, ⟨_, rfl⟩, .of_pages rfl, fun _ h => h⟩

theorem raiseEvent (s : State) (b : Block) (i n : Nat) : Recorded s (raiseEvent s b i n) := by
  have hset := modPage s b i (f := fun p =>
      { p with event := p.event ||| BitVec.ofNat 32 (2 ^ n), count := tabMod 0 p.count (min n 7) (fun c => satTo 8 (c + 1)) })
    (fun p m hm => by rw [BitVec.getLsbD_or, hm, Bool.true_or])
  unfold Machine.raiseEvent
  dsimp only
  split
  · exact hset.trans (raiseVec _ _ _)
  · exact hset

theorem rasLog (s : State) (b : Block) (i cls code addr tenant : Nat) : Recorded s (rasLog s b i cls code addr tenant) := by
  have hput : Recorded s (putRas s (rasEntry s b i cls code addr tenant)) := of_log s _ _ _
  unfold Machine.rasLog
  dsimp only
  split
  · exact (hput.trans (perfAdd _ _ _ _ _)).trans (raiseEvent _ _ _ _)
  · exact hput.trans (perfAdd _ _ _ _ _)

theorem blkError (s : State) (b : Block) (i cls code addr tenant : Nat) : Recorded s (blkError s b i cls code addr tenant) := by
  have hnote := modPage s b i (f := noteErr cls code addr tenant) (fun p n e => by unfold noteErr; split <;> exact e)
  unfold Machine.blkError
  dsimp only
  split
  · exact hnote.trans (rasLog _ _ _ _ _ _ _)
  · exact hnote

theorem memEvents (s : State) (a n : Nat) : Recorded s (memEvents s a n) := foldl _ (fun x _ => raiseEvent x _ _ _) _ s

theorem ledgerPush (s : State) (e : Entry) : Recorded s (ledgerPush s e) := by
  unfold Machine.ledgerPush
  dsimp only
  split
  · exact of_log s _ _ _
  · exact (of_log s _ _ _).trans (raiseEvent _ _ _ _)

theorem ledgerDue (s : State) (e : Entry) : Recorded s (ledgerDue s e) := by
  unfold Machine.ledgerDue
  dsimp only
  split
  · exact (ledgerPush _ _).trans (ledgerPush _ _)
  · exact ledgerPush _ _

theorem memoryEntries (s : State) (sub die sn src pg : Nat) (w : Withdrawn) : Recorded s (memoryEntries s sub die sn src pg w) :=
  (ledgerDue s _).trans (foldl _ (fun x _ => ledgerDue x _) _ _)

theorem beginEpisode (s : State) (cause who : Nat) : Recorded s (beginEpisode s cause who) := by
  unfold Machine.beginEpisode
  dsimp only
  split
  · exact refl s
  · split
    · exact of_log s _ _ _
    · exact (of_log s _ _ _).trans (raiseEvent _ _ _ _)

theorem refreshCause (s : State) (p : Nat) : Recorded s (refreshCause s p) := by
  unfold Machine.refreshCause
  split
  · exact refl s
  · exact (beginEpisode s 4 p).trans (raiseEvent _ _ _ _)

theorem opened (s : State) (r : Requester) (b : Block) (i off : Nat) : Recorded s (opened s r b i off) := by
  have hcount : Recorded s (bar0Count s r) := by
    cases r with
    | mgmt | cfg _ => exact refl s
    | pf | vf _ =>
      unfold bar0Count
      dsimp only
      split
      · exact perfAdd _ _ _ _ _
      · exact refl s
  refine hcount.trans ?_
  unfold Machine.opened useStaged
  split
  · exact refl _
  · exact modPage _ _ _ (fun _ _ e => e)

end Recorded

end Sys2Proof.Machine
end

section
/-! PROOFS. The memory tiers: what a read of lines does to what the memories hold (R378, R381). -/

namespace Sys2Proof.Machine

/-! Sorted lists of cells and of lines. -/

theorem mem_insNat {x k : Nat} {l : List Nat} : k ∈ insNat x l ↔ k = x ∨ k ∈ l := by
  induction l with
  | nil => simp [insNat]
  | cons y t ih =>
    unfold insNat
    split
    · next h => subst h; simp
    · split <;> simp [ih, or_left_comm]

/-- A byte whose cell is taken out reads as zero. -/
theorem cellGet_filter_out {q : Nat → Bool} {a : Nat} (h : q a = false) (c : List Host.Cell) : cellGet (c.filter (fun e => q e.1)) a = 0 := by
  induction c with
  | nil => rfl
  | cons e t ih =>
    rw [List.filter_cons]
    split
    · next hq =>
      have hne : e.1 ≠ a := fun heq => by rw [heq, h] at hq; cases hq
      simp only [cellGet, if_neg hne, ih, ite_self]
    · exact ih

/-- A byte whose cell stays reads as before. -/
theorem cellGet_filter_in {q : Nat → Bool} {a lo : Nat} (h : q a = true) {c : List Host.Cell} (w : cellsWf lo c = true) :
    cellGet (c.filter (fun e => q e.1)) a = cellGet c a := by
  induction c generalizing lo with
  | nil => rfl
  | cons e t ih =>
    obtain ⟨b, v⟩ := e
    simp only [cellsWf, Bool.and_eq_true] at w
    obtain ⟨-, wt⟩ := w
    rw [List.filter_cons]
    by_cases hb : b = a
    · subst hb
      rw [if_pos h]
      simp only [cellGet, if_true]
    · split
      · simp only [cellGet, if_neg hb, ih wt]
      · rw [ih wt]
        simp only [cellGet, if_neg hb]
        split
        · next hlt => exact cellGet_below wt (by omega)
        · rfl

/-! What lines hold. -/

/-- What a read of lines can change of what the memories hold: bytes, poison, bytes gone wrong, free values drawn. -/
def heldData (s : State) : Memory × List Nat × List MemErr × Nat := (s.mem, s.poison, s.memErrs, s.freeCount)

theorem Recorded.heldData_eq {s u : State} (h : Recorded s u) : heldData u = heldData s := by
  simp only [heldData, h.mem, h.poison, h.memErrs, h.freeCount]

theorem heldData_corrected (s : State) (a : Nat) : heldData (corrected s a) = heldData s := by
  unfold corrected
  split
  · exact ((Recorded.raiseEvent _ _ _ _).trans (.perfAdd _ _ _ _ _)).heldData_eq
  · split
    · exact ((Recorded.raiseEvent _ _ _ _).trans (.perfAdd _ _ _ _ _)).heldData_eq
    · rfl

theorem heldData_meetUe (s : State) (l : Nat) : heldData (meetUe s l) = heldData (setPoison s l) := by
  unfold meetUe
  dsimp only
  split
  · exact ((Recorded.raiseEvent _ _ _ _).trans (.blkError _ _ _ _ _ _ _)).heldData_eq
  · split
    · exact ((Recorded.raiseEvent _ _ _ _).trans (.blkError _ _ _ _ _ _ _)).heldData_eq
    · rfl

/-- `u` is `s` but for the scratchpads and what is recorded of it. -/
def Withdrew (s u : State) : Prop := ∃ sp, Recorded { s with spads := sp } u

theorem Recorded.withdrew {s u : State} (h : Recorded s u) : Withdrew s u := ⟨s.spads, h⟩

theorem Withdrew.trans {s u v : State} (h : Withdrew s u) (k : Withdrew u v) : Withdrew s v := by
  obtain ⟨sp, h⟩ := h
  obtain ⟨sq, k⟩ := k
  have hsq : Recorded { s with spads := sq } { u with spads := sq } :=
    ⟨h.mem, h.poison, h.memErrs, h.freeCount, h.sealedG, h.seals, rfl, h.ports, h.tenants, h.hen, h.hostIf, h.events, h.sent⟩
  exact ⟨sq, hsq.trans k⟩

theorem withdrew_modSpad (s : State) (d : Nat) (f : Spad → Spad) : Withdrew s (modSpad s d f) := ⟨_, .refl _⟩

theorem withdrew_failSet (s : State) (d k : Nat) (w : Withdrawn) : Withdrew s (failSet s d k w) :=
  (withdrew_modSpad s d _).trans (((Recorded.raiseEvent _ .spad d 4).trans (.memEvents _ _ _)).trans (.memoryEntries _ _ _ _ _ _ _)).withdrew

theorem withdrew_withdrawPage (s : State) (d k p : Nat) : Withdrew s (withdrawPage s d k p) := by
  unfold withdrawPage
  split
  · exact (Recorded.refl s).withdrew
  · split
    · exact withdrew_failSet s d k _
    · exact ((withdrew_modSpad s d _).trans (withdrew_modSpad _ d _)).trans ((Recorded.raiseEvent _ .spad d 2).trans (.memEvents _ _ _)).withdrew

theorem withdrew_withdrawLine (s : State) (l : Nat) : Withdrew s (withdrawLine s l) := by
  have hsame := (Recorded.refl s).withdrew
  unfold withdrawLine
  dsimp only
  split
  · split
    · split
      · exact withdrew_withdrawPage _ _ _ _
      · exact hsame
    · exact hsame
  · exact hsame

theorem withdrew_withdrawNew (s0 s1 s : State) : Withdrew s (withdrawNew s0 s1 s) :=
  List.foldlRecOn (motive := Withdrew s) _ _ (Recorded.refl s).withdrew (fun x hx l _ => hx.trans (withdrew_withdrawLine x l))

theorem heldData_withdrawNew (s0 s1 s : State) : heldData (withdrawNew s0 s1 s) = heldData s := by
  obtain ⟨sp, h⟩ := withdrew_withdrawNew s0 s1 s
  exact h.heldData_eq

/-! A read of one line. -/

theorem errLines_addErrs (s : State) (l : Nat) (bad : List Nat) : errLines (addErrs s [{ line := l, bad := bad }]) (· == l) = [l] := by
  have hmem : l ∈ ((addErrs s [{ line := l, bad := bad }]).memErrs.map (·.line)).dedup := by simp [addErrs]
  rw [errLines, List.filter_beq, List.count_eq_one_of_mem (List.nodup_dedup _) hmem, List.replicate_one]

theorem meetErrs_addErrs (s : State) (l : Nat) (bad : List Nat) :
    meetErrs (addErrs s [{ line := l, bad := bad }]) (· == l) = meetErr (addErrs s [{ line := l, bad := bad }]) l := by
  rw [meetErrs, errLines_addErrs]
  rfl

/-- No line has become poison. -/
theorem errLines_of_poison {s u : State} (h : u.poison = s.poison) (p : Nat → Bool) :
    errLines s (fun l => p l && !linePoison s l && linePoison u l) = [] := by
  refine List.filter_eq_nil_iff.2 (fun l _ => ?_)
  simp only [linePoison, h, Bool.and_assoc, Bool.not_and_self, Bool.and_false, Bool.false_eq_true, not_false_eq_true]

theorem withdrawNew_of_poison {s u : State} (h : u.poison = s.poison) (x : State) : withdrawNew s u x = x := by
  have hnone := errLines_of_poison h (fun _ => true)
  simp only [Bool.true_and] at hnone
  rw [withdrawNew, hnone]
  rfl

theorem lowerRead_of_poison {s : State} {p : Nat → Bool} (h : (meetErrs s p).poison = s.poison) : lowerRead s p = meetErrs s p := by
  rw [lowerRead]
  rw [errLines_of_poison h p]
  rfl

/-- An error in LPDDR or an upper tier leads to nothing in a lower tier (R390). -/
theorem lowerError_of_upper {a : Nat} (h : inLpddr a = true ∨ inUpper a = true) (s : State) : lowerError s a = s := by
  unfold lowerError
  split
  · next d hd =>
    exfalso
    rcases h with h | h
    · have hlt : a < 0x8000000000 := of_decide_eq_true h
      simp [spadOf, show ¬ (0x8000000000 ≤ a ∧ a < 0x8080000000) by omega] at hd
    · simp [inUpper, hd] at h
  · rfl

theorem lowerRead_of_upper {l : Nat} (h : inLpddr (l * 64) = true ∨ inUpper (l * 64) = true) (s : State) :
    lowerRead s (· == l) = meetErrs s (· == l) := by
  refine List.foldlRecOn (motive := fun x => x = meetErrs s (· == l)) _ _ rfl (fun x hx k hk => ?_)
  have hkl : k = l := by
    have := (List.mem_filter.1 hk).2
    simp only [Bool.and_eq_true, beq_iff_eq] at this
    exact this.1.1
  rw [hkl, lowerError_of_upper h, hx]

end Sys2Proof.Machine
end

section
/-! PROOFS. Upkeep of the memory tiers: scrub, refresh, windows, zero fill (R365 to R381, R719). -/

namespace Sys2Proof.Machine

/-! Scrub. -/

/-- A line whose stored bytes `bad` have gone wrong. -/
def wronged (s : State) (l : Nat) (bad : List Nat) : State := addErrs s [{ line := l, bad := bad }]

/-- The scrub read of that line (R381). -/
def scrubbed (s : State) (l : Nat) (bad : List Nat) : State :=
  withdrawNew (wronged s l bad) (lowerRead (wronged s l bad) (· == l)) (lowerRead (wronged s l bad) (· == l))

section Scrub

variable {s : State} {l : Nat} {bad : List Nat}

/-- A scrub read outside Lamb mode and a management restart reads its line where that is served. -/
theorem doScrub_of_backed (hlamb : s.mgmt.lamb = false) (hrest : s.mgmt.restarting = false)
    (hat : inLpddr (l * 64) = true ∨ (spadOf (l * 64)).isSome = true) (hback : backed s (l * 64) = true) :
    doScrub s l bad = scrubbed s l bad := by
  have hin : (inLpddr (l * 64) || (spadOf (l * 64)).isSome) = true := by rwa [Bool.or_eq_true]
  unfold doScrub
  rw [hlamb, hrest, hin, hback]
  rfl

/-- A read that poisons nothing leads to nothing more. -/
theorem scrubbed_of_poison (h : (meetErr (wronged s l bad) l).poison = s.poison) : scrubbed s l bad = meetErr (wronged s l bad) l := by
  have hmet : meetErrs (wronged s l bad) (· == l) = meetErr (wronged s l bad) l := meetErrs_addErrs s l bad
  rw [scrubbed, lowerRead_of_poison (by rw [hmet]; exact h), hmet]
  exact withdrawNew_of_poison (s := wronged s l bad) h _

/-- What the memories hold after a scrub read of LPDDR or an upper tier is what the read leaves. -/
theorem heldData_scrubbed (h : inLpddr (l * 64) = true ∨ inUpper (l * 64) = true) :
    heldData (scrubbed s l bad) = heldData (meetErr (wronged s l bad) l) := by
  rw [scrubbed, heldData_withdrawNew, lowerRead_of_upper h]
  exact congrArg heldData (meetErrs_addErrs s l bad)

end Scrub

/-! What one read of a line does, by the verdict of its code. -/

section Met

variable {s : State} {l : Nat}

theorem meetErr_clean (h : eccOf l (errsAt s l) = .clean) : meetErr s l = clrErrs s l := by rw [meetErr, h]

theorem meetErr_corrects (h : eccOf l (errsAt s l) = .corrects) : meetErr s l = corrected (clrErrs s l) (l * 64) := by rw [meetErr, h]

theorem heldData_meetErr_detects (h : eccOf l (errsAt s l) = .detects) : heldData (meetErr s l) = heldData (setPoison (clrErrs s l) l) := by
  rw [meetErr, h]
  exact heldData_meetUe _ _

/-- Damage beyond the code is called uncorrectable, or leaves free values in the line (log 100). -/
theorem heldData_meetErr_beyond (h : eccOf l (errsAt s l) = .beyond) :
    heldData (meetErr s l) = heldData (setPoison (drawn (clrErrs s l) 1) l)
      ∨ heldData (meetErr s l) = heldData (memPut (drawn (clrErrs s l) 65) (l * 64) ((natsFrom (s.freeCount + 1) 64).map Config.freeByte)) := by
  rw [meetErr, h]
  dsimp only
  split
  · exact .inl (heldData_meetUe _ _)
  · exact .inr (heldData_corrected _ _)

end Met

section Poisoned

variable {s u : State} {l : Nat}

theorem linePoison_of_setPoison (h : heldData u = heldData (setPoison s l)) (k : Nat) :
    linePoison u k = (decide (k = l) || linePoison s k) := by
  have hp : u.poison = insNat l s.poison := congrArg (·.2.1) h
  rw [Bool.eq_iff_iff]
  simp only [linePoison, hp, List.contains_iff_mem, mem_insNat, Bool.or_eq_true, decide_eq_true_eq]

/-- A poisoned line reads as zero. -/
theorem memByte_of_setPoison_in (h : heldData u = heldData (setPoison s l)) {a : Nat} (ha : a / 64 = l) : memByte u a = 0 := by
  have hm : u.mem = (setPoison s l).mem := congrArg (·.1) h
  rw [memByte, hm]
  exact cellGet_filter_out (q := fun x => x < l * 64 || l * 64 + 64 ≤ x) (by simp; omega) s.mem.cells

theorem memByte_of_setPoison_out (h : heldData u = heldData (setPoison s l)) (w : s.mem.wf = true) {a : Nat} (ha : a / 64 ≠ l) :
    memByte u a = memByte s a := by
  have hm : u.mem = (setPoison s l).mem := congrArg (·.1) h
  rw [memByte, hm]
  exact cellGet_filter_in (q := fun x => x < l * 64 || l * 64 + 64 ≤ x) (by simp; omega) w

end Poisoned

/-- What the memories hold where bytes were put. -/
theorem held_of_memPut {s t u : State} {a : Nat} {bs : List Byte} (ht : s.mem = t.mem) (h : heldData u = heldData (memPut s a bs)) :
    u.mem = (memPut t a bs).mem ∧ u.poison = s.poison :=
  ⟨(congrArg (·.1) h).trans (congrArg (fun m : Memory => (Memory.mk (cellsPut m.cells a bs))) ht), congrArg (·.2.1) h⟩

/-! Refresh. -/

@[simp] theorem portOf_modPort_self (s : State) (p : Nat) (f : Port → Port) : portOf (modPort s p f) p = f (portOf s p) := by
  simp [portOf, modPort]

theorem Recorded.portOf_eq {s u : State} (h : Recorded s u) (p : Nat) : portOf u p = portOf s p := by simp only [portOf, h.ports]

/-- A port after a report, with the event of a rise. -/
def rated (s : State) (p : Nat) (r : Mr4) : State :=
  let x := modPort s p (fun y => rateAfter y (mr4Code r.temp) r.field)
  if (portOf s p).rate < mr4Code r.temp then raiseEvent x .lpc p 3 else x

theorem recorded_rated (s : State) (p : Nat) (r : Mr4) :
    Recorded (modPort s p (fun y => rateAfter y (mr4Code r.temp) r.field)) (rated s p r) := by
  unfold rated
  dsimp only
  split
  · exact .raiseEvent _ _ _ _
  · exact .refl _

theorem event_rated {s : State} {p : Nat} {r : Mr4} (h : (portOf s p).rate < mr4Code r.temp) :
    (page (rated s p r) .lpc p).event.getLsbD 3 = true := by
  rw [rated, if_pos h]
  exact event_raiseEvent_self _ _ _ (by decide)

/-- R370 to R373: what the hottest report of a trained port does. -/
theorem doMr4_of_hottest {s : State} {p : Nat} {reports : List Mr4} {r : Mr4} (hr : hottest reports = some r)
    (htr : (portOf s p).trained = true) (hp : p < 16) : doMr4 s p reports
      = if mr4Code r.temp = 3 then refreshCause (raiseEvent (rated s p r) .lpc p 4) p else rated s p r := by
  unfold doMr4
  rw [hr]
  simp [htr, hp, rated]

/-- R370: the hottest report raises a port's rate at once. -/
theorem rateAfter_of_le {x : Port} {code : Nat} (h : x.rate ≤ code) (f : Nat) :
    rateAfter x code f = { x with report := f, rate := code, lower := 0 } := by simp [rateAfter, h]

/-- R371: it lowers the rate after 8 reads in a row. -/
theorem rateAfter_of_lt {x : Port} {code : Nat} (h : code < x.rate) (f : Nat) :
    rateAfter x code f = (let n := if x.lower ≠ 0 ∧ x.lowerCode = code then x.lower + 1 else 1
      if 8 ≤ n then { x with report := f, rate := code, lower := 0 } else { x with report := f, lower := n, lowerCode := code }) := by
  unfold rateAfter
  simp [Nat.not_le.2 h]

theorem report_rateAfter (x : Port) (code f : Nat) : (rateAfter x code f).report = f := by
  unfold rateAfter
  dsimp only
  (repeat' split) <;> rfl

/-! Clause by clause. -/

theorem scrub_clauses {s : State} (hlive : live s = true) (l : Nat) (bad : List Nat) (hlamb : s.mgmt.lamb = false)
    (hrest : s.mgmt.restarting = false) (hat : inLpddr (l * 64) = true ∨ (spadOf (l * 64)).isSome = true) (hback : backed s (l * 64) = true) :
    let s1 := addErrs s [{ line := l, bad := bad }]
    let c := clrErrs s1 l
    (eccOf l (errsAt s1 l) = .clean → exec (.scrubRead l bad) s = .next (whenLive s c))
    ∧ (eccOf l (errsAt s1 l) = .corrects → exec (.scrubRead l bad) s = .next (whenLive s (corrected c (l * 64))))
    ∧ (eccOf l (errsAt s1 l) = .detects → s.mem.wf = true → inLpddr (l * 64) = true ∨ inUpper (l * 64) = true →
        ∃ u, exec (.scrubRead l bad) s = .next u ∧ linePoison u l = true ∧ (∀ k, k ≠ l → linePoison u k = linePoison s k)
          ∧ (∀ a, a / 64 = l → memByte u a = 0) ∧ (∀ a, a / 64 ≠ l → memByte u a = memByte s a))
    ∧ (eccOf l (errsAt s1 l) = .beyond → linePoison s l = false → inLpddr (l * 64) = true → ∃ u, exec (.scrubRead l bad) s = .next u
        ∧ (linePoison u l = true ∨ (linePoison u l = false
          ∧ u.mem = (memPut s (l * 64) ((natsFrom (s.freeCount + 1) 64).map Config.freeByte)).mem))) := by
  have hexec : exec (.scrubRead l bad) s = .next (whenLive s (scrubbed s l bad)) := by
    rw [exec_scrubRead, doScrub_of_backed hlamb hrest hat hback]
  have hheld := heldData_scrubbed (s := s) (l := l) (bad := bad)
  rw [hexec]
  intro s1 c
  refine ⟨fun hecc => ?_, fun hecc => ?_, fun hecc w hin => ?_, fun hecc hp hin => ?_⟩
  · have hmet : meetErr (wronged s l bad) l = c := meetErr_clean hecc
    rw [scrubbed_of_poison (by rw [hmet]; rfl), hmet]
  · have hmet : meetErr (wronged s l bad) l = corrected c (l * 64) := meetErr_corrects hecc
    have hpoison : (corrected c (l * 64)).poison = s.poison := congrArg (·.2.1) (heldData_corrected c (l * 64))
    rw [scrubbed_of_poison (by rw [hmet]; exact hpoison), hmet]
  · have hset := (hheld hin).trans (heldData_meetErr_detects (s := wronged s l bad) hecc)
    refine next_of_live hlive ⟨?_, fun k hk => ?_, fun a ha => ?_, fun a ha => ?_⟩
    · exact (linePoison_of_setPoison hset l).trans (by simp)
    · exact (linePoison_of_setPoison hset k).trans (by simp only [hk, decide_false, Bool.false_or]; rfl)
    · exact memByte_of_setPoison_in hset ha
    · exact memByte_of_setPoison_out hset w ha
  · refine next_of_live hlive ?_
    rcases heldData_meetErr_beyond (s := wronged s l bad) hecc with h | h
    · exact .inl ((linePoison_of_setPoison ((hheld (.inl hin)).trans h) l).trans (by simp))
    · obtain ⟨hmem, hpoison⟩ := held_of_memPut (s := drawn (clrErrs (wronged s l bad) l) 65) (t := s) rfl ((hheld (.inl hin)).trans h)
      have hnone : linePoison (scrubbed s l bad) l = false := by rw [← hp, linePoison, hpoison]; rfl
      exact .inr ⟨hnone, hmem⟩

theorem mr4_clauses {s : State} (hlive : live s = true) {p : Nat} {rank0 rank1 : List Mr4} {r : Mr4} (htr : (portOf s p).trained = true)
    (hp : p < 16) (hr : hottest (rank0 ++ rank1) = some r) : ∃ u, exec (.mr4Poll p rank0 rank1) s = .next u ∧
      let code := mr4Code r.temp
      (portOf u p).report = r.field
      ∧ ((portOf s p).rate < code → (page u .lpc p).event.getLsbD 3 = true)
      ∧ ((portOf s p).rate ≤ code → (portOf u p).rate = code ∧ (portOf u p).lower = 0)
      ∧ (code < (portOf s p).rate →
          let n := if (portOf s p).lower ≠ 0 ∧ (portOf s p).lowerCode = code then (portOf s p).lower + 1 else 1
          (8 ≤ n → (portOf u p).rate = code) ∧ (n < 8 → (portOf u p).rate = (portOf s p).rate ∧ (portOf u p).lower = n))
      ∧ (code = 3 → (page u .lpc p).event.getLsbD 4 = true) := by
  rw [exec_mr4Poll, doMr4_of_hottest hr htr hp]
  generalize hx : (if mr4Code r.temp = 3 then refreshCause (raiseEvent (rated s p r) .lpc p 4) p else rated s p r) = x
  have hrec : Recorded (rated s p r) x := by
    rw [← hx]
    split
    · exact (Recorded.raiseEvent _ _ _ _).trans (.refreshCause _ _)
    · exact .refl _
  have hport : portOf x p = rateAfter (portOf s p) (mr4Code r.temp) r.field := by
    rw [hrec.portOf_eq, (recorded_rated s p r).portOf_eq, portOf_modPort_self]
  have hrise := fun h => hrec.events _ _ _ (event_rated (s := s) (p := p) (r := r) h)
  have hhot : mr4Code r.temp = 3 → (page x .lpc p).event.getLsbD 4 = true := by
    intro h
    rw [← hx, if_pos h]
    exact (Recorded.refreshCause _ _).events _ _ _ (event_raiseEvent_self _ _ _ (by decide))
  refine next_of_live hlive ⟨?_, hrise, fun hle => ?_, fun hlt => ?_, hhot⟩
  · exact (congrArg Port.report hport).trans (report_rateAfter _ _ _)
  · rw [rateAfter_of_le hle] at hport
    exact ⟨congrArg Port.rate hport, congrArg Port.lower hport⟩
  · rw [rateAfter_of_lt hlt] at hport
    refine ⟨fun hn => ?_, fun hn => ?_⟩
    · exact (congrArg Port.rate hport).trans (by rw [if_pos hn])
    · rw [if_neg (Nat.not_le.2 hn)] at hport
      have hrate := congrArg Port.rate hport
      exact ⟨hrate, congrArg Port.lower hport⟩

/-- A rank's postponed refreshes set, with the refreshes that were issued counted. -/
def owed (s : State) (p rank m c : Nat) : State :=
  perfAdd (modPort s p (fun y => if rank = 0 then { y with post0 := m } else { y with post1 := m })) .lpc p 3 c

/-- The refreshes that a rank has postponed. -/
def postponed (x : Port) (rank : Nat) : Nat := if rank = 0 then x.post0 else x.post1

theorem postponed_owed (s : State) (p rank m c : Nat) : postponed (portOf (owed s p rank m c) p) rank = m := by
  have hport := portOf_modPort_self s p (fun y => if rank = 0 then { y with post0 := m } else { y with post1 := m })
  refine (congrArg (postponed · rank) hport).trans ?_
  unfold postponed
  split <;> rfl

section Refresh

variable {s : State} {p rank n : Nat} {closed : Bool} (htr : (portOf s p).trained = true) (hrank : rank < (portOf s p).ranks)
  (hn : n = if closed then 0 else postponed (portOf s p) rank)
include htr hrank hn

/-- R374: a refresh is postponed while the rank is busy, and ref_late is raised at the eighth. -/
theorem doRefresh_busy (h : n < 8) : ∃ c, doRefresh s p rank closed true = if n + 1 = 8 then
    refreshCause (raiseEvent (owed s p rank (n + 1) c) .lpc p 7) p else owed s p rank (n + 1) c := by
  unfold doRefresh
  subst hn
  rw [if_neg (by simp [htr, hrank]), if_pos (by simpa [postponed] using h)]
  exact ⟨_, rfl⟩

/-- R374: else it is issued with all that were postponed. -/
theorem doRefresh_issued {busy : Bool} (h : (busy && decide (n < 8)) = false) : ∃ c, doRefresh s p rank closed busy = owed s p rank 0 c := by
  unfold doRefresh
  subst hn
  rw [if_neg (by simp [htr, hrank]), if_neg (fun hb => by rw [postponed, hb] at h; cases h)]
  exact ⟨_, rfl⟩

end Refresh

theorem refresh_clauses {s : State} (hlive : live s = true) {p rank : Nat} (closed busy : Bool) (htr : (portOf s p).trained = true)
    (hrank : rank < (portOf s p).ranks) :
    let n := if closed then 0 else if rank = 0 then (portOf s p).post0 else (portOf s p).post1
    ∃ u, exec (.refreshDue p rank ⟨closed, busy⟩) s = .next u
      ∧ (if rank = 0 then (portOf u p).post0 else (portOf u p).post1) = (if busy && decide (n < 8) then n + 1 else 0)
      ∧ (busy = true → n = 7 → (page u .lpc p).event.getLsbD 7 = true) ∧ u.mem = s.mem := by
  intro n
  rw [exec_refreshDue]
  cases hpost : busy && decide (n < 8) with
  | false =>
    obtain ⟨c, hc⟩ := doRefresh_issued htr hrank (n := n) rfl hpost
    rw [hc]
    refine next_of_live hlive ⟨postponed_owed s p rank 0 c, fun hb hn7 => ?_, rfl⟩
    rw [hb, hn7] at hpost
    cases hpost
  | true =>
    obtain ⟨rfl, hn⟩ := Bool.and_eq_true_iff.1 hpost
    obtain ⟨c, hc⟩ := doRefresh_busy htr hrank (n := n) rfl (of_decide_eq_true hn)
    rw [hc]
    have hraised := (Recorded.raiseEvent (owed s p rank (n + 1) c) .lpc p 7).trans (.refreshCause _ p)
    split
    · refine next_of_live hlive ⟨?_, fun _ _ => ?_, hraised.mem⟩
      · exact (congrArg (postponed · rank) (hraised.portOf_eq p)).trans (postponed_owed s p rank _ c)
      · exact (Recorded.refreshCause _ _).events _ _ _ (event_raiseEvent_self _ _ _ (by decide))
    · next hne => exact next_of_live hlive ⟨postponed_owed s p rank _ c, fun _ hn7 => absurd (by rw [hn7]) hne, rfl⟩

/-! Windows and zero fill. -/

theorem SameWalks.winValid_eq {s u : State} (h : SameWalks s u) : winValid u = winValid s := by
  have hwindow : windowOf u = windowOf s := by funext n; simp only [windowOf, regWord2, regWord, h.regs]
  have hport : portOf u = portOf s := by funext p; simp only [portOf, h.ports]
  simp only [winValid, windows, hwindow, hport]

/-- A write that reaches its page leaves the walks of the page tables. -/
theorem SameWalks.opened (s : State) (r : Requester) (b : Block) (i off : Nat) : SameWalks s (opened s r b i off) := by
  have hrec := Recorded.opened s r b i off
  obtain ⟨v, hv⟩ := hrec.hostIf
  have hpage := page_opened s r b i off
  refine ⟨hrec.mem, hrec.poison, hrec.ports, by rw [hv], fun c k => ?_, fun c k => ?_, fun t => by rw [ten_congr hrec.tenants]⟩
  · obtain ⟨q, l, h⟩ := hpage c k
    rw [h]
  · obtain ⟨q, l, h⟩ := hpage c k
    rw [h]

theorem window_clauses {s : State} {r : Requester} (h : atPage s r .lpc 0 = true) :
    (∀ n v, n < 8 → exec (.winWrite r n v) s = .next (whenLive s (
      if bitAt (regWord s .lpc 0 0x180 0) 0 || decide (6 ≤ bits v 12 3) then regError (opened s r .lpc 0 (0x140 + 8 * n)) .lpc 0 (0x140 + 8 * n)
      else putWindow (opened s r .lpc 0 (0x140 + 8 * n)) n v)))
    ∧ (winValid s = true → exec (.winLock r) s = .next (whenLive s (setRegWord (opened s r .lpc 0 0x180) .lpc 0 0x180 1)))
    ∧ (winValid s = false → exec (.winLock r) s = .next (whenLive s (regError (opened s r .lpc 0 0x180) .lpc 0 0x180))) := by
  have hlock : doWinLock s r = if winValid s then setRegWord (opened s r .lpc 0 0x180) .lpc 0 0x180 1
      else regError (opened s r .lpc 0 0x180) .lpc 0 0x180 := by
    rw [doWinLock, regAccess_atPage h, if_pos rfl, (SameWalks.opened s r .lpc 0 0x180).winValid_eq]
  refine ⟨fun n v hn => ?_, fun hv => ?_, fun hv => ?_⟩
  · rw [exec_winWrite, doWinWrite, if_neg (Nat.not_le.2 hn), regAccess_atPage h, if_pos rfl]
    simp only [winLocked, regWord_opened]
  · rw [exec_winLock, hlock, if_pos hv]
  · rw [exec_winLock, hlock, if_neg (by simp [hv])]

theorem zeroFill_clause {s : State} (hlive : live s = true) {p : Nat} (hfill : (portOf s p).filling = true) (hlamb : s.mgmt.lamb = false)
    (hoff : blkState s .lpc p = 0) : ∃ u, exec (.zeroFillEnd p) s = .next u ∧ blkState u .lpc p = 1 ∧ (portOf u p).filling = false
      ∧ ∀ a d, inLpddr a = true → locate s a = some (p, d) → memByte u a = 0 := by
  rw [exec_zeroFillEnd, doFillEnd, if_pos (by simp [hfill, hlamb, hoff])]
  refine next_of_live hlive ⟨blkState_setBlkState _ _ _ _, ?_, fun a d ha hd => ?_⟩
  · exact congrArg Port.filling (portOf_modPort_self (zeroPort s p) p (fun x => { x with filling := false }))
  · exact cellGet_filter_out (q := fun x => !(inLpddr x && (match locate s x with
      | some (q, _) => q == p
      | none => false))) (by simp [ha, hd]) s.mem.cells

/-- Settles O44: what a scrub read does follows from the verdict of the line's code, what MR4 and a refresh do from the port's record. -/
theorem memoryUpkeep : Obligations.MemoryUpkeep := by
  unfold Obligations.MemoryUpkeep
  intro s hlive
  exact ⟨fun l bad hlamb hrest hat hback => scrub_clauses hlive l bad hlamb hrest hat hback,
    fun p rank0 rank1 r htr hp hr => mr4_clauses hlive htr hp hr,
    fun p rank closed busy htr hrank => refresh_clauses hlive closed busy htr hrank,
    fun r h => window_clauses h,
    fun p hfill hlamb hoff => zeroFill_clause hlive hfill hlamb hoff⟩

end Sys2Proof.Machine
end

section
/-! PROOFS. Seals and the zeroing of released ranges (R391 to R395, R623). -/

namespace Sys2Proof.Machine

/-! Seals asked for. -/

/-- A tenant's granule is mapped alike where walks, cached translations and shared sets are alike. -/
theorem tenGranule_eq {s u : State} (h : SameWalks s u) {t : Nat} (htlb : (ten u t).tlb = (ten s t).tlb) (hspads : u.spads = s.spads) (va : Nat) :
    tenGranule u t va = tenGranule s t va := by
  have hx : xlate u t = xlate s t := by funext a; simp only [xlate, htlb, h.walk_eq]
  have hshared : inShared u = inShared s := by funext a; simp only [inShared, setOfPage, spad, hspads]
  have hw : xlateW u t = xlateW s t := by funext a; simp only [xlateW, hx, hshared]
  simp only [tenGranule, hw]

/-- A tenant's seal asked for, before its granule is looked up. -/
def sealNoted (s : State) (r : Requester) (t a : Nat) : State :=
  modTen (opened s r .ten t 0x140) t (fun x => { x with sealAddr := a, sealRefused := false })

theorem ten_sealNoted (s : State) (r : Requester) (t a : Nat) :
    ten (sealNoted s r t a) t = { ten s t with sealAddr := a, sealRefused := false } := by rw [sealNoted, ten_modTen_self, ten_opened]

theorem tenGranule_sealNoted (s : State) (r : Requester) (t a : Nat) : tenGranule (sealNoted s r t a) t a = tenGranule s t a := by
  have hwalk : SameWalks (opened s r .ten t 0x140) (sealNoted s r t a) :=
    ⟨rfl, rfl, rfl, rfl, fun _ _ => rfl, fun _ _ => rfl, Keeps.modTen (f := fun x => (x.rootValid, x.root)) _ t (fun _ => rfl)⟩
  exact tenGranule_eq ((SameWalks.opened s r .ten t 0x140).trans hwalk) (by rw [ten_sealNoted]) (Recorded.opened s r .ten t 0x140).spads a

section TenantSeal

variable {s : State} {r : Requester} {t a : Nat} (h : atPage s r .ten t = true)
include h

theorem doTenantSeal_refused (ha : a % 2 ^ 21 ≠ 0 ∨ 2 ^ 48 ≤ a ∨ (ten s t).sealBusy = true) :
    doTenantSeal s r t a = regError (opened s r .ten t 0x140) .ten t 0x140 := by
  rw [doTenantSeal, regAccess_atPage h, if_pos rfl, ten_opened, if_pos (by simpa [or_assoc] using ha)]

variable (hal : a % 2 ^ 21 = 0) (hlt : a < 2 ^ 48) (hfree : (ten s t).sealBusy = false)
include hal hlt hfree

/-- R391: a seal is asked for of a granule that the tenant maps whole and writable. -/
theorem doTenantSeal_mapped {g : Nat} (hg : tenGranule s t a = some g) : doTenantSeal s r t a
    = { modTen (sealNoted s r t a) t (fun x => { x with sealBusy := true }) with
        seals := (sealNoted s r t a).seals ++ [{ addr := g, tenant := t }] } := by
  rw [← tenGranule_sealNoted s r t a] at hg
  rw [doTenantSeal, regAccess_atPage h, if_pos rfl, ten_opened, if_neg (by simp [hfree]; omega)]
  dsimp only
  rw [← sealNoted, hg]

theorem doTenantSeal_unmapped (hg : tenGranule s t a = none) : doTenantSeal s r t a
    = modTen (sealNoted s r t a) t (fun x => { x with sealRefused := true }) := by
  rw [← tenGranule_sealNoted s r t a] at hg
  rw [doTenantSeal, regAccess_atPage h, if_pos rfl, ten_opened, if_neg (by simp [hfree]; omega)]
  dsimp only
  rw [← sealNoted, hg]

end TenantSeal

theorem tenantSeal_clauses {s : State} {r : Requester} {t a : Nat} (h : atPage s r .ten t = true) :
    (a % 2 ^ 21 ≠ 0 ∨ 2 ^ 48 ≤ a ∨ (ten s t).sealBusy = true →
      exec (.tenantSeal r t a) s = .next (whenLive s (regError (opened s r .ten t 0x140) .ten t 0x140)))
    ∧ (a % 2 ^ 21 = 0 → a < 2 ^ 48 → (ten s t).sealBusy = false →
      (∀ g, tenGranule s t a = some g → ∃ u, exec (.tenantSeal r t a) s = .next u ∧ (ten u t).sealBusy = true
          ∧ (ten u t).sealRefused = false ∧ u.seals = s.seals ++ [{ addr := g, tenant := t }] ∧ u.sealedG = s.sealedG ∧ u.mem = s.mem)
      ∧ (tenGranule s t a = none → ∃ u, exec (.tenantSeal r t a) s = .next u ∧ (ten u t).sealRefused = true
          ∧ u.seals = s.seals ∧ u.sealedG = s.sealedG ∧ u.mem = s.mem)) := by
  have hlive := live_of_atPage h
  have hrec := Recorded.opened s r .ten t 0x140
  refine ⟨fun ha => by rw [exec_tenantSeal, doTenantSeal_refused h ha], fun hal hlt hfree => ⟨fun g hg => ?_, fun hnone => ?_⟩⟩
  · have hten := ten_modTen_self (sealNoted s r t a) t (fun x => { x with sealBusy := true })
    rw [ten_sealNoted] at hten
    rw [exec_tenantSeal, doTenantSeal_mapped h hal hlt hfree hg]
    exact next_of_live hlive ⟨congrArg Tenant.sealBusy hten, congrArg Tenant.sealRefused hten,
      congrArg (· ++ [({ addr := g, tenant := t } : SealReq)]) hrec.seals, hrec.sealedG, hrec.mem⟩
  · have hten := ten_modTen_self (sealNoted s r t a) t (fun x => { x with sealRefused := true })
    rw [exec_tenantSeal, doTenantSeal_unmapped h hal hlt hfree hnone]
    exact next_of_live hlive ⟨congrArg Tenant.sealRefused hten, hrec.seals, hrec.sealedG, hrec.mem⟩

theorem ownerSeal_clauses {s : State} {r : Requester} {a : Nat} (h : atPage s r .host 0 = true) (hown : asOwner s r = true) :
    (a % 2 ^ 21 ≠ 0 ∨ 2 ^ 48 ≤ a ∨ s.hostIf.sealBusy = true →
      exec (.ownerSeal r a) s = .next (whenLive s (regError (opened s r .host 0 0x130) .host 0 0x130)))
    ∧ (a % 2 ^ 21 = 0 → a < 2 ^ 48 → s.hostIf.sealBusy = false → ∃ u, exec (.ownerSeal r a) s = .next u ∧ u.mem = s.mem
      ∧ (inLpddr a = true ∨ inUpper a = true → u.hostIf.sealBusy = true ∧ u.seals = s.seals ++ [{ addr := a, tenant := 512 }])
      ∧ (inLpddr a = false → inUpper a = false → u.hostIf.sealRefused = true ∧ u.seals = s.seals)) := by
  have hrec := Recorded.opened s r .host 0 0x130
  obtain ⟨v, hv⟩ := hrec.hostIf
  have hbusy : (opened s r .host 0 0x130).hostIf.sealBusy = s.hostIf.sealBusy := by rw [hv]
  rw [exec_ownerSeal, doOwnerSeal, regAccess_atPage h, if_pos hown, hbusy]
  refine ⟨fun ha => by rw [if_pos (by simpa [or_assoc] using ha)], fun hal hlt hfree => ?_⟩
  rw [if_neg (by simp [hfree]; omega)]
  dsimp only
  cases hat : inLpddr a || inUpper a with
  | true =>
    have hin := Bool.or_eq_true_iff.1 hat
    refine next_of_live (live_of_atPage h) ⟨hrec.mem, fun _ => ⟨rfl, congrArg (· ++ [({ addr := a, tenant := 512 } : SealReq)]) hrec.seals⟩,
      fun hl hu => ?_⟩
    rw [hl, hu] at hat
    cases hat
  | false =>
    obtain ⟨hl, hu⟩ := Bool.or_eq_false_iff.1 hat
    refine next_of_live (live_of_atPage h) ⟨hrec.mem, fun hin => ?_, fun _ _ => ⟨rfl, hrec.seals⟩⟩
    rw [hl, hu] at hin
    simp at hin

/-! A seal takes effect. -/

/-- A read of lines leaves the seals, and those asked for. -/
theorem seals_readNow (s : State) (p : Nat → Bool) : (readNow s p).sealedG = s.sealedG ∧ (readNow s p).seals = s.seals := by
  obtain ⟨-, -, -, -, hsealed, hseals, -⟩ := (storedFrom_meetErrs s p).fields
  obtain ⟨sp, hrec⟩ := withdrew_withdrawNew s (meetErrs s p) (meetErrs s p)
  exact ⟨hrec.sealedG.trans hsealed, hrec.seals.trans hseals⟩

/-- The read of a granule that a seal makes, and the granule sealed. -/
def sealedState (s : State) (g : Nat) (q : SealReq) : State :=
  let x := readNow s (fun l => l / 32768 == g)
  { x with sealedG := insNat g x.sealedG, seals := x.seals.erase q }

theorem doSeal_owner {s : State} {g : Nat} {q : SealReq} (hq : s.seals.find? (fun x => x.addr == g * 2 ^ 21) = some q) (ho : q.tenant = 512) :
    Recorded { sealedState s g q with hostIf := { (sealedState s g q).hostIf with sealBusy := false } } (doSeal s g) := by
  unfold doSeal
  rw [hq]
  dsimp only
  rw [if_pos ho]
  exact .ledgerDue _ _

theorem doSeal_tenant {s : State} {g : Nat} {q : SealReq} (hq : s.seals.find? (fun x => x.addr == g * 2 ^ 21) = some q) (ho : q.tenant ≠ 512) :
    Recorded (raiseEvent (modTen (sealedState s g q) q.tenant (fun x => { x with sealBusy := false })) .ten q.tenant 3) (doSeal s g) := by
  unfold doSeal
  rw [hq]
  dsimp only
  rw [if_neg ho]
  exact (Recorded.perfAdd _ _ _ _ _).trans (.ledgerDue _ _)

theorem sealTakeEffect_clause {s : State} (hlive : live s = true) {g : Nat} {q : SealReq}
    (hq : s.seals.find? (fun x => x.addr == g * 2 ^ 21) = some q) :
    let x := readNow s (fun (l : Nat) => l / 32768 == g)
    ∃ u, exec (.sealTakeEffect g) s = .next u ∧ g ∈ u.sealedG ∧ (∀ h, h ≠ g → (h ∈ u.sealedG ↔ h ∈ s.sealedG)) ∧ u.mem = x.mem
      ∧ u.poison = x.poison ∧ u.seals = s.seals.erase q
      ∧ (q.tenant = 512 → u.hostIf.sealBusy = false)
      ∧ (q.tenant ≠ 512 → (ten u q.tenant).sealBusy = false ∧ (page u .ten q.tenant).event.getLsbD 3 = true) := by
  intro x
  obtain ⟨hsealed, hseals⟩ := seals_readNow s (fun l => l / 32768 == g)
  have hin : g ∈ (sealedState s g q).sealedG := mem_insNat.2 (.inl rfl)
  have hother (k : Nat) (hk : k ≠ g) : k ∈ (sealedState s g q).sealedG ↔ k ∈ s.sealedG := by
    rw [← hsealed]
    exact mem_insNat.trans (or_iff_right hk)
  have herase : (sealedState s g q).seals = s.seals.erase q := congrArg (List.erase · q) hseals
  rw [exec_sealTakeEffect]
  by_cases ho : q.tenant = 512
  · have hrec := doSeal_owner hq ho
    obtain ⟨v, hv⟩ := hrec.hostIf
    refine next_of_live hlive ⟨hrec.sealedG ▸ hin, fun k hk => hrec.sealedG ▸ hother k hk, hrec.mem, hrec.poison, hrec.seals.trans herase,
      fun _ => congrArg HostIf.sealBusy hv, fun hne => absurd ho hne⟩
  · have hrec := doSeal_tenant hq ho
    have hraise := Recorded.raiseEvent (modTen (sealedState s g q) q.tenant (fun x => { x with sealBusy := false })) .ten q.tenant 3
    have hall := hraise.trans hrec
    have hten := (ten_congr hall.tenants q.tenant).trans (ten_modTen_self (sealedState s g q) q.tenant (fun x => { x with sealBusy := false }))
    refine next_of_live hlive ⟨hall.sealedG ▸ hin, fun k hk => hall.sealedG ▸ hother k hk, hall.mem, hall.poison, hall.seals.trans herase,
      fun he => absurd he ho, fun _ => ⟨congrArg Tenant.sealBusy hten, hrec.events _ _ _ (event_raiseEvent_self _ _ _ (by decide))⟩⟩

/-! Ranges handed back. -/

theorem zreqSubmit_clauses {s : State} {r : Requester} {n : Nat} (h : atPage s r .host 0 = true) (hown : asOwner s r = true) :
    (64 ≤ s.hostIf.zreq.length → exec (.zreqSubmit r n) s = .next (whenLive s (regError (opened s r .host 0 0x120) .host 0 0x120)))
    ∧ (s.hostIf.zreq.length < 64 → ∃ u, exec (.zreqSubmit r n) s = .next u ∧ u.mem = s.mem
        ∧ u.hostIf.zreq = s.hostIf.zreq ++ [{ addr := regWord2 s .host 0 0x118 0 % 2 ^ 48, pages := n % 2 ^ 32 }]) := by
  have hrec := Recorded.opened s r .host 0 0x120
  obtain ⟨v, hv⟩ := hrec.hostIf
  have hzreq : (opened s r .host 0 0x120).hostIf.zreq = s.hostIf.zreq := by rw [hv]
  have hbase : regWord2 (setRegWord (opened s r .host 0 0x120) .host 0 0x120 (n % 2 ^ 32)) .host 0 0x118 0 = regWord2 s .host 0 0x118 0 := by
    have hword (o : Nat) (ho : o ≠ 0x120) (d : Nat) :
        regWord (setRegWord (opened s r .host 0 0x120) .host 0 0x120 (n % 2 ^ 32)) .host 0 o d = regWord s .host 0 o d := by
      rw [← regWord_opened s r .host 0 0x120 .host 0 o d]
      simp only [regWord, setRegWord, page_modPage_self, tabGet_tabSet, if_neg ho.symm]
    simp only [regWord2, hword _ (show (0x118 : Nat) ≠ 0x120 by decide), hword _ (show (0x118 + 4 : Nat) ≠ 0x120 by decide)]
  rw [exec_zreqSubmit, doZreq, regAccess_atPage h, if_pos hown, hzreq]
  refine ⟨fun hfull => by rw [if_pos hfull], fun hroom => ?_⟩
  rw [if_neg (Nat.not_le.2 hroom)]
  dsimp only
  rw [hbase]
  exact next_of_live (live_of_atPage h)
    ⟨hrec.mem, congrArg (· ++ [({ addr := regWord2 s .host 0 0x118 0 % 2 ^ 48, pages := n % 2 ^ 32 } : Zreq)]) hzreq⟩

end Sys2Proof.Machine
end

section
/-! PROOFS. Ranges zeroed (R384, R392, R395, R623). -/

namespace Sys2Proof.Machine

/-- Zeroes are written where Hen cuts nothing, the memory has its form, and the granules `G` are sealed. -/
structure Zeroable (G : List Nat) (s : State) : Prop where
  form : s.mem.wf = true
  cuts : s.hen.cuts = []
  sealedG : s.sealedG = G

/-- `u` is `s` with the bytes that `P` tells zeroed, and the lines that begin there cleared of poison. -/
structure ZeroedAt (P : Nat → Prop) (s u : State) : Prop where
  rest : ∃ m p e d, u = { s with mem := m, poison := p, memErrs := e, mule := { s.mule with dirty := d } }
  form : u.mem.wf = true
  inside : ∀ a, P a → memByte u a = 0
  outside : ∀ a, ¬ P a → memByte u a = memByte s a
  clean : ∀ l, P (l * 64) → linePoison u l = false
  stays : ∀ l, linePoison s l = false → linePoison u l = false

namespace ZeroedAt

theorem refl {s : State} (w : s.mem.wf = true) : ZeroedAt (fun _ => False) s s :=
  ⟨⟨_, _, _, _, rfl⟩, w, fun _ h => h.elim, fun _ _ => rfl, fun _ h => h.elim, fun _ h => h⟩

theorem congr {P Q : Nat → Prop} {s u : State} (h : ZeroedAt P s u) (hpq : ∀ a, P a ↔ Q a) : ZeroedAt Q s u := by
  have : P = Q := funext (fun a => propext (hpq a))
  exact this ▸ h

theorem trans {P Q : Nat → Prop} {s u v : State} (h : ZeroedAt P s u) (k : ZeroedAt Q u v) : ZeroedAt (fun a => P a ∨ Q a) s v := by
  refine ⟨?_, k.form, fun a ha => ?_, fun a ha => ?_, fun l hl => ?_, fun l hl => k.stays l (h.stays l hl)⟩
  · obtain ⟨_, _, _, _, rfl⟩ := h.rest
    obtain ⟨_, _, _, _, rfl⟩ := k.rest
    exact ⟨_, _, _, _, rfl⟩
  · by_cases hq : Q a
    · exact k.inside a hq
    · rw [k.outside a hq, h.inside a (ha.resolve_right hq)]
  · obtain ⟨hp, hq⟩ := not_or.1 ha
    rw [k.outside a hq, h.outside a hp]
  · rcases hl with hp | hq
    · exact k.stays l (h.clean l hp)
    · exact k.clean l hq

theorem zeroable {P : Nat → Prop} {G : List Nat} {s u : State} (h : ZeroedAt P s u) (z : Zeroable G s) : Zeroable G u := by
  obtain ⟨_, _, _, _, hu⟩ := h.rest
  exact ⟨h.form, by rw [hu]; exact z.cuts, by rw [hu]; exact z.sealedG⟩

/-- Zeroing piece by piece. -/
theorem foldl {β : Type} {G : List Nat} {P : β → Nat → Prop} {step : State → β → State}
    (h : ∀ x b, Zeroable G x → ZeroedAt (P b) x (step x b)) (l : List β) {s : State} (z : Zeroable G s) :
    ZeroedAt (fun a => ∃ b ∈ l, P b a) s (l.foldl step s) := by
  induction l generalizing s with
  | nil => exact (refl z.form).congr (fun a => by simp)
  | cons b l ih => exact ((h s b z).trans (ih ((h s b z).zeroable z))).congr (fun a => by simp)

end ZeroedAt

theorem zeroEngine_of_cuts {s : State} (h : s.hen.cuts = []) (a n : Nat) : zeroEngine s a n = zeroRange s a n := by
  rw [zeroEngine, h]
  rfl

theorem zeroedAt_zeroEngine {G : List Nat} {s : State} (z : Zeroable G s) (a n : Nat) :
    ZeroedAt (fun b => a ≤ b ∧ b < a + n) s (zeroEngine s a n) := by
  rw [zeroEngine_of_cuts z.cuts]
  refine ⟨⟨_, _, _, _, rfl⟩, zeroRange_wf a n z.form, fun b hb => ?_, fun b hb => ?_, fun l hl => ?_, fun l hl => ?_⟩
  · exact cellGet_filter_out (q := fun x => x < a || a + n ≤ x) (by simp; omega) s.mem.cells
  · exact cellGet_filter_in (q := fun x => x < a || a + n ≤ x) (by simp; omega) z.form
  · simp only [linePoison, zeroRange, List.contains_eq_mem, List.mem_filter]
    simp; omega
  · simp only [linePoison, zeroRange, List.contains_eq_mem, List.mem_filter] at hl ⊢
    simp at hl; simp [hl]

/-- R392: a range zeroed but for its sealed granules. -/
theorem zeroedAt_zeroOpen {G : List Nat} {s : State} (z : Zeroable G s) (a n : Nat) :
    ZeroedAt (fun b => (a ≤ b ∧ b < a + n) ∧ b / 2 ^ 21 ∉ G) s (zeroOpen s a n) := by
  unfold zeroOpen
  split
  · next hn => exact (ZeroedAt.refl z.form).congr (fun b => ⟨False.elim, fun ⟨hb, _⟩ => by omega⟩)
  · next hn =>
    refine (ZeroedAt.foldl (P := fun g b => (max a (g * 2 ^ 21) ≤ b ∧ b < min (a + n) ((g + 1) * 2 ^ 21)) ∧ g ∉ G)
      (fun x g zx => ?_) _ z).congr (fun b => ?_)
    · rw [zx.sealedG]
      dsimp only
      split
      · next hg => exact (ZeroedAt.refl zx.form).congr (fun b => by simp_all)
      · next hg => exact (zeroedAt_zeroEngine zx _ _).congr (fun b => by simp at hg; simp [hg]; omega)
    · constructor
      · rintro ⟨g, -, hb, hg⟩
        have hdiv : b / 2 ^ 21 = g := by omega
        exact ⟨by omega, hdiv ▸ hg⟩
      · rintro ⟨hb, hg⟩
        refine ⟨b / 2 ^ 21, ?_, by omega, hg⟩
        simp only [natsFrom, List.mem_map, List.mem_range]
        exact ⟨b / 2 ^ 21 - a / 2 ^ 21, by omega, by omega⟩

/-- A byte of a page of a set in use (R384). -/
def keptAt (s : State) (a : Nat) : Bool :=
  match spadOf a with
  | some (d, 0) => pageKept s d ((a - upperBase d) / 4096)
  | _ => false

/-- A page lies in one tier, and its bytes are kept together. -/
theorem spadOf_page (a : Nat) : spadOf (a / 4096 * 4096) = spadOf a := by
  unfold spadOf
  by_cases h : 0x8000000000 ≤ a ∧ a < 0x8080000000
  · rw [if_pos h, if_pos (by omega)]
    refine congrArg some (Prod.ext ?_ ?_) <;> dsimp only <;> omega
  · rw [if_neg h, if_neg (by omega)]

theorem keptAt_page (s : State) (a : Nat) : keptAt s (a / 4096 * 4096) = keptAt s a := by
  unfold keptAt
  rw [spadOf_page]
  split
  · next d _ =>
    have : (a / 4096 * 4096 - upperBase d) / 4096 = (a - upperBase d) / 4096 := by unfold upperBase; omega
    rw [this]
  · rfl

theorem keptAt_of_page_eq (s : State) {a b : Nat} (h : a / 4096 = b / 4096) : keptAt s a = keptAt s b := by
  rw [← keptAt_page s a, h, keptAt_page]

/-- A kept byte of a range lies in a set in use that meets the range. -/
theorem setMeets_of_keptAt {s : State} {a n b : Nat} (hb : a ≤ b ∧ b < a + n) (hk : keptAt s b = true) :
    [0, 1].any (fun d => (spad s d).sets.any (fun e => 2 ≤ e.2.st && rangesMeet (upperPage d e.2.first) (e.2.pages * 4096) a n)) = true := by
  unfold keptAt at hk
  split at hk
  · next d hd =>
    unfold spadOf at hd
    split at hd
    · next hr =>
      obtain ⟨hdie, -⟩ := Prod.mk.inj (Option.some.inj hd)
      simp only [pageKept, List.any_eq_true, Bool.and_eq_true, decide_eq_true_eq] at hk
      obtain ⟨e, he, ⟨hst, hfirst⟩, hlast⟩ := hk
      refine List.any_eq_true.2 ⟨d, by simp; omega, List.any_eq_true.2 ⟨e, he, ?_⟩⟩
      simp only [rangesMeet, Bool.and_eq_true, decide_eq_true_eq]
      simp only [upperPage, upperBase] at hfirst hlast ⊢
      omega
    · cases hd
  · cases hk

/-- R384, R395: a released range zeroed but for its sealed granules and its pages of sets in use. -/
theorem zeroedAt_zeroReleased {G : List Nat} {s : State} (z : Zeroable G s) (a n : Nat) :
    ZeroedAt (fun b => ((a ≤ b ∧ b < a + n) ∧ b / 2 ^ 21 ∉ G) ∧ keptAt s b = false) s (zeroReleased s a n) := by
  unfold zeroReleased
  split
  · refine (ZeroedAt.foldl (P := fun p b => ((max a (p * 4096) ≤ b ∧ b < min (a + n) (p * 4096 + 4096)) ∧ b / 2 ^ 21 ∉ G)
      ∧ keptAt s (p * 4096) = false) (fun x p zx => ?_) _ z).congr (fun b => ?_)
    · have hopen : ZeroedAt (fun b => (max a (p * 4096) ≤ b ∧ b < min (a + n) (p * 4096 + 4096)) ∧ b / 2 ^ 21 ∉ G) x
          (zeroOpen x (max a (p * 4096)) (min (a + n) (p * 4096 + 4096) - max a (p * 4096))) :=
        (zeroedAt_zeroOpen zx _ _).congr (fun b => by constructor <;> (rintro ⟨h, hg⟩; exact ⟨by omega, hg⟩))
      have hkept : keptAt s (p * 4096) = match spadOf (p * 4096) with
        | some (d, 0) => pageKept s d ((p * 4096 - upperBase d) / 4096)
        | _ => false := rfl
      dsimp only
      split
      · next d hd =>
        rw [hd] at hkept
        split
        · next hk => exact (ZeroedAt.refl zx.form).congr (fun b => by simp [hkept, hk])
        · next hk => exact hopen.congr (fun b => by simp [hkept, hk])
      · next hd =>
        have hnone : keptAt s (p * 4096) = false := by
          rw [hkept]
          split
          · next d hd' => exact absurd hd' (hd d)
          · rfl
        exact hopen.congr (fun b => by simp [hnone])
    · constructor
      · rintro ⟨p, -, ⟨hb, hg⟩, hk⟩
        refine ⟨⟨by omega, hg⟩, ?_⟩
        rw [← hk]
        exact keptAt_of_page_eq s (by omega)
      · rintro ⟨⟨hb, hg⟩, hk⟩
        refine ⟨b / 4096, ?_, ⟨by omega, hg⟩, by rw [keptAt_page, hk]⟩
        rw [pagesOf, if_neg (by omega)]
        simp only [natsFrom, List.mem_map, List.mem_range]
        exact ⟨b / 4096 - a / 4096, by omega, by omega⟩
  · next hnone =>
    refine (zeroedAt_zeroOpen z a n).congr (fun b => ⟨fun hb => ⟨hb, ?_⟩, fun hb => hb.1⟩)
    exact Bool.eq_false_iff.2 (fun hk => hnone (setMeets_of_keptAt hb.1 hk))

/-- R393: the seals that stay are those of granules not wholly in the range. -/
theorem mem_endSeals {s : State} {a n g : Nat} :
    g ∈ (endSeals s a n).sealedG ↔ g ∈ s.sealedG ∧ ¬ (a ≤ g * 2 ^ 21 ∧ (g + 1) * 2 ^ 21 ≤ a + n) := by
  simp only [endSeals, List.mem_filter, Bool.or_eq_true, decide_eq_true_eq]
  exact and_congr_right (fun _ => by omega)

theorem zeroDone_clause {s : State} (hlive : live s = true) {i : Nat} {z : Zreq} (hz : s.hostIf.zreq[i]? = some z)
    (hlamb : s.mgmt.lamb = false) (hcuts : s.hen.cuts = []) (w : s.mem.wf = true) :
    ∃ u, exec (.zeroDone i) s = .next u ∧ u.hostIf.zreq = s.hostIf.zreq.eraseIdx i ∧ (page u .host 0).event.getLsbD 5 = true
      ∧ (∀ g, g ∈ u.sealedG ↔ g ∈ s.sealedG ∧ ¬ (z.addr ≤ g * 2 ^ 21 ∧ (g + 1) * 2 ^ 21 ≤ z.addr + 4096 * z.pages))
      ∧ (∀ a, z.addr ≤ a → a < z.addr + 4096 * z.pages → a / 2 ^ 21 ∉ u.sealedG → keptAt s a = false →
        memByte u a = 0 ∧ (z.addr % 64 = 0 → linePoison u (a / 64) = false))
      ∧ (∀ a, a < z.addr ∨ z.addr + 4096 * z.pages ≤ a ∨ keptAt s a = true → memByte u a = memByte s a) := by
  generalize hn : 4096 * z.pages = n
  have hstart : Zeroable (endSeals s z.addr n).sealedG (endSeals s z.addr n) := ⟨w, hcuts, rfl⟩
  have hzero := zeroedAt_zeroReleased hstart z.addr n
  have hsealed := (hzero.zeroable hstart).sealedG
  obtain ⟨_, _, _, _, hrest⟩ := hzero.rest
  generalize hx : zeroReleased (endSeals s z.addr n) z.addr n = x at hzero hsealed hrest
  have hrec := Recorded.raiseEvent { x with hostIf := { x.hostIf with zreq := x.hostIf.zreq.eraseIdx i } } .host 0 5
  obtain ⟨v, hv⟩ := hrec.hostIf
  have hzreq : x.hostIf.zreq = s.hostIf.zreq := by rw [hrest]; rfl
  have hdo : doZeroDone s i = raiseEvent { x with hostIf := { x.hostIf with zreq := x.hostIf.zreq.eraseIdx i } } .host 0 5 := by
    rw [doZeroDone, hz]
    dsimp only
    rw [if_neg (by simp [hlamb]), hn, hx]
  have hmem := hrec.mem
  have hpoison := hrec.poison
  rw [exec_zeroDone, hdo]
  refine next_of_live hlive
    ⟨?_, event_raiseEvent_self _ _ _ (by decide), fun g => ?_, fun a hlo hhi hg hk => ⟨?_, fun hal => ?_⟩, fun a ha => ?_⟩
  · exact (congrArg HostIf.zreq hv).trans (by rw [hzreq])
  · exact (iff_of_eq (congrArg (g ∈ ·) (hrec.sealedG.trans hsealed))).trans mem_endSeals
  · exact (congrArg (fun m : Memory => cellGet m.cells a) hmem).trans
      (hzero.inside a ⟨⟨⟨hlo, hhi⟩, hsealed ▸ hrec.sealedG ▸ hg⟩, hk⟩)
  · refine (congrArg (fun l : List Nat => l.contains (a / 64)) hpoison).trans (hzero.clean (a / 64) ⟨⟨by omega, ?_⟩, ?_⟩)
    · rw [show a / 64 * 64 / 2 ^ 21 = a / 2 ^ 21 by omega]
      exact hsealed ▸ hrec.sealedG ▸ hg
    · exact (keptAt_of_page_eq s (by omega)).trans hk
  · refine (congrArg (fun m : Memory => cellGet m.cells a) hmem).trans (hzero.outside a (fun hin => ?_))
    obtain ⟨⟨⟨hlo, hhi⟩, -⟩, hk⟩ := hin
    have hks : keptAt s a = false := hk
    rw [hks] at ha
    simp at ha
    omega

/-- Settles O45: a seal reads and seals its granule; a released range is zeroed piece by piece, by what each piece does to the memory. -/
theorem sealsAndZeroing : Obligations.SealsAndZeroing := by
  unfold Obligations.SealsAndZeroing
  intro s hlive
  exact ⟨fun r t a h => tenantSeal_clauses h, fun r a h hown => ownerSeal_clauses h hown, fun g q hq => sealTakeEffect_clause hlive hq,
    fun r n h hown => zreqSubmit_clauses h hown, fun i z hz hlamb hcuts w => zeroDone_clause hlive hz hlamb hcuts w⟩

end Sys2Proof.Machine
end

section
/-! PROOFS. Shared sets: load, activate, retire (R382, R383). -/

namespace Sys2Proof.Machine

/-! Scratchpads and their sets. -/

@[simp] theorem spad_modSpad_self (s : State) (d : Nat) (f : Spad → Spad) : spad (modSpad s d f) d = f (spad s d) := by simp [spad, modSpad]

theorem sharedSet_modSet (s : State) (d k j : Nat) (f : SharedSet → SharedSet) :
    sharedSet (modSet s d k f) d j = if k = j then f (sharedSet s d k) else sharedSet s d j := by
  simp only [sharedSet, modSet, spad_modSpad_self, tabGet_tabMod]

theorem Recorded.spad_eq {s u : State} (h : Recorded s u) (d : Nat) : spad u d = spad s d := by simp only [spad, h.spads]

theorem Recorded.sharedSet_eq {s u : State} (h : Recorded s u) (d k : Nat) : sharedSet u d k = sharedSet s d k := by
  simp only [sharedSet, h.spad_eq]

theorem StoredFrom.spad_eq {s u : State} (h : StoredFrom s u) (d : Nat) : (spad u d).wd = (spad s d).wd ∧ (spad u d).sets = (spad s d).sets := by
  obtain ⟨-, -, hspad, -⟩ := h
  constructor <;> rw [hspad]

theorem StoredFrom.sharedSet_eq {s u : State} (h : StoredFrom s u) (d k : Nat) : sharedSet u d k = sharedSet s d k := by
  simp only [sharedSet, (h.spad_eq d).2]

/-! Tenants that map a range. -/

theorem SameWalks.leavesFrom_eq {s u : State} (h : SameWalks s u) (lvl tbl : Nat) : leavesFrom u lvl tbl = leavesFrom s lvl tbl := by
  have hpoison : linePoison u = linePoison s := by funext l; simp only [linePoison, h.poison]
  have hbyte : memByte u = memByte s := by funext a; simp only [memByte, h.mem]
  have hnat : memNat u = memNat s := by funext a n; simp only [memNat, memBytes, hbyte]
  have hused : usedEntries u = usedEntries s := by funext t; simp only [usedEntries, h.mem]
  induction lvl generalizing tbl with
  | zero => rfl
  | succ lvl ih => simp only [leavesFrom, h.backed_eq, hpoison, hnat, hused, ih]

theorem anyMaps_opened (s : State) (r : Requester) (b : Block) (i off a n : Nat) : anyMaps (opened s r b i off) a n = anyMaps s a n := by
  have hwalk := SameWalks.opened s r b i off
  simp only [anyMaps, tenantNums, tenantMaps, opened_tenants, ten_opened, hwalk.leavesFrom_eq]

/-! SET_CMD. -/

section SetCmd

variable {s : State} {r : Requester} {d : Nat}

theorem setIdx_opened (s : State) (r : Requester) (d off : Nat) : setIdx (opened s r .spad d off) d = setIdx s d := by
  simp only [setIdx, regWord_opened]

theorem setRange_opened (s : State) (r : Requester) (d off k : Nat) : setRange (opened s r .spad d off) d k = setRange s d k := by
  simp only [setRange, regWord_opened]

/-- The range of a set that SET_CMD load refuses. -/
def loadRefused (s : State) (d : Nat) : Bool :=
  let k := setIdx s d
  let x := setRange s d k
  (sharedSet s d k).st != 0 || decide (x.2 = 0) || decide (129024 < x.1 + x.2)
    || (spad s d).sets.any (fun e => e.1 != k && e.2.st != 0 && rangesMeet e.2.first e.2.pages x.1 x.2)
    || anyMaps s (upperPage d x.1) (x.2 * 4096)

theorem doSetLoad_atPage (h : atPage s r .spad d = true) : doSetLoad s r d =
    if loadRefused s d then regError (opened s r .spad d 0x118) .spad d 0x118
    else modSet (opened s r .spad d 0x118) d (setIdx s d)
      (fun _ => { st := 1, first := (setRange s d (setIdx s d)).1, pages := (setRange s d (setIdx s d)).2 }) := by
  have hrec := Recorded.opened s r .spad d 0x118
  rw [doSetLoad, regAccess_atPage h, if_pos rfl]
  dsimp only
  rw [setIdx_opened, setRange_opened, hrec.sharedSet_eq, hrec.spad_eq, anyMaps_opened]
  rfl

theorem loadRefused_eq_false : loadRefused s d = false ↔
    let k := setIdx s d
    let x := setRange s d k
    (sharedSet s d k).st = 0 ∧ 0 < x.2 ∧ x.1 + x.2 ≤ 129024 ∧ anyMaps s (upperPage d x.1) (x.2 * 4096) = false
      ∧ ∀ e ∈ (spad s d).sets, e.1 ≠ k → e.2.st ≠ 0 → rangesMeet e.2.first e.2.pages x.1 x.2 = false := by
  have hmeets : (spad s d).sets.any (fun e => e.1 != setIdx s d && e.2.st != 0
        && rangesMeet e.2.first e.2.pages (setRange s d (setIdx s d)).1 (setRange s d (setIdx s d)).2) = false ↔
      ∀ e ∈ (spad s d).sets, e.1 ≠ setIdx s d → e.2.st ≠ 0 →
        rangesMeet e.2.first e.2.pages (setRange s d (setIdx s d)).1 (setRange s d (setIdx s d)).2 = false := by
    simp [List.any_eq_false]
  simp only [loadRefused, Bool.or_eq_false_iff, hmeets, bne_eq_false_iff_eq, decide_eq_false_iff_not]
  constructor
  · rintro ⟨⟨⟨⟨hst, hpages⟩, hend⟩, hmeet⟩, hmap⟩
    exact ⟨hst, by omega, by omega, hmap, hmeet⟩
  · rintro ⟨hst, hpages, hend, hmap, hmeet⟩
    exact ⟨⟨⟨⟨hst, by omega⟩, by omega⟩, hmeet⟩, hmap⟩

theorem doSetActivate_atPage (h : atPage s r .spad d = true) : doSetActivate s r d =
    if (sharedSet s d (setIdx s d)).st = 1 then modSet (opened s r .spad d 0x118) d (setIdx s d) (fun x => { x with activating := true })
    else regError (opened s r .spad d 0x118) .spad d 0x118 := by
  rw [doSetActivate, regAccess_atPage h, if_pos rfl]
  dsimp only
  rw [setIdx_opened, (Recorded.opened s r .spad d 0x118).sharedSet_eq]

theorem doSetRetire_atPage (h : atPage s r .spad d = true) : doSetRetire s r d =
    let e := sharedSet s d (setIdx s d)
    if s.mgmt.lamb || (e.st != 0 && anyMaps s (upperPage d e.first) (e.pages * 4096)) then regError (opened s r .spad d 0x118) .spad d 0x118
    else retireSet (opened s r .spad d 0x118) d (setIdx s d) := by
  have hlamb : (opened s r .spad d 0x118).mgmt = s.mgmt := by simp [opened]
  rw [doSetRetire, regAccess_atPage h, if_pos rfl]
  dsimp only
  rw [setIdx_opened, (Recorded.opened s r .spad d 0x118).sharedSet_eq, anyMaps_opened, hlamb]
  cases s.mgmt.lamb <;> simp

end SetCmd

theorem storedFrom_zeroOpen (s : State) (a n : Nat) : StoredFrom s (zeroOpen s a n) := by
  unfold zeroOpen
  split
  · exact .refl s
  · refine .foldl _ _ (fun x g => ?_) s
    dsimp only
    split
    · exact .refl x
    · exact storedFrom_zeroEngine _ _ _

/-- R383: a retired set is EMPTY, none of its pages is withdrawn, and the other sets are as before. -/
theorem spad_retireSet (s : State) (d k : Nat) : (spad (retireSet s d k) d).sets = tabDel (spad s d).sets k
    ∧ (spad (retireSet s d k) d).wd = (spad s d).wd.filter (fun w => w.setNo != k) := by
  unfold retireSet
  extract_lets e s1 s2 s3
  have h1 : StoredFrom s s1 := storedFrom_zeroOpen s _ _
  have h2 : StoredFrom s1 s2 := storedFrom_zeroOpen s1 _ _
  have h3 : StoredFrom s2 s3 := (storedFrom_zeroOpen s2 _ _).trans (storedFrom_zeroOpen _ _ _)
  obtain ⟨hwd, hsets⟩ := ((h1.trans h2).trans h3).spad_eq d
  rw [spad_modSpad_self]
  exact ⟨by rw [hsets], by rw [hwd]⟩

theorem setCmd_clauses {s : State} {r : Requester} {d : Nat} (h : atPage s r .spad d = true) :
    let k := setIdx s d
    let x := setRange s d k
    let free := (sharedSet s d k).st = 0 ∧ 0 < x.2 ∧ x.1 + x.2 ≤ 129024 ∧ anyMaps s (upperPage d x.1) (x.2 * 4096) = false
      ∧ ∀ e ∈ (spad s d).sets, e.1 ≠ k → e.2.st ≠ 0 → rangesMeet e.2.first e.2.pages x.1 x.2 = false
    (free → exec (.setLoad r d) s = .next (whenLive s (modSet (opened s r .spad d 0x118) d k (fun _ => { st := 1, first := x.1, pages := x.2 }))))
    ∧ (¬ free → exec (.setLoad r d) s = .next (whenLive s (regError (opened s r .spad d 0x118) .spad d 0x118)))
    ∧ ((sharedSet s d k).st = 1 → exec (.setActivate r d) s
        = .next (whenLive s (modSet (opened s r .spad d 0x118) d k (fun (y : SharedSet) => { y with activating := true }))))
    ∧ ((sharedSet s d k).st ≠ 1 → exec (.setActivate r d) s = .next (whenLive s (regError (opened s r .spad d 0x118) .spad d 0x118)))
    ∧ (s.mgmt.lamb = true
          ∨ ((sharedSet s d k).st ≠ 0 ∧ anyMaps s (upperPage d (sharedSet s d k).first) ((sharedSet s d k).pages * 4096) = true) →
        exec (.setRetire r d) s = .next (whenLive s (regError (opened s r .spad d 0x118) .spad d 0x118)))
    ∧ (s.mgmt.lamb = false → anyMaps s (upperPage d (sharedSet s d k).first) ((sharedSet s d k).pages * 4096) = false →
        ∃ u, exec (.setRetire r d) s = .next u ∧ sharedSet u d k = {} ∧ (∀ k', k' ≠ k → sharedSet u d k' = sharedSet s d k')
          ∧ ∀ w ∈ (spad u d).wd, w.setNo ≠ k) := by
  intro k x free
  rw [exec_setLoad, exec_setActivate, exec_setRetire, doSetLoad_atPage h, doSetActivate_atPage h, doSetRetire_atPage h]
  refine ⟨fun hf => ?_, fun hf => ?_, fun hst => by rw [if_pos hst], fun hst => by rw [if_neg hst], fun hno => ?_, fun hlamb hmap => ?_⟩
  · rw [loadRefused_eq_false.2 hf]
    rfl
  · rw [if_pos (by_contra fun hn => hf (loadRefused_eq_false.1 (Bool.eq_false_iff.2 hn)))]
  · dsimp only
    rw [if_pos]
    rcases hno with hlamb | ⟨hst, hmap⟩
    · simp [hlamb]
    · simp [k] at hst hmap
      simp [hst, hmap]
  · dsimp only
    rw [if_neg (by simp only [hlamb, k] at hmap ⊢; simp [hmap])]
    obtain ⟨hsets, hwd⟩ := spad_retireSet (opened s r .spad d 0x118) d k
    have hspad := (Recorded.opened s r .spad d 0x118).spad_eq d
    rw [hspad] at hsets hwd
    have hset (j : Nat) : sharedSet (retireSet (opened s r .spad d 0x118) d k) d j = if k = j then {} else sharedSet s d j := by
      simp only [sharedSet, hsets, tabGet, tabFind_tabDel]
      split <;> rfl
    refine next_of_live (live_of_atPage h) ⟨(hset k).trans (if_pos rfl), fun j hj => (hset j).trans (if_neg hj.symm), fun w hw => ?_⟩
    have hw' : w ∈ (spad s d).wd.filter (fun w => w.setNo != k) := hwd ▸ hw
    simpa using (List.mem_filter.1 hw').2

/-- R383: what makes a set ACTIVE leaves every set's record but its own. -/
theorem activateDone_clause {s : State} (hlive : live s = true) {d k : Nat} (hst : (sharedSet s d k).st = 1)
    (hact : (sharedSet s d k).activating = true) (hready : blkReady s .spad d = true) :
    ∃ u, exec (.setActivateDone d k) s = .next u ∧ sharedSet u d k = { sharedSet s d k with st := 2, activating := false } := by
  have hstore := StoredFrom.foldl (fun x p => publishPage x d p) (natsFrom (sharedSet s d k).first (sharedSet s d k).pages)
    (fun x p => storedFrom_publishPage x d p) s
  have hset := (sharedSet_modSet ((natsFrom (sharedSet s d k).first (sharedSet s d k).pages).foldl (fun x p => publishPage x d p) s) d k k
    (fun x => { x with st := 2, activating := false })).trans (if_pos rfl)
  rw [hstore.sharedSet_eq] at hset
  rw [exec_setActivateDone, doActivateDone]
  dsimp only
  rw [if_pos (by simp [hst, hact, hready])]
  exact next_of_live hlive hset

end Sys2Proof.Machine
end

section
/-! PROOFS. Shared sets: the return of a withdrawn page (R387 to R390). -/

namespace Sys2Proof.Machine

/-! What the lower tier's errors lead to is writes to memory. -/

theorem storedFrom_fixGolden (s : State) (d p : Nat) : StoredFrom s (fixGolden s d p) := by
  unfold fixGolden
  split
  · exact .refl s
  · dsimp only
    split
    · exact (storedFrom_putPage s _ _).trans (storedFrom_raiseEvent _ _ _ _)
    · exact .refl s

theorem storedFrom_fixDigest (s : State) (a other : Nat) : StoredFrom s (fixDigest s a other) := by
  unfold fixDigest
  split
  · exact .refl s
  · exact storedFrom_store _ _ _

theorem storedFrom_lowerError (s : State) (a : Nat) : StoredFrom s (lowerError s a) := by
  unfold lowerError
  split
  · dsimp only
    split
    · exact storedFrom_fixGolden _ _ _
    · split
      · exact storedFrom_fixDigest _ _ _
      · exact storedFrom_fixDigest _ _ _
  · exact .refl s

theorem storedFrom_lowerRead (s : State) (p : Nat → Bool) : StoredFrom s (lowerRead s p) :=
  (storedFrom_meetErrs s p).trans (.foldl _ _ (fun x l => storedFrom_lowerError x (l * 64)) _)

/-! A page written whole. -/

theorem length_memBytes (s : State) (a n : Nat) : (memBytes s a n).length = n := by simp [memBytes, natsFrom]

theorem memBytes_congr {s u : State} (h : u.mem = s.mem) (a n : Nat) : memBytes u a n = memBytes s a n := by
  have hbyte : memByte u = memByte s := by funext b; simp only [memByte, h]
  rw [memBytes, memBytes, hbyte]

theorem anyPoison_congr {s u : State} (h : u.poison = s.poison) (a n : Nat) : anyPoison u a n = anyPoison s a n := by
  have hline : linePoison u = linePoison s := by funext l; simp only [linePoison, h]
  rw [anyPoison, anyPoison, hline]

theorem memBytes_putPage {s : State} (w : s.mem.wf = true) (a : Nat) (bs : List Byte) : memBytes (putPage s a bs) a bs.length = bs :=
  memBytes_memPut a bs ((storedFrom_zeroEngine s a 4096).wf w)

theorem anyPoison_putPage (s : State) {a : Nat} (ha : a % 64 = 0) (bs : List Byte) : anyPoison (putPage s a bs) a 4096 = false := by
  refine List.any_eq_false.2 (fun l hl => ?_)
  rw [linesOf, if_neg (by decide)] at hl
  simp only [natsFrom, List.mem_map, List.mem_range] at hl
  obtain ⟨j, hj, rfl⟩ := hl
  have hout : ¬ ((j + a / 64) * 64 < a ∨ a + 4096 ≤ (j + a / 64) * 64) := by omega
  simp only [linePoison, putPage, memPut, uncache, zeroEngine, zeroRange, List.contains_eq_mem, List.mem_filter, Bool.or_eq_true, decide_eq_true_eq]
  exact fun h => hout h.2

/-! A page that comes back. -/

/-- A page written and taken from the table, and its set ACTIVE once no page of it is withdrawn. -/
def broughtBack (s : State) (d p k : Nat) (bs : List Byte) : State :=
  let s := modSpad (putPage s (upperPage d p) bs) d (fun x => { x with wd := x.wd.filter (fun y => y.page != p) })
  modSet s d k (fun e => { e with st := if e.st = 3 && ((spad s d).wd.filter (fun y => y.setNo == k)).isEmpty then 2 else e.st })

theorem upperPage_aligned (d p : Nat) : upperPage d p % 64 = 0 := by unfold upperPage upperBase; omega

section Back

variable {s : State} {d p : Nat}

theorem recorded_bringBack {w : Withdrawn} (hw : (spad s d).wd.find? (fun y => y.page == p) = some w)
    (hs : isSealed s (upperPage d p) = false) (src : Nat) (bs : List Byte) :
    Recorded (raiseEvent (broughtBack s d p w.setNo bs) .spad d 3) (bringBack s d p src bs) := by
  unfold bringBack
  rw [hw]
  dsimp only
  rw [hs]
  exact (Recorded.memEvents _ _ _).trans (.memoryEntries _ _ _ _ _ _ _)

theorem wd_broughtBack (s : State) (d p k : Nat) (bs : List Byte) :
    (spad (broughtBack s d p k bs) d).wd = (spad s d).wd.filter (fun y => y.page != p) := by
  rw [broughtBack, modSet, spad_modSpad_self, spad_modSpad_self]
  dsimp only
  rw [((storedFrom_putPage s (upperPage d p) bs).spad_eq d).1]

/-- R387: a set is ACTIVE again once no other page of it is withdrawn. -/
theorem st_broughtBack {k : Nat} (hst : (sharedSet s d k).st = 3) (honly : ∀ y ∈ (spad s d).wd, y.setNo = k → y.page = p) (bs : List Byte) :
    (sharedSet (broughtBack s d p k bs) d k).st = 2 := by
  have hput := storedFrom_putPage s (upperPage d p) bs
  have hset : sharedSet (modSpad (putPage s (upperPage d p) bs) d (fun x => { x with wd := x.wd.filter (fun y => y.page != p) })) d k
      = sharedSet s d k := by
    rw [← hput.sharedSet_eq d k]
    simp only [sharedSet, spad_modSpad_self]
  have hnone : ((spad s d).wd.filter (fun y => y.page != p)).filter (fun y => y.setNo == k) = [] := by
    refine List.filter_eq_nil_iff.2 (fun y hy hk => ?_)
    obtain ⟨hy, hp⟩ := List.mem_filter.1 hy
    simp [honly y hy (by simpa using hk)] at hp
  rw [broughtBack, sharedSet_modSet, if_pos rfl]
  dsimp only
  rw [spad_modSpad_self, (hput.spad_eq d).1, hnone, hset, hst]
  rfl

/-- What a withdrawn page that comes back leaves (R387, R388). -/
structure Back (s : State) (d p : Nat) (bs : List Byte) (u : State) : Prop where
  bytes : memBytes u (upperPage d p) 4096 = bs
  poison : anyPoison u (upperPage d p) 4096 = false
  gone : ∀ y ∈ (spad u d).wd, y.page ≠ p
  event : (page u .spad d).event.getLsbD 3 = true
  active : ∀ w, (spad s d).wd.find? (fun y => y.page == p) = some w → (sharedSet s d w.setNo).st = 3 →
    (∀ y ∈ (spad s d).wd, y.setNo = w.setNo → y.page = p) → (sharedSet u d w.setNo).st = 2

theorem back_bringBack {w : Withdrawn} (hw : (spad s d).wd.find? (fun y => y.page == p) = some w)
    (hs : isSealed s (upperPage d p) = false) (wf : s.mem.wf = true) (src : Nat) {bs : List Byte} (hlen : bs.length = 4096) :
    Back s d p bs (bringBack s d p src bs) := by
  have hrec := recorded_bringBack hw hs src bs
  have hall := (Recorded.raiseEvent (broughtBack s d p w.setNo bs) .spad d 3).trans hrec
  refine ⟨?_, ?_, fun y hy => ?_, hrec.events _ _ _ (event_raiseEvent_self _ _ _ (by decide)), fun w' hw' hst honly => ?_⟩
  · rw [memBytes_congr hall.mem, ← hlen]
    exact memBytes_putPage wf (upperPage d p) bs
  · rw [anyPoison_congr hall.poison]
    exact anyPoison_putPage s (upperPage_aligned d p) bs
  · rw [hall.spad_eq, wd_broughtBack] at hy
    simpa using (List.mem_filter.1 hy).2
  · obtain rfl : w = w' := Option.some.inj (hw.symm.trans hw')
    rw [hall.sharedSet_eq]
    exact st_broughtBack hst honly bs

end Back

theorem pageRestore_clauses {s : State} (hlive : live s = true) (wf : s.mem.wf = true) {d p : Nat} {w : Withdrawn}
    (hrest : s.mgmt.restarting = false) (hlamb : s.mgmt.lamb = false) (hready : blkReady s .spad d = true)
    (hw : (spad s d).wd.find? (fun y => y.page == p) = some w) (hst : (sharedSet s d w.setNo).st = 3) :
    let x := lowerRead s (goldenLine d p)
    (goldenGood x d p = true → isSealed s (upperPage d p) = false → s.hen.cuts = [] → ∃ u, exec (.sharedPageRestore d p) s = .next u
      ∧ (∀ y ∈ (spad u d).wd, y.page ≠ p) ∧ (page u .spad d).event.getLsbD 3 = true
      ∧ memBytes u (upperPage d p) 4096 = memBytes x (goldenPage d p) 4096 ∧ anyPoison u (upperPage d p) 4096 = false
      ∧ ((∀ y ∈ (spad s d).wd, y.setNo = w.setNo → y.page = p) → (sharedSet u d w.setNo).st = 2))
    ∧ (goldenGood x d p = false → w.img = false → ∃ u, exec (.sharedPageRestore d p) s = .next u
      ∧ (spad u d).wd = (spad s d).wd.map (fun (y : Withdrawn) => if y.page == p then { y with img := true } else y)
      ∧ (page u .spad d).event.getLsbD 5 = true ∧ .notice 4 [d, w.setNo, p] ∈ u.out ∧ u.mem = x.mem)
    ∧ (goldenGood x d p = false → w.img = true → exec (.sharedPageRestore d p) s = .next (whenLive s x)) := by
  intro x
  have hread : StoredFrom s x := storedFrom_lowerRead s _
  have hdo : doPageRestore s d p = if goldenGood x d p then bringBack x d p 0 (memBytes x (goldenPage d p) 4096)
      else if w.img then x else askImage x d w := by
    unfold doPageRestore
    rw [hw]
    dsimp only
    rw [if_neg (by simp [hrest, hlamb, hready, hst])]
  obtain ⟨hwd, -⟩ := hread.spad_eq d
  rw [exec_sharedPageRestore, hdo]
  refine ⟨fun hgood hs _ => ?_, fun hbad himg => ?_, fun hbad himg => by rw [hbad, himg]; rfl⟩
  · obtain ⟨-, -, -, -, hsealed, -⟩ := hread.fields
    have hs' : isSealed x (upperPage d p) = false := by rw [isSealed, hsealed]; exact hs
    have hw' := hw
    rw [← hwd] at hw'
    have hback := back_bringBack hw' hs' (hread.wf wf) 0 (length_memBytes x (goldenPage d p) 4096)
    rw [hgood, if_pos rfl]
    refine next_of_live hlive ⟨hback.gone, hback.event, hback.bytes, hback.poison, fun honly => ?_⟩
    exact hback.active w hw' (by rw [hread.sharedSet_eq]; exact hst) (by rw [hwd]; exact honly)
  · have hpage : w.page = p := by simpa using List.find?_some hw
    have hask := spad_modSpad_self x d (fun y => { y with wd := y.wd.map (fun z => if z.page == w.page then { z with img := true } else z) })
    rw [hbad, himg]
    have hrec : Recorded (modSpad x d (fun y => { y with wd := y.wd.map (fun z => if z.page == w.page then { z with img := true } else z) }))
      (askImage x d w) := (Recorded.raiseEvent _ .spad d 5).trans (.emit _ _)
    have hevent : (page (askImage x d w) .spad d).event.getLsbD 5 = true :=
      (Recorded.emit _ _).events _ _ _ (event_raiseEvent_self _ _ _ (by decide))
    have hsent : Out.notice 4 [d, w.setNo, w.page] ∈ (askImage x d w).out := List.mem_append_right _ (List.mem_singleton_self _)
    subst hpage
    refine next_of_live hlive ⟨?_, hevent, hsent, hrec.mem⟩
    exact (congrArg Spad.wd ((hrec.spad_eq d).trans hask)).trans (by rw [hwd])

/-! What a read of lines depends on. -/

section Congr

variable {s t : State} (h : heldData s = heldData t) (l : Nat)
include h

theorem heldData_clrErrs_congr : heldData (clrErrs s l) = heldData (clrErrs t l) :=
  congrArg (fun x => (x.1, x.2.1, x.2.2.1.filter (fun e => e.line != l), x.2.2.2)) h

theorem heldData_setPoison_congr : heldData (setPoison s l) = heldData (setPoison t l) :=
  congrArg (fun x => (Memory.mk (cellsZero x.1.cells (l * 64) 64), insNat l x.2.1, x.2.2.1.filter (fun e => e.line != l), x.2.2.2)) h

theorem heldData_drawn_congr (n : Nat) : heldData (drawn s n) = heldData (drawn t n) :=
  congrArg (fun x => (x.1, x.2.1, x.2.2.1, x.2.2.2 + n)) h

theorem heldData_memPut_congr (a : Nat) (bs : List Byte) : heldData (memPut s a bs) = heldData (memPut t a bs) :=
  congrArg (fun x => (Memory.mk (cellsPut x.1.cells a bs), x.2)) h

/-- A read of a line leaves in the memories what depends on what they held alone. -/
theorem heldData_meetErr_congr : heldData (meetErr s l) = heldData (meetErr t l) := by
  have hclr := heldData_clrErrs_congr h l
  have herrs : s.memErrs = t.memErrs := congrArg (·.2.2.1) h
  have hfree : (clrErrs s l).freeCount = (clrErrs t l).freeCount := congrArg (·.2.2.2) h
  unfold meetErr
  rw [show errsAt s l = errsAt t l by simp only [errsAt, herrs]]
  dsimp only
  rw [hfree]
  split
  · exact hclr
  · rw [heldData_corrected, heldData_corrected, hclr]
  · rw [heldData_meetUe, heldData_meetUe, heldData_setPoison_congr hclr l]
  · split
    · rw [heldData_meetUe, heldData_meetUe, heldData_setPoison_congr (heldData_drawn_congr hclr 1) l]
    · rw [heldData_corrected, heldData_corrected, heldData_memPut_congr (heldData_drawn_congr hclr 65)]

end Congr

theorem heldData_meetErrs_congr {s t : State} (h : heldData s = heldData t) (p : Nat → Bool) :
    heldData (meetErrs s p) = heldData (meetErrs t p) := by
  have hfold (l : List Nat) (x y : State) (hxy : heldData x = heldData y) : heldData (l.foldl meetErr x) = heldData (l.foldl meetErr y) := by
    induction l generalizing x y with
    | nil => exact hxy
    | cons a l ih => exact ih _ _ (heldData_meetErr_congr hxy a)
  have herrs : errLines s p = errLines t p := by
    rw [errLines, errLines, show s.memErrs = t.memErrs from congrArg (·.2.2.1) h]
  rw [meetErrs, meetErrs, herrs]
  exact hfold _ _ _ h

/-! What is served. -/

/-- `u` serves the addresses that `s` serves: windows, ports, instances' STATE and withdrawn pages are alike. -/
structure SameService (s u : State) : Prop where
  window : ∀ n, windowOf u n = windowOf s n
  usable : ∀ p, (portOf u p).usable = (portOf s p).usable
  st : ∀ b i, blkState u b i = blkState s b i
  wd : ∀ d, (spad u d).wd = (spad s d).wd
  sets : ∀ d, (spad u d).sets = (spad s d).sets

namespace SameService

theorem refl (s : State) : SameService s s := ⟨fun _ => rfl, fun _ => rfl, fun _ _ => rfl, fun _ => rfl, fun _ => rfl⟩

theorem trans {s u v : State} (h : SameService s u) (k : SameService u v) : SameService s v :=
  ⟨fun n => (k.window n).trans (h.window n), fun p => (k.usable p).trans (h.usable p), fun b i => (k.st b i).trans (h.st b i),
    fun d => (k.wd d).trans (h.wd d), fun d => (k.sets d).trans (h.sets d)⟩

theorem of_stored {s u : State} (h : StoredFrom s u) (hpages : u.pages = s.pages) : SameService s u := by
  have hpage (b : Block) (i : Nat) : page u b i = page s b i := page_congr hpages b i
  have ⟨_, _, _, hport⟩ := h
  exact ⟨fun n => by simp only [windowOf, regWord2, regWord, hpage], fun p => by rw [hport], fun b i => by simp only [blkState, hpage],
    fun d => (h.spad_eq d).1, fun d => (h.spad_eq d).2⟩

/-- An update of a page that leaves its STATE, and its registers where it holds the windows. -/
theorem modPage (s : State) (b : Block) (i : Nat) {f : Page → Page} (hregs : ∀ p, pageKey b i ≠ pageKey .lpc 0 ∨ (f p).regs = p.regs)
    (hst : ∀ p, (f p).st = p.st) : SameService s (modPage s b i f) := by
  refine ⟨fun n => ?_, fun _ => rfl, fun c k => ?_, fun _ => rfl, fun _ => rfl⟩
  · have hpage : (page (Machine.modPage s b i f) .lpc 0).regs = (page s .lpc 0).regs := by
      rw [page_modPage]
      split
      · next heq => rw [(hregs _).resolve_left (fun hne => hne heq)]; simp only [page, heq]
      · rfl
    simp only [windowOf, regWord2, regWord, hpage]
  · rw [blkState, page_modPage]
    split
    · next heq => rw [hst]; simp only [blkState, page, heq]
    · rfl

theorem perfAdd (s : State) (b : Block) (i k n : Nat) : SameService s (perfAdd s b i k n) := modPage s b i (fun _ => .inr rfl) (fun _ => rfl)

theorem setRegWord (s : State) {b : Block} {i : Nat} (h : pageKey b i ≠ pageKey .lpc 0) (off v : Nat) : SameService s (setRegWord s b i off v) :=
  modPage s b i (fun _ => .inl h) (fun _ => rfl)

theorem raiseEvent (s : State) (b : Block) (i n : Nat) : SameService s (raiseEvent s b i n) := by
  have hwalk := SameWalks.raiseEvent s b i n
  have hrec := Recorded.raiseEvent s b i n
  exact ⟨fun m => by simp only [windowOf, regWord2, regWord, hwalk.regs], fun p => by rw [hrec.portOf_eq], hwalk.st,
    fun d => by rw [hrec.spad_eq], fun d => by rw [hrec.spad_eq]⟩

theorem blkError (s : State) (b : Block) (i cls code addr tenant : Nat) : SameService s (blkError s b i cls code addr tenant) := by
  have hnote := modPage s b i (f := noteErr cls code addr tenant) (fun p => .inr (by unfold noteErr; split <;> rfl))
    (fun p => by unfold noteErr; split <;> rfl)
  have hlog (x : State) : SameService x (rasLog x b i cls (code % 256) addr tenant) := by
    have hput := (of_stored (storedFrom_putRas x (rasEntry x b i cls (code % 256) addr tenant)) rfl).trans (perfAdd _ .mgmt 0 2 1)
    unfold rasLog
    dsimp only
    split
    · exact hput.trans (raiseEvent _ _ _ _)
    · exact hput
  unfold Machine.blkError
  dsimp only
  split
  · exact hnote.trans (hlog _)
  · exact hnote

theorem corrected (s : State) (a : Nat) : SameService s (corrected s a) := by
  unfold Machine.corrected
  split
  · exact (raiseEvent _ _ _ _).trans (perfAdd _ _ _ _ _)
  · split
    · exact (raiseEvent _ _ _ _).trans (perfAdd _ _ _ _ _)
    · exact refl s

theorem meetUe (s : State) (l : Nat) : SameService s (meetUe s l) := by
  have hset : SameService s (setPoison s l) := of_stored (storedFrom_setPoison s l) rfl
  unfold Machine.meetUe
  dsimp only
  refine hset.trans ?_
  split
  · exact ((of_stored (storedFrom_spadUe _ _ _ (fun x => by split <;> rfl)) rfl).trans (raiseEvent _ _ _ _)).trans (blkError _ _ _ _ _ _ _)
  · split
    · exact ((of_stored (storedFrom_portUe _ _ _ (fun x => by split <;> rfl)) rfl).trans (raiseEvent _ _ _ _)).trans (blkError _ _ _ _ _ _ _)
    · exact refl _

theorem meetErr (s : State) (l : Nat) : SameService s (meetErr s l) := by
  have hclr : SameService s (clrErrs s l) := of_stored (storedFrom_clrErrs s l) rfl
  unfold Machine.meetErr
  dsimp only
  refine hclr.trans ?_
  split
  · exact refl _
  · exact corrected _ _
  · exact meetUe _ _
  · split
    · exact (of_stored (storedFrom_drawn _ _) rfl).trans (meetUe _ _)
    · exact (of_stored ((storedFrom_drawn _ 65).trans (storedFrom_memPut _ _ _)) rfl).trans (corrected _ _)

theorem meetErrs (s : State) (p : Nat → Bool) : SameService s (meetErrs s p) :=
  List.foldlRecOn (motive := SameService s) _ _ (refl s) (fun _ hx l _ => hx.trans (meetErr _ l))

theorem servedRange_eq {s u : State} (h : SameService s u) (a n : Nat) : servedRange u a n = servedRange s a n := by
  have hwindow : windowOf u = windowOf s := funext h.window
  have hst : blkState u = blkState s := by funext b i; exact h.st b i
  have hup : portUp u = portUp s := by funext p; simp only [portUp, blkReady, hst]
  have hback : backed u = backed s := by
    funext a
    simp only [backed, winValid, windowAt, windows, hwindow, h.usable, hup, blkReady, hst]
  have hwithdrawn : withdrawn u = withdrawn s := by funext a; simp only [withdrawn, setOfPage, h.wd, h.sets]
  simp only [servedRange, served, hback, hwithdrawn]

end SameService

/-! An owner's image. -/

/-- R388: the image at `a` is read whole and has the page's digest. -/
def imageGood (x : State) (d p a : Nat) : Bool :=
  (servedRange x a 4096 && !anyPoison x a 4096
      && ((pageDigest x d p).isSome || (servedRange x (a + 4096) 32 && !anyPoison x (a + 4096) 32)))
    && sha256 (memBytes x a 4096) == (pageDigest x d p).getD (memBytes x (a + 4096) 32)

theorem imageGood_iff (x : State) (d p a : Nat) : imageGood x d p a = true ↔
    servedRange x a 4096 = true ∧ anyPoison x a 4096 = false
      ∧ sha256 (memBytes x a 4096) = (pageDigest x d p).getD (memBytes x (a + 4096) 32)
      ∧ ((pageDigest x d p).isSome = true ∨ (servedRange x (a + 4096) 32 = true ∧ anyPoison x (a + 4096) 32 = false)) := by
  simp only [imageGood, Bool.and_eq_true, Bool.or_eq_true, Bool.not_eq_true', beq_iff_eq]
  constructor
  · rintro ⟨⟨⟨hserved, hclean⟩, hdig⟩, hsha⟩
    exact ⟨hserved, hclean, hsha, hdig⟩
  · rintro ⟨hserved, hclean, hsha, hdig⟩
    exact ⟨⟨⟨hserved, hclean⟩, hdig⟩, hsha⟩

theorem imageGood_congr {x y : State} (h : heldData y = heldData x) (hs : SameService x y) (d p a : Nat) : imageGood y d p a = imageGood x d p a := by
  have hmem : y.mem = x.mem := congrArg (·.1) h
  have hpoison : y.poison = x.poison := congrArg (·.2.1) h
  simp only [imageGood, pageDigest, hs.servedRange_eq, anyPoison_congr hpoison, memBytes_congr hmem]

/-- The lines that an image is read from, with the 32 bytes behind it (log 35). -/
def imageRead (s : State) (a : Nat) : State := meetErrs s (fun l => rangesMeet (l * 64) 64 a 4128)

theorem takeImage_eq {s : State} {d : Nat} {w : Withdrawn} (hw : imagePage s d = some w) (a : Nat) : takeImage s d a =
    let x := imageRead s a
    if imageGood x d w.page a then
      spadSettle (bringBack (putPage x (goldenPage d w.page) (memBytes x a 4096)) d w.page 1 (memBytes x a 4096)) d
    else spadSettle (failSet x d w.setNo w) d := by
  unfold takeImage
  rw [hw]
  rfl

theorem recorded_spadSettle (s : State) (d : Nat) : Recorded s (spadSettle s d) := by
  unfold spadSettle
  split
  · split
    · exact .refl s
    · exact (Recorded.of_log s s.ledger _ s.pwr).trans (.modPage _ _ _ (fun _ _ e => e))
  · exact .refl s

/-- HOST_IMG written, before the image is read. -/
def imageAsked (s : State) (r : Requester) (d a : Nat) : State :=
  setRegWord (setRegWord (opened s r .spad d 0x120) .spad d 0x120 (a % 2 ^ 32)) .spad d 0x124 (a / 2 ^ 32)

theorem recorded_imageAsked (s : State) (r : Requester) (d a : Nat) : Recorded s (imageAsked s r d a) :=
  ((Recorded.opened s r .spad d 0x120).trans (.setRegWord _ _ _ _ _)).trans (.setRegWord _ _ _ _ _)

/-- A scratchpad whose page a write reaches exists (Table 20.4). -/
theorem lt_of_atPage_spad {s : State} {r : Requester} {d : Nat} (h : atPage s r .spad d = true) : d < 2 := by
  simp only [atPage, writeReaches, Bool.and_eq_true, decide_eq_true_eq] at h
  obtain ⟨-, ⟨-, hd⟩, -⟩ := h
  exact hd

section Image

variable {s : State} {r : Requester} {d a : Nat} {w : Withdrawn} (h : atPage s r .spad d = true)
include h

theorem sameService_imageAsked (a : Nat) : SameService s (imageAsked s r d a) := by
  have hd := lt_of_atPage_spad h
  have hkey : pageKey .spad d ≠ pageKey .lpc 0 := by
    have hspad : pageKey .spad d = blkCode .spad * 4096 + d := rfl
    have hlpc : pageKey .lpc 0 = blkCode .lpc * 4096 := rfl
    have hcodes : blkCode .spad < blkCode .lpc := by decide
    omega
  have hwalk := SameWalks.opened s r .spad d 0x120
  have hrec := Recorded.opened s r .spad d 0x120
  have hopened : SameService s (opened s r .spad d 0x120) :=
    ⟨fun n => by simp only [windowOf, regWord2, regWord, hwalk.regs], fun p => by rw [hrec.portOf_eq], hwalk.st,
      fun e => by rw [hrec.spad_eq], fun e => by rw [hrec.spad_eq]⟩
  exact (hopened.trans (.setRegWord _ hkey _ _)).trans (.setRegWord _ hkey _ _)

theorem doHostImg_of_lpddr (ha : a + 4095 < 0x8000000000) : doHostImg s r d a = takeImage (imageAsked s r d a) d a := by
  have hmod : a % 2 ^ 48 = a := Nat.mod_eq_of_lt (by omega)
  rw [doHostImg, regAccess_atPage h, if_pos rfl]
  dsimp only
  rw [hmod, if_pos (by simp [inLpddr]; omega)]
  rfl

/-- R388, R389: an image restores its page, or fails the set. -/
theorem hostImg_clauses (wf : s.mem.wf = true) (hw : imagePage s d = some w) (ha : a + 4095 < 0x8000000000) :
    let x := imageRead s a
    (imageGood x d w.page a = true → isSealed s (upperPage d w.page) = false → ∃ u, exec (.hostImgSubmit r d a) s = .next u
      ∧ (∀ y ∈ (spad u d).wd, y.page ≠ w.page) ∧ memBytes u (upperPage d w.page) 4096 = memBytes x a 4096)
    ∧ (imageGood x d w.page a = false → ∃ u, exec (.hostImgSubmit r d a) s = .next u ∧ (sharedSet u d w.setNo).st = 4
      ∧ (page u .spad d).event.getLsbD 4 = true) := by
  intro x
  have hasked := recorded_imageAsked s r d a
  have hread : StoredFrom (imageAsked s r d a) (imageRead (imageAsked s r d a) a) := storedFrom_meetErrs _ _
  have hheld : heldData (imageRead (imageAsked s r d a) a) = heldData x := heldData_meetErrs_congr hasked.heldData_eq _
  have hback : SameService x s := by
    have hx := SameService.meetErrs s (fun l => rangesMeet (l * 64) 64 a 4128)
    exact ⟨fun n => (hx.window n).symm, fun p => (hx.usable p).symm, fun b i => (hx.st b i).symm,
      fun e => (hx.wd e).symm, fun e => (hx.sets e).symm⟩
  have hgood := imageGood_congr hheld ((hback.trans (sameService_imageAsked h a)).trans (.meetErrs _ _)) d w.page a
  have hpage : imagePage (imageAsked s r d a) d = some w := by
    rw [imagePage, hasked.spad_eq]
    simp only [hasked.sharedSet_eq]
    exact hw
  rw [exec_hostImgSubmit, doHostImg_of_lpddr h ha, takeImage_eq hpage]
  dsimp only
  rw [hgood, memBytes_congr (congrArg (·.1) hheld)]
  generalize imageRead (imageAsked s r d a) a = y at hread
  refine ⟨fun hg hs => ?_, fun hg => ?_⟩
  · have hput := hread.trans (storedFrom_putPage y (goldenPage d w.page) (memBytes x a 4096))
    obtain ⟨-, -, -, -, hsealed, -⟩ := hput.fields
    obtain ⟨w', hw'⟩ : ∃ w', (spad (putPage y (goldenPage d w.page) (memBytes x a 4096)) d).wd.find? (fun z => z.page == w.page) = some w' := by
      rw [(hput.spad_eq d).1, hasked.spad_eq]
      exact Option.isSome_iff_exists.1 (List.find?_isSome.2 ⟨w, List.mem_of_find?_eq_some hw, beq_self_eq_true _⟩)
    have hs' : isSealed (putPage y (goldenPage d w.page) (memBytes x a 4096)) (upperPage d w.page) = false := by
      rw [isSealed, hsealed, hasked.sealedG]
      exact hs
    have hb := back_bringBack hw' hs' (hput.wf (hasked.mem ▸ wf)) 1 (length_memBytes x a 4096)
    have hsettle := recorded_spadSettle (bringBack (putPage y (goldenPage d w.page) (memBytes x a 4096)) d w.page 1 (memBytes x a 4096)) d
    rw [hg, if_pos rfl]
    refine next_of_live (live_of_atPage h) ⟨fun z hz => hb.gone z ?_, ?_⟩
    · exact (congrArg Spad.wd (hsettle.spad_eq d)) ▸ hz
    · exact (memBytes_congr hsettle.mem _ _).trans hb.bytes
  · have hfail : Recorded (setFailed y d w.setNo) (failSet y d w.setNo w) := (Recorded.memEvents _ _ _).trans (.memoryEntries _ _ _ _ _ _ _)
    have hall := hfail.trans (recorded_spadSettle (failSet y d w.setNo w) d)
    rw [hg, if_neg Bool.false_ne_true]
    refine next_of_live (live_of_atPage h) ⟨?_, ?_⟩
    · have hset : (sharedSet (setFailed y d w.setNo) d w.setNo).st = 4 := by
        rw [setFailed, (Recorded.raiseEvent _ _ _ _).sharedSet_eq, sharedSet, spad_modSpad_self, tabGet_tabMod, if_pos rfl]
      exact (congrArg SharedSet.st (hall.sharedSet_eq d w.setNo)).trans hset
    · exact hall.events _ _ _ (event_raiseEvent_self _ _ _ (by decide))

end Image

/-- Settles O43: SET_CMD by what the write finds, the return of a page by what is read of its golden copy or its image. -/
theorem sharedSets : Obligations.SharedSets := by
  unfold Obligations.SharedSets
  intro s d hlive wf
  refine ⟨fun r h => setCmd_clauses h, fun k hst hact hready => activateDone_clause hlive hst hact hready,
    fun p w hrest hlamb hready hw hst => pageRestore_clauses hlive wf hrest hlamb hready hw hst, fun k w hrest hw => ?_,
    fun w hw r a h ha => ?_⟩
  · rw [exec_setImageTimeout, doImageTimeout, hw]
    dsimp only
    rw [hrest]
    rfl
  · obtain ⟨hgood, hbad⟩ := hostImg_clauses h wf hw ha
    exact ⟨fun hg hs _ => hgood ((imageGood_iff _ _ _ _).2 hg) hs,
      fun hg => hbad (Bool.eq_false_iff.2 (fun hi => hg ((imageGood_iff _ _ _ _).1 hi)))⟩

end Sys2Proof.Machine
end

section
/-! PROOFS. Drake's copies (chapter 10): what MOVE, CONVERT, GATHER_WIDEN and ZERO leave of the commands issued, and how each of them ends. -/

namespace Sys2Proof.Machine

theorem exec_moveT (g idx : Nat) (errs : List MemErr) (s : State) :
    exec (.moveT g idx errs) s = .next (whenLive s (gateDrake s g idx 0x40 (doMove s g idx errs))) := rfl
theorem exec_convertT (g idx : Nat) (errs : List MemErr) (s : State) :
    exec (.convertT g idx errs) s = .next (whenLive s (gateDrake s g idx 0x41 (doConvert s g idx errs))) := rfl
theorem exec_gatherWiden (g idx : Nat) (errs : List MemErr) (s : State) :
    exec (.gatherWiden g idx errs) s = .next (whenLive s (gateDrake s g idx 0x42 (doGather s g idx errs))) := rfl
theorem exec_zeroT (g idx : Nat) (s : State) :
    exec (.zeroT g idx) s = .next (whenLive s (gateDrake s g idx 0x44 (doZero s g idx))) := rfl

/-- What a group serves is among the commands issued. -/
theorem mem_of_drakeJob {s : State} {g idx op : Nat} {j : Job} (h : drakeJob s g idx op = some j) : j ∈ s.jobs := by
  unfold drakeJob at h
  split at h
  · cases h
  · split at h
    · next k hk =>
      split at h
      · cases h
        exact (List.mem_filter.1 (List.mem_of_getElem? hk)).1
      · cases h
    · cases h

/-! The copies read, and write memory; no command moves. -/

/-- A read that stops at an element tells the memory that it missed, and nothing else. -/
theorem storedFrom_readMissed (s : State) (t : Nat) (rs : List Read1) : StoredFrom s (readMissed s t rs) := by
  unfold readMissed
  split
  · exact storedFrom_missAt _ _ _ _ _
  · exact .refl s

theorem copyRun_jobs (s : State) (j : Job) (spans : List (Option (Nat × Nat))) (errs : List MemErr) (rd : State → List Nat → Read1)
    (conv : State → List Nat → Read1 → Int → Nat × Fl) : (copyRun s j spans errs rd conv).st.jobs = s.jobs := by
  apply jobs_of_engines
  simp only [copyRun, engines_withdrawNew, apply_ite engines, engines_of_stored (storedFrom_readMissed _ _ _), engines_copyOut, ite_self,
    engines_readSpans, engines_addErrs]

/-- A page that a ZERO meets is zeroed, or tells why it is not (R426). -/
theorem storedFrom_zeroPage (t : Nat) (w : Wrote) (vp : Nat) : StoredFrom w.st (zeroPage t w vp).st := by
  unfold zeroPage
  split
  · exact .refl _
  · split
    · exact .refl _
    · split
      · exact storedFrom_goneHit _ _
      · split
        · exact storedFrom_sealHit _ _
        · exact storedFrom_zeroEngine _ _ _

theorem zeroRun_jobs (s : State) (j : Job) : (zeroRun s j).st.jobs = s.jobs := by
  apply jobs_of_engines
  unfold zeroRun
  split
  · exact engines_copyOut _ _ _ _ _ _ _
  · exact engines_of_stored (List.foldlRecOn (motive := fun (w : Wrote) => StoredFrom s w.st) _ _ (.refl s)
      (fun w hw vp _ => hw.trans (storedFrom_zeroPage j.tenant w vp)))

/-! How a copy ends (R423, R434, R435). -/

/-- The result that a copy leaves. -/
def copyResult (k : Copied) : Result :=
  if k.gone then failResult 0x22 k.fl (satTo 32 k.lines) else ranResult k.fl (satTo 32 k.lines)

/-- A copy is counted and its events raised, TARGET_GONE's among them, and then its command ends. -/
theorem drakeEnd_eq (s : State) (g : Nat) (j : Job) (k : Copied) (spans : List (Option (Nat × Nat))) :
    ∃ x, drakeEnd s g j k spans = finishJob s x j (copyResult k) ∧ x.jobs = k.st.jobs
      ∧ (k.gone = true → (page x .drake g).event.getLsbD 1 = true) := by
  refine ⟨_, rfl, ?_, fun hgone => ?_⟩
  · apply jobs_of_engines
    simp only [apply_ite engines, engines_noteWithdrawn, engines_raiseEvent, engines_perfAdd, ite_self]
  · have hraised (x : State) : (page (raiseEvent x .drake g 1) .drake g).event.getLsbD 1 = true := event_raiseEvent_self _ _ _ (by decide)
    have hthen (x : State) (c : Bool) (n : Nat) (h : (page x .drake g).event.getLsbD 1 = true) :
        (page (if c then raiseEvent x .drake g n else x) .drake g).event.getLsbD 1 = true := by
      split
      · exact EventsStay.raiseEvent _ _ _ _ _ _ _ h
      · exact h
    simp only [hgone, Bool.or_true, if_true]
    rw [page_noteWithdrawn]
    exact hthen _ _ _ (hthen _ _ _ (hraised _))

/-- What a row that answers the end of a copy leaves on a live node: the command's own result, with the event where it is TARGET_GONE, and
the other commands. -/
theorem outcome_of_copy {s : State} {g : Nat} {j : Job} {k : Copied} {spans : List (Option (Nat × Nat))} {i : Instr} (hlive : live s = true)
    (hexec : exec i s = .next (whenLive s (drakeEnd s g j k spans))) (hjobs : k.st.jobs = s.jobs) (hj : j ∈ s.jobs) :
    exec i s = .next (whenLive s (drakeEnd s g j k spans))
    ∧ (k.gone = false → finishedAs (whenLive s (drakeEnd s g j k spans)) j (ranResult k.fl (satTo 32 k.lines)))
    ∧ (k.gone = true → endedGone (whenLive s (drakeEnd s g j k spans)) j .drake g 1)
    ∧ keepsJobs s (whenLive s (drakeEnd s g j k spans)) j := by
  obtain ⟨x, hend, hx, hevent⟩ := drakeEnd_eq s g j k spans
  have hfin : finishedAs (drakeEnd s g j k spans) j (copyResult k) := by
    rw [hend]
    exact finishedAs_finishJob (by rwa [hx, hjobs]) s _
  have hkeep : keepsJobs x (drakeEnd s g j k spans) j := by
    rw [hend]
    exact keepsJobs_finishJob s x j _
  have hpages : (drakeEnd s g j k spans).pages = x.pages := by rw [hend, finishJob_pages]
  rw [whenLive_of_live hlive] at hexec ⊢
  refine ⟨hexec, fun hgone => ?_, fun hgone => ?_, ?_⟩
  · rw [copyResult, if_neg (by simp [hgone])] at hfin
    exact hfin
  · rw [copyResult, if_pos hgone] at hfin
    rw [← page_congr hpages] at hevent
    exact ⟨_, hfin, rfl, hevent hgone⟩
  · rw [keepsJobs, hx, hjobs] at hkeep
    exact hkeep

end Sys2Proof.Machine
end

section
/-! PROOFS. PREFETCH (10.7): the run of a command in its group, and what starts it, stages an entry, commits an entry, ends or promotes it. -/

namespace Sys2Proof.Machine

theorem exec_prefetch (g idx : Nat) (s : State) : exec (.prefetch g idx) s = .next (whenLive s (doPrefetch s g idx)) := rfl
theorem exec_prefetchRunahead (g idx e : Nat) (s : State) :
    exec (.prefetchRunahead g idx e) s = .next (whenLive s (gateEntry s g idx e false (doRunahead s g idx e))) := rfl
theorem exec_prefetchCommit (g idx : Nat) (s : State) :
    exec (.prefetchCommit g idx) s = .next (whenLive s (gateEntry s g idx (commitEntry s g idx) true (doCommit s g idx))) := rfl
theorem exec_prefetchPromote (g idx : Nat) (s : State) : exec (.prefetchPromote g idx) s = .next (whenLive s (doPromote s g idx)) := rfl

/-! Groups and runs after an update. -/

theorem drakes_of_engines {s u : State} (h : engines u = engines s) : u.drakes = s.drakes := congrArg (·.2.2.2) h

/-- A group depends on the table of groups alone. -/
theorem drake_congr {s u : State} (h : u.drakes = s.drakes) (g : Nat) : drake u g = drake s g := by simp only [drake, h]

@[simp] theorem drake_modDrake_self (s : State) (g : Nat) (f : DrakeGrp → DrakeGrp) : drake (modDrake s g f) g = f (drake s g) := by
  simp [drake, modDrake]

/-- The run of a command depends on the runs of its group alone. -/
theorem pfRun_congr {s u : State} {g : Nat} (h : (drake u g).runs = (drake s g).runs) (j : Job) : pfRun u g j = pfRun s g j := by
  simp only [pfRun, h]

theorem pfRun_of_drakes {s u : State} (h : u.drakes = s.drakes) (g : Nat) (j : Job) : pfRun u g j = pfRun s g j :=
  pfRun_congr (congrArg DrakeGrp.runs (drake_congr h g)) j

/-- An update that changes no run's command changes the run of `j` by what it does to it. -/
theorem pfRun_modRun {s : State} {g : Nat} {j : Job} {r : PfRun} {f : PfRun → PfRun} (h : pfRun s g j = some r)
    (hf : ∀ x, runIs j (f x) = runIs j x) : pfRun (modRun s g j f) g j = some (f r) := by
  have hsame (x : PfRun) : runIs j (if runIs j x then f x else x) = runIs j x := by
    split
    · exact hf x
    · rfl
  have hr : runIs j r = true := List.find?_some h
  have hcomp : (runIs j ∘ fun x => if runIs j x then f x else x) = runIs j := funext hsame
  unfold pfRun at h
  rw [pfRun, modRun, drake_modDrake_self, List.find?_map, hcomp, h, Option.map_some, if_pos hr]

/-- A run taken off its group is no longer there. -/
theorem pfRun_endRun (s : State) (g : Nat) (j : Job) : pfRun (endRun s g j) g j = none := by
  rw [pfRun, endRun, drake_modDrake_self, List.find?_eq_none]
  intro r hr
  simpa using (List.mem_filter.1 hr).2

@[simp] theorem modRun_tenants (s : State) (g : Nat) (j : Job) (f : PfRun → PfRun) : (modRun s g j f).tenants = s.tenants := rfl

@[simp] theorem endRun_jobs (s : State) (g : Nat) (j : Job) : (endRun s g j).jobs = s.jobs := rfl

@[simp] theorem endRun_tenants (s : State) (g : Nat) (j : Job) : (endRun s g j).tenants = s.tenants := rfl

@[simp] theorem endRun_pages (s : State) (g : Nat) (j : Job) : (endRun s g j).pages = s.pages := rfl

@[simp] theorem finishJob_drakes (before s : State) (j : Job) (r : Result) : (finishJob before s j r).drakes = s.drakes := by
  obtain ⟨n, f, e, -⟩ := finishJob_eq before s j r
  rw [e]; rfl

/-- A time of readiness noted is a tenant's alone (R75). -/
theorem markReady_eq (s : State) (t : Nat) : ∃ ts, markReady s t = { s with tenants := ts } := by
  unfold markReady
  refine List.foldlRecOn (motive := fun (x : State) => ∃ ts, x = { s with tenants := ts }) _ _ ⟨s.tenants, rfl⟩ (fun x hx st _ => ?_)
  obtain ⟨ts, rfl⟩ := hx
  split
  · exact ⟨_, rfl⟩
  · exact ⟨ts, rfl⟩

@[simp] theorem markReady_drakes (s : State) (t : Nat) : (markReady s t).drakes = s.drakes := by
  obtain ⟨ts, e⟩ := markReady_eq s t
  rw [e]

@[simp] theorem markReady_jobs (s : State) (t : Nat) : (markReady s t).jobs = s.jobs := by
  obtain ⟨ts, e⟩ := markReady_eq s t
  rw [e]

@[simp] theorem markReady_pages (s : State) (t : Nat) : (markReady s t).pages = s.pages := by
  obtain ⟨ts, e⟩ := markReady_eq s t
  rw [e]

/-- A time of readiness is no token. -/
theorem keepsTokens_markReady (s : State) (t : Nat) : Keeps Tenant.tokens s (markReady s t) := by
  refine .foldl _ _ (fun x st => ?_) s
  split
  · exact .modTen x t (fun _ => rfl)
  · exact .refl x

/-- A token is what its tenant's tokens say. -/
theorem Keeps.token_eq {s u : State} (h : Keeps Tenant.tokens s u) (t n : Nat) : token u t n = token s t n := by rw [token, h t, ← token]

/-! What the reads and writes of a run's entries leave alone. -/

/-- The runs of group `g`, the commands issued and the tenants' tokens are in `u` what they are in `s`. -/
def SameRuns (g : Nat) (s u : State) : Prop := (drake u g).runs = (drake s g).runs ∧ u.jobs = s.jobs ∧ Keeps Tenant.tokens s u

namespace SameRuns

variable {g : Nat} {s u v : State}

theorem refl (s : State) : SameRuns g s s := ⟨rfl, rfl, .refl s⟩

theorem trans (h : SameRuns g s u) (k : SameRuns g u v) : SameRuns g s v := by
  obtain ⟨hruns, hjobs, htokens⟩ := h
  obtain ⟨kruns, kjobs, ktokens⟩ := k
  exact ⟨kruns.trans hruns, kjobs.trans hjobs, htokens.trans ktokens⟩

theorem of_engines (h : engines u = engines s) (k : Keeps Tenant.tokens s u) : SameRuns g s u :=
  ⟨congrArg DrakeGrp.runs (drake_congr (drakes_of_engines h) g), jobs_of_engines h, k⟩

/-- A write to memory leaves them alone. -/
theorem of_stored (h : StoredFrom s u) : SameRuns g s u := of_engines (engines_of_stored h) (.of_stored h)

theorem readSpans (s : State) (t : Nat) (spans : List (Option (Nat × Nat))) : SameRuns g s (readSpans s t spans) :=
  of_engines (engines_readSpans s t spans) (keeps_readSpans (fun _ _ => rfl) s t spans)

/-- Staging blocks are no run. -/
theorem modDrake {f : DrakeGrp → DrakeGrp} (h : ∀ d, (f d).runs = d.runs) (s : State) : SameRuns g s (modDrake s g f) :=
  ⟨by rw [drake_modDrake_self, h], rfl, .of_tenants rfl⟩

theorem raiseEvent (s : State) (b : Block) (i n : Nat) : SameRuns g s (raiseEvent s b i n) := of_stored (storedFrom_raiseEvent s b i n)

theorem pfRun_eq (h : SameRuns g s u) (j : Job) : pfRun u g j = pfRun s g j := pfRun_congr h.1 j

theorem jobs (h : SameRuns g s u) : u.jobs = s.jobs := h.2.1

theorem token_eq (h : SameRuns g s u) (t n : Nat) : token u t n = token s t n := h.2.2.token_eq t n

end SameRuns

/-! A PREFETCH starts (R429). -/

/-- The run with which a PREFETCH starts: no entry committed, none staged. -/
def startRun (j : Job) : PfRun := { tenant := j.tenant, stream := j.stream, count := j.cmd.count, iter := j.iter }

theorem runIs_startRun (j : Job) : runIs j (startRun j) = true := by simp [runIs, startRun]

theorem doPrefetch_of_new {s : State} {g idx : Nat} {j : Job} (hj : drakeJob s g idx 0x43 = some j) (hruns : unitRuns s .drake g = true)
    (hnew : pfRun s g j = none) : doPrefetch s g idx
      = modJob (modDrake s g (fun d => { d with runs := d.runs ++ [startRun j] })) j (fun k => { k with started := true }) := by
  simp [doPrefetch, hj, hruns, hnew, startRun]

theorem pfRun_doPrefetch {s : State} {g idx : Nat} {j : Job} (hj : drakeJob s g idx 0x43 = some j) (hruns : unitRuns s .drake g = true)
    (hnew : pfRun s g j = none) : pfRun (doPrefetch s g idx) g j = some (startRun j) := by
  have hadded : pfRun (modDrake s g (fun d => { d with runs := d.runs ++ [startRun j] })) g j = some (startRun j) := by
    unfold pfRun at hnew ⊢
    rw [drake_modDrake_self, List.find?_append, hnew, Option.none_or, List.find?_singleton, if_pos (runIs_startRun j)]
  rw [doPrefetch_of_new hj hruns hnew, ← hadded]
  exact pfRun_of_drakes rfl g j

/-! An entry is read ahead (R430, R432). -/

/-- The elements that a read ahead of entry `e` finds. -/
def aheadReads (s : State) (j : Job) (e : Nat) : List Read1 :=
  let m := mvSrc (pfMove j.cmd e)
  (extIdx m).map (fun i => readMove (readSpans s j.tenant (copySpans m (fullBox m))) j.tenant m i)

/-- The staging blocks that entry `e` needs. -/
def aheadNeed (j : Job) (e : Nat) : Nat := ceilDiv (pfBytes (mvSrc (pfMove j.cmd e))) 65536

/-- Entry `e` as it is kept in staging. -/
def aheadEntry (s : State) (g : Nat) (j : Job) (e : Nat) : StagedEntry :=
  { vals := (aheadReads s j e).map (·.bits), bad := (aheadReads s j e).map (·.badBits), blocks := (stageFree (drake s g)).take (aheadNeed j e) }

/-- An entry within the depth, with room in staging and all its elements read, is kept by the command's run. -/
theorem doRunahead_of_room {s : State} {g idx e : Nat} {j : Job} {r : PfRun} (hj : drakeJob s g idx 0x43 = some j)
    (hruns : unitRuns s .drake g = true) (hr : pfRun s g j = some r) (hfrom : r.committed ≤ e) (hdepth : e ≤ r.committed + pfAhead j.cmd)
    (hcount : e < pfCount j.cmd) (hnew : tabFind r.staged e = none) (hfree : aheadNeed j e ≤ (stageFree (drake s g)).length)
    (hquota : stageHeld (drake s g) j.tenant + aheadNeed j e ≤ (ten s j.tenant).qStage) (hread : (aheadReads s j e).all (·.reach) = true) :
    ∃ x n, doRunahead s g idx e
        = perfAdd (modRun x g j (fun y => { y with staged := tabSet y.staged e (aheadEntry s g j e) })) .drake g 4 n ∧ SameRuns g s x := by
  have hgo : (!unitRuns s .drake g || decide (e < r.committed) || decide (r.committed + pfAhead j.cmd < e) || decide (pfCount j.cmd ≤ e)
      || (tabFind r.staged e).isSome || decide (((stageFree (drake s g)).take (aheadNeed j e)).length < aheadNeed j e)
      || decide ((ten s j.tenant).qStage < stageHeld (drake s g) j.tenant + aheadNeed j e) || !(aheadReads s j e).all (·.reach)) = false := by
    simp only [hruns, Nat.not_lt.2 hfrom, Nat.not_lt.2 hdepth, Nat.not_le.2 hcount, hnew, List.length_take, Nat.min_eq_left hfree,
      Nat.lt_irrefl, Nat.not_lt.2 hquota, hread, decide_false, Bool.not_true, Option.isSome_none, Bool.or_self]
  unfold doRunahead
  simp only [hj, hr]
  rw [aheadNeed, aheadReads] at hgo
  rw [if_neg (Bool.eq_false_iff.1 hgo)]
  refine ⟨_, _, rfl, .trans ?_ (.modDrake (by intro d; rfl) _)⟩
  split
  · exact (SameRuns.readSpans s _ _).trans (.raiseEvent _ _ _ _)
  · exact .readSpans s _ _

/-! The next entry commits (R429). -/

/-- A run of which entry `i` has committed, poisoned so far or not. -/
def committedRun (i : Nat) (poison : Bool) (r : PfRun) : PfRun := { r with committed := i + 1, staged := tabDel r.staged i, poison := poison }

/-- Some entry of the run has met poison, once the next one is written. -/
def runPoison (s : State) (j : Job) (r : PfRun) : Bool := r.poison || (commitWrote s j r).fl.poison

/-- The fill token of a PREFETCH signalled, where it is enabled. -/
def fillSignal (s : State) (j : Job) : State := if pfFillEn j.cmd then tokenAdd s j.tenant (pfFillTok j.cmd) 1 else s

/-- R433: a run whose next entry cannot be written is given up, and the entries that did not commit are signalled. -/
def giveUp (s : State) (g : Nat) (j : Job) (r : PfRun) : State :=
  endRun (fillRest (dropStaged (raiseEvent s .drake g 1) g { r with staged := tabDel r.staged r.committed }) j.tenant j.cmd r.committed) g j

theorem sameRuns_commitRead (g : Nat) (s : State) (j : Job) (r : PfRun) : SameRuns g s (commitRead s j r).1 := by
  unfold commitRead
  split
  · exact .refl s
  · exact .readSpans s _ _

theorem sameRuns_commitWrote (g : Nat) (s : State) (j : Job) (r : PfRun) : SameRuns g s (commitWrote s j r).st :=
  (sameRuns_commitRead g s j r).trans (.of_stored (storedFrom_copyOut _ _ _ _ _ _ _))

theorem token_fillSignal {g : Nat} {s x : State} {j : Job} (hen : pfFillEn j.cmd = true) (h : SameRuns g s x) :
    token (fillSignal x j) j.tenant (pfFillTok j.cmd) = token s j.tenant (pfFillTok j.cmd) + 1 := by
  rw [fillSignal, if_pos hen, token_tokenAdd, if_pos rfl, h.token_eq]
  rfl

@[simp] theorem fillSignal_jobs (s : State) (j : Job) : (fillSignal s j).jobs = s.jobs := by unfold fillSignal; split <;> rfl

@[simp] theorem fillSignal_drakes (s : State) (j : Job) : (fillSignal s j).drakes = s.drakes := by unfold fillSignal; split <;> rfl

@[simp] theorem dropStaged_jobs (s : State) (g : Nat) (r : PfRun) : (dropStaged s g r).jobs = s.jobs := by
  unfold dropStaged
  split
  · rfl
  · simp

@[simp] theorem fillRest_jobs (s : State) (t : Nat) (c : Cmd) (n : Nat) : (fillRest s t c n).jobs = s.jobs := by
  unfold fillRest
  split
  · rw [tokenErr, raiseEvent_jobs]
    rfl
  · rfl

@[simp] theorem giveUp_jobs (s : State) (g : Nat) (j : Job) (r : PfRun) : (giveUp s g j r).jobs = s.jobs := by simp [giveUp]

theorem eventsStay_dropStaged (s : State) (g : Nat) (r : PfRun) : EventsStay s (dropStaged s g r) := by
  unfold dropStaged
  split
  · exact .of_pages rfl
  · exact (EventsStay.of_pages (modDrake_pages _ _ _)).trans ((EventsStay.raiseEvent _ _ _ _).trans (.modPage _ _ _ (fun _ _ e => e)))

theorem eventsStay_fillRest (s : State) (t : Nat) (c : Cmd) (n : Nat) : EventsStay s (fillRest s t c n) := by
  unfold fillRest
  split
  · exact EventsStay.trans (u := modTen (tokenAdd s t (pfFillTok c) _) t _) (.of_pages rfl) (.raiseEvent _ _ _ _)
  · exact .of_pages rfl

/-- A run given up shows TARGET_GONE's event. -/
theorem event_giveUp (s : State) (g : Nat) (j : Job) (r : PfRun) : (page (giveUp s g j r) .drake g).event.getLsbD 1 = true := by
  rw [giveUp, page_congr (endRun_pages _ _ _)]
  exact eventsStay_fillRest _ _ _ _ _ _ _ (eventsStay_dropStaged _ _ _ _ _ _ (event_raiseEvent_self _ _ _ (by decide)))

theorem finishedAs_markReady {s : State} {j : Job} {r : Result} (h : finishedAs s j r) (t : Nat) : finishedAs (markReady s t) j r := by
  rwa [finishedAs, markReady_jobs]

section Commit

variable {s : State} {g idx : Nat} {j : Job} {r : PfRun} (hj : drakeJob s g idx 0x43 = some j) (hruns : unitRuns s .drake g = true)
  (hr : pfRun s g j = some r) (hrel : pfReleased s j.tenant j.cmd r.committed = true) (hcount : r.committed < pfCount j.cmd)
include hj hruns hr hrel hcount

/-- A released entry is written, which leaves the runs, the commands and the tokens as they are. One that cannot be written ends the run and
the command TARGET_GONE; any other is signalled, and the last one ends the run and the command. -/
theorem doCommit_of_released : ∃ x, SameRuns g s x
    ∧ ((commitWrote s j r).gone = true →
        doCommit s g idx = markReady (finishJob s (giveUp x g j r) j (failResult 0x22 { poison := runPoison s j r } 0)) j.tenant)
    ∧ ((commitWrote s j r).gone = false →
        doCommit s g idx = markReady (if r.committed + 1 = pfCount j.cmd then
            finishJob s (perfAdd (endRun (fillSignal x j) g j) .drake g 0 1) j (ranResult { poison := runPoison s j r } 0)
          else modRun (fillSignal x j) g j (committedRun r.committed (runPoison s j r))) j.tenant) := by
  have hgo : (!unitRuns s .drake g || !pfReleased s j.tenant j.cmd r.committed || decide (pfCount j.cmd ≤ r.committed)) = false := by
    simp [hruns, hrel, hcount]
  unfold doCommit
  simp only [hj, hr]
  rw [if_neg (Bool.eq_false_iff.1 hgo)]
  refine ⟨_, ?_, fun hgone => if_pos hgone, fun hgone => if_neg (Bool.eq_false_iff.1 hgone)⟩
  have hwrote := sameRuns_commitWrote g s j r
  have hmissed : SameRuns g s
      (if (commitWrote s j r).cut then (commitWrote s j r).st else readMissed (commitWrote s j r).st j.tenant ((commitRead s j r).2.map (·.2))) := by
    split
    · exact hwrote
    · exact hwrote.trans (.of_stored (storedFrom_readMissed _ _ _))
  split
  · exact (hmissed.trans (.modDrake (by intro d; rfl) _)).trans (.raiseEvent _ _ _ _)
  · exact hmissed.trans (.modDrake (by intro d; rfl) _)

/-- R429: an entry that is written is signalled and counted as committed, and the last one ends its command. -/
theorem doCommit_of_written (hwrote : (commitWrote s j r).gone = false) :
    (pfFillEn j.cmd = true → token (doCommit s g idx) j.tenant (pfFillTok j.cmd) = token s j.tenant (pfFillTok j.cmd) + 1)
    ∧ (r.committed + 1 < pfCount j.cmd → pfRun (doCommit s g idx) g j = some (committedRun r.committed (runPoison s j r) r))
    ∧ (r.committed + 1 = pfCount j.cmd → pfRun (doCommit s g idx) g j = none
        ∧ finishedAs (doCommit s g idx) j (ranResult { poison := runPoison s j r } 0)) := by
  obtain ⟨x, hsame, -, hdo⟩ := doCommit_of_released hj hruns hr hrel hcount
  rw [hdo hwrote]
  refine ⟨fun hen => ?_, fun hmore => ?_, fun hlast => ?_⟩
  · rw [(keepsTokens_markReady _ _).token_eq, ← token_fillSignal hen hsame]
    refine Keeps.token_eq (.of_tenants ?_) _ _
    split
    · rw [finishJob_tenants, perfAdd_tenants, endRun_tenants]
    · rw [modRun_tenants]
  · have hstill : pfRun (fillSignal x j) g j = some r := by rw [pfRun_of_drakes (fillSignal_drakes x j), hsame.pfRun_eq, hr]
    rw [if_neg hmore.ne, pfRun_of_drakes (markReady_drakes _ _)]
    exact pfRun_modRun hstill (fun _ => rfl)
  · rw [if_pos hlast]
    constructor
    · rw [pfRun_of_drakes (markReady_drakes _ _), pfRun_of_drakes (finishJob_drakes _ _ _ _), pfRun_of_drakes (perfAdd_drakes _ _ _ _ _),
        pfRun_endRun]
    · refine finishedAs_markReady (finishedAs_finishJob ?_ s _) _
      rw [perfAdd_jobs, endRun_jobs, fillSignal_jobs, hsame.jobs]
      exact mem_of_drakeJob hj

/-- R433: an entry that cannot be written ends its run, and its command TARGET_GONE. -/
theorem doCommit_of_gone (hgone : (commitWrote s j r).gone = true) :
    pfRun (doCommit s g idx) g j = none ∧ endedGone (doCommit s g idx) j .drake g 1 := by
  obtain ⟨x, hsame, hdo, -⟩ := doCommit_of_released hj hruns hr hrel hcount
  rw [hdo hgone]
  refine ⟨?_, failResult 0x22 { poison := runPoison s j r } 0, ?_, rfl, ?_⟩
  · rw [pfRun_of_drakes (markReady_drakes _ _), pfRun_of_drakes (finishJob_drakes _ _ _ _), giveUp, pfRun_endRun]
  · refine finishedAs_markReady (finishedAs_finishJob ?_ s _) _
    rw [giveUp_jobs, hsame.jobs]
    exact mem_of_drakeJob hj
  · rw [page_congr (markReady_pages _ _), page_congr (finishJob_pages _ _ _ _)]
    exact event_giveUp x g j r

end Commit

/-! A run is promoted (R394). -/

@[simp] theorem passOver_drakes (s : State) (t st now cause code : Nat) : (passOver s t st now cause code).drakes = s.drakes := rfl

/-- Where the front command of a stream waits on the fill token alone, the run is promoted. -/
theorem pfRun_doPromote {s : State} {g idx : Nat} {j : Job} {r : PfRun} (hj : drakeJob s g idx 0x43 = some j) (hr : pfRun s g j = some r)
    (hen : pfFillEn j.cmd = true) {st : Nat} {c : Cmd} {it : Option Nat} (hst : st < 8) (hlive : frontLive s j.tenant st = true)
    (hskip : (stream s j.tenant st).skip = 0) (hfront : front (stream s j.tenant st) = some (c, it)) (hgood : badAtFront s j.tenant c = false)
    (hstep : cStep c = (ten s j.tenant).step.toNat) (hwaits : ∃ w ∈ tokenWaits s j.tenant c it, w = (pfFillTok j.cmd, false))
    (halone : ∀ w ∈ tokenWaits s j.tenant c it, w.1 = pfFillTok j.cmd ∨ w.2 = true) (hstop : stopHolds (ten s j.tenant) st c = false)
    (horder : orderOk s j.tenant st c = true) (hloop : loopBodyOk (stream s j.tenant st) c = true) :
    pfRun (doPromote s g idx) g j = some { r with promoted := true } := by
  have hpassed (sts : List Nat) (x : State) : (sts.foldl (fun y k => passOver y j.tenant k y.gclk 4 0) x).drakes = x.drakes :=
    List.foldlRecOn (motive := fun (y : State) => y.drakes = x.drakes) _ _ rfl (fun y hy k _ => hy)
  have hany : (tokenWaits s j.tenant c it).any (fun w => w.1 == pfFillTok j.cmd && !w.2) = true := by
    obtain ⟨w, hw, rfl⟩ := hwaits
    exact List.any_eq_true.2 ⟨_, hw, by simp⟩
  have hall : (tokenWaits s j.tenant c it).all (fun w => w.1 == pfFillTok j.cmd || w.2) = true :=
    List.all_eq_true.2 (fun w hw => by simpa using halone w hw)
  unfold doPromote
  simp only [hj, hr]
  rw [if_neg, pfRun_of_drakes (hpassed _ _)]
  · split
    · next hp => rw [hr, ← hp]
    · rw [pfRun_of_drakes (perfAdd_drakes _ _ _ _ _)]
      exact pfRun_modRun hr (fun _ => rfl)
  · rw [hen, Bool.not_true, Bool.false_or, List.isEmpty_iff]
    refine List.ne_nil_of_mem (List.mem_filter.2 ⟨List.mem_range.2 hst, ?_⟩)
    simp [hlive, hskip, hfront, hgood, hstep, hany, hall, hstop, horder, hloop]

/-- Groups of a live node after a command are those that its effect makes. -/
theorem whenLive_drakes {s u : State} (h : live s = true) : (whenLive s u).drakes = u.drakes := by rw [whenLive_of_live h]

/-- Settles O26: the four copies answer the ends of their runs, and each part of a PREFETCH changes the command's run as it says. -/
theorem dataEngineCommandsComplete : Obligations.DataEngineCommandsComplete := by
  intro s g idx j hlive hnowhere hruns
  have hshown (x : State) : pfRun (whenLive s x) g j = pfRun x g j := pfRun_of_drakes (whenLive_drakes hlive) g j
  refine ⟨fun errs hjob => ?move, fun errs hjob => ?convert, fun errs hjob => ?gather, fun hjob => ?zero, fun hjob hnew => ?start,
    fun r e hjob hr hfrom hdepth hcount hnew hfree hquota hread => ?ahead, fun r hjob hr hrel hcount => ?commit,
    fun r hjob hr hen ⟨st, hst, c, it, hfront⟩ => ?promote⟩
  case move =>
    refine outcome_of_copy hlive ?_ (copyRun_jobs _ _ _ _ _ _) (mem_of_drakeJob hjob)
    simp only [exec_moveT, gateDrake_of_heldNowhere hnowhere, doMove, hjob, hruns, Bool.not_true, Bool.false_eq_true, if_false]
  case convert =>
    refine outcome_of_copy hlive ?_ (copyRun_jobs _ _ _ _ _ _) (mem_of_drakeJob hjob)
    simp only [exec_convertT, gateDrake_of_heldNowhere hnowhere, doConvert, hjob, hruns, Bool.not_true, Bool.false_eq_true, if_false]
  case gather =>
    refine outcome_of_copy hlive ?_ (copyRun_jobs _ _ _ _ _ _) (mem_of_drakeJob hjob)
    simp only [exec_gatherWiden, gateDrake_of_heldNowhere hnowhere, doGather, hjob, hruns, Bool.not_true, Bool.false_eq_true, if_false]
  case zero =>
    refine outcome_of_copy hlive ?_ (zeroRun_jobs s j) (mem_of_drakeJob hjob)
    simp only [exec_zeroT, gateDrake_of_heldNowhere hnowhere, doZero, hjob, hruns, Bool.not_true, Bool.false_eq_true, if_false]
  case start =>
    exact ⟨_, exec_prefetch g idx s, (hshown _).trans (pfRun_doPrefetch hjob hruns hnew)⟩
  case ahead =>
    obtain ⟨x, n, hdo, hsame⟩ := doRunahead_of_room hjob hruns hr hfrom hdepth hcount hnew hfree hquota hread
    rw [exec_prefetchRunahead, gateEntry_of_heldNowhere hnowhere, hdo]
    refine ⟨_, rfl, ?_⟩
    rw [hshown, pfRun_of_drakes (perfAdd_drakes _ _ _ _ _)]
    exact pfRun_modRun ((hsame.pfRun_eq j).trans hr) (fun _ => rfl)
  case commit =>
    rw [exec_prefetchCommit, gateEntry_of_heldNowhere hnowhere, whenLive_of_live hlive]
    exact ⟨fun hwrote => ⟨_, rfl, doCommit_of_written hjob hruns hr hrel hcount hwrote⟩,
      fun hgone => ⟨_, rfl, doCommit_of_gone hjob hruns hr hrel hcount hgone⟩⟩
  case promote =>
    obtain ⟨hfl, hskip, hcmd, hgood, hstep, hwaits, halone, hstop, horder, hloop⟩ := hfront
    exact ⟨_, exec_prefetchPromote g idx s,
      (hshown _).trans (pfRun_doPromote hjob hr hen hst hfl hskip hcmd hgood hstep hwaits halone hstop horder hloop)⟩

end Sys2Proof.Machine
end

section
/-! PROOFS. The ledger's registers: mode, seed, seal, ring, read pointer, stop point, system time (R442, R470 to R475, R714). -/

namespace Sys2Proof.Machine

theorem exec_tenModeWrite (r : Requester) (v : Nat) (s : State) : exec (.tenModeWrite r v) s = .next (whenLive s (doTenMode s r v)) := rfl
theorem exec_tenSeedWrite (r : Requester) (v : Nat) (s : State) : exec (.tenSeedWrite r v) s = .next (whenLive s (doTenSeed s r v)) := rfl
theorem exec_tenSealRequest (r : Requester) (s : State) : exec (.tenSealRequest r) s = .next (whenLive s (doSealRequest s r)) := rfl
theorem exec_ringConfigWrite (r : Requester) (off v : Nat) (s : State) :
    exec (.ringConfigWrite r off v) s = .next (whenLive s (doRingConfig s r off v)) := rfl
theorem exec_rdPtrWrite (r : Requester) (v : Nat) (s : State) : exec (.rdPtrWrite r v) s = .next (whenLive s (doRdPtr s r v)) := rfl
theorem exec_tenStopWrite (r : Requester) (off v : Nat) (s : State) :
    exec (.tenStopWrite r off v) s = .next (whenLive s (doTenStop s r off v)) := rfl
theorem exec_systimeWrite (r : Requester) (v : Nat) (s : State) : exec (.systimeWrite r v) s = .next (whenLive s (doSystime s r v)) := rfl

/-! What the state in which a write takes effect keeps of the ledger. -/

@[simp] theorem opened_ledger (s : State) (r : Requester) (b : Block) (i off : Nat) : (opened s r b i off).ledger = s.ledger := by
  simp [opened]

@[simp] theorem opened_mgmt (s : State) (r : Requester) (b : Block) (i off : Nat) : (opened s r b i off).mgmt = s.mgmt := by simp [opened]

@[simp] theorem ledgSel_opened (s : State) (r : Requester) (b : Block) (i off : Nat) : ledgSel (opened s r b i off) = ledgSel s := by
  simp only [ledgSel, regWord_opened]

@[simp] theorem ringLog_opened (s : State) (r : Requester) (b : Block) (i off : Nat) : ringLog (opened s r b i off) = ringLog s := by
  simp only [ringLog, regWord_opened]

@[simp] theorem ringBase_opened (s : State) (r : Requester) (b : Block) (i off : Nat) : ringBase (opened s r b i off) = ringBase s := by
  simp only [ringBase, regWord2, regWord_opened]

@[simp] theorem ringOk_opened (s : State) (r : Requester) (b : Block) (i off base k : Nat) :
    ringOk (opened s r b i off) base k = ringOk s base k := by
  simp only [ringOk, (SameWalks.opened s r b i off).backed_eq]

/-! What each write does to a page that it reaches. -/

section Registers

variable {s : State} {r : Requester} (h : atPage s r .ledg 0 = true) (v : Nat)
include h

/-- R442, R470: TEN_MODE asks for the seal whatever becomes of the mode, which a tenant with every stream disabled takes. -/
theorem doTenMode_atPage :
    let m := if bitAt v 1 then askSeal (opened s r .ledg 0 0x134) (ledgSel s) else opened s r .ledg 0 0x134
    doTenMode s r v =
      if ledgSel s = nodeChain then (if bitAt v 0 then regError m .ledg 0 0x134 else m)
      else if allDisabled s (ledgSel s) then genesisAfter m (ledgSel s) 1 (fun x => { x with replay := bitAt v 0 })
      else regError m .ledg 0 0x134 := by
  have hasked (x : State) (c t : Nat) : allDisabled (if bitAt v 1 then askSeal x c else x) t = allDisabled x t := by split <;> rfl
  simp only [doTenMode, regAccess_atPage h, if_true, ledgSel_opened, hasked, allDisabled_opened]
  cases allDisabled s (ledgSel s) <;> rfl

/-- R442: TEN_SEED of a tenant with every stream disabled, and every other. -/
theorem doTenSeed_atPage : doTenSeed s r v =
    if ledgSel s = nodeChain ∨ allDisabled s (ledgSel s) = false then regError (opened s r .ledg 0 0x138) .ledg 0 0x138
    else genesisAfter (opened s r .ledg 0 0x138) (ledgSel s) 1 (fun x => { x with seed := BitVec.ofNat 64 v }) := by
  simp [doTenSeed, regAccess_atPage h]

/-- R472: RING_BASE takes an acceptable ring while no written unit is unreleased. -/
theorem doRingConfig_base_atPage : doRingConfig s r 0x108 v =
    if s.ledger.wr ≠ s.ledger.rd ∨ ringOk s (v % 2 ^ 48) (ringLog s) = false then regError (opened s r .ledg 0 0x108) .ledg 0 0x108
    else setRegWord (setRegWord (opened s r .ledg 0 0x108) .ledg 0 0x108 (v % 2 ^ 32)) .ledg 0 0x10C (bits v 32 16) := by
  simp [doRingConfig, regAccess_atPage h]

/-- R472: RING_LOG likewise; with a ring configured the node chain begins (R476). -/
theorem doRingConfig_log_atPage : doRingConfig s r 0x110 v =
    if s.ledger.wr ≠ s.ledger.rd ∨ ringOk s (ringBase s) (bits v 0 5) = false then regError (opened s r .ledg 0 0x110) .ledg 0 0x110
    else nodeGenesis (setRegWord (opened s r .ledg 0 0x110) .ledg 0 0x110 (bits v 0 5)) := by
  simp [doRingConfig, regAccess_atPage h]

/-- R474, R766: RD_PTR takes a value up to WR_PTR and ignores one above it. -/
theorem doRdPtr_atPage : doRdPtr s r v =
    if s.ledger.wr.toNat < v then opened s r .ledg 0 0x120
    else { opened s r .ledg 0 0x120 with ledger := { s.ledger with rd := BitVec.ofNat 64 v } } := by
  simp [doRdPtr, regAccess_atPage h]

/-- R475: the stop point of the tenant selected is set. -/
theorem doTenStop_step_atPage (hc : ledgSel s ≠ nodeChain) : doTenStop s r 0x168 v =
    markReady (modTen (opened s r .ledg 0 0x168) (ledgSel s) (fun x => { x with stopStep := BitVec.ofNat 64 v, stopHit := false })) (ledgSel s) := by
  simp [doTenStop, regAccess_atPage h, hc]

theorem doTenStop_point_atPage (hc : ledgSel s ≠ nodeChain) : doTenStop s r 0x170 v =
    markReady (modTen (opened s r .ledg 0 0x170) (ledgSel s)
      (fun x => { x with stopOrd := bits v 0 16, stopStream := bits v 16 3, stopEn := bitAt v 19, stopHit := false })) (ledgSel s) := by
  simp [doTenStop, regAccess_atPage h, hc]

end Registers

/-- Settles O46: each write is its row's own effect at the page that it reaches, case by case of what the row asks of the state. -/
theorem ledgerRegisterWrites : Obligations.LedgerRegisterWrites := by
  intro s r v h
  simp only [exec_tenModeWrite, exec_tenSeedWrite, exec_tenSealRequest, exec_ringConfigWrite, exec_rdPtrWrite, exec_tenStopWrite,
    exec_systimeWrite, doTenMode_atPage h, doTenSeed_atPage h, doRingConfig_base_atPage h, doRingConfig_log_atPage h, doRdPtr_atPage h]
  refine ⟨fun hc hd => ?mode, fun hc hd => ?modeBusy, fun hc => ?modeNode, fun hc hd => ?seed, fun hbad => ?seedBad, ?sealAsked,
    fun hrel hok => ?base, fun hrel hok => ?log, fun hbad => ?logBad, fun hbad => ?baseBad, fun hrel => ?unreleased, fun hle => ?rdPtr,
    fun hlt => ?rdPtrAbove, fun hc => ?stopStep, fun hc => ?stop, ?systime⟩
  case mode => rw [if_neg hc, if_pos hd]
  case modeBusy => rw [if_neg hc, if_neg (by simp [hd])]
  case modeNode => rw [if_pos hc]
  case seed => rw [if_neg (by simp [hc, hd])]
  case seedBad => rw [if_pos hbad]
  case sealAsked => rw [doSealRequest, regAccess_atPage h, if_pos rfl, ledgSel_opened]
  case base => rw [if_neg (not_or.2 ⟨not_not.2 hrel, ne_false_of_eq_true hok⟩)]
  case log => rw [if_neg (not_or.2 ⟨not_not.2 hrel, ne_false_of_eq_true hok⟩)]
  case logBad => rw [if_pos (.inr hbad)]
  case baseBad => rw [if_pos (.inr hbad)]
  case unreleased => exact ⟨by rw [if_pos (.inl hrel)], by rw [if_pos (.inl hrel)]⟩
  case rdPtr => rw [if_neg (Nat.not_lt.2 hle)]
  case rdPtrAbove => rw [if_pos hlt]
  case stopStep => rw [doTenStop_step_atPage h v hc]
  case stop => rw [doTenStop_point_atPage h v hc]
  case systime => rw [doSystime, regAccess_atPage h, if_pos rfl, opened_mgmt]

end Sys2Proof.Machine
end

section
/-! PROOFS. The ledger's own steps: entries written and chained, seals due, stop points hit (R460, R470 to R475). -/

namespace Sys2Proof.Machine

theorem exec_ledgerEntryWrite (s : State) : exec .ledgerEntryWrite s = .next (whenLive s (doLedgerWrite s)) := rfl
theorem exec_ringUnitRetry (s : State) : exec .ringUnitRetry s = .next (whenLive s (doRingRetry s)) := rfl
theorem exec_sealPeriod (fail : Bool) (s : State) : exec (.sealPeriod fail) s = .next (whenLive s (doSealPeriod s fail)) := rfl
theorem exec_stopHit (t : Nat) (s : State) : exec (.stopHit t) s = .next (whenLive s (doStopHit s t)) := rfl

/-- R474: an entry is written where the ledger is READY and stopped on no unit. -/
theorem doLedgerWrite_of_ready {s : State} (hready : blkReady s .ledg 0 = true) (hstuck : s.ledger.stuck = false) :
    doLedgerWrite s = finishSteps (ledgerWrite s) := by
  rw [doLedgerWrite, if_pos (by simp [hready, hstuck])]

/-- R472: the unit on which the ledger stopped is tried again. -/
theorem doRingRetry_of_stuck {s : State} (hready : blkReady s .ledg 0 = true) (hstuck : s.ledger.stuck = true) :
    doRingRetry s = finishSteps (ledgerWrite { s with ledger := { s.ledger with stuck := false } }) := by
  rw [doRingRetry, if_pos (by simp [hready, hstuck])]

/-- R470: the chains that have gained entries are sealed at a period that is not 0. -/
theorem doSealPeriod_of_period {s : State} (fail : Bool) (hrun : s.mgmt.restarting = false)
    (hperiod : bits (regWord s .ledg 0 0x104 0x3E8) 0 16 ≠ 0) : doSealPeriod s fail = sealAll s fail := by
  rw [doSealPeriod, if_neg (by simp [hrun, hperiod])]

/-- R475: a stop point that a replaying tenant has reached is marked, counted and shown once. -/
theorem doStopHit_of_reached {s : State} {t : Nat} (hreplay : (ten s t).replay = true) (hen : (ten s t).stopEn = true)
    (hnew : (ten s t).stopHit = false) (hreached : stopReached s t = true) :
    doStopHit s t = perfAdd (raiseEvent (modTen s t (fun x => { x with stopHit := true })) .ledg 0 5) .ledg 0 7 1 := by
  rw [doStopHit, if_pos (by simp [hreplay, hen, hnew, hreached])]

/-! What an entry's last unit leaves of the ledger (R460). -/

/-- The chain of an entry once its last unit is written: the hash is its head, and the indices advance. -/
def chainAfter (e : Entry) (hash : Nat) (c : Chain) : Chain :=
  { c with head := hash, next := c.next + 1, due := c.due - 1, sealFrom := if e.typ = 3 then c.next + 1 else c.sealFrom }

/-- The events and counts of an entry that is written are no part of the ledger's own record. -/
theorem entryDone_ledger (s : State) (e : Entry) (hash : Nat) : (entryDone s e hash).ledger =
    { s.ledger with chains := tabMod {} s.ledger.chains e.chain (chainAfter e hash), waiting := s.ledger.waiting.drop 1, built := [],
                    unitsDone := 0, stuck := false } := by
  unfold entryDone
  dsimp only
  split <;> simp only [perfAdd_ledger, raiseEvent_ledger] <;> rfl

theorem chainOf_entryDone (s : State) (e : Entry) (hash c : Nat) :
    chainOf (entryDone s e hash) c = if e.chain = c then chainAfter e hash (chainOf s c) else chainOf s c := by
  simp only [chainOf, entryDone_ledger, tabGet_tabMod]
  split
  · next heq => rw [heq]
  · rfl

/-- Settles O47: the four rows by the conditions under which they act, and what an entry's last unit leaves by the ledger's record. -/
theorem ledgerEntriesReachTheRing : Obligations.LedgerEntriesReachTheRing := by
  refine ⟨fun s _ hready => ⟨fun hstuck => ?write, fun hstuck => ?retry⟩, fun s e hash => ?done, fun s fail _ hrun hperiod => ?sealDue,
    fun s t _ hreplay hen hnew hreached => ?stop⟩
  case write => rw [exec_ledgerEntryWrite, doLedgerWrite_of_ready hready hstuck]
  case retry => rw [exec_ringUnitRetry, doRingRetry_of_stuck hready hstuck]
  case done =>
    have hself : chainOf (entryDone s e hash) e.chain = chainAfter e hash (chainOf s e.chain) := by rw [chainOf_entryDone, if_pos rfl]
    refine ⟨by rw [hself]; rfl, by rw [hself]; rfl, by rw [entryDone_ledger], by rw [entryDone_ledger], fun c hc => ?_⟩
    rw [chainOf_entryDone, if_neg (Ne.symm hc)]
  case sealDue => rw [exec_sealPeriod, doSealPeriod_of_period fail hrun hperiod]
  case stop => rw [exec_stopHit, doStopHit_of_reached hreplay hen hnew hreached]

end Sys2Proof.Machine
end

section
/-! PROOFS. What moves no link: an operation that leaves of every link what `f` reads, of every page its registers, STATE, EPOCH and the
events that it shows. The operations on memory and the register pages. -/

namespace Sys2Proof.Machine

/-- A page keeps its registers, STATE and EPOCH, and the events that it shows (R651: only a write of EVENT clears one). -/
structure PageStays (p q : Page) : Prop where
  regs : q.regs = p.regs
  st : q.st = p.st
  epoch : q.epoch = p.epoch
  events : ∀ n, p.event.getLsbD n = true → q.event.getLsbD n = true

theorem PageStays.trans {p q r : Page} (h : PageStays p q) (k : PageStays q r) : PageStays p r :=
  ⟨k.regs.trans h.regs, k.st.trans h.st, k.epoch.trans h.epoch, fun n e => k.events n (h.events n e)⟩

/-- Of every link `u` has what `f` reads of it in `s`, and the table of links holds no other entries: each is one of `s`, or reads as the
link that is looked up under its number; so the other way round. Every page stays. -/
structure Unmoved {α : Type} (f : Link → α) (s u : State) : Prop where
  link : ∀ k, f (lnk u k) = f (lnk s k)
  listed : ∀ e ∈ u.links, e ∈ s.links ∨ f e.2 = f (lnk s e.1)
  stays : ∀ e ∈ s.links, e ∈ u.links ∨ f e.2 = f (lnk s e.1)
  pages : ∀ b i, PageStays (page s b i) (page u b i)

namespace Unmoved

variable {α : Type} {f : Link → α} {s u v : State}

theorem refl (f : Link → α) (s : State) : Unmoved f s s :=
  ⟨fun _ => rfl, fun _ h => .inl h, fun _ h => .inl h, fun _ _ => ⟨rfl, rfl, rfl, fun _ e => e⟩⟩

theorem trans (h : Unmoved f s u) (k : Unmoved f u v) : Unmoved f s v where
  link n := (k.link n).trans (h.link n)
  listed e he := (k.listed e he).elim (h.listed e) (fun hf => .inr (hf.trans (h.link _)))
  stays e he := (h.stays e he).elim (fun hu => (k.stays e hu).imp_right (fun hf => hf.trans (h.link _))) .inr
  pages b i := (h.pages b i).trans (k.pages b i)

/-- What is read of that which does not move does not move. -/
theorem map {β : Type} (g : α → β) (h : Unmoved f s u) : Unmoved (fun l => g (f l)) s u where
  link n := congrArg g (h.link n)
  listed e he := (h.listed e he).imp_right (congrArg g)
  stays e he := (h.stays e he).imp_right (congrArg g)
  pages := h.pages

/-- What depends on what `f` reads of a link. -/
theorem link_of {β : Type} {g : Link → β} (h : Unmoved f s u) (hg : ∀ a b, f a = f b → g a = g b) (k : Nat) : g (lnk u k) = g (lnk s k) :=
  hg _ _ (h.link k)

theorem event (h : Unmoved f s u) {b : Block} {i n : Nat} (e : (page s b i).event.getLsbD n = true) :
    (page u b i).event.getLsbD n = true := (h.pages b i).events n e

theorem regWord_eq (h : Unmoved f s u) (b : Block) (i off d : Nat) : regWord u b i off d = regWord s b i off d := by
  simp only [regWord, (h.pages b i).regs]

theorem foldl {β : Type} {step : State → β → State} {l : List β} (h : ∀ {x : State} b, Unmoved f s x → Unmoved f s (step x b))
    (w : Unmoved f s u) : Unmoved f s (l.foldl step u) :=
  List.foldlRecOn (motive := Unmoved f s) l step w (fun _ hx b _ => h b hx)

/-- Both branches of a case do not. -/
theorem ite {c : Prop} [Decidable c] {a b : State} (ha : Unmoved f s a) (hb : Unmoved f s b) : Unmoved f s (if c then a else b) := by
  split
  exacts [ha, hb]

section Update

variable {part : Part} {mem : Memory} {poison : List Nat} {dark : List (Nat × Byte)} {darkPoison sealedG : List Nat}
  {darkErrs memErrs : List MemErr} {seals : List SealReq} {spads : Tab Spad} {ports : Tab Port} {tenants : Tab Tenant} {jobs : List Job}
  {hostIf : HostIf} {hen : Hen} {ledger : Ledger} {drakes : Tab DrakeGrp} {oxs : Tab OxArr} {ponys : Tab PonySl} {mule : Mule}
  {solvs : Tab (Tab SolSys)} {sw : Switch} {coll : Coll} {xag : Xag} {mgmt : Mgmt} {pwr : Pwr} {arbs : Tab Arb} {tap : TapInstr}
  {gclk : Nat} {out : List Out} {freeCount : Nat} {pending : List Instr}

/-- An update of other fields than the pages and the links. -/
theorem others (w : Unmoved f s u) :
    Unmoved f s ⟨part, u.pages, mem, poison, dark, darkPoison, darkErrs, memErrs, sealedG, seals, spads, ports, tenants, jobs, hostIf, hen,
      ledger, drakes, oxs, ponys, mule, solvs, u.links, sw, coll, xag, mgmt, pwr, arbs, tap, gclk, out, freeCount, pending⟩ :=
  ⟨w.link, w.listed, w.stays, w.pages⟩

end Update

/-! The shared operations over the state. -/

theorem modPage {b : Block} {i : Nat} {g : Page → Page} (h : ∀ p, PageStays p (g p)) (w : Unmoved f s u) :
    Unmoved f s (modPage u b i g) where
  link := w.link
  listed := w.listed
  stays := w.stays
  pages c k := by
    rw [page_modPage]
    split
    · next hk =>
      have hpage : PageStays (page s c k) (page u b i) := by simpa only [page, hk] using w.pages c k
      exact hpage.trans (h _)
    · exact w.pages c k

theorem perfAdd {b : Block} {i k n : Nat} (w : Unmoved f s u) : Unmoved f s (perfAdd u b i k n) :=
  w.modPage (fun _ => ⟨rfl, rfl, rfl, fun _ e => e⟩)

theorem emit {o : Out} (w : Unmoved f s u) : Unmoved f s (emit u o) := w.others

theorem raiseVec {fn vec : Nat} (w : Unmoved f s u) : Unmoved f s (raiseVec u fn vec) := by
  unfold Machine.raiseVec
  split
  exacts [w.emit.perfAdd, w.others]

theorem raiseEvent {b : Block} {i n : Nat} (w : Unmoved f s u) : Unmoved f s (raiseEvent u b i n) := by
  have hset : Unmoved f s (Machine.modPage u b i (fun p =>
      { p with event := p.event ||| BitVec.ofNat 32 (2 ^ n), count := tabMod 0 p.count (min n 7) (fun c => satTo 8 (c + 1)) })) :=
    w.modPage (fun p => ⟨rfl, rfl, rfl, fun m hm => by rw [BitVec.getLsbD_or, hm, Bool.true_or]⟩)
  unfold Machine.raiseEvent
  dsimp only
  split
  exacts [hset.raiseVec, hset]

theorem rasLog {b : Block} {i cls code addr tenant : Nat} (w : Unmoved f s u) : Unmoved f s (rasLog u b i cls code addr tenant) := by
  unfold Machine.rasLog
  dsimp only
  split
  exacts [w.others.perfAdd.raiseEvent, w.others.perfAdd]

theorem blkError {b : Block} {i cls code addr tenant : Nat} (w : Unmoved f s u) : Unmoved f s (blkError u b i cls code addr tenant) := by
  have hnote : Unmoved f s (Machine.modPage u b i (noteErr cls code addr tenant)) :=
    w.modPage (fun p => by unfold noteErr; split <;> exact ⟨rfl, rfl, rfl, fun _ e => e⟩)
  unfold Machine.blkError
  dsimp only
  split
  exacts [hnote.rasLog, hnote]

/-! Errors met by reads, translations. -/

theorem meetUe {l : Nat} (w : Unmoved f s u) : Unmoved f s (meetUe u l) := by
  unfold Machine.meetUe
  dsimp only
  split
  · exact w.others.others.raiseEvent.blkError
  · split
    exacts [w.others.others.raiseEvent.blkError, w.others]

theorem corrected {a : Nat} (w : Unmoved f s u) : Unmoved f s (corrected u a) := by
  unfold Machine.corrected
  split
  · exact w.raiseEvent.perfAdd
  · split
    exacts [w.raiseEvent.perfAdd, w]

theorem meetErr {l : Nat} (w : Unmoved f s u) : Unmoved f s (meetErr u l) := by
  have hclr : Unmoved f s (clrErrs u l) := w.others
  unfold Machine.meetErr
  dsimp only
  split
  · exact hclr
  · exact hclr.corrected
  · exact hclr.meetUe
  · split
    exacts [hclr.others.meetUe, hclr.others.others.corrected]

theorem meetErrs {p : Nat → Bool} (w : Unmoved f s u) : Unmoved f s (meetErrs u p) := w.foldl (fun _ hx => hx.meetErr)

theorem fillPage {t vp : Nat} (w : Unmoved f s u) : Unmoved f s (fillPage u t vp) := by
  unfold Machine.fillPage
  dsimp only
  split
  · exact w
  · split
    exacts [w.perfAdd.others, w.perfAdd, w.perfAdd.raiseEvent]

theorem fillTlb {t va n : Nat} (w : Unmoved f s u) : Unmoved f s (fillTlb u t va n) := w.foldl (fun _ hx => hx.fillPage)

/-! Writes to memory. -/

theorem sealHit {a : Nat} (w : Unmoved f s u) : Unmoved f s (sealHit u a) := by
  unfold Machine.sealHit
  split
  exacts [w.raiseEvent, w.raiseEvent, w]

theorem goneHit {a : Nat} (w : Unmoved f s u) : Unmoved f s (goneHit u a) := by
  unfold Machine.goneHit
  split
  · exact w.raiseEvent
  · split
    exacts [w.perfAdd, w]
  · exact w

theorem henPage {dst : Nat} {bs : List Byte} {bad : List Nat} (w : Unmoved f s u) : Unmoved f s (henPage u dst bs bad) := by
  unfold Machine.henPage
  split
  · exact w
  · split
    · exact w.sealHit
    · exact w.others.others.foldl (fun _ hx => hx.others)

theorem copyChunk {c : Cutting} {i : Nat} (w : Unmoved f s u) : Unmoved f s (copyChunk u c i) := by
  unfold Machine.copyChunk
  dsimp only
  split
  exacts [w.meetErrs.henPage.others.perfAdd, w.henPage.others.perfAdd]

theorem holdFor {a : Nat} (w : Unmoved f s u) : Unmoved f s (holdFor u a) := by
  unfold Machine.holdFor
  split
  exacts [w, w.perfAdd.foldl (fun _ hx => hx.copyChunk)]

theorem storeLine {a : Nat} {bs : List Byte} (w : Unmoved f s u) : Unmoved f s (storeLine u a bs).1 := by
  unfold Machine.storeLine
  dsimp only
  split
  · exact w.goneHit
  · split
    · exact w.sealHit
    · split
      · exact w.holdFor.others.others
      · split
        exacts [w.holdFor.meetErrs, w.holdFor.meetErrs.others]

theorem storeLines {n a : Nat} {bs : List Byte} (w : Unmoved f s u) : Unmoved f s (storeLines n u a bs).1 := by
  induction n generalizing u a bs with
  | zero => exact w
  | succ n ih =>
    unfold Machine.storeLines
    split
    exacts [w, ih w.storeLine]

theorem store {a : Nat} {bs : List Byte} (w : Unmoved f s u) : Unmoved f s (store u a bs).1 := w.storeLines

theorem storePoison {a : Nat} (w : Unmoved f s u) : Unmoved f s (storePoison u a).1 := by
  unfold Machine.storePoison
  split
  · exact w.goneHit
  · split
    exacts [w.sealHit, w.holdFor.others.others]

end Unmoved

end Sys2Proof.Machine
end

section
/-! PROOFS. What moves no link: the ledger, the completions of Goose and Hen's decisions, which an OVERRIDE entry can set going (R465, R666). -/

namespace Sys2Proof.Machine.Unmoved

variable {α : Type} {f : Link → α} {s u : State}

/-! The ledger. -/

theorem ledgerPush {e : Entry} (w : Unmoved f s u) : Unmoved f s (ledgerPush u e) := by
  unfold Machine.ledgerPush
  dsimp only
  split
  exacts [w.others, w.others.raiseEvent]

theorem ledgerDue {e : Entry} (w : Unmoved f s u) : Unmoved f s (ledgerDue u e) := by
  unfold Machine.ledgerDue
  dsimp only
  split
  exacts [w.ledgerPush.ledgerPush, w.ledgerPush]

theorem overrideEntry {cause us : Nat} (w : Unmoved f s u) : Unmoved f s (overrideEntry u cause us) := by
  unfold Machine.overrideEntry
  dsimp only
  split
  exacts [w.others, w.ledgerDue]

theorem entryDone {e : Entry} {hash : Nat} (w : Unmoved f s u) : Unmoved f s (entryDone u e hash) := by
  unfold Machine.entryDone
  dsimp only
  split
  exacts [w.others.others.perfAdd.raiseEvent.perfAdd, w.others.others.perfAdd.raiseEvent.perfAdd, w.others.others.perfAdd]

theorem of_writeUnit {v : State} (h : writeUnit u = some v) (w : Unmoved f s u) : Unmoved f s v := by
  unfold writeUnit at h
  dsimp only at h
  split at h
  · cases h
  · cases h
    exact w.store.perfAdd.others

theorem writeUnits {e : Entry} {hash n : Nat} (w : Unmoved f s u) : Unmoved f s (writeUnits e hash n u) := by
  induction n generalizing u with
  | zero => exact w
  | succ n ih =>
    unfold Machine.writeUnits
    split
    · exact w.entryDone
    · split
      · exact w.others.raiseEvent
      · next v hv => exact ih (w.of_writeUnit hv)

theorem ledgerWrite (w : Unmoved f s u) : Unmoved f s (ledgerWrite u) := by
  unfold Machine.ledgerWrite
  split
  · exact w
  · split
    · exact w.writeUnits
    · split
      · split
        exacts [w, w.raiseEvent]
      · exact w.others.writeUnits

theorem ledgerDrain {n : Nat} (w : Unmoved f s u) : Unmoved f s (ledgerDrain n u) := by
  induction n generalizing u with
  | zero => exact w
  | succ n ih =>
    unfold Machine.ledgerDrain
    split
    · exact w
    · split
      exacts [w, ih w.ledgerWrite]

/-! Streams and their records. -/

theorem takeFront {t st : Nat} (w : Unmoved f s u) : Unmoved f s (takeFront u t st) := by
  unfold Machine.takeFront
  dsimp only
  split
  exacts [w.others.perfAdd, w.others]

theorem signal {t : Nat} {c : Cmd} {status : Nat} (w : Unmoved f s u) : Unmoved f s (signal u t c status) := by
  unfold Machine.signal
  dsimp only
  split
  · split
    exacts [w.others.others.raiseEvent, w.others]
  · exact w

theorem markReady {t : Nat} (w : Unmoved f s u) : Unmoved f s (markReady u t) :=
  w.foldl (fun _ hx => by
    split
    exacts [hx.others, hx])

theorem putRec {t st : Nat} {r : Rec} (w : Unmoved f s u) : Unmoved f s (putRec u t st r).1 := by
  have hfill : Unmoved f s (Machine.fillTlb u t (cplSlot (stream u t st) (stream u t st).wr) 32) := w.fillTlb
  unfold Machine.putRec
  dsimp only
  split
  · exact hfill
  · split
    · exact hfill
    · split
      · exact hfill.sealHit
      · split
        · exact hfill
        · dsimp only
          split
          exacts [hfill.store.others.raiseVec, hfill.store.others]

theorem cplFault {t st : Nat} (w : Unmoved f s u) : Unmoved f s (cplFault u t st) := w.others.raiseEvent

theorem writeRec {t st : Nat} {r : Rec} (w : Unmoved f s u) : Unmoved f s (writeRec u t st r) := by
  unfold Machine.writeRec
  dsimp only
  split
  · exact w.others
  · split
    exacts [w.putRec, w.putRec.others.cplFault]

theorem flushHeld {n t st : Nat} (w : Unmoved f s u) : Unmoved f s (flushHeld n u t st) := by
  induction n generalizing u with
  | zero => exact w
  | succ n ih =>
    unfold Machine.flushHeld
    dsimp only
    split
    · exact w
    · split
      exacts [ih w.putRec.others, w.putRec.cplFault]

theorem countCompletion {t : Nat} {r : Result} {tm : Timing} (w : Unmoved f s u) : Unmoved f s (countCompletion u t r tm) := by
  have hcause := (w.perfAdd (b := .ten) (i := t) (k := 0) (n := 1))
  unfold Machine.countCompletion
  dsimp only
  generalize h1 : (if (tm.cause != 0) = true then _ else _ : State) = x1
  have w1 : Unmoved f s x1 := h1 ▸ ite hcause.perfAdd hcause
  generalize h2 : (if (tm.cause == 1) = true then _ else _ : State) = x2
  have w2 : Unmoved f s x2 := h2 ▸ ite w1.perfAdd.perfAdd w1
  generalize h3 : (if r.skip = true then _ else _ : State) = x3
  have w3 : Unmoved f s x3 := h3 ▸ ite w2.perfAdd w2
  generalize h4 : (if (r.status == 0x12) = true then _ else _ : State) = x4
  have w4 : Unmoved f s x4 := h4 ▸ ite w3.raiseEvent.perfAdd w3
  generalize h5 : (if (r.status == 0x10 || r.status == 0x11) = true then _ else _ : State) = x5
  have w5 : Unmoved f s x5 := h5 ▸ ite w4.raiseEvent w4
  exact ite w5.raiseEvent.perfAdd w5

theorem record {t st : Nat} {c : Cmd} {r : Result} {tm : Timing} (w : Unmoved f s u) : Unmoved f s (record u t st c r tm) :=
  w.others.countCompletion.writeRec

theorem completePlain {t st : Nat} {c : Cmd} {r : Result} {tm : Timing} (w : Unmoved f s u) : Unmoved f s (completePlain u t st c r tm) :=
  w.record.signal.markReady

theorem writeBodies {t st k n : Nat} (w : Unmoved f s u) : Unmoved f s (writeBodies u t st k n) := by
  induction n with
  | zero => exact w
  | succ n ih =>
    unfold Machine.writeBodies
    dsimp only
    split
    · exact ih
    · split
      · split
        exacts [ih.others.record, ih]
      · exact ih

theorem closeLoop {t st k : Nat} (w : Unmoved f s u) : Unmoved f s (closeLoop u t st k) := by
  unfold Machine.closeLoop
  dsimp only
  split
  · exact w
  · split
    exacts [w.writeBodies, ite w.writeBodies.others.completePlain w.writeBodies]

theorem completeBody {t st : Nat} {c : Cmd} {i : Nat} {r : Result} {tm : Timing} {hold : Nat} (w : Unmoved f s u) :
    Unmoved f s (completeBody u t st c i r tm hold) := by
  unfold Machine.completeBody
  split
  · exact w.signal
  · exact (ite w.others.record w.others).signal.closeLoop.markReady

theorem completeFront {t st now : Nat} {c : Cmd} {it : Option Nat} {r : Result} (w : Unmoved f s u) :
    Unmoved f s (completeFront u t st now c it r) := by
  unfold Machine.completeFront Machine.complete
  cases it with
  | none => exact w.takeFront.completePlain
  | some i => exact w.takeFront.completeBody

/-! The close of a step (R66), and Hen's part in it. -/

theorem cutBegin {t : Nat} {c : W64} (w : Unmoved f s u) : Unmoved f s (cutBegin u t c) := by
  unfold Machine.cutBegin
  split
  · exact w.others.others.others.others.raiseEvent
  · exact w.others.others.others.others.others.others

theorem henStepClosed {t : Nat} {c : W64} (w : Unmoved f s u) : Unmoved f s (henStepClosed u t c) := by
  unfold Machine.henStepClosed
  dsimp only
  split
  · exact w.others.cutBegin
  · split
    exacts [w.others, w.others.others]

theorem henEnabled {t : Nat} (w : Unmoved f s u) : Unmoved f s (henEnabled u t) := by
  unfold Machine.henEnabled Machine.restAborts
  exact ite (ite w.others.raiseEvent w) w

theorem applyEn {t : Nat} (w : Unmoved f s u) : Unmoved f s (applyEn u t) :=
  (Unmoved.foldl (fun _ hx => hx.others.flushHeld) w.others).henEnabled.markReady

theorem finishStep {t : Nat} (w : Unmoved f s u) : Unmoved f s (finishStep u t) := by
  unfold Machine.finishStep
  split
  · exact w
  · exact w.others.henStepClosed.raiseEvent.perfAdd.others.others.perfAdd.completeFront.others.applyEn

theorem ledgerRun (w : Unmoved f s u) : Unmoved f s (ledgerRun u) :=
  ite (w.ledgerDrain.foldl (fun _ hx => ite hx.finishStep hx)) w

/-! Protection. -/

theorem beginEpisode {cause who : Nat} (w : Unmoved f s u) : Unmoved f s (beginEpisode u cause who) :=
  ite w (ite w.others w.others.raiseEvent)

end Sys2Proof.Machine.Unmoved
end

section
/-! PROOFS. What flits leave of the links: acks, credits and messages move no link at rest (R493, R496, R500 to R513), nor does the herd, which
the links' changes can split (R588). -/

namespace Sys2Proof.Machine

/-! The table of links. -/

@[simp] theorem lnk_modLink (s : State) (n k : Nat) (g : Link → Link) : lnk (modLink s n g) k = if n = k then g (lnk s n) else lnk s k := by
  simp [lnk, modLink]

/-- Two updates of one link are one. -/
theorem modLink_modLink (s : State) (n : Nat) (g h : Link → Link) : modLink (modLink s n g) n h = modLink s n (fun l => h (g l)) := by
  simp only [modLink, tabMod_tabMod]

/-- An entry of a table after one is set is that one or was there. -/
theorem of_mem_tabSet {α : Type} {t : Tab α} {k : Nat} {v : α} {e : Nat × α} (h : e ∈ tabSet t k v) : e = (k, v) ∨ e ∈ t := by
  induction t with
  | nil => exact .inl (List.mem_singleton.1 h)
  | cons a t ih =>
    unfold tabSet at h
    split at h
    · exact (List.mem_cons.1 h).imp_right (.tail _)
    · split at h
      · exact List.mem_cons.1 h
      · rcases List.mem_cons.1 h with h | h
        · exact .inr (h ▸ .head _)
        · exact (ih h).imp_right (.tail _)

/-- An entry of a table stays when one is set, unless it is the one found under that number. -/
theorem mem_tabSet_of_mem {α : Type} {t : Tab α} {k : Nat} (v : α) {e : Nat × α} (h : e ∈ t) :
    e ∈ tabSet t k v ∨ e.1 = k ∧ tabFind t k = some e.2 := by
  induction t with
  | nil => cases h
  | cons a t ih =>
    unfold tabSet tabFind
    split
    · next hj =>
      rcases List.mem_cons.1 h with h | h
      · subst h
        exact .inr ⟨hj, rfl⟩
      · exact .inl (.tail _ h)
    · split
      · exact .inl (.tail _ h)
      · rcases List.mem_cons.1 h with h | h
        · exact .inl (h ▸ .head _)
        · exact (ih h).imp_left (.tail _)

/-! What of a link is traffic. -/

/-- A link with the flits it holds, the credits it counts and the arbiter's turn left out. -/
def atRest (l : Link) : Link :=
  { l with txSeq := 0, replay := [], queue := [], credits := [], owed := [], loan := [], paths := [], ackSent := 0, slot := 0, served := [] }

/-- `f` reads neither the credits owed, nor the slots lent, nor the ack told (R493, R496). -/
def SlotBlind {α : Type} (f : Link → α) : Prop := ∀ l owed loan ack, f { l with owed := owed, loan := loan, ackSent := ack } = f l

theorem slotBlind_atRest : SlotBlind atRest := fun _ _ _ _ => rfl

theorem payOwed_eq (l : Link) : ∃ owed, payOwed l = { l with owed := owed } := by
  unfold payOwed
  split
  exacts [⟨l.owed, rfl⟩, ⟨_, rfl⟩]

theorem freeInSlot_eq (l : Link) (k : Nat) : ∃ owed loan, freeInSlot l k = { l with owed := owed, loan := loan } := by
  unfold freeInSlot
  split
  exacts [⟨l.owed, _, rfl⟩, ⟨_, l.loan, rfl⟩]

theorem SlotBlind.payOwed {α : Type} {f : Link → α} (hf : SlotBlind f) (l : Link) (ack : Nat) : f (payOwed { l with ackSent := ack }) = f l := by
  obtain ⟨owed, h⟩ := payOwed_eq { l with ackSent := ack }
  rw [h]
  exact hf l owed l.loan ack

theorem SlotBlind.freeInSlot {α : Type} {f : Link → α} (hf : SlotBlind f) (l : Link) (k : Nat) : f (freeInSlot l k) = f l := by
  obtain ⟨owed, loan, h⟩ := freeInSlot_eq l k
  rw [h]
  exact hf l owed loan l.ackSent

namespace Unmoved

section Told

variable {α : Type} {f : Link → α} {s u : State}

theorem modLink {n : Nat} {g : Link → Link} (hg : ∀ l, f (g l) = f l) (w : Unmoved f s u) : Unmoved f s (modLink u n g) where
  link k := by
    rw [lnk_modLink]
    split
    · next hk => rw [hg, hk, w.link]
    · exact w.link k
  listed e he := by
    rcases of_mem_tabSet he with rfl | he
    · exact .inr ((hg _).trans (w.link n))
    · exact w.listed e he
  stays e he := by
    rcases w.stays e he with hu | hf
    · refine (mem_tabSet_of_mem _ hu).imp_right (fun ⟨hk, hfind⟩ => ?_)
      have hlnk : lnk u e.1 = e.2 := by rw [lnk, tabGet, hk, hfind, Option.getD_some]
      rw [← w.link, hlnk]
    · exact .inr hf
  pages := w.pages

variable (hf : SlotBlind f)
include hf

theorem sendCtl {n typ : Nat} {body : List Byte} (w : Unmoved f s u) : Unmoved f s (sendCtl u n typ body) :=
  (w.modLink (fun l => hf.payOwed l l.rxSeq)).emit

theorem sendData {n seq : Nat} {x : TxFlit} (w : Unmoved f s u) : Unmoved f s (sendData u n seq x) :=
  (w.modLink (fun l => hf.payOwed l l.rxSeq)).emit

theorem tell {k n : Nat} (w : Unmoved f s u) : Unmoved f s (tell k u n) := by
  induction k generalizing u with
  | zero => exact w
  | succ k ih => exact ite (ih (w.sendCtl hf).perfAdd) w

theorem tellAll {n : Nat} (w : Unmoved f s u) : Unmoved f s (tellAll u n) := w.tell hf

theorem leaveInput {p : Parcel} (w : Unmoved f s u) : Unmoved f s (leaveInput u p) := by
  unfold Machine.leaveInput Machine.freeInput
  split
  exacts [(w.modLink (fun l => hf.freeInSlot l _)).tellAll hf, w]

theorem sendRetry {n : Nat} (w : Unmoved f s u) : Unmoved f s (sendRetry u n) := (w.sendCtl hf).perfAdd

theorem sendCap {n : Nat} (hsent : ∀ l c, f { l with sent := c } = f l) (w : Unmoved f s u) : Unmoved f s (sendCap u n) :=
  (w.modLink (fun l => hsent l _)).sendCtl hf

theorem resendReplay {n : Nat} (w : Unmoved f s u) : Unmoved f s (resendReplay u n) := w.perfAdd.foldl (fun _ hx => hx.sendData hf)

end Told

/-! Holds and spares change no link. -/

theorem routesChanged {α : Type} {f : Link → α} {s u : State} {before : List Nat} (w : Unmoved f s u) :
    Unmoved f s (routesChanged before u) := by
  have hspare : Unmoved f s (spareEvents before u) := w.foldl (fun _ hx => hx.raiseEvent)
  exact ite hspare hspare.others.raiseEvent.perfAdd

section Traffic

variable {s u : State}

theorem pumpLink {k n : Nat} (w : Unmoved atRest s u) : Unmoved atRest s (pumpLink k u n) := by
  induction k generalizing u with
  | zero => exact w
  | succ k ih =>
    unfold Machine.pumpLink
    dsimp only
    split
    · exact w
    · split
      · exact w
      · split
        · exact w
        · split
          · exact w
          · refine ih ?_
            split
            · exact perfAdd (leaveInput slotBlind_atRest (perfAdd (sendData slotBlind_atRest (modLink (fun _ => rfl) w))))
            · exact leaveInput slotBlind_atRest (perfAdd (sendData slotBlind_atRest (modLink (fun _ => rfl) w)))

theorem pump {n : Nat} (w : Unmoved atRest s u) : Unmoved atRest s (pump u n) := w.pumpLink

theorem enqueue {n : Nat} {p : Parcel} (w : Unmoved atRest s u) : Unmoved atRest s (enqueue u n p) := by
  unfold Machine.enqueue Machine.countSent
  dsimp only
  exact pump (modLink (fun _ => rfl) (ite (ite w.perfAdd w) (perfAdd (perfAdd (ite w.perfAdd w)))))

theorem dropMsg {p : Parcel} (w : Unmoved atRest s u) : Unmoved atRest s (dropMsg u p) := w.raiseEvent.perfAdd.leaveInput slotBlind_atRest

theorem sendMsg {p : Parcel} (w : Unmoved atRest s u) : Unmoved atRest s (sendMsg u p) := by
  unfold Machine.sendMsg
  split
  · exact emit (perfAdd (ite w (perfAdd (perfAdd w))))
  · split
    · exact w.dropMsg
    · split
      · exact w.others
      · split
        · exact (ite w.others.perfAdd w).enqueue
        · exact w.dropMsg

/-! A received flit on its way. -/

theorem takeHead {n : Nat} {x : Flit} (w : Unmoved atRest s u) : Unmoved atRest s (takeHead u n x) := by
  unfold Machine.takeHead
  exact pump (modLink (fun _ => rfl) w)

theorem keepPath {n : Nat} {x : Flit} {t : Transit} {left : Nat} {via : Option Nat} (w : Unmoved atRest s u) :
    Unmoved atRest s (keepPath u n x t left via) := w.modLink (fun _ => rfl)

theorem ejectFlit {n : Nat} {x : Flit} (w : Unmoved atRest s u) : Unmoved atRest s (ejectFlit u n x) :=
  w.perfAdd.modLink (fun l => slotBlind_atRest.freeInSlot l _)

theorem passTo {n : Nat} {x : Flit} {t : Transit} (w : Unmoved atRest s u) : Unmoved atRest s (passTo u n x t) :=
  ite w.keepPath.ejectFlit w.keepPath.perfAdd.sendMsg

theorem passRest {n : Nat} {x : Flit} {q : FlitPath} (w : Unmoved atRest s u) : Unmoved atRest s (passRest u n x q) := by
  unfold Machine.passRest
  dsimp only
  split
  · exact w.keepPath.ejectFlit
  · split
    · exact ite w.keepPath.perfAdd.enqueue w.keepPath.perfAdd.sendMsg
    · exact w.keepPath.perfAdd.sendMsg

theorem passOn {n : Nat} {x : Flit} (w : Unmoved atRest s u) : Unmoved atRest s (passOn u n x) := by
  unfold Machine.passOn
  split
  exacts [w.passTo, w.passRest, w.ejectFlit]

/-! The herd at its home (R582 to R588). -/

theorem sendMember {member k : Nat} {op : HerdOp} {g : HerdMsg → HerdMsg} (w : Unmoved atRest s u) :
    Unmoved atRest s (sendMember u member k op g) := by
  unfold Machine.sendMember
  split
  exacts [w.sendMsg, w]

theorem readHome {k : Nat} (w : Unmoved atRest s u) : Unmoved atRest s (readHome u k) := by
  unfold Machine.readHome
  split
  exacts [w.meetErrs, w]

theorem sendDataS {k member : Nat} (w : Unmoved atRest s u) : Unmoved atRest s (sendDataS u k member) := by
  unfold Machine.sendDataS
  exact sendMember (readHome w)

theorem sendDataM {k member : Nat} (w : Unmoved atRest s u) : Unmoved atRest s (sendDataM u k member) := by
  unfold Machine.sendDataM
  exact w.others.readHome.sendMember

theorem openTrans {k : Nat} {req : Option (HerdOp × HerdMsg)} {op : HerdOp} {ms : List Nat} (w : Unmoved atRest s u) :
    Unmoved atRest s (openTrans u k req op ms) := w.others.perfAdd.foldl (fun _ hx => hx.sendMember)

theorem serveNext {k : Nat} (w : Unmoved atRest s u) : Unmoved atRest s (serveNext u k) := by
  unfold Machine.serveNext
  split
  · exact w
  · unfold serveHerd
    dsimp only
    exact ite (ite w.others.openTrans w.others.others.sendDataS) (ite w.others.openTrans (ite w.others.openTrans w.others.sendDataM))

theorem endTrans {k : Nat} {t : HerdTrans} (w : Unmoved atRest s u) : Unmoved atRest s (endTrans u k t) := by
  unfold Machine.endTrans
  dsimp only
  split
  exacts [w.others.others.sendDataS.serveNext, w.others.sendDataM.serveNext, w.others.others.serveNext]

theorem stepTrans {k : Nat} {t : HerdTrans} (w : Unmoved atRest s u) : Unmoved atRest s (stepTrans u k t) := ite w.endTrans w.others

theorem writeLineData {k : Nat} {d : List Byte} {poison : Bool} (w : Unmoved atRest s u) : Unmoved atRest s (writeLineData u k d poison) := by
  unfold Machine.writeLineData
  split
  exacts [ite w.storePoison w.store, w]

theorem memberLeaves {m : Nat} (w : Unmoved atRest s u) : Unmoved atRest s (memberLeaves u m) :=
  w.foldl (fun e hx => by
    dsimp only
    generalize hy : Machine.modDir _ _ _ = y
    have hleft : Unmoved atRest s y := hy ▸ others (ite (raiseEvent (writeLineData (others hx))) (others hx))
    split
    · exact hleft
    · split
      · exact ite (ite (serveNext (others hleft)) (others hleft)) (stepTrans hleft)
      · exact stepTrans hleft)

theorem checkSplits (w : Unmoved atRest s u) : Unmoved atRest s (checkSplits u) :=
  Unmoved.foldl (fun _ hx => hx.raiseEvent.memberLeaves) w.others

end Traffic

end Unmoved

end Sys2Proof.Machine
end

section
/-! PROOFS. A link that changes its state (12.2, R486, R498, R516): what the links keep when it has moved, what a failed attempt leaves, and
what the loss of a link takes with it. -/

namespace Sys2Proof.Machine

@[simp] theorem lnk_raiseEvent (s : State) (b : Block) (i n k : Nat) : lnk (raiseEvent s b i n) k = lnk s k := by simp [lnk]
@[simp] theorem lnk_perfAdd (s : State) (b : Block) (i k n j : Nat) : lnk (perfAdd s b i k n) j = lnk s j := rfl
@[simp] theorem lnk_modPage (s : State) (b : Block) (i : Nat) (g : Page → Page) (k : Nat) : lnk (modPage s b i g) k = lnk s k := rfl
@[simp] theorem page_modLink (s : State) (n : Nat) (g : Link → Link) (b : Block) (i : Nat) : page (modLink s n g) b i = page s b i := rfl
@[simp] theorem page_linkIdle (s : State) (n st : Nat) (b : Block) (i : Nat) : page (linkIdle s n st) b i = page s b i := rfl

@[simp] theorem lnk_linkIdle (s : State) (n st : Nat) : lnk (linkIdle s n st) n =
    { lnk s n with st := st, mode := {}, fec := 0, txLanes := 0, feat := 0, arch := 0, backoff := false,
                   cap := if st = 0 then none else (lnk s n).cap } := by
  simp [linkIdle]

/-! What a link's move leaves of the links (R498, R513, R588). -/

/-- `f` does not read the override episode of a link (R498). -/
def OverrideBlind {α : Type} (f : Link → α) : Prop :=
  ∀ l ovr inMs outUs time, f { l with ovr := ovr, inMs := inMs, outUs := outUs, ovrTime := time } = f l

/-- A link at rest, with its override episode left out. -/
def besidesOverride (l : Link) : Link := { atRest l with ovr := false, inMs := 0, outUs := 0, ovrTime := 0 }

/-- The flits that a link holds: those not acknowledged, and those that wait. -/
def heldFlits (l : Link) : List (Nat × TxFlit) × List TxFlit := (l.replay, l.queue)

theorem overrideBlind_besidesOverride : OverrideBlind besidesOverride := fun _ _ _ _ _ => rfl

theorem overrideBlind_heldFlits : OverrideBlind heldFlits := fun _ _ _ _ _ => rfl

theorem slotBlind_heldFlits : SlotBlind heldFlits := fun _ _ _ _ => rfl

/-- The end of an episode, with its OVERRIDE entry and the steps that close with it, moves nothing else of the links. -/
theorem Unmoved.endLinkOverride {α : Type} {f : Link → α} {s u : State} {n : Nat} (hf : OverrideBlind f) (w : Unmoved f s u) :
    Unmoved f s (endLinkOverride u n) := ite (w.modLink (fun l => hf l _ _ _ _)).others.perfAdd.overrideEntry.ledgerRun.emit w

theorem unmoved_linkMoved (before : List Nat) (s : State) (n : Nat) : Unmoved besidesOverride s (linkMoved before s n) := by
  have hback : Unmoved besidesOverride s (if (lnk s n).st = 9 || ((lnk s n).st = 7 && inPolicy s n (lnk s n).mode) then endLinkOverride s n else s) :=
    .ite ((Unmoved.refl _ s).endLinkOverride overrideBlind_besidesOverride) (.refl _ s)
  exact hback.routesChanged.trans ((Unmoved.refl atRest _).checkSplits.map
    (fun l => { l with ovr := false, inMs := 0, outUs := 0, ovrTime := 0 }))

/-- Without a herd the links' changes split no member. -/
theorem checkSplits_of_herdOff {s : State} (h : herdOn s = false) : checkSplits s = { s with xag := { s.xag with split := [] } } := by
  have hnode (m : Nat) : herdNode s m = none := by simp [herdNode, h]
  simp [checkSplits, hnode]

theorem Unmoved.herdOn_eq {α : Type} {f : Link → α} {s u : State} (h : Unmoved f s u) : herdOn u = herdOn s := by
  simp only [herdOn, herdWord, h.regWord_eq]

/-- Without a herd no message follows a link's move: the links hold the flits that they held. -/
theorem unmoved_linkMoved_of_herdOff (before : List Nat) {s : State} (n : Nat) (h : herdOn s = false) :
    Unmoved heldFlits s (linkMoved before s n) := by
  have hback : Unmoved heldFlits s (if (lnk s n).st = 9 || ((lnk s n).st = 7 && inPolicy s n (lnk s n).mode) then endLinkOverride s n else s) :=
    .ite ((Unmoved.refl _ s).endLinkOverride overrideBlind_heldFlits) (.refl _ s)
  have hroutes := hback.routesChanged (before := before)
  unfold linkMoved
  dsimp only
  rw [checkSplits_of_herdOff (hroutes.herdOn_eq.trans h)]
  exact hroutes.others

/-- Back within policy a link's override ends with the time outside policy counted (R498). -/
theorem linkMoved_of_back (before : List Nat) {s : State} {n : Nat} (hst : (lnk s n).st = 7) (hpol : inPolicy s n (lnk s n).mode = true)
    (hovr : (lnk s n).ovr = true) {β : Type} {g : Link → β} (hg : ∀ a b, atRest a = atRest b → g a = g b) :
    g (lnk (linkMoved before s n) n)
      = g { lnk s n with ovr := false, inMs := 0, outUs := 0, ovrTime := (lnk s n).ovrTime + BitVec.ofNat 64 (lnk s n).outUs } := by
  let ended : State := modLink s n (fun l => { l with
    ovr := false, inMs := 0, outUs := 0, ovrTime := l.ovrTime + BitVec.ofNat 64 (lnk s n).outUs })
  have hend : Unmoved atRest ended (endLinkEpisode s n (lnk s n).outUs) :=
    (Unmoved.refl atRest ended).others.perfAdd.overrideEntry.ledgerRun.emit
  have hmoved : linkMoved before s n = checkSplits (routesChanged before (endLinkEpisode s n (lnk s n).outUs)) := by
    simp [linkMoved, endLinkOverride, hst, hpol, hovr]
  rw [hmoved, hend.routesChanged.checkSplits.link_of hg, lnk_modLink, if_pos rfl]

section Moved

variable (before : List Nat) (s : State) (n : Nat)

@[simp] theorem linkMoved_st : (lnk (linkMoved before s n) n).st = (lnk s n).st :=
  (unmoved_linkMoved before s n).link_of (g := Link.st) (fun _ _ => congrArg Link.st) n
@[simp] theorem linkMoved_mode : (lnk (linkMoved before s n) n).mode = (lnk s n).mode :=
  (unmoved_linkMoved before s n).link_of (g := Link.mode) (fun _ _ => congrArg Link.mode) n
@[simp] theorem linkMoved_attempts : (lnk (linkMoved before s n) n).attempts = (lnk s n).attempts :=
  (unmoved_linkMoved before s n).link_of (g := Link.attempts) (fun _ _ => congrArg Link.attempts) n
@[simp] theorem linkMoved_backoff : (lnk (linkMoved before s n) n).backoff = (lnk s n).backoff :=
  (unmoved_linkMoved before s n).link_of (g := Link.backoff) (fun _ _ => congrArg Link.backoff) n
@[simp] theorem linkMoved_failState : (lnk (linkMoved before s n) n).failState = (lnk s n).failState :=
  (unmoved_linkMoved before s n).link_of (g := Link.failState) (fun _ _ => congrArg Link.failState) n

end Moved

/-! A failed attempt (R486). -/

/-- What a failed attempt of link `n` of `s` leaves: the third in a row FAILED with its event, an earlier one DOWN with its wait. -/
def AttemptFailed (s : State) (n : Nat) (u : State) : Prop :=
  (lnk u n).failState = (lnk s n).st ∧ (if 3 ≤ (lnk s n).attempts + 1 then (lnk u n).st = 9 ∧ (page u .wlink n).event.getLsbD 4 = true
    else (lnk u n).st = 1 ∧ (lnk u n).backoff = true ∧ (lnk u n).attempts = (lnk s n).attempts + 1)

theorem attemptFailed_attemptFails (s : State) (n : Nat) : AttemptFailed s n (attemptFails s n) := by
  unfold AttemptFailed attemptFails
  dsimp only
  split
  · exact ⟨by simp, by simp, event_raiseEvent_self _ _ _ (by decide)⟩
  · next hfew => exact ⟨by simp, by simp, by simp, by simp [satTo]; omega⟩

theorem attemptFailed_attemptLost (s : State) (n : Nat) : AttemptFailed s n (attemptLost s n) := by
  obtain ⟨hstate, hleft⟩ := attemptFailed_attemptFails s n
  refine ⟨by rw [attemptLost, linkMoved_failState, hstate], ?_⟩
  unfold attemptLost
  split at hleft
  · next hthree =>
    rw [if_pos hthree, linkMoved_st]
    exact ⟨hleft.1, (unmoved_linkMoved _ _ n).event hleft.2⟩
  · next hfew => rwa [if_neg hfew, linkMoved_st, linkMoved_backoff, linkMoved_attempts]

end Sys2Proof.Machine
end

section
/-! PROOFS. A link's states from DISABLED to ACTIVE (R485 to R490, R499). -/

namespace Sys2Proof.Machine

/-! What the rows of the dispatch stand for. -/

theorem exec_linkEnable (r : Requester) (n : Nat) (s : State) : exec (.linkEnable r n) s = .next (whenLive s (doLinkEnable s r n)) := rfl
theorem exec_linkDetect (n : Nat) (s : State) : exec (.linkDetect n) s = .next (whenLive s (doLinkDetect s n)) := rfl
theorem exec_linkStateAdvance (n lanes : Nat) (s : State) :
    exec (.linkStateAdvance n lanes) s = .next (whenLive s (doLinkAdvance s n lanes)) := rfl
theorem exec_linkStateTimeout (n : Nat) (s : State) : exec (.linkStateTimeout n) s = .next (whenLive s (doLinkTimeout s n)) := rfl
theorem exec_attemptBackoffEnd (n : Nat) (s : State) : exec (.attemptBackoffEnd n) s = .next (whenLive s (doBackoffEnd s n)) := rfl
theorem exec_linkFailedRetry (n : Nat) (s : State) : exec (.linkFailedRetry n) s = .next (whenLive s (doFailedRetry s n)) := rfl
theorem exec_cap (n : Nat) (c : CapBody) (s : State) : exec (.cap n c) s = .next (whenLive s (doCap s n c)) := rfl
theorem exec_capRepeat (n : Nat) (s : State) : exec (.capRepeat n) s = .next (whenLive s (doCapRepeat s n)) := rfl
theorem exec_verifyEnd (n : Nat) (got : List (List Byte)) (s : State) :
    exec (.verifyEnd n got) s = .next (whenLive s (doVerifyEnd s n got)) := rfl
theorem exec_retrainEnd (n : Nat) (s : State) : exec (.retrainEnd n) s = .next (whenLive s (doRetrainEnd s n)) := rfl

/-- What a command makes of the links, the pages and what is sent is what its effect makes of them. -/
theorem next_links {s x : State} (h : live s = true) {P : State → Prop} (hP : ∀ u, lnk u = lnk x → page u = page x → u.out = x.out → P u) :
    ∃ u, (Host.Outcome.next (whenLive s x) : Host.Outcome State Fault Refusal) = .next u ∧ P u := next_of_live h (hP _ rfl rfl rfl)

theorem AttemptFailed.next {s t u : State} {n : Nat} (hlive : live s = true) (h : AttemptFailed t n u) (hst : (lnk t n).st = (lnk s n).st)
    (hattempts : (lnk t n).attempts = (lnk s n).attempts) :
    ∃ v, (Host.Outcome.next (whenLive s u) : Host.Outcome State Fault Refusal) = .next v ∧ AttemptFailed s n v := by
  refine next_of_live hlive ?_
  unfold AttemptFailed at h ⊢
  rwa [hst, hattempts] at h

/-! ACTIVE after VERIFY, and after a retrain. -/

/-- R489, R490: a link that enters ACTIVE is in its target mode, with its event, and with that of a floor that the partner keeps it below. -/
theorem enterActive_of_cap {s : State} {n : Nat} {c : CapBody} (hcap : (lnk s n).cap = some c) :
    let u := enterActive s n
    ((lnk u n).st = 7 ∧ (lnk u n).mode = (lnk s n).target ∧ (lnk u n).attempts = 0) ∧ (page u .wlink n).event.getLsbD 0 = true
      ∧ ((lnk s n).agreed.gen < genFloor s n → reachesFloor s n (sentCap s n) = true → (page u .wlink n).event.getLsbD 6 = true) := by
  unfold enterActive
  simp only [hcap]
  generalize hx : modLink (setMode s n (lnk s n).target) n _ = x
  generalize hy : (if (lnk s n).agreed.gen < genFloor (raiseEvent x .wlink n 0) n && reachesFloor (raiseEvent x .wlink n 0) n (sentCap s n)
    then raiseEvent (raiseEvent x .wlink n 0) .wlink n 6 else raiseEvent x .wlink n 0) = y
  generalize hz : routesChanged _ _ = z
  have hlink : (lnk x n).st = 7 ∧ (lnk x n).mode = (lnk s n).target ∧ (lnk x n).attempts = 0 := by
    subst hx
    simp [setMode]
  have hfloor : genFloor (raiseEvent x .wlink n 0) n = genFloor s n := by
    subst hx
    simp [genFloor, polWord, setMode]
  have hxy : Unmoved id (raiseEvent x .wlink n 0) y := hy ▸ .ite (.raiseEvent (.refl _ _)) (.refl _ _)
  have hrest : Unmoved id y z := by
    subst hz
    exact .routesChanged (.ite (.ite (.raiseEvent (.refl _ y)) (.refl _ y))
      (.raiseEvent (.raiseEvent (.ite (.raiseEvent (.refl _ y)) (.refl _ y)))))
  refine ⟨?_, hrest.event (hxy.event (event_raiseEvent_self _ _ _ (by decide))), fun hbelow hreach => hrest.event ?_⟩
  · have hsame : lnk z n = lnk x n := (hrest.link n).trans ((hxy.link n).trans (lnk_raiseEvent _ _ _ _ _))
    rwa [hsame]
  · have hsame : reachesFloor (raiseEvent x .wlink n 0) n (sentCap s n) = true := by simpa only [reachesFloor, hfloor] using hreach
    rw [← hy, if_pos (by rw [hsame, hfloor, Bool.and_true, decide_eq_true hbelow])]
    exact event_raiseEvent_self _ _ _ (by decide)

/-- The link in its target mode, before its flits are sent again. -/
def retrained (s : State) (n : Nat) : State := modLink (setMode s n (lnk s n).target) n (fun l => { l with st := 7 })

/-- R499: a retrain puts the target mode in force; sending flits again and holding routes move nothing else. -/
theorem unmoved_retrainDone (s : State) (n : Nat) : Unmoved atRest (raiseEvent (retrained s n) .wlink n 2) (retrainDone s n) :=
  ((Unmoved.refl atRest _).perfAdd.resendReplay slotBlind_atRest).routesChanged.pump

theorem lnk_retrained (s : State) (n : Nat) : ∃ fec lanes, lnk (retrained s n) n =
    { lnk s n with mode := (lnk s n).target, fec := fec, txLanes := lanes, st := 7 } := by
  simp only [retrained, setMode, modLink_modLink, lnk_modLink, if_true]
  exact ⟨_, _, rfl⟩

/-- What negotiation of a link ends in depends on what this end has sent or would send, which no CAP flit of the partner changes. -/
theorem sentCap_congr {s u : State} {n : Nat} (hpages : u.pages = s.pages) (hpol : (lnk u n).pol = (lnk s n).pol)
    (hlanes : (lnk u n).rxLanes = (lnk s n).rxLanes) (hsent : (lnk u n).sent = (lnk s n).sent) : sentCap u n = sentCap s n := by
  have hfec : polFec u n = polFec s n := by rw [polFec, polWord, hpol, ← polWord, ← polFec]
  have hmask : fecMask u n = fecMask s n := by rw [fecMask, hfec, ← fecMask]
  simp only [sentCap, ownCap, hmask, genCeil, polWord, nodeNum, regWord, page, hpages, hpol, hlanes, hsent]

theorem sentCap_modLink_cap (s : State) (n : Nat) (c : Option CapBody) :
    sentCap (modLink s n (fun l => { l with cap := c })) n = sentCap s n := sentCap_congr rfl (by simp) (by simp) (by simp)

/-- A requester's write of CTRL.enable, on a page that it reaches. -/
theorem doLinkEnable_atPage {s : State} {r : Requester} {n : Nat} (h : atPage s r .wlink n = true) (hr : isVf r = false)
    (hst : (lnk s n).st = 0) (hlamb : s.mgmt.lamb = false) :
    doLinkEnable s r n = modLink (opened s r .wlink n 0x10) n (fun l => { l with st := 1, backoff := false }) := by
  have hopened : (lnk (opened s r .wlink n 0x10) n).st = 0 := by simpa [lnk, opened] using hst
  rw [doLinkEnable, regAccess_atPage h, hr, Bool.not_false, if_pos rfl, if_pos (by simp [hopened, hlamb])]

/-- Settles O48: each row by the states in which it acts; a failed attempt by `AttemptFailed`, which the link's move keeps. -/
theorem linkBringUp : Obligations.LinkBringUp := by
  intro s n hlive
  dsimp only
  have hlost (i : Instr) {t : State} (hi : exec i s = .next (whenLive s (attemptLost t n))) (hst : (lnk t n).st = (lnk s n).st)
      (hattempts : (lnk t n).attempts = (lnk s n).attempts) : ∃ u, exec i s = .next u ∧ AttemptFailed s n u :=
    hi ▸ (attemptFailed_attemptLost t n).next hlive hst hattempts
  refine ⟨fun r h hr hst hlamb => ?enable, fun hst hwait => ?detect, fun hst hwait => ?backoffEnd, fun hst => ?failedRetry,
    fun k => ⟨fun hst => ?detected, fun hst => ?trained, fun hst => ?verify⟩, fun hst hcap => ?capRepeat,
    fun c hst => ⟨fun m hm => ?agreed, fun hno => ?disagreed⟩, fun hlow hst => ?timeout,
    fun got hst => ⟨fun c hpass hcap => ?active, fun m hpass hm => ?lower, fun hpass hno => ?lowest⟩, fun hst => ?retrained⟩
  case enable => rw [exec_linkEnable, doLinkEnable_atPage h hr hst hlamb]
  case detect => rw [exec_linkDetect, doLinkDetect, if_pos (by simp [hst, hwait])]
  case backoffEnd => rw [exec_attemptBackoffEnd, doBackoffEnd, if_pos (by simp [hst, hwait])]
  case failedRetry => rw [exec_linkFailedRetry, doFailedRetry, if_pos hst]
  case detected => simp only [exec_linkStateAdvance, doLinkAdvance, hst]
  case trained => simp only [exec_linkStateAdvance, doLinkAdvance, hst]
  case verify => simp only [exec_linkStateAdvance, doLinkAdvance, hst]
  case capRepeat => rw [exec_capRepeat, doCapRepeat, if_pos (by simp [hst, hcap])]
  case agreed =>
    simp only [exec_cap, doCap, if_pos hst, sentCap_modLink_cap, hm]
    exact next_links hlive (fun u hl _ _ => by simp [hl, trainAt])
  case disagreed =>
    refine hlost _ (t := modLink s n (fun l => { l with cap := some c })) ?_ (by simp) (by simp)
    simp only [exec_cap, doCap, if_pos hst, sentCap_modLink_cap, hno]
  case timeout => exact hlost _ (by rw [exec_linkStateTimeout, doLinkTimeout, if_pos (by simp; omega)]) rfl rfl
  case active =>
    obtain ⟨⟨hactive, hmode, hzero⟩, hup, hfloor⟩ := enterActive_of_cap hcap
    have hmoved := unmoved_linkMoved (routeLinks s) (enterActive s n) n
    simp only [exec_verifyEnd, doVerifyEnd, if_pos hst, if_pos hpass]
    exact next_of_live hlive ⟨(linkMoved_st _ _ n).trans hactive, (linkMoved_mode _ _ n).trans hmode, (linkMoved_attempts _ _ n).trans hzero,
      hmoved.event hup, fun hbelow hreach => hmoved.event (hfloor hbelow hreach)⟩
  case lower =>
    simp only [exec_verifyEnd, doVerifyEnd, if_pos hst, hpass, Bool.false_eq_true, if_false, hm]
    exact next_links hlive (fun u hl _ _ => by simp [hl, trainAt])
  case lowest =>
    refine hlost _ ?_ rfl rfl
    simp only [exec_verifyEnd, doVerifyEnd, if_pos hst, hpass, Bool.false_eq_true, if_false, hno]
  case retrained =>
    obtain ⟨fec, lanes, hl⟩ := lnk_retrained s n
    have hdone := unmoved_retrainDone s n
    have hmoved := unmoved_linkMoved (routeLinks s) (retrainDone s n) n
    rw [exec_retrainEnd, doRetrainEnd, if_pos hst]
    refine next_links hlive (fun u hu hp _ => ⟨?_, ?_, ?_⟩)
    · rw [hu, linkMoved_st, hdone.link_of (g := Link.st) (fun _ _ => congrArg Link.st), lnk_raiseEvent, hl]
    · rw [hu, linkMoved_mode, hdone.link_of (g := Link.mode) (fun _ _ => congrArg Link.mode), lnk_raiseEvent, hl]
    · rw [hp]
      exact hmoved.event (hdone.event (event_raiseEvent_self _ _ _ (by decide)))

end Sys2Proof.Machine
end

section
/-! PROOFS. Protection, adaptation and override of a link, the loss of a link, and the node's configuration (R497, R498, R516, R519). -/

namespace Sys2Proof.Machine

/-! What the rows of the dispatch stand for. -/

theorem exec_linkErrorWindow (n : Nat) (s : State) : exec (.linkErrorWindow n) s = .next (whenLive s (doErrorWindow s n)) := rfl
theorem exec_laneLockLoss (n lane : Nat) (s : State) : exec (.laneLockLoss n lane) s = .next (whenLive s (doLaneLoss s n lane)) := rfl
theorem exec_linkStepUp (n : Nat) (s : State) : exec (.linkStepUp n) s = .next (whenLive s (doStepUp s n)) := rfl
theorem exec_linkIdleStepdown (n : Nat) (s : State) : exec (.linkIdleStepdown n) s = .next (whenLive s (doIdleDown s n)) := rfl
theorem exec_linkOverrideReturn (n us : Nat) (s : State) :
    exec (.linkOverrideReturn n us) s = .next (whenLive s (doOverrideReturn s n us)) := rfl
theorem exec_linkDown (n : Nat) (failed : Bool) (s : State) : exec (.linkDown n failed) s = .next (whenLive s (doLinkDown s n failed)) := rfl
theorem exec_nodeCfgWrite (r : Requester) (off v : Nat) (s : State) :
    exec (.nodeCfgWrite r off v) s = .next (whenLive s (doNodeCfg s r off v)) := rfl

/-! What the modes of a link are judged by. -/

/-- The POLICY in force and the CAP flits of both ends. -/
def judgedBy (l : Link) : Nat × Option CapBody × Option CapBody := (l.pol, l.cap, l.sent)

section Judged

variable {s u : State} {n : Nat} (h : judgedBy (lnk u n) = judgedBy (lnk s n))
include h

theorem polWord_congr : polWord u n = polWord s n := congrArg (·.1) h

theorem commonFec_congr : commonFec u n = commonFec s n := by
  obtain ⟨-, hcap, hsent⟩ : (lnk u n).pol = (lnk s n).pol ∧ (lnk u n).cap = (lnk s n).cap ∧ (lnk u n).sent = (lnk s n).sent := by
    simpa only [judgedBy, Prod.mk.injEq] using h
  have hmask : fecMask u n = fecMask s n := by rw [fecMask, polFec, polWord_congr h, ← polFec, ← fecMask]
  have hfec : (sentCap u n).fec = (sentCap s n).fec := by
    rw [sentCap, sentCap, hsent]
    cases (lnk s n).sent with
    | none => exact hmask
    | some c => rfl
  rw [commonFec, hcap, hfec, ← commonFec]

theorem inPolicy_congr : inPolicy u n = inPolicy s n := by
  have hfloor : genFloor u n = genFloor s n := by rw [genFloor, polWord_congr h, ← genFloor]
  have hceil : genCeil u n = genCeil s n := by rw [genCeil, polWord_congr h, ← genCeil]
  have hpin : polPin u n = polPin s n := by rw [polPin, polWord_congr h, ← polPin]
  have hwfloor : polWfloor u n = polWfloor s n := by rw [polWfloor, polWord_congr h, ← polWfloor]
  have hfec : polFec u n = polFec s n := by rw [polFec, polWord_congr h, ← polFec]
  funext m
  rw [inPolicy, hfloor, hceil, hpin, hwfloor, hfec, commonFec_congr h, ← inPolicy]

theorem modeDown_congr : modeDown u n = modeDown s n := by
  funext m
  simp only [modeDown, commonFec_congr h]

end Judged

/-! The loss of a link (R516). -/

/-- A link without the flits it held and the slots it had lent. -/
def emptied (l : Link) : Link := { l with replay := [], queue := [], discarding := false, paths := [], loan := [] }

theorem linkLost_of_up {s : State} {n : Nat} (hst : (lnk s n).st = 7 ∨ (lnk s n).st = 8) : ∃ x, Unmoved heldFlits (modLink s n emptied) x
    ∧ linkLost s n = raiseEvent (modPage x .wlink n (fun p => { p with epoch := p.epoch + 1 })) .wlink n 1 := by
  refine ⟨(lnk s n).queue.foldl (fun x f => leaveInput x f.p) (modLink s n emptied),
    (Unmoved.refl _ _).foldl (fun _ hx => hx.leaveInput slotBlind_heldFlits), ?_⟩
  have hup : ((lnk s n).st != 7 && (lnk s n).st != 8) = false := by rcases hst with h | h <;> simp [h]
  rw [linkLost, if_neg (by simp [hup])]
  rfl

/-- What the loss of a link takes: its flits, said where no herd message follows, and its epoch's count. -/
theorem linkMoved_of_lost {s : State} {n : Nat} (before : List Nat) (hst : (lnk s n).st = 7 ∨ (lnk s n).st = 8) {t : State}
    (ht : Unmoved heldFlits (linkLost s n) t) : let u := linkMoved before t n
      (herdOn s = false → (lnk u n).replay = [] ∧ (lnk u n).queue = []) ∧ (page u .wlink n).epoch = (page s .wlink n).epoch + 1
        ∧ (page u .wlink n).event.getLsbD 1 = true := by
  obtain ⟨x, hx, hlost⟩ := linkLost_of_up hst
  have hraised : Unmoved heldFlits (modPage x .wlink n (fun p => { p with epoch := p.epoch + 1 })) t := by
    rw [hlost] at ht
    exact (Unmoved.refl _ _).raiseEvent.trans ht
  have hmoved := unmoved_linkMoved before t n
  refine ⟨fun hherd => ?_, ?_, hmoved.event (ht.event ?_)⟩
  · have hherd' : herdOn (modPage x .wlink n (fun p => { p with epoch := p.epoch + 1 })) = herdOn x := by
      simp only [herdOn, herdWord, regWord, page_modPage]
      split
      · next hk => simp only [page, hk]
      · rfl
    have hoff : herdOn t = false := by rw [hraised.herdOn_eq, hherd', hx.herdOn_eq]; exact hherd
    have hflits : heldFlits (lnk (linkMoved before t n) n) = ([], []) := by
      rw [(unmoved_linkMoved_of_herdOff before n hoff).link n, hraised.link n, lnk_modPage, hx.link n, lnk_modLink, if_pos rfl]
      rfl
    simpa only [heldFlits, Prod.mk.injEq] using hflits
  · rw [(hmoved.pages .wlink n).epoch, (hraised.pages .wlink n).epoch, page_modPage_self, (hx.pages .wlink n).epoch, page_modLink]
  · rw [hlost]
    exact event_raiseEvent_self _ _ _ (by decide)

theorem unmoved_linkIdle (s : State) (n st : Nat) : Unmoved heldFlits s (linkIdle s n st) := (Unmoved.refl _ s).modLink (fun _ => rfl)

/-! Protection (R497). -/

/-- What one mode down, to `m`, leaves of link `n` of `s`: a retrain toward it, with the override's event where it leaves policy; where
there is none, a FAILED link. -/
def SteppedDown (s : State) (n : Nat) (m : Option LinkMode) (u : State) : Prop :=
  (∀ x, m = some x → (lnk u n).st = 8 ∧ (lnk u n).target = x
      ∧ ((lnk s n).ovr = false → inPolicy s n (lnk s n).mode = true → inPolicy s n x = false →
          (lnk u n).ovr = true ∧ (page u .wlink n).event.getLsbD 3 = true))
    ∧ (m = none → (lnk u n).st = 9 ∧ (herdOn s = false → (lnk u n).replay = []) ∧ (page u .wlink n).event.getLsbD 4 = true)

theorem steppedDown_protectLink {s : State} {n : Nat} (hst : (lnk s n).st = 7) :
    SteppedDown s n (modeDown s n (lnk s n).mode) (protectLink s n) := by
  unfold protectLink
  dsimp only
  cases modeDown s n (lnk s n).mode with
  | none =>
    refine ⟨fun x hx => (nomatch hx), fun _ => ?_⟩
    have hidle := (unmoved_linkIdle (linkLost s n) n 9).raiseEvent (b := .wlink) (i := n) (n := 4)
    obtain ⟨hflits, -, -⟩ := linkMoved_of_lost (routeLinks s) (.inl hst) hidle
    exact ⟨by simp, fun hherd => (hflits hherd).left, (unmoved_linkMoved _ _ n).event (event_raiseEvent_self _ _ _ (by decide))⟩
  | some m =>
    refine ⟨fun x hx => ?_, fun hx => nomatch hx⟩
    cases hx
    dsimp only
    split
    · have hbegun (y : State) : lnk (raiseEvent (beginEpisode y 6 n) .wlink n 3) n = lnk y n := (Unmoved.refl id y).beginEpisode.raiseEvent.link n
      simp only [hbegun, lnk_modLink, if_true, retrain]
      exact ⟨trivial, trivial, fun _ _ _ => ⟨trivial, event_raiseEvent_self _ _ _ (by decide)⟩⟩
    · next hstays =>
      refine ⟨by simp [retrain], by simp [retrain], fun hovr hin hout => absurd ?_ hstays⟩
      rw [hovr, hin, hout]
      rfl

/-- R497: protection acts on what a row makes of an ACTIVE link as it would on the link. -/
theorem protectLink_next {s t : State} {n : Nat} (hlive : live s = true) (hst : (lnk t n).st = 7)
    (hjudged : judgedBy (lnk t n) = judgedBy (lnk s n)) (hovr : (lnk t n).ovr = (lnk s n).ovr) (hmode : (lnk t n).mode = (lnk s n).mode)
    (hherd : herdOn t = herdOn s) :
    ∃ u, (Host.Outcome.next (whenLive s (protectLink t n)) : Host.Outcome State Fault Refusal) = .next u
      ∧ SteppedDown s n (modeDown s n (lnk s n).mode) u := by
  have hstep := steppedDown_protectLink hst
  refine next_links hlive (fun u hl hp _ => ?_)
  unfold SteppedDown at hstep ⊢
  rwa [hl, hp, ← inPolicy_congr hjudged, ← modeDown_congr hjudged, ← hovr, ← hmode, ← hherd]

/-- A window's time leaves of a link all but its hysteresis and its times. -/
theorem windowTime_eq (l : Link) : ∃ hyst inMs outUs, windowTime l = { l with hyst := hyst, inMs := inMs, outUs := outUs } := by
  unfold windowTime
  split
  exacts [⟨_, _, _, rfl⟩, ⟨_, _, _, rfl⟩]

/-! What each row does. -/

/-- R497: the end of a window of an ACTIVE link counts its time and judges its flits. -/
theorem doErrorWindow_of_active {s : State} {n : Nat} (hst : (lnk s n).st = 7) :
    let t := modLink s n (fun l => { windowTime l with winFlits := 0, winBad := 0 })
    doErrorWindow s n = if (lnk s n).winFlits < (lnk s n).winBad * 10000 then protectLink t n
      else if (lnk s n).winFlits < (lnk s n).winBad * 1000000 then adaptDown t n
      else modLink t n (fun l => { l with calmMs := min 1000 (l.calmMs + 1) }) := by
  rw [doErrorWindow]
  dsimp only
  rw [if_neg (by simp [hst]), if_neg (by simp [hst])]

/-- The link as a window of an ACTIVE link leaves it, before its flits are judged. -/
theorem lnk_windowTime (s : State) (n : Nat) : ∃ hyst inMs outUs,
    lnk (modLink s n (fun l => { windowTime l with winFlits := 0, winBad := 0 })) n =
      { lnk s n with hyst := hyst, inMs := inMs, outUs := outUs, winFlits := 0, winBad := 0 } := by
  obtain ⟨hyst, inMs, outUs, h⟩ := windowTime_eq (lnk s n)
  exact ⟨hyst, inMs, outUs, by rw [lnk_modLink, if_pos rfl, h]⟩

/-- R497: adaptation takes a link one mode down where the mode below is within policy. -/
theorem adaptDown_of_inPolicy {s : State} {n : Nat} {m : LinkMode} (hdown : modeDown s n (lnk s n).mode = some m)
    (hin : inPolicy s n m = true) : adaptDown s n
      = modLink s n (fun l => { l with calmMs := 0, st := 8, target := m, stepped := false }) := by
  have hjudged : judgedBy (lnk (modLink s n (fun l => { l with calmMs := 0 })) n) = judgedBy (lnk s n) := by simp [judgedBy]
  simp only [adaptDown, modeDown_congr hjudged, inPolicy_congr hjudged, lnk_modLink, if_true, hdown, hin, retrain, modLink_modLink]

/-- A lost lane leaves of a link all but its receive lanes. -/
theorem doLaneLoss_of_active {s : State} {n lane : Nat} (hst : (lnk s n).st = 7) (hlane : lane < 2) : ∃ g : Link → Link,
    doLaneLoss s n lane = protectLink (modLink s n g) n ∧ ∃ lanes, g (lnk s n) = { lnk s n with rxLanes := lanes } :=
  ⟨_, by rw [doLaneLoss, if_pos (by simp [hst, hlane])], _, rfl⟩

/-- R498: a retrain that brings an overridden link back within policy. -/
theorem retrainEnd_of_back {s : State} {n : Nat} (hst : (lnk s n).st = 8) (hovr : (lnk s n).ovr = true)
    (hin : inPolicy s n (lnk s n).target = true) : (lnk (doRetrainEnd s n) n).mode = (lnk s n).target
      ∧ (lnk (doRetrainEnd s n) n).ovr = false ∧ (lnk (doRetrainEnd s n) n).ovrTime = (lnk s n).ovrTime + BitVec.ofNat 64 (lnk s n).outUs := by
  obtain ⟨fec, lanes, hl⟩ := lnk_retrained s n
  have hdone {β : Type} {g : Link → β} (hg : ∀ a b, atRest a = atRest b → g a = g b) : g (lnk (retrainDone s n) n) =
      g { lnk s n with mode := (lnk s n).target, fec := fec, txLanes := lanes, st := 7 } := by
    rw [(unmoved_retrainDone s n).link_of hg, lnk_raiseEvent, hl]
  have hjudged : judgedBy (lnk (retrainDone s n) n) = judgedBy (lnk s n) := hdone (fun _ _ => congrArg judgedBy)
  have hst' : (lnk (retrainDone s n) n).st = 7 := hdone (g := Link.st) (fun _ _ => congrArg Link.st)
  have hmode : (lnk (retrainDone s n) n).mode = (lnk s n).target := hdone (g := Link.mode) (fun _ _ => congrArg Link.mode)
  have hovr' : (lnk (retrainDone s n) n).ovr = (lnk s n).ovr := hdone (g := Link.ovr) (fun _ _ => congrArg Link.ovr)
  have htime : (lnk (retrainDone s n) n).ovrTime = (lnk s n).ovrTime := hdone (g := Link.ovrTime) (fun _ _ => congrArg Link.ovrTime)
  have hout : (lnk (retrainDone s n) n).outUs = (lnk s n).outUs := hdone (g := Link.outUs) (fun _ _ => congrArg Link.outUs)
  have hended {β : Type} {g : Link → β} (hg : ∀ a b, atRest a = atRest b → g a = g b) :=
    linkMoved_of_back (routeLinks s) hst' (by rw [inPolicy_congr hjudged, hmode, hin]) (hovr'.trans hovr) hg
  rw [doRetrainEnd, if_pos hst]
  refine ⟨(linkMoved_mode _ _ n).trans hmode, ?_, ?_⟩
  · exact hended (g := Link.ovr) (fun _ _ => congrArg Link.ovr)
  · rw [hended (g := Link.ovrTime) (fun _ _ => congrArg Link.ovrTime), htime, hout]

/-- R519: a write of NODE_CFG or GRP_SIZE, on a page that it reaches. -/
theorem doNodeCfg_atPage {s : State} {r : Requester} (h : atPage s r .wsw 0 = true) (hr : isVf r = false) {off : Nat}
    (hoff : off = 0x100 ∨ off = 0x128) (v : Nat) : doNodeCfg s r off v =
      if s.links.any (fun x => x.2.st == 7 || x.2.st == 8) then regError (opened s r .wsw 0 off) .wsw 0 off
      else lockChecked (setRegWord (opened s r .wsw 0 off) .wsw 0 off (if off = 0x100 then v % 2 ^ 32 else bits v 0 6)) := by
  have hlinks : (opened s r .wsw 0 off).links = s.links := by simp [opened]
  rw [doNodeCfg, if_pos (by simpa using hoff), regAccess_atPage h, hr, Bool.not_false, if_pos rfl, hlinks]

/-- Settles O50: the judgements of a window and the steps down by `SteppedDown`, the loss of a link by `linkMoved_of_lost`, the other rows by
the conditions under which they act. -/
theorem linksAdaptAndFail : Obligations.LinksAdaptAndFail := by
  intro s n hlive
  dsimp only
  refine ⟨fun hst hbad => ?protection, fun hst hfew hbad m hm hin => ?adaptation, fun hst hcalm => ?calm, fun k hk hst => ?lane,
    fun m hst hovr hms hm => ?stepUp, fun hst hovr hsave hqueue hreplay hgen hfec hin => ?idle, fun us m hst hovr hm => ?overrideReturn,
    fun hst hovr hin => ?back, fun failed hst => ?down, fun r v h hr => ?nodeCfg⟩
  case protection =>
    obtain ⟨hyst, inMs, outUs, hl⟩ := lnk_windowTime s n
    rw [exec_linkErrorWindow, doErrorWindow_of_active hst, if_pos hbad]
    exact protectLink_next hlive (by rw [hl]; exact hst) (by rw [hl]; rfl) (by rw [hl]) (by rw [hl]) rfl
  case adaptation =>
    obtain ⟨hyst, inMs, outUs, hl⟩ := lnk_windowTime s n
    rw [exec_linkErrorWindow, doErrorWindow_of_active hst, if_neg (Nat.not_lt.2 hfew), if_pos hbad]
    generalize modLink s n _ = t at hl ⊢
    have hjudged : judgedBy (lnk t n) = judgedBy (lnk s n) := by rw [hl]; rfl
    rw [adaptDown_of_inPolicy (by rw [modeDown_congr hjudged, hl]; exact hm) (by rw [inPolicy_congr hjudged]; exact hin)]
    exact next_links hlive (fun u hu _ _ => by simp [hu, hl])
  case calm =>
    obtain ⟨hyst, inMs, outUs, hl⟩ := lnk_windowTime s n
    rw [exec_linkErrorWindow, doErrorWindow_of_active hst, if_neg (by omega), if_neg (by omega)]
    generalize ht : modLink s n _ = t at hl ⊢
    have hquiet : t.out = s.out := by subst ht; rfl
    exact next_links hlive (fun u hu _ hout => by simp [hu, hout, hquiet, hl, hst])
  case lane =>
    obtain ⟨g, hloss, lanes, hg⟩ := doLaneLoss_of_active hst hk
    have hl : lnk (modLink s n g) n = { lnk s n with rxLanes := lanes } := by rw [lnk_modLink, if_pos rfl, hg]
    rw [exec_laneLockLoss, hloss]
    exact protectLink_next hlive (by rw [hl]; exact hst) (by rw [hl]; rfl) (by rw [hl]) (by rw [hl]) rfl
  case stepUp =>
    simp only [exec_linkStepUp, doStepUp, hst, hovr, hms, hm, retrain, modLink_modLink]
    simp
  case idle =>
    simp only [exec_linkIdleStepdown, doIdleDown, hst, hovr, hsave, hqueue, hreplay, hgen, hfec, hin, retrain, modLink_modLink]
    simp
  case overrideReturn =>
    simp only [exec_linkOverrideReturn, doOverrideReturn, hst, hovr, hm]
    exact next_links hlive (fun u hu _ _ => by simp [hu, retrain])
  case back =>
    exact next_links hlive (fun u hu _ _ => by rw [hu]; exact retrainEnd_of_back hst hovr hin)
  case down =>
    rw [exec_linkDown, doLinkDown, if_pos (by simpa using hst)]
    cases failed with
    | false =>
      have hlost := linkMoved_of_lost (routeLinks s) hst (unmoved_linkIdle (linkLost s n) n 1)
      exact next_links hlive (fun u hu hp _ => by rw [hu, hp]; exact ⟨by simp, hlost⟩)
    | true =>
      have hlost := linkMoved_of_lost (routeLinks s) hst ((unmoved_linkIdle (linkLost s n) n 9).raiseEvent (b := .wlink) (i := n) (n := 4))
      exact next_links hlive (fun u hu hp _ => by rw [hu, hp]; exact ⟨by simp, hlost⟩)
  case nodeCfg =>
    rw [exec_nodeCfgWrite, exec_nodeCfgWrite, doNodeCfg_atPage h hr (.inl rfl), doNodeCfg_atPage h hr (.inr rfl)]
    exact ⟨rfl, rfl⟩

end Sys2Proof.Machine
end

section
/-! PROOFS. Data flits and the table of links (R495). The switch's handling of a flit keeps the links that carry routes only where the table
of links is in order: in a table that lists link 5 before link 3, an update of link 3 lists it a second time. -/

namespace Sys2Proof.Machine

theorem exec_dataFlit (n : Nat) (f : Flit) (s : State) : exec (.dataFlit n f) s = .next (whenLive s (doDataFlit s n f)) := rfl

/-- What is found in a table is an entry of it. -/
theorem mem_of_tabFind {α : Type} {t : Tab α} {k : Nat} {v : α} (h : tabFind t k = some v) : (k, v) ∈ t := by
  induction t with
  | nil => cases h
  | cons e t ih =>
    unfold tabFind at h
    split at h
    · next hk =>
      cases h
      exact hk ▸ .head _
    · exact .tail _ (ih h)

/-- A link in a state other than that of a link without an entry has one. -/
theorem mem_links_of_st {s : State} {n : Nat} (h : (lnk s n).st ≠ 0) : (n, lnk s n) ∈ s.links := by
  unfold lnk tabGet at h ⊢
  cases hfind : tabFind s.links n with
  | none => exact absurd (by rw [hfind]; rfl) h
  | some l => exact mem_of_tabFind hfind

/-- Where one link alone carries routes, and is named once, the table holds one ACTIVE entry of it. -/
theorem active_entry_unique {s : State} {n : Nat} (h : routeLinks s = [n]) {l m : Link} (hl : (n, l) ∈ s.links) (hm : (n, m) ∈ s.links)
    (hlst : l.st = 7) (hmst : m.st = 7) : l = m := by
  have hn : wiredOk s n = true ∧ excluded s n = false := by
    have hmem : n ∈ routeLinks s := by simp [h]
    simpa using (List.mem_filter.1 hmem).2
  obtain ⟨hwired, hincl⟩ := hn
  rw [routeLinks, List.filter_map, List.map_eq_singleton_iff] at h
  obtain ⟨e, hone, -⟩ := h
  have hentry {x : Link} (hx : (n, x) ∈ s.links) (hst : x.st = 7) : (n, x) = e := by
    refine List.mem_singleton.1 (hone ▸ ?_)
    simp [hx, hst, hwired, hincl]
  exact congrArg Prod.snd ((hentry hl hlst).trans (hentry hm hmst).symm)

/-- The state of a link and the flits of its window. -/
def stateAndFlits (l : Link) : Nat × Nat := (l.st, l.winFlits)

/-- R495: a sound data flit with the expected number, which no parity error strikes, is counted in its link's window, passed on by the
switch, and acknowledged. -/
theorem doDataFlit_of_sound {s : State} {n : Nat} {f : Flit} (hst : (lnk s n).st = 7) (hsound : flitSound 1 f = true)
    (hseq : f.seq = (lnk s n).rxSeq) (hstruck : f.struck = false) : ∃ w, doDataFlit s n f = tellAll (passOn w n f) n
      ∧ Unmoved stateAndFlits
          (modLink (countFixed s n f) n (fun l => { l with winFlits := l.winFlits + 1, winBad := l.winBad + b2n false })) w := by
  unfold doDataFlit
  simp only [hst, hsound, hseq, hstruck, bne_self_eq_false, Bool.not_true, Bool.false_eq_true, if_false]
  refine ⟨_, rfl, ?_⟩
  have hhead (x : State) : Unmoved stateAndFlits x (takeHead (perfAdd x .wlink n 1 1) n f) :=
    ((Unmoved.refl atRest x).perfAdd.takeHead).map stateAndFlits
  exact ((hhead _).modLink (fun l => by unfold takeInSlot stateAndFlits; split <;> rfl)).emit.perfAdd

/-- Link 3 of a node, ACTIVE, with the partner that R507 expects: link 59 of node 2. -/
def wiredLink : Link :=
  { st := 7
    cap := some { arch := 1, rclass := 1, genMax := 3, fec := 7, features := 3, lanes := 3, node := 2, link := 59, epoch := 0 } }

/-- A live node whose table of links is out of order: link 5 stands before link 3. No run from reset makes it. -/
def outOfOrder : State := { links := [(5, {}), (3, wiredLink)], mgmt := { por := false } }

/-- A data flit that passes its CRC, with sequence number 0. -/
def soundFlit : Flit :=
  { seq := 0, ack := 0, vc := 0, level := 0, cvc := 0, clevel := 0, credits := 0, body := [], crc := crc32 (flitHead 1 0 0 0 0 0 0 0 []),
    fixed := 0, struck := false }

theorem flitSound_soundFlit : flitSound 1 soundFlit = true := by simp [flitSound, soundFlit]

/-- Refutes O49: the clause that a sound data flit is passed on from a state `v` with the links that carry routes which it had before. In
`outOfOrder` link 3 alone carries routes. The flit's counts list link 3 a second time, and its first entry stays behind, with no flit counted;
so whatever `v` the flit is passed on from, its table holds two entries of link 3 that are ACTIVE. -/
theorem not_flitsAreDeliveredInOrder : ¬ Obligations.FlitsAreDeliveredInOrder := by
  unfold Obligations.FlitsAreDeliveredInOrder
  intro h
  obtain ⟨hactive, -⟩ := h outOfOrder 3 rfl
  obtain ⟨hsound, -⟩ := hactive soundFlit rfl
  obtain ⟨u, hu, -, -, -, -, hpassed⟩ := hsound flitSound_soundFlit rfl
  obtain ⟨v, huv, -, hroutes, -⟩ := hpassed rfl
  have hone : routeLinks v = [3] := hroutes.trans (by decide)
  obtain ⟨w, hw, hcounted⟩ := doDataFlit_of_sound (s := outOfOrder) (n := 3) (f := soundFlit) rfl flitSound_soundFlit rfl rfl
  have hpass (x : State) : Unmoved stateAndFlits x (tellAll (passOn x 3 soundFlit) 3) :=
    (((Unmoved.refl atRest x).passOn).tellAll slotBlind_atRest).map stateAndFlits
  have hlinks : (tellAll (passOn v 3 soundFlit) 3).links = (tellAll (passOn w 3 soundFlit) 3).links := by
    rw [exec_dataFlit, hw, Host.Outcome.next.injEq] at hu
    have hlive : live outOfOrder = true := rfl
    simpa only [whenLive_of_live hlive] using congrArg State.links (huv.symm.trans hu.symm)
  have hfirst := hcounted.trans (hpass w)
  have hnow : stateAndFlits (lnk v 3) = (7, 1) := by
    rw [← (hpass v).link 3, lnk, hlinks, ← lnk, hfirst.link 3]
    rfl
  have hstale : (3, wiredLink) ∈ v.links := by
    have hthere : (3, wiredLink) ∈ (tellAll (passOn w 3 soundFlit) 3).links :=
      (hfirst.stays (3, wiredLink) (by decide)).resolve_right (by decide)
    rw [← hlinks] at hthere
    exact ((hpass v).listed _ hthere).resolve_right (by rw [hnow]; decide)
  have hst : (lnk v 3).st = 7 := congrArg Prod.fst hnow
  have hsame : lnk v 3 = wiredLink := active_entry_unique hone (mem_links_of_st (by rw [hst]; decide)) hstale hst rfl
  rw [hsame] at hnow
  exact absurd hnow (by decide)

end Sys2Proof.Machine
end

section
/-! PROOFS. What messages, reads and writes to memory leave of the collective unit and of the commands issued, and how a command of the
unit ends (chapter 13). -/

namespace Sys2Proof.Machine

/-- The collective unit, and the commands issued. -/
def unitWork (s : State) : Coll × List Job := (s.coll, s.jobs)

theorem coll_of_unitWork {s u : State} (h : unitWork u = unitWork s) : u.coll = s.coll := congrArg (·.1) h

theorem jobs_of_unitWork {s u : State} (h : unitWork u = unitWork s) : u.jobs = s.jobs := congrArg (·.2) h

/-- A write to memory moves no operation and no command. -/
theorem unitWork_of_stored {s u : State} (h : StoredFrom s u) : unitWork u = unitWork s := by
  obtain ⟨⟨_, _, _, _, _, _, _, _, _, _, _, _, _, rfl⟩, -⟩ := h
  rfl

theorem unitWork_foldl {β : Type} (step : State → β → State) (h : ∀ x b, unitWork (step x b) = unitWork x) (l : List β) (s : State) :
    unitWork (l.foldl step s) = unitWork s :=
  List.foldlRecOn (motive := fun (x : State) => unitWork x = unitWork s) l step rfl (fun x hx b _ => (h x b).trans hx)

@[simp] theorem unitWork_perfAdd (s : State) (b : Block) (i k n : Nat) : unitWork (perfAdd s b i k n) = unitWork s := rfl
@[simp] theorem unitWork_emit (s : State) (o : Out) : unitWork (emit s o) = unitWork s := rfl
@[simp] theorem unitWork_modSpad (s : State) (d : Nat) (f : Spad → Spad) : unitWork (modSpad s d f) = unitWork s := rfl
@[simp] theorem unitWork_modLink (s : State) (n : Nat) (f : Link → Link) : unitWork (modLink s n f) = unitWork s := rfl
@[simp] theorem unitWork_raiseEvent (s : State) (b : Block) (i n : Nat) : unitWork (raiseEvent s b i n) = unitWork s :=
  unitWork_of_stored (storedFrom_raiseEvent s b i n)

/-! Messages (12.5, 12.6). -/

@[simp] theorem unitWork_sendData (s : State) (n seq : Nat) (f : TxFlit) : unitWork (sendData s n seq f) = unitWork s := rfl

@[simp] theorem unitWork_tell (k : Nat) (s : State) (n : Nat) : unitWork (tell k s n) = unitWork s := by
  induction k generalizing s with
  | zero => rfl
  | succ k ih =>
    unfold tell
    dsimp only
    split
    · exact ih _
    · rfl

@[simp] theorem unitWork_leaveInput (s : State) (p : Parcel) : unitWork (leaveInput s p) = unitWork s := by
  unfold leaveInput freeInput tellAll
  split
  · exact unitWork_tell _ _ _
  · rfl

@[simp] theorem unitWork_pumpLink (k : Nat) (s : State) (n : Nat) : unitWork (pumpLink k s n) = unitWork s := by
  induction k generalizing s with
  | zero => rfl
  | succ k ih =>
    unfold pumpLink
    dsimp only
    repeat' split
    all_goals simp only [ih, unitWork_perfAdd, unitWork_leaveInput, unitWork_sendData, unitWork_modLink]

@[simp] theorem unitWork_countSent (s : State) (p : Parcel) : unitWork (countSent s p) = unitWork s := by
  unfold countSent
  split <;> rfl

@[simp] theorem unitWork_enqueue (s : State) (n : Nat) (p : Parcel) : unitWork (enqueue s n p) = unitWork s := by
  simp only [enqueue, pump, unitWork_pumpLink, unitWork_modLink, unitWork_countSent]
  split <;> rfl

@[simp] theorem unitWork_dropMsg (s : State) (p : Parcel) : unitWork (dropMsg s p) = unitWork s := by simp [dropMsg, routeMiss]

@[simp] theorem unitWork_sendMsg (s : State) (p : Parcel) : unitWork (sendMsg s p) = unitWork s := by
  unfold sendMsg
  split
  · simp
  · split
    · simp
    · split
      · rfl
      · split
        · rw [unitWork_enqueue]
          split <;> rfl
        · simp

/-! Reads and writes of tenant memory. -/

@[simp] theorem unitWork_fillTlb (s : State) (t va n : Nat) : unitWork (fillTlb s t va n) = unitWork s := by simp [unitWork]

@[simp] theorem unitWork_fillSpans (s : State) (t : Nat) (spans : List (Option (Nat × Nat))) : unitWork (fillSpans s t spans) = unitWork s := by
  refine unitWork_foldl _ (fun x sp => ?_) spans s
  cases sp with
  | none => rfl
  | some e => exact unitWork_fillTlb x t e.1 e.2

@[simp] theorem unitWork_meetErrs (s : State) (p : Nat → Bool) : unitWork (meetErrs s p) = unitWork s :=
  unitWork_of_stored (storedFrom_meetErrs s p)

@[simp] theorem unitWork_readSpans (s : State) (t : Nat) (spans : List (Option (Nat × Nat))) : unitWork (readSpans s t spans) = unitWork s :=
  (unitWork_meetErrs _ _).trans (unitWork_fillSpans s t spans)

@[simp] theorem unitWork_tStore (s : State) (t va : Nat) (bs : List Byte) : unitWork (tStore s t va bs).1 = unitWork s :=
  unitWork_of_stored (storedFrom_tStore s t va bs)

@[simp] theorem unitWork_memEvents (s : State) (a n : Nat) : unitWork (memEvents s a n) = unitWork s :=
  unitWork_foldl (fun x t => raiseEvent x .ten t 2) (fun x t => unitWork_raiseEvent x .ten t 2) _ s

@[simp] theorem unitWork_ledgerPush (s : State) (e : Entry) : unitWork (ledgerPush s e) = unitWork s := by
  unfold ledgerPush
  dsimp only
  split
  · rfl
  · exact unitWork_raiseEvent _ _ _ _

@[simp] theorem unitWork_ledgerDue (s : State) (e : Entry) : unitWork (ledgerDue s e) = unitWork s := by
  unfold ledgerDue
  dsimp only
  split <;> simp

@[simp] theorem unitWork_memoryEntries (s : State) (sub die sn src pg : Nat) (w : Withdrawn) :
    unitWork (memoryEntries s sub die sn src pg w) = unitWork s :=
  (unitWork_foldl _ (fun x _ => unitWork_ledgerDue x _) w.ranges _).trans (unitWork_ledgerDue s _)

@[simp] theorem unitWork_withdrawPage (s : State) (d k p : Nat) : unitWork (withdrawPage s d k p) = unitWork s := by
  unfold withdrawPage
  split
  · rfl
  · split
    · simp [failSet, setFailed]
    · simp [modSet]

@[simp] theorem unitWork_withdrawLine (s : State) (l : Nat) : unitWork (withdrawLine s l) = unitWork s := by
  unfold withdrawLine
  split
  · dsimp only
    split
    · split
      · exact unitWork_withdrawPage _ _ _ _
      · rfl
    · rfl
  · rfl

@[simp] theorem unitWork_withdrawNew (s0 s1 s : State) : unitWork (withdrawNew s0 s1 s) = unitWork s :=
  unitWork_foldl withdrawLine unitWork_withdrawLine _ s

@[simp] theorem unitWork_arRead (s : State) (j : Job) (p : Nat) : unitWork (arRead s j p) = unitWork s := by simp [arRead]

@[simp] theorem unitWork_arWrite (s : State) (j : Job) (p : Nat) (v : PieceVal) : unitWork (arWrite s j p v).1 = unitWork s := by
  unfold arWrite
  dsimp only
  refine (unitWork_of_stored (storedFrom_writeOut _ _ _ _)).trans ?_
  split
  · exact unitWork_fillTlb _ _ _ _
  · rfl

/-! Commands that a message has held (R75, R513). -/

/-- From `s` to `u` no command changes but in how long something has held it. -/
def OnlyHeld (s u : State) : Prop := ∃ f : Job → Job, (∀ k, ∃ c h, f k = { k with cause := c, hold := h }) ∧ u.jobs = s.jobs.map f

/-- The command is one that the operation serves. -/
def servesOp (o : CollOpn) (j : Job) : Bool :=
  decide (j.unit = .coll) && j.result.isNone && j.tenant == o.tenant && j.stream == o.stream && j.cmd.count == o.count
    && decide (j.iter = o.iter) && j.gen == o.gen

theorem opJob_eq_find? (s : State) (o : CollOpn) : opJob s o = s.jobs.find? (servesOp o) := rfl

namespace OnlyHeld

theorem of_jobs {s u : State} (h : u.jobs = s.jobs) : OnlyHeld s u := ⟨id, fun k => ⟨k.cause, k.hold, rfl⟩, by rw [h, List.map_id]⟩

theorem trans {s u v : State} (h : OnlyHeld s u) (k : OnlyHeld u v) : OnlyHeld s v := by
  obtain ⟨f, hf, hu⟩ := h
  obtain ⟨g, hg, hv⟩ := k
  refine ⟨g ∘ f, fun j => ?_, by rw [hv, hu, List.map_map]⟩
  obtain ⟨c, d, hfj⟩ := hf j
  obtain ⟨c', d', hgj⟩ := hg (f j)
  exact ⟨c', d', by rw [Function.comp_apply, hgj, hfj]⟩

theorem foldl {β : Type} (step : State → β → State) (h : ∀ x b, OnlyHeld x (step x b)) (l : List β) (s : State) :
    OnlyHeld s (l.foldl step s) :=
  List.foldlRecOn (motive := OnlyHeld s) l step (of_jobs rfl) (fun x hx b _ => hx.trans (h x b))

/-- An operation finds its command again. -/
theorem opJob_eq {s u : State} (h : OnlyHeld s u) {o : CollOpn} {j : Job} (hj : opJob s o = some j) :
    ∃ c d, opJob u o = some { j with cause := c, hold := d } := by
  obtain ⟨f, hf, hu⟩ := h
  obtain ⟨c, d, hfj⟩ := hf j
  have hserves : servesOp o ∘ f = servesOp o := funext fun k => by
    obtain ⟨c, d, hfk⟩ := hf k
    rw [Function.comp_apply, hfk]
    rfl
  refine ⟨c, d, ?_⟩
  rw [opJob_eq_find?, hu, List.find?_map, hserves, ← opJob_eq_find?, hj, ← hfj]
  rfl

end OnlyHeld

/-! Messages of the unit (R543, R546). -/

/-- What is left where the unit has sent: its operations, the commands but for holds, the events. -/
structure Sent (s u : State) : Prop where
  coll : u.coll = s.coll
  jobs : OnlyHeld s u
  events : EventsStay s u

namespace Sent

theorem refl (s : State) : Sent s s := ⟨rfl, .of_jobs rfl, .of_pages rfl⟩

theorem trans {s u v : State} (h : Sent s u) (k : Sent u v) : Sent s v :=
  ⟨k.coll.trans h.coll, h.jobs.trans k.jobs, h.events.trans k.events⟩

theorem foldl {β : Type} (step : State → β → State) (h : ∀ x b, Sent x (step x b)) (l : List β) (s : State) : Sent s (l.foldl step s) :=
  List.foldlRecOn (motive := Sent s) l step (refl s) (fun x hx b _ => hx.trans (h x b))

theorem of_eq {s u : State} (h : u = s) : Sent s u := h ▸ refl s

theorem perfAdd (s : State) (b : Block) (i k n : Nat) : Sent s (perfAdd s b i k n) :=
  ⟨rfl, .of_jobs rfl, .modPage s b i (fun _ _ e => e)⟩

theorem holdJobs (before s : State) (serves : Job → Bool) : Sent s (holdJobs before s serves) := by
  unfold Machine.holdJobs
  split
  · refine ⟨rfl, ⟨_, fun k => ?_, rfl⟩, .of_pages rfl⟩
    split
    · exact heldJob_eq k _
    · exact ⟨k.cause, k.hold, rfl⟩
  · exact refl s

theorem collSend (s : State) (o : CollOpn) (rank vc : Nat) (op : CollOp) (m : CollMsg) : Sent s (collSend s o rank vc op m) := by
  have hmsg (n : Nat) (p : Parcel) : Sent s (sendMsg (Machine.perfAdd s .coll 0 5 n) p) :=
    have hwork : unitWork (sendMsg (Machine.perfAdd s .coll 0 5 n) p) = unitWork s := unitWork_sendMsg _ p
    ⟨coll_of_unitWork hwork, .of_jobs (jobs_of_unitWork hwork), fun _ _ _ e => ((Unmoved.refl atRest s).perfAdd.sendMsg).event e⟩
  unfold Machine.collSend
  split
  · exact refl s
  · exact (hmsg _ _).trans (holdJobs _ _ _)

theorem collData (s : State) (o : CollOpn) (rank vc : Nat) (op : CollOp) (m : CollMsg) : Sent s (collData s o rank vc op m) :=
  foldl _ (fun x _ => collSend x o rank vc op _) _ s

theorem sendResult (s : State) (o : CollOpn) (p fmt : Nat) (x : CollPiece) (v : PieceVal) : Sent s (sendResult s o p fmt x v) :=
  foldl _ (fun y _ => collData y o _ _ .result _) _ s

end Sent

/-! Operations in their slots. -/

theorem collOp_congr {s u : State} (h : u.coll = s.coll) (k : Nat) : collOp u k = collOp s k := by rw [collOp, h, collOp]

@[simp] theorem collOp_putOp (s : State) (k i : Nat) (o : CollOpn) : collOp (putOp s k o) i = if k = i then some o else collOp s i :=
  tabFind_tabSet s.coll.ops k i o

@[simp] theorem collOp_dropOp (s : State) (k i : Nat) : collOp (dropOp s k) i = if k = i then none else collOp s i :=
  tabFind_tabDel s.coll.ops k i

theorem eventsStay_tStore (s : State) (t va : Nat) (bs : List Byte) : EventsStay s (tStore s t va bs).1 := by
  have hpages (n : Nat) (s : State) (va : Nat) (bs : List Byte) : EventsStay s (tStorePages n s t va bs).1 := by
    induction n generalizing s va bs with
    | zero => exact .of_pages rfl
    | succ n ih =>
      unfold tStorePages tStorePage
      split
      · exact .of_pages rfl
      · refine EventsStay.trans ?_ (ih _ _ _)
        split
        · exact fun _ _ _ e => ((Unmoved.refl atRest s).store).event e
        · exact .of_pages rfl
  exact hpages _ s va bs

/-- A slot given back: the zeroing of what its operation held is writes to memory (R554). -/
theorem freeOp_eq (s : State) (k : Nat) : ∃ u, freeOp s k = dropOp u k ∧ unitWork u = unitWork s ∧ EventsStay s u := by
  unfold freeOp
  split
  · exact ⟨_, rfl, unitWork_foldl _ (fun x z => unitWork_tStore x _ _ _) _ s, .foldl _ (fun x z => eventsStay_tStore x _ _ _) _ s⟩
  · exact ⟨s, rfl, rfl, .of_pages rfl⟩

@[simp] theorem collOp_freeOp (s : State) (k i : Nat) : collOp (freeOp s k) i = if k = i then none else collOp s i := by
  obtain ⟨u, h, hwork, -⟩ := freeOp_eq s k
  rw [h, collOp_dropOp, collOp_congr (coll_of_unitWork hwork)]

@[simp] theorem freeOp_jobs (s : State) (k : Nat) : (freeOp s k).jobs = s.jobs := by
  obtain ⟨u, h, hwork, -⟩ := freeOp_eq s k
  rw [h]
  exact (jobs_of_unitWork hwork : u.jobs = s.jobs)

theorem eventsStay_freeOp (s : State) (k : Nat) : EventsStay s (freeOp s k) := by
  obtain ⟨u, h, -, hevents⟩ := freeOp_eq s k
  rw [h]
  exact hevents

/-! How a command of the unit ends. -/

theorem mem_of_opJob {s : State} {o : CollOpn} {j : Job} (h : opJob s o = some j) : j ∈ s.jobs := List.mem_of_find?_eq_some h

@[simp] theorem finishJob_coll (before s : State) (j : Job) (r : Result) : (finishJob before s j r).coll = s.coll := by
  obtain ⟨n, f, e, -⟩ := finishJob_eq before s j r
  rw [e]
  rfl

/-- A command that something has held is the same command (R75). -/
theorem finishedAs_of_held {u : State} {j : Job} {c d : Nat} {r : Result} (h : finishedAs u { j with cause := c, hold := d } r) :
    finishedAs u j r := h

/-- What a failed command's end leaves before the result is recorded. -/
theorem arFail_eq (s0 s : State) (j : Job) (status : Nat) (f : Fl) (detail : Nat) :
    ∃ u, arFail s0 s j status f detail = finishJob s0 u j (failResult status f detail) ∧ unitWork u = unitWork s ∧ EventsStay s u := by
  have hsum (x : State) : unitWork (arFailSum x j) = unitWork x ∧ (arFailSum x j).pages = x.pages := by
    unfold arFailSum jobSum
    (repeat' split) <;> exact ⟨rfl, rfl⟩
  have hcount (x : State) : EventsStay x (perfAdd (arFailSum x j) .coll 0 0 1) :=
    EventsStay.trans (.of_pages (hsum x).2) (.modPage _ _ _ (fun _ _ e => e))
  refine ⟨_, rfl, ?_, ?_⟩
  · rw [unitWork_perfAdd, (hsum _).1]
    split
    · exact unitWork_raiseEvent _ _ _ _
    · rfl
  · refine EventsStay.trans ?_ (hcount _)
    split
    · exact .raiseEvent _ _ _ _
    · exact .of_pages rfl

section ArFail

variable (s0 s : State) (j : Job) (status : Nat) (f : Fl) (detail : Nat)

theorem finishedAs_arFail {j : Job} (h : j ∈ s.jobs) : finishedAs (arFail s0 s j status f detail) j (failResult status f detail) := by
  obtain ⟨u, e, hwork, -⟩ := arFail_eq s0 s j status f detail
  rw [e]
  exact finishedAs_finishJob (jobs_of_unitWork hwork ▸ h) _ _

@[simp] theorem arFail_coll : (arFail s0 s j status f detail).coll = s.coll := by
  obtain ⟨u, e, hwork, -⟩ := arFail_eq s0 s j status f detail
  rw [e, finishJob_coll, coll_of_unitWork hwork]

theorem eventsStay_arFail : EventsStay s (arFail s0 s j status f detail) := by
  obtain ⟨u, e, -, hevents⟩ := arFail_eq s0 s j status f detail
  rw [e]
  exact hevents.trans (.of_pages (finishJob_pages _ _ _ _))

end ArFail

end Sys2Proof.Machine
end

section
/-! PROOFS. Aborts of an all-reduce operation (R548 to R550): what an abort leaves of the operation and of its command. -/

namespace Sys2Proof.Machine

/-! What the rows of this part stand for. -/

theorem exec_abortMsg (m : CollMsg) (s : State) : exec (.abortMsg m) s = .next (whenLive s (doAbort s m)) := rfl
theorem exec_collectiveWaitTimeout (k : Nat) (s : State) :
    exec (.collectiveWaitTimeout k) s = .next (whenLive s (doCollTimeout s k)) := rfl
theorem exec_abortHoldExpire (key : CollKey) (s : State) :
    exec (.abortHoldExpire key) s = .next (whenLive s (doAbortExpire s key)) := rfl
theorem exec_grant (m : CollMsg) (s : State) : exec (.grant m) s = .next (whenLive s (doGrant s m)) := rfl
theorem exec_partialSum (m : CollMsg) (s : State) : exec (.partialSum m) s = .next (whenLive s (doPartialSum s m)) := rfl
theorem exec_acknowledgement (m : CollMsg) (s : State) : exec (.acknowledgement m) s = .next (whenLive s (doAck s m)) := rfl
theorem exec_resultPiece (m : CollMsg) (s : State) :
    exec (.resultPiece m) s = .next (whenLive s (gateOp s ((opSlot s m.key).getD 64) (doResultPiece s m))) := rfl

/-! On a live node the slots and the commands' results are what the row's effect left. -/

theorem collOp_whenLive {s : State} (h : live s = true) (u : State) (k : Nat) : collOp (whenLive s u) k = collOp u k := by
  rw [whenLive_of_live h]
  rfl

theorem finishedAs_whenLive {s u : State} (h : live s = true) {j : Job} {r : Result} (hf : finishedAs u j r) :
    finishedAs (whenLive s u) j r := by
  rw [whenLive_of_live h]
  exact hf

theorem page_whenLive {s : State} (h : live s = true) (u : State) (b : Block) (i : Nat) : page (whenLive s u) b i = page u b i := by
  rw [whenLive_of_live h]
  rfl

/-! An operation aborts (R549). -/

/-- The neighbours whose acknowledgement of the ABORT is awaited: all but the one that it came from. -/
def abortAwaits (o : CollOpn) (sender : Option Nat) : List Nat := (opNeighbours o).filter (fun r => some r != sender)

/-- The operation as its abort leaves it. -/
def abortedOp (o : CollOpn) (cause origin : Nat) (sender : Option Nat) : CollOpn :=
  { o with phase := 3, abort := some (cause, origin), awaiting := abortAwaits o sender }

/-- The state with the abort in ABORT_LOG, which keeps the first. -/
def abortLogged (s : State) (cause origin : Nat) : State :=
  { s with coll := if s.coll.logValid then s.coll else { s.coll with logCause := cause, logRank := origin, logValid := true } }

/-- The state in which the aborted operation awaits its acknowledgements, or has given its slot back where it awaits none. -/
def abortPlaced (s : State) (k : Nat) (o : CollOpn) (cause origin : Nat) (sender : Option Nat) : State :=
  let put := putOp (abortLogged s cause origin) k (abortedOp o cause origin sender)
  if (abortAwaits o sender).isEmpty then freeOp put k else put

/-- The state in which the neighbours have been told. -/
def abortTold (s : State) (k : Nat) (o : CollOpn) (cause origin : Nat) (sender : Option Nat) : State :=
  (abortAwaits o sender).foldl (fun x r => collSend x o r 0 .abort { collBlank o with cause := cause, origin := origin })
    (abortPlaced s k o cause origin sender)

section Placed

variable (s : State) (k : Nat) (o : CollOpn) (cause origin : Nat) (sender : Option Nat)

theorem abortPlaced_jobs : (abortPlaced s k o cause origin sender).jobs = s.jobs := by
  unfold abortPlaced
  dsimp only
  split
  · exact freeOp_jobs _ k
  · rfl

theorem eventsStay_abortPlaced : EventsStay s (abortPlaced s k o cause origin sender) := by
  have hput : EventsStay s (putOp (abortLogged s cause origin) k (abortedOp o cause origin sender)) := .of_pages rfl
  unfold abortPlaced
  dsimp only
  split
  · exact hput.trans (eventsStay_freeOp _ k)
  · exact hput

theorem collOp_abortPlaced : collOp (abortPlaced s k o cause origin sender) k
    = if (abortAwaits o sender).isEmpty then none else some (abortedOp o cause origin sender) := by
  unfold abortPlaced
  dsimp only
  split <;> simp

theorem sent_abortTold : Sent (abortPlaced s k o cause origin sender) (abortTold s k o cause origin sender) :=
  .foldl _ (fun x _ => .collSend x o _ _ _ _) _ _

end Placed

theorem abortOp_of_job (s0 s : State) (k : Nat) {o : CollOpn} (cause origin : Nat) (sender : Option Nat) (status detail : Nat) {j : Job}
    (hj : opJob (abortTold s k o cause origin sender) o = some j) :
    abortOp s0 s k o cause origin sender status detail = arFail s0 (abortTold s k o cause origin sender) j status {} detail := by
  have habort : abortOp s0 s k o cause origin sender status detail = match opJob (abortTold s k o cause origin sender) o with
    | some j => arFail s0 (abortTold s k o cause origin sender) j status {} detail
    | none => abortTold s k o cause origin sender := rfl
  rw [habort, hj]

section Abort

variable (s0 s : State) (k : Nat) {o : CollOpn} (cause origin : Nat) (sender : Option Nat) (status detail : Nat) {j : Job}
  (hj : opJob s o = some j)
include hj

theorem abortOp_eq : ∃ c d, abortOp s0 s k o cause origin sender status detail
      = arFail s0 (abortTold s k o cause origin sender) { j with cause := c, hold := d } status {} detail
    ∧ { j with cause := c, hold := d } ∈ (abortTold s k o cause origin sender).jobs := by
  obtain ⟨c, d, h⟩ := ((OnlyHeld.of_jobs (abortPlaced_jobs s k o cause origin sender)).trans (sent_abortTold ..).jobs).opJob_eq hj
  exact ⟨c, d, abortOp_of_job s0 s k cause origin sender status detail h, mem_of_opJob h⟩

theorem finishedAs_abortOp : finishedAs (abortOp s0 s k o cause origin sender status detail) j (failResult status {} detail) := by
  obtain ⟨c, d, h, hmem⟩ := abortOp_eq s0 s k cause origin sender status detail hj
  rw [h]
  exact finishedAs_of_held (finishedAs_arFail _ _ _ _ _ hmem)

theorem eventsStay_abortOp : EventsStay s (abortOp s0 s k o cause origin sender status detail) := by
  obtain ⟨c, d, h, -⟩ := abortOp_eq s0 s k cause origin sender status detail hj
  rw [h]
  have hplaced := eventsStay_abortPlaced s k o cause origin sender
  exact (hplaced.trans (sent_abortTold s k o cause origin sender).events).trans (eventsStay_arFail _ _ _ _ _ _)

theorem collOp_abortOp : collOp (abortOp s0 s k o cause origin sender status detail) k
    = if (abortAwaits o sender).isEmpty then none else some (abortedOp o cause origin sender) := by
  obtain ⟨c, d, h, -⟩ := abortOp_eq s0 s k cause origin sender status detail hj
  rw [h, collOp_congr (arFail_coll ..), collOp_congr (sent_abortTold ..).coll, collOp_abortPlaced]

end Abort

@[simp] theorem opJob_raiseEvent (s : State) (b : Block) (i n : Nat) (o : CollOpn) : opJob (raiseEvent s b i n) o = opJob s o := by
  rw [opJob_eq_find?, raiseEvent_jobs, opJob_eq_find?]

section Raised

variable (s0 : State) {s : State} (k : Nat) {o : CollOpn} {j : Job} (hj : opJob s o = some j) (cause : Nat)
include hj

theorem finishedAs_raiseAbort : finishedAs (raiseAbort s0 s k o cause) j (failResult 0x23 {} (cause + o.rank * 256)) :=
  finishedAs_abortOp s0 _ k cause o.rank none 0x23 _ ((opJob_raiseEvent s .coll 0 0 o).trans hj)

theorem eventsStay_raiseAbort : EventsStay (raiseEvent s .coll 0 0) (raiseAbort s0 s k o cause) :=
  eventsStay_abortOp s0 _ k cause o.rank none 0x23 _ ((opJob_raiseEvent s .coll 0 0 o).trans hj)

end Raised

/-! An ABORT received (R549, R550). -/

theorem doAbort_of_unissued {s : State} {m : CollMsg} (h : s.coll.ops.find? (fun e => e.2.key == m.key) = none) :
    doAbort s m = { raiseEvent s .coll 0 1 with coll := { s.coll with
      held := if s.coll.held.any (fun a => a.key == m.key) then s.coll.held
        else s.coll.held ++ [{ key := m.key, cause := m.cause, origin := m.origin }] } } := by
  unfold doAbort
  simp only [raiseEvent_coll, h]
  split
  · rw [show ({ s.coll with held := s.coll.held } : Coll) = (raiseEvent s .coll 0 1).coll from (raiseEvent_coll s .coll 0 1).symm]
  · rfl

theorem doAbort_of_running {s : State} {m : CollMsg} {k : Nat} {o : CollOpn}
    (h : s.coll.ops.find? (fun e => e.2.key == m.key) = some (k, o)) (hphase : o.phase ≠ 3) {x : State}
    (hx : x = collSend (raiseEvent s .coll 0 1) o m.rank 0 .ack { collBlank o with cause := m.cause, origin := m.origin }) :
    doAbort s m = abortOp x x k o m.cause m.origin (some m.rank) 0x23 (m.cause + m.origin * 256) := by
  subst hx
  unfold doAbort
  simp only [raiseEvent_coll, h, beq_iff_eq, if_neg hphase]

/-- R549: an ABORT received ends the operation's command, and the operation waits for its other neighbours. -/
theorem abortMsg_clause {s : State} (hlive : live s = true) {m : CollMsg} {k : Nat} {o : CollOpn} {j : Job}
    (hfind : s.coll.ops.find? (fun e => e.2.key == m.key) = some (k, o)) (hphase : o.phase ≠ 3) (hj : opJob s o = some j) :
    ∃ u, exec (.abortMsg m) s = .next u ∧ finishedAs u j (failResult 0x23 {} (m.cause + m.origin * 256))
      ∧ collOp u k = if (abortAwaits o (some m.rank)).isEmpty then none else some (abortedOp o m.cause m.origin (some m.rank)) := by
  have hsent := Sent.collSend (raiseEvent s .coll 0 1) o m.rank 0 .ack { collBlank o with cause := m.cause, origin := m.origin }
  obtain ⟨c, d, hheld⟩ := ((OnlyHeld.of_jobs (raiseEvent_jobs s .coll 0 1)).trans hsent.jobs).opJob_eq hj
  refine ⟨_, exec_abortMsg m s, ?_⟩
  rw [doAbort_of_running hfind hphase rfl, collOp_whenLive hlive]
  exact ⟨finishedAs_whenLive hlive (finishedAs_of_held (finishedAs_abortOp _ _ k _ _ _ _ _ hheld)), collOp_abortOp _ _ k _ _ _ _ _ hheld⟩

/-! A wait beyond its limit (R548). -/

theorem doCollTimeout_of_aborted {s : State} {k : Nat} {o : CollOpn} (h : collOp s k = some o) (hphase : o.phase = 3) :
    doCollTimeout s k = freeOp s k := by simp [doCollTimeout, h, hphase]

theorem doCollTimeout_of_running {s : State} {k : Nat} {o : CollOpn} (h : collOp s k = some o) (hphase : o.phase ≠ 3) :
    doCollTimeout s k = raiseAbort s (raiseEvent s .coll 0 2) k o 1 := by simp [doCollTimeout, h, hphase]

theorem timeout_clause {s : State} (hlive : live s = true) {k : Nat} {o : CollOpn} {j : Job} (ho : collOp s k = some o)
    (hphase : o.phase ≠ 3) (hj : opJob s o = some j) :
    ∃ u, exec (.collectiveWaitTimeout k) s = .next u ∧ finishedAs u j (failResult 0x23 {} (1 + o.rank * 256))
      ∧ (page u .coll 0).event.getLsbD 0 = true ∧ (page u .coll 0).event.getLsbD 2 = true := by
  have hlate : opJob (raiseEvent s .coll 0 2) o = some j := (opJob_raiseEvent s .coll 0 2 o).trans hj
  have hstay := eventsStay_raiseAbort s k hlate 1
  refine ⟨_, exec_collectiveWaitTimeout k s, ?_⟩
  rw [doCollTimeout_of_running ho hphase, page_whenLive hlive]
  exact ⟨finishedAs_whenLive hlive (finishedAs_raiseAbort s k hlate 1), hstay _ _ _ (event_raiseEvent_self _ .coll 0 (by decide)),
    hstay _ _ _ (EventsStay.raiseEvent _ _ _ _ _ _ _ (event_raiseEvent_self s .coll 0 (by decide)))⟩

/-! Acknowledgements of an ABORT, and messages that match no operation. -/

theorem doAck_of_abort {s : State} {m : CollMsg} (hcause : m.cause ≠ 0) {k : Nat} {o : CollOpn}
    (h : s.coll.ops.find? (fun e => e.2.key == m.key && e.2.phase == 3) = some (k, o)) :
    doAck s m = if (o.awaiting.filter (· != m.rank)).isEmpty then freeOp s k
      else putOp s k { o with awaiting := o.awaiting.filter (· != m.rank) } := by
  unfold doAck
  simp only [bne_iff_ne, ne_eq, hcause, not_false_eq_true, if_true, h]

theorem doAck_of_piece {s : State} {m : CollMsg} (hcause : m.cause = 0) (h : opSlot s m.key = none) : doAck s m = collLate s := by
  simp [doAck, hcause, h]

/-- Settles O38: an ABORT by whether its operation has issued, a wait by what the operation waits for, the other messages by what they find. -/
theorem collectiveAborts : Obligations.CollectiveAborts := by
  unfold Obligations.CollectiveAborts
  intro s hlive
  refine ⟨fun m hnone => ?_, fun m k o j hfind hphase hj => ?_, fun k o ho => ⟨fun hphase => ?_, fun j hphase hj => ?_⟩,
    fun m k o hcause hfind => ?_, fun key => exec_abortHoldExpire key s, fun m hnone => ⟨?_, ?_, fun hnowhere => ?_, fun hcause => ?_⟩⟩
  · refine ⟨_, exec_abortMsg m s, ?_⟩
    rw [page_whenLive hlive, whenLive_of_live hlive, doAbort_of_unissued hnone]
    exact ⟨rfl, event_raiseEvent_self s .coll 0 (by decide), rfl⟩
  · obtain ⟨u, hu, hfin, hslot⟩ := abortMsg_clause hlive hfind hphase hj
    refine ⟨u, _, hu, hfin, rfl, rfl, fun hleft => ?_,
      fun hleft => ⟨abortedOp o m.cause m.origin (some m.rank), ?_, rfl, rfl, rfl⟩⟩
    · exact hslot.trans (if_pos (List.isEmpty_iff.2 hleft))
    · exact hslot.trans (if_neg (mt List.isEmpty_iff.1 hleft))
  · rw [exec_collectiveWaitTimeout, doCollTimeout_of_aborted ho hphase]
  · obtain ⟨u, hu, hfin, hraised, hlate⟩ := timeout_clause hlive ho hphase hj
    exact ⟨u, _, hu, hfin, rfl, rfl, hraised, hlate⟩
  · rw [exec_acknowledgement, doAck_of_abort hcause hfind]
    exact ⟨fun hleft => by rw [if_pos (List.isEmpty_iff.2 hleft)], fun hleft => by rw [if_neg (mt List.isEmpty_iff.1 hleft)]⟩
  · rw [exec_grant, doGrant, hnone]
    rfl
  · rw [exec_partialSum, doPartialSum, hnone]
    rfl
  · rw [exec_resultPiece, gateOp_of_heldNowhere hnowhere, doResultPiece, hnone]
    rfl
  · rw [exec_acknowledgement, doAck_of_piece hcause hnone]
    rfl

end Sys2Proof.Machine
end

section
/-! PROOFS. ALLREDUCE begins, and its pieces move by grants, partial sums, combinations, results and acknowledgements (R532, R539 to R547). -/

namespace Sys2Proof.Machine

/-! What the rows of this part stand for. -/

theorem exec_allreduce (s : State) : exec .allreduce s = .next (whenLive s (doAllreduce s)) := rfl
theorem exec_grantSend (k p : Nat) (s : State) : exec (.grantSend k p) s = .next (whenLive s (doGrantSend s k p)) := rfl
theorem exec_pieceCombine (k : Nat) (c : Combining) (s : State) :
    exec (.pieceCombine k c) s = .next (whenLive s (gateOp s k (doPieceCombine s k c.piece c.struck))) := rfl

/-! An ALLREDUCE begins (R532). -/

theorem readSpans_of_clean {s : State} (h : s.memErrs = []) (t : Nat) (spans : List (Option (Nat × Nat))) :
    (readSpans s t spans).memErrs = [] ∧ (readSpans s t spans).mem = s.mem := by
  have hfill : (fillSpans s t spans).memErrs = [] :=
    List.foldlRecOn (motive := fun (x : State) => x.memErrs = []) _ _ h (fun x hx sp _ => by
      cases sp with
      | none => exact hx
      | some e => exact (fillTlb_memErrs x t e.1 e.2).trans hx)
  rw [readSpans, meetErrs_none _ _ hfill]
  exact ⟨hfill, congrArg Prod.fst (contents_fillSpans s t spans)⟩

/-- The state in which a command has read the header of its plan. -/
def planHeadRead (s : State) (j : Job) : State := readSpans s j.tenant [some (arPlan j.cmd, 64)]

/-- The members that the header counts. -/
def planCount (s : State) (j : Job) : Nat := planN (planHeadRead s j) j.tenant j.cmd

/-- The state in which a command has read its plan. -/
def planRead (s : State) (j : Job) : State := readSpans (planHeadRead s j) j.tenant [some (arPlan j.cmd, 64 + 8 * planCount s j)]

/-- The header of the plan (Table 13.2). -/
def planHead (s : State) (j : Job) : Nat := tNat (planRead s j) j.tenant (arPlan j.cmd) 64

/-- The members of the plan (Table 13.3). -/
def planMembers (s : State) (j : Job) : List Member :=
  (List.range (planCount s j)).map (fun i => memberOf (tNat (planRead s j) j.tenant (arPlan j.cmd + 64 + 8 * i) 8))

/-- The key of the operation that the command begins. -/
def planKey (s : State) (j : Job) : CollKey :=
  { tenant := j.tenant, plan := bits (planHead s j) 16 16, step := cStep j.cmd, opid := arOpid j.cmd }

/-- The plan of the command can be read, is not poisoned, is awaited by no ABORT and passes its checks. -/
structure PlanSound (s : State) (j : Job) : Prop where
  served : usable (planRead s j) j.tenant (arPlan j.cmd) (64 + 8 * planCount s j) false = true
  good : tPoison (planRead s j) j.tenant (arPlan j.cmd) (64 + 8 * planCount s j) = false
  notAborted : ∀ x ∈ s.coll.held, x.key ≠ planKey s j
  checked : planCheck (planRead s j) j.tenant j.cmd (planHead s j) (planMembers s j) = 0

/-- A sound plan begins an operation in the free slot. -/
theorem doAllreduce_of_sound {s : State} {j : Job} {k : Nat} (hj : arJob s = some j) (hk : freeSlot s = some k) (h : PlanSound s j) :
    ∃ x o, doAllreduce s = putOp x k o ∧ x.coll.ops = s.coll.ops ∧ x.mem = (planRead s j).mem ∧ o.key = planKey s j
      ∧ o.members = planMembers s j ∧ o.rank = bits (planHead s j) 64 15 ∧ o.phase = 1
      ∧ o.pieces = List.replicate (arPieces j.cmd) {} := by
  obtain ⟨hserved, hgood, hheld, hchecked⟩ := h
  have hcoll : (withdrawNew s (planRead s j) (planRead s j)).coll = s.coll :=
    coll_of_unitWork ((unitWork_withdrawNew _ _ _).trans ((unitWork_readSpans _ _ _).trans (unitWork_readSpans _ _ _)))
  have hmem : (withdrawNew s (planRead s j) (planRead s j)).mem = (planRead s j).mem := congrArg Prod.fst (contents_withdrawNew s _ _)
  have hnone : s.coll.held.find? (fun a => a.key == planKey s j) = none := by simpa using hheld
  unfold planKey planMembers planHead planRead planCount planHeadRead at *
  unfold doAllreduce
  simp only [hj, hk, hserved, hgood, Bool.not_true, Bool.false_eq_true, if_false, hcoll, hnone, hchecked, bne_self_eq_false]
  exact ⟨_, _, rfl, rfl, hmem, rfl, rfl, rfl, rfl, rfl⟩

theorem mem_planRead {s : State} (h : s.memErrs = []) (j : Job) : (planRead s j).mem = s.mem := by
  obtain ⟨herrs, hread⟩ := readSpans_of_clean h j.tenant [some (arPlan j.cmd, 64)]
  exact (readSpans_of_clean herrs j.tenant _).2.trans hread

/-! What a row leaves of an operation that goes on, and of one whose pieces may all be done. -/

/-- How the command of an operation whose pieces are all done ends (R537, R552). -/
def opResult (o : CollOpn) : Result :=
  if bitAt o.flags 4 then failResult 0x20 (flOfBits o.flags) 0 else ranResult (flOfBits o.flags) o.pieces.length

/-- The operation `o` of the command `j` stands in slot `k`, or, with every piece done, has left it with its command ended. -/
def Settled (u : State) (k : Nat) (j : Job) (o : CollOpn) : Prop :=
  if o.pieces.all (·.done) then collOp u k = none ∧ finishedAs u j (opResult o) else collOp u k = some o

theorem opDone_of_running (s0 : State) {s : State} {k : Nat} {o : CollOpn} (ho : collOp s k = some o)
    (hdone : o.pieces.all (·.done) = false) : opDone s0 s k = s := by simp [opDone, ho, hdone]

theorem opDone_of_done (s0 : State) {s : State} {k : Nat} {o : CollOpn} {j : Job} (ho : collOp s k = some o) (hj : opJob s o = some j)
    (hdone : o.pieces.all (·.done) = true) :
    ∃ u, opDone s0 s k = finishJob s0 u j (opResult o) ∧ unitWork u = unitWork (freeOp s k) := by
  unfold opDone opResult
  simp only [ho, hj, hdone, Bool.not_true, Bool.false_eq_true, if_false]
  split
  · obtain ⟨u, h, hwork, -⟩ := arFail_eq s0 (noteWithdrawn (raiseEvent (freeOp s k) .coll 0 4) j.tenant (cStep j.cmd)
      [boxSpan (arX j.cmd) (fullBox (arX j.cmd))]) j 0x20 (flOfBits o.flags) 0
    exact ⟨u, h, hwork.trans (unitWork_raiseEvent (freeOp s k) .coll 0 4)⟩
  · refine ⟨_, rfl, ?_⟩
    rw [unitWork_perfAdd]
    unfold jobSum
    (repeat' split) <;> rfl

/-- A step that may have finished an operation's last piece leaves it settled. -/
theorem settled_opDone (s0 : State) {s : State} {k : Nat} {o : CollOpn} {j : Job} (ho : collOp s k = some o) (hj : opJob s o = some j) :
    Settled (opDone s0 s k) k j o := by
  unfold Settled
  cases hdone : o.pieces.all (·.done) with
  | false =>
    rw [opDone_of_running s0 ho hdone]
    exact ho
  | true =>
    obtain ⟨u, h, hwork⟩ := opDone_of_done s0 ho hj hdone
    have hmem : j ∈ u.jobs := by
      rw [jobs_of_unitWork hwork, freeOp_jobs]
      exact mem_of_opJob hj
    rw [if_pos rfl, h]
    exact ⟨by simp [collOp_congr ((finishJob_coll s0 u j (opResult o)).trans (coll_of_unitWork hwork))], finishedAs_finishJob hmem _ _⟩

section Rows

variable {s x y : State} {i : Instr} {k : Nat} {o : CollOpn}

theorem becomes_of_sent (hlive : live s = true) (hexec : exec i s = .next (whenLive s x)) (hsent : Sent (putOp y k o) x) :
    ∃ u, exec i s = .next u ∧ collOp u k = some o :=
  ⟨_, hexec, by rw [collOp_whenLive hlive, collOp_congr hsent.coll, collOp_putOp, if_pos rfl]⟩

theorem settles_of_sent (hlive : live s = true) (hexec : exec i s = .next (whenLive s (opDone s x k))) (hsent : Sent (putOp y k o) x)
    (hwork : unitWork y = unitWork s) {q : CollOpn} (hserves : servesOp o = servesOp q) {j : Job} (hj : opJob s q = some j) :
    ∃ u, exec i s = .next u ∧ Settled u k j o := by
  have hslot : collOp x k = some o := by rw [collOp_congr hsent.coll, collOp_putOp, if_pos rfl]
  have hjs : opJob s o = some j := by rwa [opJob_eq_find?, hserves]
  have hput : OnlyHeld s (putOp y k o) := .of_jobs (jobs_of_unitWork hwork : y.jobs = s.jobs)
  obtain ⟨c, d, hjob⟩ := (hput.trans hsent.jobs).opJob_eq hjs
  have hsettled := settled_opDone s hslot hjob
  refine ⟨_, hexec, ?_⟩
  rw [whenLive_of_live hlive]
  exact hsettled

end Rows

/-! Grants (R539, R547). -/

theorem sent_doGrantSend {s : State} {k p : Nat} {o : CollOpn} {j : Job} {x : CollPiece} (ho : collOp s k = some o)
    (hj : opJob s o = some j) (hphase : o.phase ≠ 3) (hx : o.pieces[p]? = some x) (hfree : x.placed = false)
    (hruns : unitRuns s .coll 0 = true) {pl : Option Nat} (hplace : takePlace s j.cmd o = some pl) :
    Sent (putOp s k (setPiece o p { x with placed := true, stage := pl })) (doGrantSend s k p) := by
  unfold doGrantSend
  simp only [ho, hj, hx, hfree, beq_eq_false_iff_ne.2 hphase, hruns, Bool.not_true, Bool.or_self, Bool.false_eq_true, if_false, hplace]
  refine Sent.trans ?_ (.foldl _ (fun y r => .collSend y o r 0 .grant _) _ _)
  split
  · exact .perfAdd _ _ _ _ _
  · exact .refl _

section Messages

variable {s : State} {m : CollMsg} {k : Nat} {o : CollOpn} {j : Job} {x : CollPiece} (hslot : opSlot s m.key = some k)
  (ho : collOp s k = some o) (hj : opJob s o = some j) (hx : o.pieces[m.piece]? = some x)
include hslot ho hj hx

theorem doGrant_of_match (hroot : (opSelf o).root = false) (hrank : m.rank = (opSelf o).parent) (hgranted : x.granted = false)
    (hmatch : o.parentTag = some m.tag ∨ (o.parentTag = none ∧ m.digest = o.digest ∧ m.fmt = (arX j.cmd).fmt
      ∧ m.count = extCount (arX j.cmd).exts ∧ m.clog = arClog j.cmd ∧ m.arr = arArr j.cmd)) :
    doGrant s m = putOp s k (setPiece { o with parentTag := some m.tag } m.piece { x with granted := true }) := by
  unfold doGrant
  simp only [hslot, ho, hj, hx, hroot, hrank, hgranted]
  rcases hmatch with htag | ⟨htag, hdigest, hfmt, hcount, hclog, harr⟩
  · simp [htag]
  · simp [htag, hdigest, hfmt, hcount, hclog, harr]

/-! Partial sums and results (R541 to R543). -/

theorem doPartialSum_of_match (htag : m.tag = o.tag) (hkid : m.rank ∈ opKids o) (hplaced : x.placed = true)
    (hnew : ∀ e ∈ x.sums, e.1 ≠ m.rank) {n : Nat} (hn : n = msgCount (arAcc (dFmt (arX j.cmd))) (arRange j.cmd m.piece).length)
    (hgood : partBad x m n = false) {o' : CollOpn}
    (ho' : o' = { o with childTags := if (tabFind o.childTags m.rank).isSome then o.childTags else tabSet o.childTags m.rank m.ctag }) :
    ((takePart x m n).2 = none → doPartialSum s m = putOp s k (setPiece o' m.piece (takePart x m n).1))
    ∧ ∀ v, (takePart x m n).2 = some v → Sent (putOp s k (setPiece o' m.piece
        { (takePart x m n).1 with sums := (takePart x m n).1.sums ++ [(m.rank, v)] })) (doPartialSum s m) := by
  subst hn ho'
  have hnone : x.sums.any (fun e => e.1 == m.rank) = false := by simpa using hnew
  unfold doPartialSum
  simp only [hslot, ho, hj, hx, htag, bne_self_eq_false, List.contains_iff_mem.2 hkid, hplaced, hnone, hgood, Bool.not_true, Bool.or_self,
    Bool.false_eq_true, if_false]
  generalize takePart x m _ = q
  obtain ⟨y, part⟩ := q
  cases part with
  | none => exact ⟨fun _ => rfl, fun _ h => nomatch h⟩
  | some w =>
    refine ⟨fun h => (nomatch h), fun v h => ?_⟩
    cases h
    exact .collSend _ _ _ _ _ _

/-- The operation with the result of a piece, which stands in y (R542). -/
def withResult (o : CollOpn) (j : Job) (p : Nat) (y : CollPiece) (r : PieceVal) : CollOpn :=
  settle (setPiece { o with flags := o.flags ||| r.flags, phase := 2, sum := arSum (dFmt (arX j.cmd)) (r.vals.getD 0 0) } p
    { y with result := some r }) p

theorem doResultPiece_of_match (htag : m.tag = o.tag) (hroot : (opSelf o).root = false) (hrank : m.rank = (opSelf o).parent)
    (hup : x.up = true) (hnew : x.result = none) {n : Nat} (hn : n = msgCount (dFmt (arX j.cmd)) (arRange j.cmd m.piece).length)
    (hgood : partBad x m n = false) :
    ((takePart x m n).2 = none → doResultPiece s m = putOp s k (setPiece o m.piece (takePart x m n).1))
    ∧ ∀ v, (takePart x m n).2 = some v → (arWrite s j m.piece v).2 = false → ∃ u,
      Sent (putOp (arWrite s j m.piece v).1 k (withResult o j m.piece (takePart x m n).1 v)) u ∧ doResultPiece s m = opDone s u k := by
  subst hn
  unfold doResultPiece
  simp only [hslot, ho, hj, hx, htag, hroot, hrank, hup, hnew, hgood, bne_self_eq_false, Option.isSome_none, Bool.not_true, Bool.or_self,
    Bool.false_eq_true, if_false]
  generalize takePart x m _ = q
  obtain ⟨y, part⟩ := q
  cases part with
  | none => exact ⟨fun _ => rfl, fun _ h => nomatch h⟩
  | some w =>
    refine ⟨fun h => (nomatch h), fun v h hwrote => ?_⟩
    cases h
    simp only [hwrote, Bool.false_eq_true, if_false]
    exact ⟨_, (Sent.collSend _ _ _ _ _ _).trans (.sendResult _ _ _ _ _ _), rfl⟩

/-! Acknowledgements of a piece (R541, R542). -/

omit hj in
theorem doAck_of_parent (hcause : m.cause = 0) (htag : m.tag = o.tag) (hroot : (opSelf o).root = false)
    (hrank : m.rank = (opSelf o).parent) (hup : x.up = true) :
    doAck s m = opDone s (putOp s k (settle (setPiece o m.piece { x with upAck := true }) m.piece)) k := by
  unfold doAck
  simp only [hcause, bne_self_eq_false, Bool.false_eq_true, if_false, hslot, ho, hx, htag, hroot, hrank, hup, Bool.not_false,
    beq_self_eq_true, Bool.and_self, if_true]

omit hj in
theorem doAck_of_child (hcause : m.cause = 0) (htag : m.tag = o.tag) (hkid : m.rank ∈ opKids o)
    (hother : (opSelf o).root = true ∨ m.rank ≠ (opSelf o).parent) (hresult : x.result.isSome = true) :
    doAck s m = opDone s (putOp s k (settle (setPiece o m.piece { x with acks := m.rank :: x.acks }) m.piece)) k := by
  have hup : (!(opSelf o).root && m.rank == (opSelf o).parent && x.up) = false := by
    rcases hother with h | h <;> simp [h]
  unfold doAck
  simp only [hcause, bne_self_eq_false, Bool.false_eq_true, if_false, hslot, ho, hx, htag, hup, List.contains_iff_mem.2 hkid, hresult,
    Bool.and_self, if_true]

end Messages

/-! A piece is combined (R541). -/

/-- The state in which this rank's elements of a piece have been read. -/
def ownRead (s : State) (j : Job) (p : Nat) : State := withdrawNew s (arRead s j p) (arRead s j p)

/-- What combining leaves in a piece's staging slot, and whether the slot could not be written. -/
def stageLeft (s : State) (j : Job) (x : CollPiece) : State × Bool :=
  match x.stage with
  | some i =>
    let w := tStore s j.tenant (arStage j.cmd + i * arPiece j.cmd) (freeBytes s (arPiece j.cmd))
    ({ w.1 with freeCount := w.1.freeCount + arPiece j.cmd }, w.2)
  | none => (s, false)

/-- The state in which a piece is combined, counted among those of its path. -/
def combinedIn (s : State) (j : Job) (p : Nat) (x : CollPiece) : State :=
  perfAdd (stageLeft (ownRead s j p) j x).1 .coll 0 (if x.stage.isNone then 1 else 2) 1

/-- The result of a piece at the root: the combination narrowed (R535). -/
def rootResult (j : Job) (v : PieceVal) : PieceVal :=
  let nv := v.vals.map (arNarrow (dFmt (arX j.cmd)) (cOvf j.cmd))
  let fl := flAll (((List.range nv.length).zip nv).filterMap (fun (e : Nat × Nat × Fl) => if v.bad.contains e.1 then none else some e.2.2))
  { vals := nv.map (·.1), bad := v.bad, flags := v.flags ||| flBits fl ||| (if v.bad.isEmpty then 0 else 16) }

theorem unitWork_stageLeft (s : State) (j : Job) (x : CollPiece) : unitWork (stageLeft s j x).1 = unitWork s := by
  unfold stageLeft
  split
  · simpa only [unitWork] using unitWork_tStore s _ _ _
  · rfl

theorem unitWork_combinedIn (s : State) (j : Job) (p : Nat) (x : CollPiece) : unitWork (combinedIn s j p x) = unitWork s := by
  simp only [combinedIn, unitWork_perfAdd, unitWork_stageLeft, ownRead, unitWork_withdrawNew, unitWork_arRead]

/-- Piece `p` of the operation `o` of the command `j` in slot `k` is as `x` says and can be combined: it has its place, its grant and every
child's sum, its elements can be read and its staging slot written (R541). -/
structure CombineReady (s : State) (k p : Nat) (o : CollOpn) (j : Job) (x : CollPiece) : Prop where
  op : collOp s k = some o
  job : opJob s o = some j
  phase : o.phase ≠ 3
  piece : o.pieces[p]? = some x
  placed : x.placed = true
  notSent : x.up = false
  noResult : x.result = none
  granted : (opSelf o).root = true ∨ x.granted = true
  sums : (opKids o).length ≤ x.sums.length
  runs : unitRuns s .coll 0 = true
  served : arMiss (arRead s j p) j p = none
  staged : (stageLeft (ownRead s j p) j x).2 = false

section Combine

variable {s : State} {k p : Nat} {o : CollOpn} {j : Job} {x : CollPiece}

theorem doPieceCombine_of_ready (h : CombineReady s k p o j x) (struck : List Nat) : doPieceCombine s k p struck =
    let v := arCombine (arRead s j p) j o x p struck
    let root := rootResult j v
    let w := arWrite (combinedIn s j p x) j p root
    if (opSelf o).root then
      if w.2 then raiseAbort s w.1 k o 5
      else opDone s (sendResult (putOp w.1 k (withResult o j p x root)) (withResult o j p x root) p (arX j.cmd).fmt x root) k
    else collData (putOp (combinedIn s j p x) k (setPiece o p { x with up := true })) o (opSelf o).parent
      (if x.stage.isNone then 5 else 6) .partialSum { collBlank o with
        tag := o.parentTag.getD 0, ctag := o.tag, piece := p, vals := v.vals, bad := v.bad, flags := v.flags, fmt := (arX j.cmd).fmt } := by
  obtain ⟨ho, hj, hphase, hx, hplaced, hup, hnew, hgranted, hsums, hruns, hserved, hstaged⟩ := h
  have hmay : ((opSelf o).root || x.granted) = true := by simpa using hgranted
  have hready : (!x.placed || x.up || x.result.isSome || o.phase == 3 || !((opSelf o).root || x.granted)
      || decide (x.sums.length < (opKids o).length) || !unitRuns s .coll 0) = false := by
    simp [hplaced, hup, hnew, hphase, hmay, hsums, hruns]
  unfold doPieceCombine
  simp only [ho, hj, hx, hready, Bool.false_eq_true, if_false, hserved]
  unfold combinedIn withResult
  unfold stageLeft ownRead at *
  generalize withdrawNew s (arRead s j p) (arRead s j p) = r at *
  cases hstage : x.stage with
  | none => rfl
  | some i =>
    simp only [hstage] at hstaged
    simp only [hstaged, Bool.false_eq_true, if_false]
    rfl

theorem sent_doPieceCombine_of_child (h : CombineReady s k p o j x) (struck : List Nat) (hroot : (opSelf o).root = false) :
    Sent (putOp (combinedIn s j p x) k (setPiece o p { x with up := true })) (doPieceCombine s k p struck) := by
  rw [doPieceCombine_of_ready h struck]
  simp only [hroot, Bool.false_eq_true, if_false]
  exact .collData _ _ _ _ _ _

theorem doPieceCombine_of_root (h : CombineReady s k p o j x) {struck : List Nat} (hroot : (opSelf o).root = true) {root : PieceVal}
    (hresult : root = rootResult j (arCombine (arRead s j p) j o x p struck))
    (hwrote : (arWrite (combinedIn s j p x) j p root).2 = false) :
    ∃ u, Sent (putOp (arWrite (combinedIn s j p x) j p root).1 k (withResult o j p x root)) u
      ∧ doPieceCombine s k p struck = opDone s u k := by
  rw [doPieceCombine_of_ready h struck]
  simp only [hroot, if_true, ← hresult, hwrote, Bool.false_eq_true, if_false]
  exact ⟨_, .sendResult _ _ _ _ _ _, rfl⟩

end Combine

/-- Settles O37: the operation that an ALLREDUCE begins; then each row by what it leaves in the slot before what it sends, which is the
operation itself or one that `opDone` settles. -/
theorem collectiveOperationsComplete : Obligations.CollectiveOperationsComplete := by
  unfold Obligations.CollectiveOperationsComplete
  intro s hlive hnowhere
  refine ⟨?_, ?_⟩
  · intro j k hj hk a s1 n s2 h ms key husable hgood hheld hcheck
    obtain ⟨x, o, heq, hops, hmem, hkey, hms, hrank, hphase, hpieces⟩ := doAllreduce_of_sound hj hk ⟨husable, hgood, hheld, hcheck⟩
    refine ⟨_, o, exec_allreduce s, ?_, hkey, hms, hrank, hphase, hpieces, fun k' hne => ?_, fun hclean => ?_⟩
    · rw [collOp_whenLive hlive, heq, collOp_putOp, if_pos rfl]
    · rw [collOp_whenLive hlive, heq, collOp_putOp, if_neg hne.symm, collOp, hops, collOp]
    · rw [whenLive_of_live hlive, heq]
      exact hmem.trans (mem_planRead hclean j)
  · intro k p o j x ho hj hphase hx becomes settles result
    refine ⟨fun pl hfree hruns hplace => ?_, ?_, ?_⟩
    · exact becomes_of_sent hlive (exec_grantSend k p s) (sent_doGrantSend ho hj hphase hx hfree hruns hplace)
    · intro struck hplaced hup hnew hgranted hsums hruns r s1 st hserved hstaged v nv fl root
      have hst : st = stageLeft s1 j x := by
        cases hstage : x.stage <;> simp only [st, stageLeft, hstage]
      have hready : CombineReady s k p o j x :=
        ⟨ho, hj, hphase, hx, hplaced, hup, hnew, hgranted, hsums, hruns, hserved, hst ▸ hstaged⟩
      clear_value st
      subst hst
      have hexec : exec (.pieceCombine k ⟨p, struck⟩) s = .next (whenLive s (doPieceCombine s k p struck)) := by
        rw [exec_pieceCombine, gateOp_of_heldNowhere hnowhere]
      refine ⟨fun hroot => ?_, fun hroot hwrote => ?_⟩
      · exact becomes_of_sent hlive hexec (sent_doPieceCombine_of_child hready struck hroot)
      · obtain ⟨u, hsent, heq⟩ := doPieceCombine_of_root hready hroot (root := root) rfl hwrote
        exact settles_of_sent hlive (hexec.trans (by rw [heq])) hsent ((unitWork_arWrite _ _ _ _).trans (unitWork_combinedIn s j p x)) rfl hj
    · intro m hpiece hslot
      subst hpiece
      refine ⟨fun hroot hrank hfree hmatch => ?_, ?_, ?_, fun hcause htag => ⟨fun hroot hrank hup => ?_, fun hkid hother hresult => ?_⟩⟩
      · exact becomes_of_sent hlive (exec_grant m s) (.of_eq (doGrant_of_match hslot ho hj hx hroot hrank hfree hmatch))
      · intro n q o' htag hkid hplaced hnew hgood
        obtain ⟨hpart, hwhole⟩ := doPartialSum_of_match hslot ho hj hx htag hkid hplaced hnew (n := n) rfl hgood (o' := o') rfl
        exact ⟨fun hq => becomes_of_sent hlive (exec_partialSum m s) (.of_eq (hpart hq)),
          fun v hq => becomes_of_sent hlive (exec_partialSum m s) (hwhole v hq)⟩
      · intro n q htag hroot hrank hup hnew hgood
        have hexec : exec (.resultPiece m) s = .next (whenLive s (doResultPiece s m)) := by
          rw [exec_resultPiece, gateOp_of_heldNowhere hnowhere]
        obtain ⟨hpart, hwhole⟩ := doResultPiece_of_match hslot ho hj hx htag hroot hrank hup hnew (n := n) rfl hgood
        refine ⟨fun hq => becomes_of_sent hlive hexec (.of_eq (hpart hq)), fun v hq hwrote => ?_⟩
        obtain ⟨u, hsent, heq⟩ := hwhole v hq hwrote
        exact settles_of_sent hlive (hexec.trans (by rw [heq])) hsent (unitWork_arWrite s j m.piece v) rfl hj
      · exact settles_of_sent hlive ((exec_acknowledgement m s).trans
          (by rw [doAck_of_parent hslot ho hx hcause htag hroot hrank hup])) (.refl _) rfl rfl hj
      · exact settles_of_sent hlive ((exec_acknowledgement m s).trans
          (by rw [doAck_of_child hslot ho hx hcause htag hkid hother hresult])) (.refl _) rfl rfl hj

end Sys2Proof.Machine
end

section
/-! PROOFS. The step and the queue, what the package fixes, the reset state, the test access port, and the node that stands still. -/

namespace Sys2Proof.Machine

/-! Which rows of the command table act on a node that is not live. -/

/-- The command acts while power-on reset is asserted or after a thermal trip: the power commands and the test access port (log 3). -/
def actsStopped : Instr → Bool
  | .powerOnReset | .porRelease | .railFault _ | .tapReset | .idcode | .bypassTap | .samplePreload | .extestTap | .extestPulse
  | .extestTrain => true
  | _ => false

/-- Every other row of the command table acts through `whenLive`. -/
theorem exec_eq_whenLive {c : Instr} (h : actsStopped c = false) (s : State) : ∃ t, exec c s = .next (whenLive s t) := by
  cases c with
  | powerOnReset | porRelease | railFault | tapReset | idcode | bypassTap | samplePreload | extestTap | extestPulse | extestTrain =>
    cases h
  | _ => exact ⟨_, rfl⟩

/-! The test access port (R793). -/

theorem exec_idcode (s : State) : exec .idcode s = .next (if tapUp s then emit (loadTap s .idcode) (.tdo (idcodeOf s)) else s) := rfl
theorem exec_bypassTap (s : State) : exec .bypassTap s = .next (if tapUp s then bypassNow s else s) := rfl
theorem exec_samplePreload (s : State) : exec .samplePreload s = .next (boundary s .sample) := rfl
theorem exec_extestTap (s : State) : exec .extestTap s = .next (boundary s .extest) := rfl
theorem exec_extestPulse (s : State) : exec .extestPulse s = .next (boundary s .pulse) := rfl
theorem exec_extestTrain (s : State) : exec .extestTrain s = .next (boundary s .train) := rfl

@[simp] theorem bypassNow_part (s : State) : (bypassNow s).part = s.part := rfl
@[simp] theorem bypassNow_pending (s : State) : (bypassNow s).pending = s.pending := rfl

@[simp] theorem boundary_part (s : State) (i : TapInstr) : (boundary s i).part = s.part := by unfold boundary; split_ifs <;> rfl
@[simp] theorem boundary_pending (s : State) (i : TapInstr) : (boundary s i).pending = s.pending := by unfold boundary; split_ifs <;> rfl

theorem boundary_of_tapUp {s : State} (h : s.mgmt.por = false) (i : TapInstr) :
    boundary s i = if s.hostIf.own = 0 then { s with tap := i } else { s with tap := .bypass, out := s.out ++ [.tdo 0] } := by
  simp only [boundary, tapUp, h]; rfl

/-- The port and what the node has put out: all that an instruction of the port changes. -/
def tapOnly (s t : State) : Prop := ∃ x o, t = { s with tap := x, out := o }

theorem tapOnly_boundary (s : State) (i : TapInstr) : tapOnly s (boundary s i) := by
  unfold boundary
  split_ifs
  · exact ⟨s.tap, s.out, rfl⟩
  · exact ⟨i, s.out, rfl⟩
  · exact ⟨.bypass, s.out ++ [.tdo 0], rfl⟩

/-- Settles O60, an instruction at a time. -/
theorem testAccessPort : Obligations.TestAccessPort := by
  intro s
  refine ⟨rfl, rfl, fun h => ?_⟩
  have hup : tapUp s = true := by simp [tapUp, h]
  refine ⟨fun ha => ?_, fun hb => ?_, ?_, ?_, ?_, ?_, ?_⟩
  · rw [exec_idcode, if_pos hup, idcodeOf, if_pos ha]; rfl
  · rw [exec_idcode, if_pos hup, idcodeOf, if_neg (by simp [hb])]; rfl
  · rw [exec_bypassTap, if_pos hup]; rfl
  · exact (exec_samplePreload s).trans (congrArg _ (boundary_of_tapUp h _))
  · exact (exec_extestTap s).trans (congrArg _ (boundary_of_tapUp h _))
  · exact (exec_extestPulse s).trans (congrArg _ (boundary_of_tapUp h _))
  · exact (exec_extestTrain s).trans (congrArg _ (boundary_of_tapUp h _))

/-! The power commands keep the part and the queue (R771, R798). -/

@[simp] theorem powerOn_part (s : State) : (powerOn s).part = s.part := rfl
@[simp] theorem powerOn_pending (s : State) : (powerOn s).pending = s.pending := rfl

theorem doPorRelease_keeps (s : State) : (doPorRelease s).part = s.part ∧ (doPorRelease s).pending = s.pending := by
  unfold doPorRelease
  split <;> exact ⟨rfl, rfl⟩

theorem doRailFault_keeps (s : State) (rail : Nat) : (doRailFault s rail).part = s.part ∧ (doRailFault s rail).pending = s.pending := by
  unfold doRailFault
  split_ifs <;> simp

/-- Every command goes on to a next state with the same part and the same queue. -/
theorem exec_keeps_part_pending (c : Instr) (s : State) : ∃ t, exec c s = .next t ∧ t.part = s.part ∧ t.pending = s.pending := by
  by_cases h : actsStopped c = true
  · cases c with
    | powerOnReset => exact ⟨_, rfl, rfl, rfl⟩
    | porRelease => exact ⟨_, rfl, doPorRelease_keeps s⟩
    | railFault rail => exact ⟨_, rfl, doRailFault_keeps s rail⟩
    | tapReset => exact ⟨_, rfl, rfl, rfl⟩
    | idcode => exact ⟨_, exec_idcode s, by split <;> rfl, by split <;> rfl⟩
    | bypassTap => exact ⟨_, exec_bypassTap s, by split <;> rfl, by split <;> rfl⟩
    | samplePreload | extestTap | extestPulse | extestTrain => exact ⟨_, rfl, boundary_part _ _, boundary_pending _ _⟩
    | _ => cases h
  · obtain ⟨t, ht⟩ := exec_eq_whenLive (Bool.eq_false_iff.mpr h) s
    exact ⟨_, ht, whenLive_part s t, whenLive_pending s t⟩

/-! The registers that the package fixes (R771). -/

theorem capsLo_congr {s t : State} (h : t.part = s.part) (b : Block) : capsLo t b = capsLo s b := by simp only [capsLo, limMax, h]

theorem capsHi_congr {s t : State} (h : t.part = s.part) (b : Block) : capsHi t b = capsHi s b := by simp only [capsHi, h]

/-- ID, VERSION, CAPS0 and CAPS1 follow from the page and the part alone. -/
theorem commonReg_congr {s t : State} (h : t.part = s.part) (b : Block) (i : Nat) {off : Nat}
    (ho : off = 0x000 ∨ off = 0x004 ∨ off = 0x008 ∨ off = 0x00C) : commonReg t b i off = commonReg s b i off := by
  obtain rfl | rfl | rfl | rfl := ho
  · simp only [commonReg]
  · simp only [commonReg, h]
  · simp only [commonReg, capsLo_congr h b]
  · simp only [commonReg, capsHi_congr h b]

theorem regValue_congr {s t : State} (h : t.part = s.part) (b : Block) (i : Nat) {g : RegSpec}
    (ho : g.off = 0x000 ∨ g.off = 0x004 ∨ g.off = 0x008 ∨ g.off = 0x00C) : regValue t b i g = regValue s b i g := by
  have hlt : g.off < 0x100 := by omega
  rw [regValue, regValue, if_pos hlt, if_pos hlt, commonReg_congr h b i ho]

/-- VERSION.layout and VERSION.arch stand below the stepping. -/
theorem version_layout_arch (s : State) (b : Block) (i : Nat) :
    bits (commonReg s b i 0x004) 0 8 = 0x01 ∧ bits (commonReg s b i 0x004) 8 8 = 0x01 := by
  have hv : commonReg s b i 0x004 = 0x0101 + s.part.stepping * 2 ^ 16 := by simp only [commonReg, fld]
  rw [hv]
  simp only [bits]
  omega

/-- Settles O3: an empty queue keeps the state, and a command of the queue keeps the part and the queue's rest. -/
theorem identityNeverChanges : Obligations.IdentityNeverChanges := by
  refine ⟨fun s t h => ?_, version_layout_arch⟩
  have hkeeps : t.pending = s.pending.tail ∧ t.part = s.part := by
    unfold step at h
    split at h
    · next hp =>
      cases h
      exact ⟨by rw [hp]; rfl, rfl⟩
    · next c rest hp =>
      obtain ⟨u, hu, hpart, hpend⟩ := exec_keeps_part_pending c { s with pending := rest }
      obtain rfl : t = u := by rw [hu] at h; cases h; rfl
      exact ⟨by rw [hpend, hp]; rfl, hpart⟩
  exact ⟨hkeeps.1, hkeeps.2, fun b i g ho => regValue_congr hkeeps.2 b i ho⟩

/-- Settles O1: the two branches of `step`. -/
theorem stepRunsFrontCommand : Obligations.StepRunsFrontCommand :=
  ⟨fun _ _ _ => rfl, fun s h => by rw [step, h]⟩

/-! The state after reset. -/

/-- Settles O4: the tables of the reset state are empty, so every page and byte reads its default. -/
theorem resetState : Obligations.ResetState :=
  ⟨rfl, rfl, fun _ _ => rfl, rfl, rfl, fun _ => rfl, fun _ => rfl, rfl, rfl, rfl, fun _ => rfl, rfl⟩

/-! The node that stands still (R671, R798). -/

/-- Settles O5: a row that acts through `whenLive` keeps a state that is not live, and the port changes only itself and what is out. -/
theorem stoppedNodeIsFrozen : Obligations.StoppedNodeIsFrozen := by
  refine fun c s hlive => ⟨fun h1 h2 h3 h4 h5 h6 h7 h8 h9 h10 => ?_, fun t hc ht => ?_⟩
  · have hacts : actsStopped c = false := by
      cases c with
      | powerOnReset | porRelease | tapReset | idcode | bypassTap | samplePreload | extestTap | extestPulse | extestTrain => contradiction
      | railFault r => exact absurd rfl (h3 r)
      | _ => rfl
    obtain ⟨t, ht⟩ := exec_eq_whenLive hacts s
    rw [ht, whenLive_stopped s hlive]
  · obtain rfl | rfl | rfl | rfl | rfl | rfl | rfl := hc <;> cases ht
    · exact ⟨.idcode, s.out, rfl⟩
    · split
      · exact ⟨.idcode, _, rfl⟩
      · exact ⟨s.tap, s.out, rfl⟩
    · split
      · exact ⟨.bypass, _, rfl⟩
      · exact ⟨s.tap, s.out, rfl⟩
    · exact tapOnly_boundary s _
    · exact tapOnly_boundary s _
    · exact tapOnly_boundary s _
    · exact tapOnly_boundary s _

end Sys2Proof.Machine
end

section
/-! PROOFS. Register pages: reads and their snapshots, events, ignored writes, and pages that a requester does not reach. -/

namespace Sys2Proof.Machine

/-! What changes only counters of register pages (HOST.PERF2). -/

@[simp] theorem countersOnly_refl (s : State) : countersOnly s s := ⟨⟨s.pages, rfl⟩, fun _ _ => ⟨_, rfl⟩⟩

theorem countersOnly_trans {s t u : State} (h : countersOnly s t) (k : countersOnly t u) : countersOnly s u := by
  obtain ⟨⟨p, rfl⟩, hp⟩ := h
  obtain ⟨⟨q, rfl⟩, hq⟩ := k
  refine ⟨⟨q, rfl⟩, fun b i => ?_⟩
  obtain ⟨x, hx⟩ := hp b i
  obtain ⟨y, hy⟩ := hq b i
  exact ⟨y, by rw [hy, hx]⟩

theorem countersOnly_perfAdd (s : State) (b : Block) (i k n : Nat) : countersOnly s (perfAdd s b i k n) :=
  ⟨⟨_, rfl⟩, page_perfAdd s b i k n⟩

@[simp] theorem countersOnly_bar0Count (s : State) (r : Requester) : countersOnly s (bar0Count s r) := by
  unfold bar0Count
  cases r with
  | mgmt | cfg _ => exact countersOnly_refl s
  | pf | vf _ =>
    dsimp only
    split
    · exact countersOnly_perfAdd s .host 0 2 1
    · exact countersOnly_refl s

/-- What leaves the part and the queue alone passes through `whenLive`. -/
theorem countersOnly_whenLive {s t : State} (h : countersOnly s t) : countersOnly s (whenLive s t) := by
  by_cases hl : live s = true
  · have e : whenLive s t = t := by
      obtain ⟨⟨p, rfl⟩, -⟩ := h
      exact whenLive_eq s hl rfl rfl
    rwa [e]
  · rw [whenLive_stopped s (Bool.eq_false_iff.mpr hl)]
    exact countersOnly_refl s

/-- A counted access leaves who reaches what. -/
theorem writeReaches_of_countersOnly {s t : State} (h : countersOnly s t) (r : Requester) (b : Block) (i : Nat) :
    writeReaches t r b i = writeReaches s r b i := by
  obtain ⟨⟨p, rfl⟩, -⟩ := h
  rfl

/-! Writes that do not reach their page (R751). -/

section
variable {s : State} {r : Requester} {b : Block} {i : Nat} (h : writeReaches s r b i = false)
include h

theorem regAccess_unreached (off : Nat) (ok : Bool) (f : State → State) : regAccess s r b i off ok f = bar0Count s r := by
  rw [regAccess_eq, h, if_neg Bool.false_ne_true]

theorem countersOnly_regAccess (off : Nat) (ok : Bool) (f : State → State) : countersOnly s (regAccess s r b i off ok f) := by
  rw [regAccess_unreached h]
  exact countersOnly_bar0Count s r

theorem countersOnly_commitReg (hp : b = .host → i = 0) (g : RegSpec) (v : Nat) : countersOnly s (commitReg s r b i g v) := by
  unfold commitReg
  split
  · next hown =>
    obtain ⟨rfl, -⟩ : b = .host ∧ g.off = 0x108 := by simpa using hown
    obtain rfl := hp rfl
    split
    · exact countersOnly_regAccess h _ _ _
    · split <;> exact countersOnly_regAccess h _ _ _
  · exact countersOnly_regAccess h _ _ _

theorem countersOnly_stageWord (g : RegSpec) (off v : Nat) : countersOnly s (stageWord s r b i g off v) := by
  rw [stageWord, if_pos (by simp [h])]
  exact countersOnly_bar0Count s r

theorem countersOnly_writeWord (hp : b = .host → i = 0) (off v : Nat) : countersOnly s (writeWord s r b i off v) := by
  unfold writeWord
  split
  · exact countersOnly_bar0Count s r
  · split
    · exact countersOnly_commitReg h hp _ _
    · split
      · exact countersOnly_commitReg h hp _ _
      · exact countersOnly_stageWord h _ _ _

theorem countersOnly_writeWords (hp : b = .host → i = 0) (off n v : Nat) : countersOnly s (writeWords s r b i off n v) := by
  induction n generalizing s off v with
  | zero => exact countersOnly_refl s
  | succ n ih =>
    have hw := countersOnly_writeWord h hp off (v % 2 ^ 32)
    exact countersOnly_trans hw (ih ((writeReaches_of_countersOnly hw r b i).trans h) _ _)

theorem countersOnly_writePage (hp : b = .host → i = 0) (off width v : Nat) : countersOnly s (writePage s r b i off width v) := by
  unfold writePage
  split
  · split
    · split
      · exact countersOnly_commitReg h hp _ _
      · exact countersOnly_writeWords h hp _ _ _
    · exact countersOnly_writeWords h hp _ _ _
  · split
    · exact countersOnly_writeWord h hp _ _
    · split
      · exact countersOnly_writeWords h hp _ _ _
      · exact countersOnly_regAccess h _ _ _

theorem countersOnly_doIndexWrite (off v : Nat) : countersOnly s (doIndexWrite s r b i off v) := by
  unfold doIndexWrite
  split
  · split
    · next hidx => exact countersOnly_commitReg h (fun hb => by subst hb; cases hidx) _ _
    · exact countersOnly_refl s
  · exact countersOnly_refl s

theorem countersOnly_doEventWrite (v : Nat) : countersOnly s (doEventWrite s r b i v) := by
  rw [doEventWrite, commitReg, if_neg (by simp)]
  exact countersOnly_regAccess h _ _ _

end

/-- The one HOST page is page 0. -/
theorem host_of_pageAt {addr i off : Nat} (h : pageAt addr = some (.host, i, off)) : i = 0 := by
  simp only [pageAt, Option.map_eq_some_iff, Prod.mk.injEq] at h
  obtain ⟨b, hb, rfl, rfl, -⟩ := h
  have hin := List.find?_some hb
  have hbase : blkBase .host = 0x100000 := by decide
  have hcount : blkCount .host = 1 := by decide
  rw [hbase, hcount, Bool.and_eq_true, decide_eq_true_eq, decide_eq_true_eq] at hin
  rw [hbase]
  omega

theorem countersOnly_doRegWrite {s : State} {r : Requester} {addr i off : Nat} {b : Block} (hr : regAt r addr = some (b, i, off))
    (h : writeReaches s r b i = false) (width v : Nat) : countersOnly s (doRegWrite s r addr width v) := by
  cases r with
  | cfg fn => cases hr
  | vf t =>
    simp only [regAt, Option.ite_none_right_eq_some, Option.some.injEq, Prod.mk.injEq] at hr
    obtain ⟨hlt, rfl, rfl, rfl⟩ := hr
    rw [doRegWrite, vfWrite, if_pos hlt]
    exact countersOnly_writePage h (by simp) _ _ _
  | pf | mgmt =>
    have hp : pageAt addr = some (b, i, off) := hr
    simp only [doRegWrite, hp]
    split
    · exact countersOnly_bar0Count s _
    · exact countersOnly_writePage h (fun hb => host_of_pageAt (hb ▸ hp)) _ _ _

/-- Settles O7: every command but REGISTER_WRITE makes at most one access, which `regAccess` turns away; REGISTER_WRITE makes one for each
of its words. -/
theorem unreachedPageTakesNoWrite : Obligations.UnreachedPageTakesNoWrite := by
  intro c s r b i hc h
  cases c with
  | registerWrite q addr width v =>
    simp only [pageOf, Option.map_eq_some_iff, Prod.mk.injEq] at hc
    obtain ⟨⟨b', i', off⟩, hr, rfl, rfl, rfl⟩ := hc
    exact ⟨_, rfl, countersOnly_whenLive (countersOnly_doRegWrite hr h width v)⟩
  | eventWrite q b' i' m =>
    cases hc
    exact ⟨_, rfl, countersOnly_whenLive (countersOnly_doEventWrite h m)⟩
  | indexRegisterWrite q b' i' off v =>
    cases hc
    exact ⟨_, rfl, countersOnly_whenLive (countersOnly_doIndexWrite h off v)⟩
  | tailWrite | cplRelWrite | cmdBaseWrite | cplBaseWrite | winWrite | nodeCfgWrite | ringConfigWrite | tenStopWrite =>
    cases hc
    refine ⟨_, rfl, countersOnly_whenLive ?_⟩
    simp only [doTail, doCplRel, doCmdBase, doCplBase, doWinWrite, doNodeCfg, doRingConfig, doTenStop, regAccess_unreached h]
    (repeat' split) <;> simp
  | steerGo | tenCopyWrite | restGo =>
    cases hc
    refine ⟨_, rfl, countersOnly_whenLive ?_⟩
    simp only [doSteerGo, steerBy, doTenCopy, doRestGo]
    exact countersOnly_regAccess h _ _ _
  | arbWrite | translationInvalidate | tenantReset | tenantSeal | stepRegisterWrite | streamEnWrite | steerEnter | steerLeave
  | regionSync | herdConfigWrite | fabTmoWrite | linkEnable | setLoad | setActivate | setRetire | hostImgSubmit | winLock | ownerSeal
  | zreqSubmit | ownCtrlClaim | ownCtrlRelease | tenModeWrite | tenSeedWrite | tenSealRequest | rdPtrWrite | systimeWrite | limitWrite
  | grpPolWrite | clkPolWrite | tenTrigWrite | restHostDone | restAbort | blockQuiesce | blockReset | lambCtrlEnter
  | nodeReset | mgmtRestart =>
    cases hc
    exact ⟨_, rfl, countersOnly_whenLive (countersOnly_regAccess h _ _ _)⟩
  | _ => cases hc

end Sys2Proof.Machine
end

section
/-! PROOFS. Ignored writes, register reads and events. -/

namespace Sys2Proof.Machine

/-! An ignored write (R736). -/

/-- Class 1 enters no log: a refused write is a note in its page. -/
theorem regError_eq_modPage (s : State) (b : Block) (i off : Nat) :
    regError s b i off = modPage s b i (noteErr 1 (off / 4) (0xF000000000 + blkBase b + 0x1000 * i + off) (if b = .ten then i else 0xFFF)) :=
  rfl

/-- Settles O12: the page is noted in, by whether ERR_STATUS.valid stands. -/
theorem refusedWriteSetsErrStatus : Obligations.RefusedWriteSetsErrStatus := by
  intro s b i off
  refine ⟨rfl, fun b' i' h => ?_, fun h => ?_, fun h => ?_⟩
  · rw [regError_eq_modPage, page_modPage, if_neg (Ne.symm h)]
  · rw [regError_eq_modPage, page_modPage_self, noteErr, if_pos h]
  · rw [regError_eq_modPage, page_modPage_self, noteErr, if_neg (by simp [h])]

/-! Register reads (R763). -/

theorem exec_registerSnapshotRead (r : Requester) (addr width : Nat) (s : State) :
    exec (.registerSnapshotRead r addr width) s = .next (whenLive s (doRegRead s r addr width)) := rfl

/-- The snapshot just taken is the one that its requester holds. -/
theorem snapOf_takeSnap (s : State) (r : Requester) (b : Block) (i : Nat) (g : RegSpec) :
    snapOf (takeSnap s r b i g) r b i g.off = some (regValue s b i g) := by
  simp [snapOf, takeSnap]

/-- Counting the access leaves the snapshots. -/
theorem snapOf_bar0Count (s : State) (r q : Requester) (b : Block) (i off : Nat) : snapOf (bar0Count s r) q b i off = snapOf s q b i off := by
  obtain ⟨-, h⟩ := countersOnly_bar0Count s r
  obtain ⟨x, hx⟩ := h b i
  rw [snapOf, snapOf, hx]

/-- A read that reaches its page is answered by it. -/
theorem doRegRead_of_reaches {s : State} {r : Requester} {addr i off width : Nat} {b : Block} (hr : regAt r addr = some (b, i, off))
    (h : readReaches s r b i = true) (hfits : off + width ≤ 0x1000) :
    doRegRead s r addr width = answer (readPage (bar0Count s r) r b i off width) := by
  cases r with
  | cfg fn => cases hr
  | vf t =>
    simp only [regAt, Option.ite_none_right_eq_some, Option.some.injEq, Prod.mk.injEq] at hr
    obtain ⟨hlt, rfl, rfl, rfl⟩ := hr
    have hup : fnUp s (t + 1) = true ∧ s.mgmt.lamb = false := by
      simp only [readReaches] at h
      simp_all
    simp [doRegRead, hup, hlt, hfits, h]
  | pf | mgmt =>
    have hp : pageAt addr = some (b, i, off) := hr
    simp [doRegRead, hp, h, Nat.not_lt.mpr hfits]

/-- A 4-byte read is that of its word. -/
theorem readPage_four {s : State} {r : Requester} {b : Block} {i off : Nat} (h : off % 4 = 0) :
    readPage s r b i off 4 = readWord s r b i off := by
  simp [readPage, readWords, h]

theorem readPage_eight {s : State} {r : Requester} {b : Block} {i off : Nat} {g : RegSpec} (hg : specAt b i off = some g) (h : off % 8 = 0)
    (ho : off = g.off) (hw : g.words = 2) : readPage s r b i off 8 = (regValue s b i g, takeSnap s r b i g) := by
  have h4 : off % 4 = 0 := by omega
  simp only [readPage, h4, h, hg]
  simp [ho, hw]

/-- Settles O8: the read's width and place in its register choose the answer. -/
theorem registerReadsFollowSnapshots : Obligations.RegisterReadsFollowSnapshots := by
  refine ⟨fun s r addr b i off g _ hr hreach hg h4 hfits => ⟨fun ho hw => ?_, fun ho hw => ?_, fun ho => ?_, fun ho h8 hw => ?_⟩,
    snapOf_takeSnap⟩
  · rw [exec_registerSnapshotRead, doRegRead_of_reaches hr hreach (by omega), readPage_four h4]
    subst ho
    simp [readWord, hg, hw, answer]
  · rw [exec_registerSnapshotRead, doRegRead_of_reaches hr hreach (by omega), readPage_four h4]
    subst ho
    simp [readWord, hg, hw, answer]
  · rw [exec_registerSnapshotRead, doRegRead_of_reaches hr hreach (by omega), readPage_four h4]
    simp [readWord, hg, ho, answer, snapOf_bar0Count]
  · rw [exec_registerSnapshotRead, doRegRead_of_reaches hr hreach (by omega), readPage_eight hg h8 ho hw, answer]

/-- A node out of power-on reset with its PCIe link up and start-up over. -/
def linkedNode : State :=
  { State.reset with mgmt := { State.reset.mgmt with por := false }, hostIf := { State.reset.hostIf with gen := 1, crs := false } }

/-- Refutes O9: a read of the PF's configuration space draws a free value, whose count is neither a page nor what is out. -/
theorem not_registerReadsChangeNothing : ¬ Obligations.RegisterReadsChangeNothing := by
  intro h
  obtain ⟨⟨p, o, ht⟩, -⟩ := h linkedNode _ (.cfg 0) 0 4 rfl
  have hcount : (whenLive linkedNode (doRegRead linkedNode (.cfg 0) 0 4)).freeCount = linkedNode.freeCount := by rw [ht]
  exact absurd hcount (by decide)

/-! Events (R651). -/

theorem exec_eventWrite (r : Requester) (b : Block) (i m : Nat) (s : State) :
    exec (.eventWrite r b i m) s = .next (whenLive s (doEventWrite s r b i m)) := rfl

/-- A page after an event, but for the counter of messages: its bit set, its byte counted. -/
theorem page_raiseEvent_self (s : State) (b : Block) (i n : Nat) :
    ∃ q, page (raiseEvent s b i n) b i = { page s b i with
      event := (page s b i).event ||| BitVec.ofNat 32 (2 ^ n)
      count := tabMod 0 (page s b i).count (min n 7) (fun c => satTo 8 (c + 1)), perf := q } := by
  unfold raiseEvent
  dsimp only
  split
  · obtain ⟨q, hq⟩ := page_raiseVec (modPage s b i (fun (p : Page) => { p with
      event := p.event ||| BitVec.ofNat 32 (2 ^ n), count := tabMod 0 p.count (min n 7) (fun c => satTo 8 (c + 1)) }))
      (eventVec b i).1 (eventVec b i).2 b i
    exact ⟨q, by rw [hq, page_modPage_self]⟩
  · exact ⟨(page s b i).perf, by rw [page_modPage_self]⟩

/-- The bits of a mask that is one bit. -/
theorem getLsbD_twoPow_of_lt {n k : Nat} (hk : k < 32) : (BitVec.ofNat 32 (2 ^ n)).getLsbD k = (k == n) := by
  rw [BitVec.getLsbD_ofNat, Nat.testBit_two_pow]
  by_cases h : n = k <;> simp [hk, h, Ne.symm]

/-- Looking up a key that a filter on keys keeps, and one that it drops. -/
theorem tabGet_filter {α : Type} (d : α) (t : Tab α) (p : Nat → Bool) (k : Nat) :
    tabGet d (t.filter (fun e => p e.1)) k = if p k then tabGet d t k else d := by
  have hfind : tabFind (t.filter (fun e => p e.1)) k = if p k then tabFind t k else none := by
    induction t with
    | nil => simp [tabFind]
    | cons e t ih =>
      obtain ⟨j, v⟩ := e
      by_cases hj : j = k
      · subst hj
        cases hp : p j <;> simp_all [tabFind]
      · cases hp : p j <;> simp_all [tabFind]
  rw [tabGet, hfind]
  split <;> rfl

/-- EVENT as a register of its block. -/
abbrev eventSpec (b : Block) : RegSpec := { off := 0x020, w1c := eventMask b }

/-- R651: a write of EVENT of a reached page by a requester that may write it clears what it names. -/
theorem doEventWrite_atPage {s : State} {r : Requester} {b : Block} {i : Nat} (h : atPage s r b i = true)
    (hmay : mayWrite (bar0Count s r) r b (eventSpec b) = true) (m : Nat) :
    doEventWrite s r b i m = clearEvents (dropWords (opened s r b i 0x020) r b i (eventSpec b)) b i (m % 2 ^ 32) := by
  have hmay' : mayWrite s r b (eventSpec b) = true := by
    obtain ⟨⟨p, hp⟩, -⟩ := countersOnly_bar0Count s r
    rw [hp] at hmay
    exact hmay
  have hput (x : State) : putReg x r b i (eventSpec b) (m % 2 ^ 32) = clearEvents x b i (m % 2 ^ 32) := by
    have hlow : (eventSpec b).off < 0x100 := by simp
    unfold putReg
    rw [if_pos hlow]
    rfl
  rw [doEventWrite, commitReg, if_neg (by simp), regAccess_atPage h, hmay', if_pos rfl, hput]

/-- Words dropped change nothing else of the page. -/
theorem page_dropWords (s : State) (r : Requester) (b : Block) (i : Nat) (g : RegSpec) :
    ∃ l, page (dropWords s r b i g) b i = { page s b i with staged := l } := by
  unfold dropWords
  split
  · exact ⟨_, rfl⟩
  · exact ⟨_, page_modPage_self s b i _⟩

/-- The counts that a write of EVENT clears: those of its bits, byte 7 for the bits from 7 up (R755). -/
theorem mem_clearedCounts {x k : Nat} : ((bitsOf 32 x).map (min 7)).contains k = true ↔ ∃ j < 32, bitAt x j = true ∧ min 7 j = k := by
  simp [bitsOf, bitAt, and_assoc]

theorem bitAt_written {m mask k : Nat} (hk : k < 32) : bitAt (m % 2 ^ 32 &&& mask) k = (bitAt m k && bitAt mask k) := by
  rw [bitAt, Nat.testBit_and, Nat.testBit_mod_two_pow, decide_eq_true hk, Bool.true_and]
  rfl

/-- Settles O11: the page of a raised event, then the page whose written bits are cleared. -/
theorem eventsMergeCountAndClear : Obligations.EventsMergeCountAndClear := by
  refine ⟨fun s b i n _ hn => ?_, fun s r b i m hat hmay => ⟨_, exec_eventWrite r b i m s, ?_⟩⟩
  · obtain ⟨q, hq⟩ := page_raiseEvent_self s b i n
    refine ⟨fun k hk => ?_, fun k hk => ?_⟩
    · rw [hq, BitVec.getLsbD_or, getLsbD_twoPow_of_lt hk]
    · rw [hq, tabGet_tabMod]
      by_cases hkn : k = min n 7
      · rw [if_pos hkn.symm, if_pos hkn, hkn, satTo, Nat.min_comm]
        rfl
      · rw [if_neg (Ne.symm hkn), if_neg hkn]
  · have hlive := live_of_atPage hat
    have heq := doEventWrite_atPage hat hmay m
    obtain ⟨q, l, ho⟩ := page_opened s r b i 0x020 b i
    obtain ⟨l', hd⟩ := page_dropWords (opened s r b i 0x020) r b i (eventSpec b)
    have hpage : page (whenLive s (doEventWrite s r b i m)) b i = { page s b i with
        perf := q, staged := l', event := (page s b i).event &&& ~~~ BitVec.ofNat 32 (m % 2 ^ 32 &&& eventMask b)
        count := (page s b i).count.filter (fun e => !((bitsOf 32 (m % 2 ^ 32 &&& eventMask b)).map (min 7)).contains e.1) } := by
      rw [page_whenLive hlive, heq, clearEvents, page_modPage_self, hd, ho]
    refine ⟨congrArg (whenLive s) heq, fun k hk => ?_, fun k hk hm hmask => ?_, fun k hk hm => ?_⟩
    · rw [hpage, BitVec.getLsbD_and, BitVec.getLsbD_not, BitVec.getLsbD_ofNat, ← bitAt_written hk]
      simp [hk, bitAt]
    · have hin : ((bitsOf 32 (m % 2 ^ 32 &&& eventMask b)).map (min 7)).contains (min k 7) = true :=
        mem_clearedCounts.mpr ⟨k, hk, by rw [bitAt_written hk, hm, hmask]; rfl, Nat.min_comm 7 k⟩
      rw [hpage, tabGet_filter 0 _ (fun k => !((bitsOf 32 (m % 2 ^ 32 &&& eventMask b)).map (min 7)).contains k), hin]
      rfl
    · have hout : ((bitsOf 32 (m % 2 ^ 32 &&& eventMask b)).map (min 7)).contains k = false := by
        rw [Bool.eq_false_iff, ne_eq, mem_clearedCounts]
        rintro ⟨j, hj, hbit, hjk⟩
        obtain rfl : j = k := by omega
        rw [bitAt_written hj, hm] at hbit
        cases hbit
      rw [hpage, tabGet_filter 0 _ (fun k => !((bitsOf 32 (m % 2 ^ 32 &&& eventMask b)).map (min 7)).contains k), hout]
      rfl

end Sys2Proof.Machine
end

section
/-! PROOFS. The management protocols over MCTP (15.3, 15.9). -/

namespace Sys2Proof.Machine

/-! The rows of the command table. -/

theorem exec_ownClaim (src : McSender) (s : State) : exec (.ownClaim src) s = .next (whenLive s (doOwnClaim s src)) := rfl
theorem exec_ownStatus (src : McSender) (s : State) : exec (.ownStatus src) s = .next (whenLive s (doOwnStatus s src)) := rfl
theorem exec_ownRelease (src : McSender) (s : State) : exec (.ownRelease src) s = .next (whenLive s (doOwnRelease s src)) := rfl
theorem exec_ownForce (src : McSender) (s : State) : exec (.ownForce src) s = .next (whenLive s (doOwnForce s src)) := rfl
theorem exec_setEndpointId (smbus : Bool) (eid : Nat) (s : State) :
    exec (.setEndpointId smbus eid) s = .next (whenLive s (doSetEid s smbus eid)) := rfl
theorem exec_pldmDiscovery (src : McSender) (s : State) : exec (.pldmDiscovery src) s = .next (whenLive s (doPldmDiscovery s src)) := rfl
theorem exec_pldmSensorRead (src : McSender) (k : Nat) (s : State) :
    exec (.pldmSensorRead src k) s = .next (whenLive s (doSensorRead s src k)) := rfl
theorem exec_pldmSetValue (src : McSender) (reg v : Nat) (s : State) :
    exec (.pldmSetValue src reg v) s = .next (whenLive s (doPldmSet s src reg v)) := rfl
theorem exec_pldmFirmwareUpdate (src : McSender) (m : FwImage) (s : State) :
    exec (.pldmFirmwareUpdate src m) s = .next (whenLive s (doFwUpdate s src m)) := rfl
theorem exec_getVersion (src : McSender) (s : State) : exec (.getVersion src) s = .next (whenLive s (doGetVersion s src)) := rfl
theorem exec_getCapabilities (src : McSender) (s : State) : exec (.getCapabilities src) s = .next (whenLive s (doGetCaps s src)) := rfl
theorem exec_negotiateAlgorithms (src : McSender) (s : State) :
    exec (.negotiateAlgorithms src) s = .next (whenLive s (doNegotiate s src)) := rfl
theorem exec_getDigests (src : McSender) (s : State) : exec (.getDigests src) s = .next (whenLive s (doGetDigests s src)) := rfl
theorem exec_getCertificate (src : McSender) (k : Nat) (s : State) :
    exec (.getCertificate src k) s = .next (whenLive s (doGetCert s src k)) := rfl
theorem exec_challenge (src : McSender) (k nonce : Nat) (s : State) :
    exec (.challenge src k nonce) s = .next (whenLive s (doChallenge s src k nonce)) := rfl
theorem exec_getMeasurements (src : McSender) (k : Nat) (s : State) :
    exec (.getMeasurements src k) s = .next (whenLive s (doMeasure s src k)) := rfl

/-! What a message finds: the node as it was, its message counted (HOST.PERF7). -/

/-- The state in which a message is answered. -/
abbrev heard (s : State) : State := perfAdd s .host 0 7 1

@[simp] theorem isOwner_heard (s : State) (src : McSender) : isOwner (heard s) src = isOwner s src := rfl
@[simp] theorem isAuthority_heard (s : State) (src : McSender) : isAuthority (heard s) src = isAuthority s src := rfl
@[simp] theorem maySet_heard (s : State) (src : McSender) : maySet (heard s) src = maySet s src := rfl
@[simp] theorem bootRom_heard (s : State) : bootRom (heard s) = bootRom s := rfl
@[simp] theorem certChain_heard (s : State) (slot : Nat) : certChain (heard s) slot = certChain s slot := by simp only [certChain, perfAdd_part]

section
variable {s : State} {src : McSender} (hup : mctpUp s src.smbus = true)
include hup

theorem mctpIn_up (f : State → State) : mctpIn s src f = f (heard s) := if_pos hup

variable (hrun : s.mgmt.restarting = false)
include hrun

/-- Outside a management restart a message of each protocol is answered. -/
theorem aqtanIn_up (f : State → State) : aqtanIn s src f = f (heard s) := by simp [aqtanIn, mctpIn_up hup, hrun]
theorem pldmIn_up (f : State → State) : pldmIn s src f = f (heard s) := by simp [pldmIn, mctpIn_up hup, hrun]
theorem spdmIn_up (f : State → State) : spdmIn s src f = f (heard s) := by simp [spdmIn, mctpIn_up hup, hrun]

/-- R638: a value set by one who may not. -/
theorem doPldmSet_refused (hmay : maySet s src = false) (reg v : Nat) : doPldmSet s src reg v = refuseOwner (heard s) src := by
  simp [doPldmSet, pldmIn_up hup hrun, hmay]

/-- R638, R742, R744: what each value set by one who may starts. -/
theorem doPldmSet_of_maySet (hmay : maySet s src = true) (reg v : Nat) :
    doPldmSet s src reg v = if !bitAt v 0 then reply (heard s) src 0 []
      else if reg = 0x118 then startNodeReset (reply (heard s) src 0 [])
      else if bootRom s then reply (heard s) src 5 []
      else if reg = 0x114 then startRestart (reply (heard s) src 0 [])
      else if reg = 0x11C then enterLamb (reply (heard s) src 0 []) 5
      else reply (heard s) src 2 [] := by
  rw [doPldmSet, pldmIn_up hup hrun, maySet_heard, hmay]
  rfl

end

/-! A firmware image staged (R741). -/

theorem stageImage_mgmt (s : State) (m : FwImage) :
    (stageImage s m).mgmt = { s.mgmt with
      fw := listSet s.mgmt.fw (b2n (!s.mgmt.slotB)) { good := m.authentic, version := m.version % 2 ^ 32, digest := m.digest }
      staged := m.authentic } := by
  unfold stageImage
  dsimp only
  split
  · rw [raiseEvent_mgmt]
  · rfl

@[simp] theorem stageImage_staged (s : State) (m : FwImage) : (stageImage s m).mgmt.staged = m.authentic := by rw [stageImage_mgmt]
@[simp] theorem stageImage_slotB (s : State) (m : FwImage) : (stageImage s m).mgmt.slotB = s.mgmt.slotB := by rw [stageImage_mgmt]

/-- An image that authenticates raises MGMT.EVENT.fw_staged. -/
theorem stageImage_event {s : State} {m : FwImage} (h : m.authentic = true) : (page (stageImage s m) .mgmt 0).event.getLsbD 4 = true := by
  unfold stageImage
  dsimp only
  rw [if_pos h, raiseEvent_event, BitVec.getLsbD_or]
  exact Bool.or_true _

/-- The image stands in the slot not in use, and the running slot is as it was. -/
theorem stageImage_slots {s : State} (m : FwImage) (h : s.mgmt.fw.length = 2) :
    (stageImage s m).mgmt.fw[(if s.mgmt.slotB then 0 else 1)]?
        = some { good := m.authentic, version := m.version % 2 ^ 32, digest := m.digest }
    ∧ (stageImage s m).mgmt.fw[(if s.mgmt.slotB then 1 else 0)]? = s.mgmt.fw[(if s.mgmt.slotB then 1 else 0)]? := by
  rw [stageImage_mgmt]
  cases hb : s.mgmt.slotB <;> simp [listSet, b2n, h]

/-- Settles O54, a message at a time. -/
theorem managementMessages : Obligations.ManagementMessages := by
  intro s src hlive hup hrun s1 tells
  have answers {i : Instr} {x : State} {code : Nat} {data : List Nat} (hi : exec i s = .next (whenLive s x))
      (hx : x = reply (heard s) src code data) : tells i code data := by rw [hx] at hi; exact hi
  refine ⟨fun eid h0 hpos hlt => ⟨_, exec_setEndpointId _ _ _, ?_⟩, ?_, fun k hk => ?_, fun k hk => ?_,
    fun reg v hmay => ?_, fun reg v hmay hv => ?_, fun v hmay hv hboot => ⟨?_, ?_⟩, fun v hmay hv => ?_,
    fun m hmay hlen => ⟨_, exec_pldmFirmwareUpdate _ _ _, ?_⟩, ?_, ?_, ?_, ?_, fun k hk => ?_, fun k nonce hk => ?_, fun k h1 h4 => ?_⟩
  · have hsrc : ({ smbus := src.smbus, eid := 0 } : McSender) = src := by rw [← h0]
    have hin : doSetEid s src.smbus eid = reply { heard s with hostIf :=
        if src.smbus then { s.hostIf with eidSmbus := eid } else { s.hostIf with eidPcie := eid } } src 0 [eid] := by
      rw [doSetEid, hsrc, mctpIn_up hup, if_neg (by simp; omega)]
      rfl
    rw [hin, whenLive_of_live hlive]
    refine ⟨rfl, ?_⟩
    cases src.smbus <;> rfl
  · exact answers (exec_pldmDiscovery ..) (by rw [doPldmDiscovery, pldmIn_up hup hrun])
  · have hin : doSensorRead s src k
        = reply { heard s with freeCount := s.freeCount + 1 } src 0 [(Config.freeWord s.freeCount).toNat] := by
      rw [doSensorRead, pldmIn_up hup hrun, if_neg (by simp [sensorCount, hk])]
      rfl
    refine ⟨_, (Config.freeWord s.freeCount).toNat, exec_pldmSensorRead _ _ _, ?_⟩
    rw [hin, whenLive_of_live hlive]
    exact ⟨rfl, rfl, rfl⟩
  · exact answers (exec_pldmSensorRead ..) (by rw [doSensorRead, pldmIn_up hup hrun, if_pos (by simpa [sensorCount] using hk)])
  · rw [exec_pldmSetValue, doPldmSet_refused hup hrun hmay]
  · exact answers (exec_pldmSetValue ..) (by rw [doPldmSet_of_maySet hup hrun hmay, if_pos (by simp [hv])])
  · rw [exec_pldmSetValue, doPldmSet_of_maySet hup hrun hmay, if_neg (by simp [hv]), if_neg (by decide), if_neg (by simp [hboot]),
      if_pos rfl]; rfl
  · rw [exec_pldmSetValue, doPldmSet_of_maySet hup hrun hmay, if_neg (by simp [hv]), if_neg (by decide), if_neg (by simp [hboot]),
      if_neg (by decide), if_pos rfl]; rfl
  · rw [exec_pldmSetValue, doPldmSet_of_maySet hup hrun hmay, if_neg (by simp [hv]), if_pos rfl]; rfl
  · have hin : doFwUpdate s src m = reply (stageImage (heard s) m) src (if m.authentic then 0 else 1) [] := by
      simp [doFwUpdate, pldmIn_up hup hrun, hmay]
    obtain ⟨hnew, hold⟩ := stageImage_slots (s := heard s) m hlen
    rw [hin, whenLive_of_live hlive]
    exact ⟨stageImage_staged _ m, stageImage_slotB (heard s) m, hnew, hold, stageImage_event⟩
  · exact answers (exec_getVersion ..) (by rw [doGetVersion, spdmIn_up hup hrun])
  · exact answers (exec_getCapabilities ..) (by rw [doGetCaps, spdmIn_up hup hrun])
  · exact answers (exec_negotiateAlgorithms ..) (by rw [doNegotiate, spdmIn_up hup hrun])
  · exact answers (exec_getDigests ..) (by rw [doGetDigests, spdmIn_up hup hrun, certChain_heard, certChain_heard])
  · exact answers (exec_getCertificate ..) (by rw [doGetCert, spdmIn_up hup hrun, if_pos hk, certChain_heard])
  · exact answers (exec_challenge ..) (by rw [doChallenge, spdmIn_up hup hrun, if_neg (by omega), certChain_heard])
  · exact answers (exec_getMeasurements ..) (by rw [doMeasure, spdmIn_up hup hrun, if_pos (by simp [h1, h4])])

end Sys2Proof.Machine
end

section
/-! PROOFS. A block reset that meets another. -/

namespace Sys2Proof.Machine

/-- A node out of power-on reset whose scratchpad 0 reads READY while the list of running resets holds it. -/
def resettingSpad : State :=
  { State.reset with
    mgmt := { State.reset.mgmt with por := false, resetting := [(pageKey .spad 0, 9)] }
    pages := [(pageKey .spad 0, { st := 1 })] }

/-- Refutes O58: a reset asked of a scratchpad that the list of running resets holds merges with that one (R729) and leaves EPOCH, whatever
STATE the scratchpad's page shows. -/
theorem not_blocksQuiesceResetAndAvailability : ¬ Obligations.BlocksQuiesceResetAndAvailability := by
  intro h
  obtain ⟨hctrl, -⟩ := h resettingSpad (by decide)
  obtain ⟨-, -, -, -, hreset, -⟩ := hctrl .mgmt .spad 0 (by decide) rfl rfl (by decide)
  obtain ⟨u, hu, -, hepoch, -⟩ := hreset (by decide) (by decide) (by decide)
  have hsame : (page (whenLive resettingSpad (doBlockReset resettingSpad .mgmt .spad 0)) .spad 0).epoch = (page resettingSpad .spad 0).epoch := by
    decide
  cases hu
  exact absurd (hsame.symm.trans hepoch) (by decide)

end Sys2Proof.Machine
end

section
/-! PROOFS. What is steady: an operation that leaves of the agent and of the power unit what `f` reads, and of the rest of the node its
control state. The operations on memory, the register pages and the ledger. -/

namespace Sys2Proof.Machine

/-- `u` has what `f` reads of the agent and of the power unit in `s`, no command where `s` has none, the host interface but for its
vectors, the management block but for its log and, in a management restart, the entries owed; the tenants in reset, the STATE of every block
and of every link; the events shown stay, and so does what has been sent. -/
structure Steady {α : Type} (f : Xag → Pwr → α) (s u : State) : Prop where
  kept : f u.xag u.pwr = f s.xag s.pwr
  jobs : s.jobs = [] → u.jobs = []
  hostIf : ∃ v, u.hostIf = { s.hostIf with msix := v }
  mgmt : ∃ l h o, u.mgmt = { s.mgmt with log := l, logHead := h, owed := o }
  owed : s.mgmt.restarting = false → u.mgmt.owed = s.mgmt.owed
  resetting : ∀ t, (ten u t).resetting = (ten s t).resetting
  states : ∀ b i, blkState u b i = blkState s b i
  events : EventsStay s u
  links : ∀ n, (lnk u n).st = (lnk s n).st
  sent : s.out ⊆ u.out

namespace Steady

variable {α : Type} {f : Xag → Pwr → α} {s u v : State}

theorem refl (f : Xag → Pwr → α) (s : State) : Steady f s s :=
  ⟨rfl, id, ⟨_, rfl⟩, ⟨_, _, _, rfl⟩, fun _ => rfl, fun _ => rfl, fun _ _ => rfl, fun _ _ _ e => e, fun _ => rfl, fun _ h => h⟩

theorem trans (h : Steady f s u) (k : Steady f u v) : Steady f s v := by
  obtain ⟨x, hx⟩ := h.hostIf
  obtain ⟨y, hy⟩ := k.hostIf
  obtain ⟨l, a, o, hm⟩ := h.mgmt
  obtain ⟨l', a', o', km⟩ := k.mgmt
  refine ⟨k.kept.trans h.kept, fun e => k.jobs (h.jobs e), ⟨y, by rw [hy, hx]⟩, ⟨l', a', o', by rw [km, hm]⟩,
    fun hr => (k.owed (by rw [hm]; exact hr)).trans (h.owed hr), fun t => (k.resetting t).trans (h.resetting t),
    fun b i => (k.states b i).trans (h.states b i), h.events.trans k.events, fun n => (k.links n).trans (h.links n),
    fun _ e => k.sent (h.sent e)⟩

theorem foldl {β : Type} {step : State → β → State} {l : List β} (h : ∀ {x : State} b, Steady f s x → Steady f s (step x b))
    (w : Steady f s u) : Steady f s (l.foldl step u) :=
  List.foldlRecOn (motive := Steady f s) l step w (fun _ hx b _ => h b hx)

/-- Both branches of a case are. -/
theorem ite {c : Prop} [Decidable c] {a b : State} (ha : Steady f s a) (hb : Steady f s b) : Steady f s (if c then a else b) := by
  split
  exacts [ha, hb]

/-- What is steady for all of the agent and the power unit is so for a part of them. -/
theorem map {β : Type} (g : α → β) (w : Steady f s u) : Steady (fun x p => g (f x p)) s u := { w with kept := congrArg g w.kept }

section Update

variable {part : Part} {mem : Memory} {poison : List Nat} {dark : List (Nat × Byte)} {darkPoison sealedG : List Nat}
  {darkErrs memErrs : List MemErr} {seals : List SealReq} {spads : Tab Spad} {ports : Tab Port} {jobs : List Job}
  {hen : Hen} {ledger : Ledger} {drakes : Tab DrakeGrp} {oxs : Tab OxArr} {ponys : Tab PonySl} {mule : Mule}
  {solvs : Tab (Tab SolSys)} {sw : Switch} {coll : Coll} {xag : Xag} {pwr : Pwr} {arbs : Tab Arb} {tap : TapInstr}
  {gclk : Nat} {freeCount : Nat} {pending : List Instr}

/-- An update of other fields than these. -/
theorem others (w : Steady f s u) :
    Steady f s ⟨part, u.pages, mem, poison, dark, darkPoison, darkErrs, memErrs, sealedG, seals, spads, ports, u.tenants, u.jobs, u.hostIf, hen,
      ledger, drakes, oxs, ponys, mule, solvs, u.links, sw, coll, u.xag, u.mgmt, u.pwr, arbs, tap, gclk, u.out, freeCount, pending⟩ :=
  ⟨w.kept, w.jobs, w.hostIf, w.mgmt, w.owed, w.resetting, w.states, w.events, w.links, w.sent⟩

/-- An update of the agent and the power unit that `f` does not read, and of the commands. -/
theorem units (hf : f xag pwr = f u.xag u.pwr) (hj : u.jobs = [] → jobs = []) (w : Steady f s u) :
    Steady f s ⟨part, u.pages, mem, poison, dark, darkPoison, darkErrs, memErrs, sealedG, seals, spads, ports, u.tenants, jobs, u.hostIf, hen,
      ledger, drakes, oxs, ponys, mule, solvs, u.links, sw, coll, xag, u.mgmt, pwr, arbs, tap, gclk, u.out, freeCount, pending⟩ :=
  ⟨hf.trans w.kept, fun e => hj (w.jobs e), w.hostIf, w.mgmt, w.owed, w.resetting, w.states, w.events, w.links, w.sent⟩

end Update

/-! The shared operations over the state. -/

theorem modPage {b : Block} {i : Nat} {g : Page → Page} (hst : ∀ p, (g p).st = p.st)
    (he : ∀ p n, p.event.getLsbD n = true → (g p).event.getLsbD n = true) (w : Steady f s u) : Steady f s (modPage u b i g) where
  kept := w.kept
  jobs := w.jobs
  hostIf := w.hostIf
  mgmt := w.mgmt
  owed := w.owed
  resetting := w.resetting
  states c k := by
    rw [← w.states c k]
    unfold blkState
    rw [page_modPage]
    split
    · next hk =>
      have hpage : page u c k = page u b i := by simp only [page, hk]
      rw [hst, hpage]
    · rfl
  events := w.events.trans (.modPage u b i he)
  links := w.links
  sent := w.sent

theorem perfAdd {b : Block} {i k n : Nat} (w : Steady f s u) : Steady f s (perfAdd u b i k n) := w.modPage (fun _ => rfl) (fun _ _ e => e)

theorem setRegWord {b : Block} {i off n : Nat} (w : Steady f s u) : Steady f s (setRegWord u b i off n) :=
  w.modPage (fun _ => rfl) (fun _ _ e => e)

theorem emit {o : Out} (w : Steady f s u) : Steady f s (emit u o) :=
  { w with sent := fun _ h => List.subset_append_left _ _ (w.sent h) }

theorem raiseVec {fn vec : Nat} (w : Steady f s u) : Steady f s (raiseVec u fn vec) := by
  obtain ⟨x, hx⟩ := w.hostIf
  unfold Machine.raiseVec
  split
  · exact w.emit.perfAdd
  · exact { w with hostIf := ⟨_, by rw [hx]⟩, events := w.events.trans (.of_pages rfl) }

theorem raiseEvent {b : Block} {i n : Nat} (w : Steady f s u) : Steady f s (raiseEvent u b i n) := by
  have hset : Steady f s (Machine.modPage u b i (fun p =>
      { p with event := p.event ||| BitVec.ofNat 32 (2 ^ n), count := tabMod 0 p.count (min n 7) (fun c => satTo 8 (c + 1)) })) :=
    w.modPage (fun _ => rfl) (fun p m hm => by rw [BitVec.getLsbD_or, hm, Bool.true_or])
  unfold Machine.raiseEvent
  dsimp only
  split
  exacts [hset.raiseVec, hset]

theorem modTen {t : Nat} {g : Tenant → Tenant} (hg : ∀ x, (g x).resetting = x.resetting) (w : Steady f s u) : Steady f s (modTen u t g) := by
  refine { w with resetting := fun k => Eq.trans ?_ (w.resetting k) }
  simp only [ten, Machine.modTen, tabGet_tabMod]
  split
  · next h => rw [hg, h]
  · rfl

theorem putRas {e : Nat} (w : Steady f s u) : Steady f s (putRas u e) := by
  obtain ⟨l, h, o, hm⟩ := w.mgmt
  exact { w with mgmt := ⟨_, _, _, by simp only [Machine.putRas, hm]; rfl⟩ }

theorem rasLog {b : Block} {i cls code addr tenant : Nat} (w : Steady f s u) : Steady f s (rasLog u b i cls code addr tenant) := by
  unfold Machine.rasLog
  dsimp only
  split
  exacts [w.putRas.perfAdd.raiseEvent, w.putRas.perfAdd]

theorem blkError {b : Block} {i cls code addr tenant : Nat} (w : Steady f s u) : Steady f s (blkError u b i cls code addr tenant) := by
  have hnote : Steady f s (Machine.modPage u b i (noteErr cls code addr tenant)) :=
    w.modPage (fun p => by unfold noteErr; split <;> rfl) (fun p n e => by unfold noteErr; split <;> exact e)
  unfold Machine.blkError
  dsimp only
  split
  exacts [hnote.rasLog, hnote]

/-! Errors met by reads, translations, writes to memory. -/

theorem meetUe {l : Nat} (w : Steady f s u) : Steady f s (meetUe u l) := by
  unfold Machine.meetUe
  dsimp only
  split
  · exact w.others.others.raiseEvent.blkError
  · split
    exacts [w.others.others.raiseEvent.blkError, w.others]

theorem corrected {a : Nat} (w : Steady f s u) : Steady f s (corrected u a) := by
  unfold Machine.corrected
  split
  · exact w.raiseEvent.perfAdd
  · split
    exacts [w.raiseEvent.perfAdd, w]

theorem meetErr {l : Nat} (w : Steady f s u) : Steady f s (meetErr u l) := by
  have hclr : Steady f s (clrErrs u l) := w.others
  unfold Machine.meetErr
  dsimp only
  split
  · exact hclr
  · exact hclr.corrected
  · exact hclr.meetUe
  · split
    exacts [hclr.others.meetUe, hclr.others.others.corrected]

theorem meetErrs {p : Nat → Bool} (w : Steady f s u) : Steady f s (meetErrs u p) := w.foldl (fun _ hx => hx.meetErr)

theorem fillPage {t vp : Nat} (w : Steady f s u) : Steady f s (fillPage u t vp) := by
  unfold Machine.fillPage
  dsimp only
  split
  · exact w
  · split
    exacts [w.perfAdd.modTen (fun _ => rfl), w.perfAdd, w.perfAdd.raiseEvent]

theorem fillTlb {t va n : Nat} (w : Steady f s u) : Steady f s (fillTlb u t va n) := w.foldl (fun _ hx => hx.fillPage)

theorem sealHit {a : Nat} (w : Steady f s u) : Steady f s (sealHit u a) := by
  unfold Machine.sealHit
  split
  exacts [w.raiseEvent, w.raiseEvent, w]

theorem goneHit {a : Nat} (w : Steady f s u) : Steady f s (goneHit u a) := by
  unfold Machine.goneHit
  split
  · exact w.raiseEvent
  · split
    exacts [w.perfAdd, w]
  · exact w

theorem henPage {dst : Nat} {bs : List Byte} {bad : List Nat} (w : Steady f s u) : Steady f s (henPage u dst bs bad) := by
  unfold Machine.henPage
  split
  · exact w
  · split
    · exact w.sealHit
    · exact w.others.others.foldl (fun _ hx => hx.others)

theorem copyChunk {c : Cutting} {i : Nat} (w : Steady f s u) : Steady f s (copyChunk u c i) := by
  unfold Machine.copyChunk
  dsimp only
  split
  exacts [w.meetErrs.henPage.others.perfAdd, w.henPage.others.perfAdd]

theorem holdFor {a : Nat} (w : Steady f s u) : Steady f s (holdFor u a) := by
  unfold Machine.holdFor
  split
  exacts [w, w.perfAdd.foldl (fun _ hx => hx.copyChunk)]

theorem storeLine {a : Nat} {bs : List Byte} (w : Steady f s u) : Steady f s (storeLine u a bs).1 := by
  unfold Machine.storeLine
  dsimp only
  split
  · exact w.goneHit
  · split
    · exact w.sealHit
    · split
      · exact w.holdFor.others.others
      · split
        exacts [w.holdFor.meetErrs, w.holdFor.meetErrs.others]

theorem storeLines {n a : Nat} {bs : List Byte} (w : Steady f s u) : Steady f s (storeLines n u a bs).1 := by
  induction n generalizing u a bs with
  | zero => exact w
  | succ n ih =>
    unfold Machine.storeLines
    split
    exacts [w, ih w.storeLine]

theorem store {a : Nat} {bs : List Byte} (w : Steady f s u) : Steady f s (store u a bs).1 := w.storeLines

theorem storePoison {a : Nat} (w : Steady f s u) : Steady f s (storePoison u a).1 := by
  unfold Machine.storePoison
  split
  · exact w.goneHit
  · split
    exacts [w.sealHit, w.holdFor.others.others]

/-! The ledger. -/

theorem ledgerPush {e : Entry} (w : Steady f s u) : Steady f s (ledgerPush u e) := by
  unfold Machine.ledgerPush
  dsimp only
  split
  exacts [w.others, w.others.raiseEvent]

theorem ledgerDue {e : Entry} (w : Steady f s u) : Steady f s (ledgerDue u e) := by
  unfold Machine.ledgerDue
  dsimp only
  split
  exacts [w.ledgerPush.ledgerPush, w.ledgerPush]

theorem overrideEntry {cause us : Nat} (w : Steady f s u) : Steady f s (overrideEntry u cause us) := by
  obtain ⟨l, h, o, hm⟩ := w.mgmt
  unfold Machine.overrideEntry
  dsimp only
  split
  · next hr =>
    exact { w with
      mgmt := ⟨_, _, _, by rw [hm]⟩
      owed := fun hs => by rw [hm] at hr; rw [show s.mgmt.restarting = true from hr] at hs; cases hs }
  · exact w.ledgerDue

theorem entryDone {e : Entry} {hash : Nat} (w : Steady f s u) : Steady f s (entryDone u e hash) := by
  unfold Machine.entryDone
  dsimp only
  split
  exacts [w.others.others.perfAdd.raiseEvent.perfAdd, w.others.others.perfAdd.raiseEvent.perfAdd, w.others.others.perfAdd]

theorem of_writeUnit {v : State} (h : writeUnit u = some v) (w : Steady f s u) : Steady f s v := by
  unfold writeUnit at h
  dsimp only at h
  split at h
  · cases h
  · cases h
    exact w.store.perfAdd.others

theorem writeUnits {e : Entry} {hash n : Nat} (w : Steady f s u) : Steady f s (writeUnits e hash n u) := by
  induction n generalizing u with
  | zero => exact w
  | succ n ih =>
    unfold Machine.writeUnits
    split
    · exact w.entryDone
    · split
      · exact w.others.raiseEvent
      · next v hv => exact ih (w.of_writeUnit hv)

theorem ledgerWrite (w : Steady f s u) : Steady f s (ledgerWrite u) := by
  unfold Machine.ledgerWrite
  split
  · exact w
  · split
    · exact w.writeUnits
    · split
      · split
        exacts [w, w.raiseEvent]
      · exact w.others.writeUnits

theorem ledgerDrain {n : Nat} (w : Steady f s u) : Steady f s (ledgerDrain n u) := by
  induction n generalizing u with
  | zero => exact w
  | succ n ih =>
    unfold Machine.ledgerDrain
    split
    · exact w
    · split
      exacts [w, ih w.ledgerWrite]

/-! Pages withdrawn (R385, R389). -/

theorem memEvents {a n : Nat} (w : Steady f s u) : Steady f s (memEvents u a n) := w.foldl (fun _ hx => hx.raiseEvent)

theorem memoryEntries {sub die sn src pg : Nat} {x : Withdrawn} (w : Steady f s u) :
    Steady f s (memoryEntries u sub die sn src pg x) := w.ledgerDue.foldl (fun _ hx => hx.ledgerDue)

theorem failSet {d k : Nat} {x : Withdrawn} (w : Steady f s u) : Steady f s (failSet u d k x) := w.others.raiseEvent.memEvents.memoryEntries

theorem withdrawPage {d k p : Nat} (w : Steady f s u) : Steady f s (withdrawPage u d k p) := by
  unfold Machine.withdrawPage
  split
  · exact w
  · split
    exacts [w.failSet, w.others.others.raiseEvent.memEvents]

theorem withdrawLine {l : Nat} (w : Steady f s u) : Steady f s (withdrawLine u l) := by
  unfold Machine.withdrawLine
  dsimp only
  split
  · split
    · exact ite w.withdrawPage w
    · exact w
  · exact w

theorem withdrawNew {s0 s1 : State} (w : Steady f s u) : Steady f s (withdrawNew s0 s1 u) := w.foldl (fun _ hx => hx.withdrawLine)

theorem readNow {p : Nat → Bool} (w : Steady f s u) : Steady f s (readNow u p) := w.meetErrs.withdrawNew

end Steady

end Sys2Proof.Machine
end

section
/-! PROOFS. The agent's registers, the region table, and lock probes (14.2, 14.7). -/

namespace Sys2Proof.Machine

/-! The rows of the command table. -/

theorem exec_herdConfigWrite (r : Requester) (reg v : Nat) (s : State) :
    exec (.herdConfigWrite r reg v) s = .next (whenLive s (doHerdCfg s r reg v)) := rfl
theorem exec_fabTmoWrite (r : Requester) (v : Nat) (s : State) : exec (.fabTmoWrite r v) s = .next (whenLive s (doFabTmo s r v)) := rfl
theorem exec_lockProbe (t k : Nat) (s : State) : exec (.lockProbe t k) s = .next (whenLive s (doLockProbe s t k)) := rfl
theorem exec_lockReleaseNotice (t k v ot : Nat) (news : LockNews) (s : State) :
    exec (.lockReleaseNotice t k v ot news) s = .next (whenLive s (doLockNews s t k v ot news)) := rfl
theorem exec_ownerNodeProbe (node t k owner : Nat) (s : State) :
    exec (.ownerNodeProbe node t k owner) s = .next (whenLive s (doOwnerProbe s node t k owner)) := rfl

/-! The region table read (R561). -/

/-- Where nothing waits, nothing is taken when the table's read ends. -/
theorem retryWaiting_of_none {s : State} (hb : s.xag.syncBusy = false) (hw : s.xag.waiting = []) (hh : s.xag.herdWait = []) :
    retryWaiting (s.xag.herdWait.foldl (fun x q => takeHerd x q.1 q.2) { s with xag := { s.xag with herdWait := [] } }) = s := by
  have hherd : { s with xag := { s.xag with herdWait := [] } } = s := by rw [← hh]
  have hnone : { s with xag := { s.xag with waiting := [] } } = s := by rw [← hw]
  rw [hherd, hh, List.foldl_nil, retryWaiting, hb, hw, hnone]
  rfl

/-- What the table that has been read leaves of the agent (R561). -/
def regionsTaken (x : State) : State := match readRegions x with
  | some rs => { x with xag := { x.xag with regions := rs, syncBusy := false, syncBad := false } }
  | none => raiseEvent { x with xag := { x.xag with syncBusy := false, syncBad := true } } .xag 0 5

section RegionEnd

/-- The read of the table (R561). -/
abbrev regionsRead (s : State) : State :=
  readNow s (fun l => regWord2 s .xag 0 0x108 0 % 2 ^ 48 ≤ l * 64 && l * 64 < regWord2 s .xag 0 0x108 0 % 2 ^ 48 + 262144)

theorem xag_regionsRead (s : State) : (regionsRead s).xag = s.xag := (Steady.refl (fun x _ => x) s).readNow.kept

variable {s : State} (hbusy : s.xag.syncBusy = true) (hw : s.xag.waiting = []) (hh : s.xag.herdWait = [])
include hbusy hw hh

/-- Where nothing waits, the end of the read is what the table leaves. -/
theorem doRegionEnd_eq {x : Xag} (hx : (regionsTaken (regionsRead s)).xag = x) (hidle : x.syncBusy = false)
    (hwait : x.waiting = s.xag.waiting) (hherd : x.herdWait = s.xag.herdWait) : doRegionEnd s = regionsTaken (regionsRead s) := by
  have hend : doRegionEnd s = retryWaiting ((regionsTaken (regionsRead s)).xag.herdWait.foldl (fun x q => takeHerd x q.1 q.2)
      { regionsTaken (regionsRead s) with xag := { (regionsTaken (regionsRead s)).xag with herdWait := [] } }) := by
    rw [doRegionEnd, if_neg (by simp [hbusy])]
    rfl
  rw [hend]
  exact retryWaiting_of_none (by rw [hx, hidle]) (by rw [hx, hwait, hw]) (by rw [hx, hherd, hh])

theorem doRegionEnd_good {rs : List Region} (h : readRegions (regionsRead s) = some rs) :
    (doRegionEnd s).xag = { s.xag with regions := rs, syncBusy := false, syncBad := false } := by
  have htaken : (regionsTaken (regionsRead s)).xag = { s.xag with regions := rs, syncBusy := false, syncBad := false } := by
    rw [regionsTaken, h, ← xag_regionsRead s]
  rw [doRegionEnd_eq hbusy hw hh htaken rfl rfl rfl, htaken]

theorem doRegionEnd_bad (h : readRegions (regionsRead s) = none) :
    (doRegionEnd s).xag = { s.xag with syncBusy := false, syncBad := true }
      ∧ (page (doRegionEnd s) .xag 0).event.getLsbD 5 = true := by
  have htaken : (regionsTaken (regionsRead s)).xag = { s.xag with syncBusy := false, syncBad := true } := by
    rw [regionsTaken, h, ← xag_regionsRead s]
    exact raiseEvent_xag _ _ _ _
  rw [doRegionEnd_eq hbusy hw hh htaken rfl rfl rfl]
  refine ⟨htaken, ?_⟩
  rw [regionsTaken, h]
  exact event_raiseEvent_self _ _ _ (by decide)

end RegionEnd

/-! The agent's registers. -/

@[simp] theorem opened_xag (s : State) (r : Requester) (b : Block) (i off : Nat) : (opened s r b i off).xag = s.xag := by simp [opened]

@[simp] theorem opened_mem (s : State) (r : Requester) (b : Block) (i off : Nat) : (opened s r b i off).mem = s.mem := by simp [opened]

@[simp] theorem blkReady_opened (s : State) (r : Requester) (b : Block) (i off : Nat) (c : Block) (k : Nat) :
    blkReady (opened s r b i off) c k = blkReady s c k := by simp only [blkReady, blkState_opened]

theorem herdFree_opened (s : State) (r : Requester) (off : Nat) : herdFree (opened s r .xag 0 off) = herdFree s := by
  simp only [herdFree, herdOn, herdWord, regWord_opened, opened_xag]

/-- R602: a write of HERD or a member register of a reached page. -/
theorem doHerdCfg_atPage {s : State} {r : Requester} (hr : atPage s r .xag 0 = true) {off : Nat}
    (hoff : off = 0x128 ∨ (0x12C ≤ off ∧ off ≤ 0x148 ∧ off % 4 = 0)) (v : Nat) :
    doHerdCfg s r off v = if herdFree s && herdValueOk off v
      then setRegWord (opened s r .xag 0 off) .xag 0 off (bits v 0 (if off = 0x128 then 16 else 21))
      else regError (opened s r .xag 0 off) .xag 0 off := by
  have hin : (decide (off = 0x128) || (decide (0x12C ≤ off) && decide (off ≤ 0x148) && decide (off % 4 = 0))) = true := by
    simpa [and_assoc] using hoff
  rw [doHerdCfg, regAccess_atPage hr, if_pos rfl, hin, herdFree_opened]
  cases herdFree s <;> cases herdValueOk off v <;> rfl

/-- Settles O42, a command at a time. -/
theorem fabricAgentConfiguration : Obligations.FabricAgentConfiguration := by
  intro s hlive
  refine ⟨fun r hr => ⟨fun hrdy => ?_, fun v => ?_, fun v => ?_, fun v k hk => ?_⟩, fun hbusy hw hh => ⟨fun rs h => ?_, fun h => ?_⟩,
    fun t k l v ot g hl ho => ⟨fun hw hrdy => ?_, ?_, ?_, fun h => ?_⟩, fun node t k owner hlamb hrdy => ?_⟩
  · have hsync : doRegionSync s r = { opened s r .xag 0 0x110 with xag := { s.xag with syncBusy := true } } := by
      rw [doRegionSync, regAccess_atPage hr, if_pos rfl, blkReady_opened, if_pos hrdy, opened_xag]
    exact next_of_live hlive (by rw [hsync]; exact ⟨rfl, opened_mem ..⟩)
  · rw [exec_fabTmoWrite, doFabTmo, regAccess_atPage hr]
    simp
  · rw [exec_herdConfigWrite, doHerdCfg_atPage hr (.inl rfl)]
    rfl
  · rw [exec_herdConfigWrite, doHerdCfg_atPage hr (.inr ⟨by omega, by omega, by omega⟩), if_neg (show ¬ 0x12C + 4 * k = 0x128 by omega)]
  · exact next_of_live hlive (doRegionEnd_good hbusy hw hh h)
  · exact next_of_live hlive (doRegionEnd_bad hbusy hw hh h)
  · rw [exec_lockProbe, doLockProbe, hl]
    dsimp only
    rw [ho]
    simp [hw, hrdy]
  · rw [exec_lockReleaseNotice, doLockNews, hl]
    dsimp only
    rw [ho]
    simp
  · rw [exec_lockReleaseNotice, doLockNews, hl]
    dsimp only
    rw [ho]
    simp
  · rw [exec_lockReleaseNotice, doLockNews, hl]
    dsimp only
    rw [ho]
    by_cases hg : h = g <;> simp [hg]
  · rw [exec_ownerNodeProbe, doOwnerProbe, if_neg (by simp [hlamb, hrdy])]

end Sys2Proof.Machine
end

section
/-! PROOFS. Power and clocks (chapter 16): the domains and the groups, policies, the 10 µs boundary, clock changes, protection. -/

namespace Sys2Proof.Machine

/-! The rows of the command table. -/

theorem exec_limitWrite (r : Requester) (v : Nat) (s : State) :
    exec (.limitWrite r v) s = .next (whenLive s (regAccess s r .pwr 0 0x100 (!isVf r) (fun x => setLimit x v))) := rfl
theorem exec_grpPolWrite (r : Requester) (v : Nat) (s : State) :
    exec (.grpPolWrite r v) s = .next (whenLive s (regAccess s r .pwr 0 0x114 (!isVf r) (fun x => setGrpPol x v))) := rfl
theorem exec_clkPolWrite (r : Requester) (v : Nat) (s : State) :
    exec (.clkPolWrite r v) s = .next (whenLive s (regAccess s r .pwr 0 0x12C (!isVf r) (fun x => setClkPol x v))) := rfl

/-! Domains and groups after an update. -/

theorem domDecided_congr {s u : State} (h : u.pwr.doms = s.pwr.doms) (d : Nat) : domDecided u d = domDecided s d := by
  simp only [domDecided, domMhz, pwrDom, h]
theorem pwrGrp_congr {s u : State} (h : u.pwr.groups = s.pwr.groups) (g : Nat) : pwrGrp u g = pwrGrp s g := by simp only [pwrGrp, h]

@[simp] theorem pwrDom_modDom (s : State) (d e : Nat) (f : PwrDom → PwrDom) :
    pwrDom (modDom s d f) e = if d = e then f (pwrDom s d) else pwrDom s e := by simp [pwrDom, modDom]

@[simp] theorem pwrGrp_modGrp (s : State) (g k : Nat) (f : PwrGrp → PwrGrp) :
    pwrGrp (modGrp s g f) k = if g = k then f (pwrGrp s g) else pwrGrp s k := by simp [pwrGrp, modGrp]

@[simp] theorem opened_pwr (s : State) (r : Requester) (b : Block) (i off : Nat) : (opened s r b i off).pwr = s.pwr := by simp [opened]

/-- A fold that changes one group after another by `h` has changed each of them once. -/
theorem pwrGrp_foldl {step : State → Nat → State} {h : Nat → PwrGrp → PwrGrp}
    (hstep : ∀ x g k, pwrGrp (step x g) k = if g = k then h g (pwrGrp x g) else pwrGrp x k) {l : List Nat} (hl : l.Nodup)
    (s : State) (k : Nat) : pwrGrp (l.foldl step s) k = if k ∈ l then h k (pwrGrp s k) else pwrGrp s k := by
  induction l generalizing s with
  | nil => rfl
  | cons g t ih =>
    obtain ⟨hg, ht⟩ := List.nodup_cons.1 hl
    rw [List.foldl_cons, ih ht, hstep s g k]
    by_cases hk : g = k
    · subst hk
      simp [hg]
    · simp [hk, Ne.symm hk]

theorem nodup_pwrGroups : pwrGroups.Nodup := List.nodup_range

/-! Policy writes (R4, R648, R655). -/

section Policy

variable {s : State} (r : Requester) (off v : Nat)

theorem setLimit_opened : setLimit (opened s r .pwr 0 off) v = if 600 ≤ bits v 0 11 ∧ bits v 0 11 ≤ limMax s
    then setRegWord (opened s r .pwr 0 off) .pwr 0 0x100 (bits v 0 11) else policyRefused (opened s r .pwr 0 off) 0x100 := by
  have hpart : (opened s r .pwr 0 off).part = s.part := by simp [opened]
  simp only [setLimit, limMax, hpart]
  exact if_congr (by rw [Bool.and_eq_true, decide_eq_true_eq, decide_eq_true_eq, limMin]) rfl rfl

theorem setGrpPol_opened : setGrpPol (opened s r .pwr 0 off) v
    = if pwrLimit s < sumOf ((pwrGroups.filter (fun x => x != grpIdx s)).map (fun k => (pwrGrp s k).floor)) + bits v 0 9 + 140
      then policyRefused (opened s r .pwr 0 off) 0x114
      else modGrp (opened s r .pwr 0 off) (grpIdx s) (fun x => { x with floor := bits v 0 9, ceil := some (bits v 16 9) }) := by
  have hpart : (opened s r .pwr 0 off).part = s.part := by simp [opened]
  have hgrp (k : Nat) : pwrGrp (opened s r .pwr 0 off) k = pwrGrp s k := pwrGrp_congr (by rw [opened_pwr]) k
  simp only [setGrpPol, grpIdx, pwrLimit, limMax, regWord_opened, hpart, hgrp]
  rfl

theorem setClkPol_opened : setClkPol (opened s r .pwr 0 off) v
    = if bits v 0 12 ≤ bits v 16 12 ∧ bits v 0 12 % 50 = 0 ∧ bits v 16 12 % 50 = 0
      then modDom (opened s r .pwr 0 off) (clkIdx s) (fun x => { x with floor := some (bits v 0 12), ceil := some (bits v 16 12), pin := bitAt v 28 })
      else policyRefused (opened s r .pwr 0 off) 0x12C := by
  unfold setClkPol
  dsimp only
  rw [← ite_not]
  simp only [clkIdx, regWord_opened, Bool.or_eq_true, decide_eq_true_eq, bne_iff_ne, not_or, not_lt, not_not, and_assoc]

end Policy

/-! The 10 µs boundary (R654). -/

theorem length_grantsFor (s : State) (l leak : Nat) (draw : Nat → Nat) : (grantsFor s l leak draw).length = 11 := by
  unfold grantsFor
  dsimp only
  split
  · unfold shortGrants
    dsimp only
    split <;> simp [pwrGroups]
  · simp [pwrGroups]

theorem latchPolicies_eq (s : State) : ∃ ports links, latchPolicies s = { s with ports := ports, links := links } := by
  have hports (x : State) : ∃ ports, (List.range 16).foldl (fun x p =>
      let w := bits (regWord x .lpc p 0x108 0) 0 2
      if (portOf x p).floor == w then x else modPort x p (fun q => { q with floor := w })) x = { x with ports := ports } :=
    List.foldlRecOn (motive := fun y => ∃ ports, y = { x with ports := ports }) _ _ ⟨_, rfl⟩ (fun y ⟨q, hy⟩ p _ => by
      dsimp only
      split
      · exact ⟨q, hy⟩
      · exact ⟨_, by rw [hy]; rfl⟩)
  have hlinks (x : State) : ∃ links, (List.range 96).foldl (fun x n =>
      let w := regWord x .wlink n 0x10C 0x03E8000D
      if (lnk x n).ovr || (lnk x n).pol == w then x else modLink x n (fun l => { l with pol := w })) x = { x with links := links } :=
    List.foldlRecOn (motive := fun y => ∃ links, y = { x with links := links }) _ _ ⟨_, rfl⟩ (fun y ⟨q, hy⟩ n _ => by
      dsimp only
      split
      · exact ⟨q, hy⟩
      · exact ⟨_, by rw [hy]; rfl⟩)
  obtain ⟨ports, hp⟩ := hports s
  unfold latchPolicies
  rw [hp]
  obtain ⟨links, hl⟩ := hlinks { s with ports := ports }
  exact ⟨ports, links, hl⟩

theorem latchGroups_eq (s : State) : ∃ groups, latchGroups s = { s with pwr := { s.pwr with groups := groups } } := by
  refine List.foldlRecOn (motive := fun (y : State) => ∃ groups, y = { s with pwr := { s.pwr with groups := groups } }) _ _ ⟨s.pwr.groups, rfl⟩ ?_
  rintro y ⟨q, rfl⟩ g -
  dsimp only
  split
  exacts [⟨q, rfl⟩, ⟨_, rfl⟩]

theorem adaptClocks_eq (s : State) (m : PowerMeas) : ∃ doms, adaptClocks s m = { s with pwr := { s.pwr with doms := doms } } := by
  unfold adaptClocks
  split
  · exact ⟨_, rfl⟩
  · refine List.foldlRecOn (motive := fun (y : State) => ∃ doms, y = { s with pwr := { s.pwr with doms := doms } }) _ _ ⟨s.pwr.doms, rfl⟩ ?_
    rintro y ⟨q, rfl⟩ d -
    unfold decide649
    split
    exacts [⟨q, rfl⟩, ⟨_, rfl⟩]

/-- A group's floor and ceiling put in force. -/
def inForce (y : PwrGrp) : PwrGrp := { y with floorIn := y.floor, ceilIn := y.ceil }

/-- R669: a group's floor and ceiling take effect where protection does not hold its grant. -/
theorem pwrGrp_latchGroups (s : State) {g : Nat} (hg : g < 11) :
    pwrGrp (latchGroups s) g = if grpHeld s g then pwrGrp s g else inForce (pwrGrp s g) := by
  have hstep (x : State) (g k : Nat) : pwrGrp (if grpHeld s g then x else modGrp x g inForce) k
      = if g = k then (if grpHeld s g then pwrGrp x g else inForce (pwrGrp x g)) else pwrGrp x k := by
    by_cases hk : g = k
    · subst hk
      split <;> simp
    · split <;> simp [hk]
  have hfold := pwrGrp_foldl (h := fun g y => if grpHeld s g then y else inForce y) hstep nodup_pwrGroups s g
  rw [if_pos (show g ∈ pwrGroups from List.mem_range.2 hg)] at hfold
  exact hfold

/-- The grants of a boundary (R654, R672, R677), in the state in which the floors and ceilings written are in force. -/
def boundaryGrants (x : State) (m : PowerMeas) : List Nat :=
  (pwrGroups.zip (grantsFor x (effLimit x m) m.leakage (fun g => m.draw.getD g 0))).map
    (fun e => lambGrant x e.1 (cutGrant x (effLimit x m) e.1 e.2))

theorem boundaryGrants_getD (x : State) (m : PowerMeas) {g : Nat} (hg : g < 11) : (boundaryGrants x m).getD g 0
    = lambGrant x g (cutGrant x (effLimit x m) g ((grantsFor x (effLimit x m) m.leakage (fun g => m.draw.getD g 0)).getD g 0)) := by
  have hlen := length_grantsFor x (effLimit x m) m.leakage (fun g => m.draw.getD g 0)
  rw [boundaryGrants, List.getD_eq_getElem _ _ (by rw [List.length_map, List.length_zip, hlen]; simp [pwrGroups, hg]), List.getElem_map, List.getElem_zip,
    List.getD_eq_getElem _ _ (by omega)]
  simp [pwrGroups]

/-- A group at a boundary: its grant, its balance refilled, its demand begun again (R659). -/
def refillAt (x : State) (m : PowerMeas) (g : Nat) (z : PwrGrp) : PwrGrp :=
  refill z ((boundaryGrants x m).getD g 0) (m.draw.getD g 0)
    (decide ((boundaryGrants x m).getD g 0 < (grantsFor x (pwrLimit x) m.leakage (fun g => m.draw.getD g 0)).getD g 0))

/-- The clocks and the groups of a boundary. -/
def refilled (x : State) (m : PowerMeas) : State := pwrGroups.foldl (fun y g => modGrp y g (refillAt x m g)) (adaptClocks x m)

theorem refilled_eq (x : State) (m : PowerMeas) :
    ∃ doms groups, refilled x m = { x with pwr := { x.pwr with doms := doms, groups := groups } } := by
  obtain ⟨doms, hd⟩ := adaptClocks_eq x m
  unfold refilled
  rw [hd]
  refine List.foldlRecOn (motive := fun (y : State) => ∃ doms groups, y = { x with pwr := { x.pwr with doms := doms, groups := groups } }) _ _
    ⟨doms, x.pwr.groups, rfl⟩ ?_
  rintro y ⟨d, q, rfl⟩ g -
  exact ⟨d, _, rfl⟩

theorem pwrGrp_refilled (x : State) (m : PowerMeas) {g : Nat} (hg : g < 11) : pwrGrp (refilled x m) g = refillAt x m g (pwrGrp x g) := by
  obtain ⟨doms, hd⟩ := adaptClocks_eq x m
  have hfold := pwrGrp_foldl (fun y k j => pwrGrp_modGrp y k j (refillAt x m k)) nodup_pwrGroups (adaptClocks x m) g
  rw [if_pos (show g ∈ pwrGroups from List.mem_range.2 hg), pwrGrp_congr (s := x) (u := adaptClocks x m) (by rw [hd])] at hfold
  exact hfold

/-- What a boundary leaves of the power unit, and that it touches neither memory nor commands (R654). -/
theorem doGrantBoundary_fields (s : State) (m : PowerMeas) :
    (doGrantBoundary s m).pwr.groups = (refilled (latchGroups s) m).pwr.groups
      ∧ (doGrantBoundary s m).pwr.limEff = effLimit (latchGroups s) m
      ∧ (doGrantBoundary s m).mem = s.mem ∧ (doGrantBoundary s m).jobs = s.jobs := by
  obtain ⟨q, hl⟩ := latchGroups_eq s
  obtain ⟨doms, groups, hr⟩ := refilled_eq (latchGroups s) m
  have hmem : (refilled (latchGroups s) m).mem = s.mem := by rw [hr, hl]
  have hjobs : (refilled (latchGroups s) m).jobs = s.jobs := by rw [hr, hl]
  have hpol (x : State) : (latchPolicies x).pwr = x.pwr ∧ (latchPolicies x).mem = x.mem ∧ (latchPolicies x).jobs = x.jobs := by
    obtain ⟨p, k, h⟩ := latchPolicies_eq x
    rw [h]
    exact ⟨rfl, rfl, rfl⟩
  unfold refilled refillAt boundaryGrants at hmem hjobs ⊢
  unfold doGrantBoundary
  dsimp only
  split
  · rw [raiseEvent_pwr, raiseEvent_mem, raiseEvent_jobs, (hpol _).1, (hpol _).2.1, (hpol _).2.2]
    simp only [perfAdd_pwr, perfAdd_mem, perfAdd_jobs, hmem, hjobs, and_self]
  · rw [(hpol _).1, (hpol _).2.1, (hpol _).2.2]
    simp only [perfAdd_pwr, perfAdd_mem, perfAdd_jobs, hmem, hjobs, and_self]

/-- R654, R659: what a boundary makes of a group. -/
theorem refillAt_fields {s : State} {m : PowerMeas} {g : Nat} (hg : g < 11) {z : PwrGrp}
    (hz : z = refillAt (latchGroups s) m g (pwrGrp (latchGroups s) g)) :
    z.grant = lambGrant s g (cutGrant (latchGroups s) (effLimit (latchGroups s) m) g
        ((grantsFor (latchGroups s) (effLimit (latchGroups s) m) m.leakage (fun g => m.draw.getD g 0)).getD g 0))
      ∧ z.bal = min (pwrGrp s g).bal 0 + (z.grant * 10000 : Nat) ∧ z.demand = 0
      ∧ z.floor = (pwrGrp s g).floor ∧ z.ceil = (pwrGrp s g).ceil
      ∧ (grpHeld s g = false → z.floorIn = (pwrGrp s g).floor ∧ z.ceilIn = (pwrGrp s g).ceil) := by
  have hlamb (x : Nat) : lambGrant (latchGroups s) g x = lambGrant s g x := by
    obtain ⟨q, hq⟩ := latchGroups_eq s
    rw [lambGrant, lambGrant, hq]
  rw [pwrGrp_latchGroups s hg] at hz
  refine ⟨?_, ?_, ?_, ?_, ?_, fun hfree => ?_⟩
  · rw [hz, ← hlamb, ← boundaryGrants_getD _ m hg]
    rfl
  · rw [hz]
    split <;> rfl
  · rw [hz]
    rfl
  · rw [hz]
    split <;> rfl
  · rw [hz]
    split <;> rfl
  · rw [hz, if_neg (by simp [hfree])]
    exact ⟨rfl, rfl⟩

/-! Clock changes (R649). -/

theorem doClockSwitch_dom {s : State} {d f : Nat} (h : (pwrDom s d).next = some f) (e : Nat) :
    pwrDom (doClockSwitch s d) e = if d = e then { pwrDom s d with mhz := some f, next := none } else pwrDom s e := by
  rw [doClockSwitch, h]
  exact pwrDom_modDom s d e _

/-! Protection (R666 to R672). -/

theorem domDecided_decide649 (s : State) (d f e : Nat) : domDecided (decide649 s d f) e = if d = e then f else domDecided s e := by
  by_cases hd : d = e
  · subst hd
    unfold decide649
    split
    · next h => simp [h]
    · simp [domDecided]
  · unfold decide649
    split <;> simp [domDecided, domMhz, hd]

/-- A cap lowers the frequency decided for its domain, not below the domain's least, and no other domain's. -/
theorem domDecided_capDom {s : State} (hen : s.pwr.enabled = true) (hlamb : s.mgmt.lamb = false) (d f e : Nat) :
    domDecided (capDom s d f) e = if d = e then min (domDecided s d) (max f (domMin d)) else domDecided s e := by
  have hcap (g : PwrDom → PwrDom) (hg : ∀ x, (g x).next = x.next ∧ (g x).mhz = x.mhz) (k : Nat) :
      domDecided (modDom s d g) k = domDecided s k := by
    simp only [domDecided, domMhz, pwrDom_modDom]
    split
    · next hk => rw [(hg _).1, (hg _).2, hk]
    · rfl
  unfold capDom
  rw [if_neg (by simp [hen, hlamb])]
  dsimp only
  generalize hx : modDom s d _ = x
  have hdec (k : Nat) : domDecided x k = domDecided s k := by rw [← hx, hcap]; exact fun _ => ⟨rfl, rfl⟩
  rw [hdec]
  by_cases hlt : max f (domMin d) < domDecided s d
  · rw [if_pos hlt, domDecided_decide649, hdec, min_eq_right (le_of_lt hlt)]
  · rw [if_neg hlt, hdec, min_eq_left (not_lt.1 hlt)]
    split
    · next hd => rw [hd]
    · rfl

/-- The power unit after a cap: a domain of it has changed. -/
theorem capDom_eq (s : State) (d f : Nat) : ∃ doms, capDom s d f = { s with pwr := { s.pwr with doms := doms } } := by
  unfold capDom decide649
  split
  · exact ⟨s.pwr.doms, rfl⟩
  · dsimp only
    split
    · split
      · exact ⟨_, rfl⟩
      · exact ⟨_, rfl⟩
    · exact ⟨_, rfl⟩

/-- The cap of each domain lowers the frequency decided for it. -/
theorem domDecided_caps {s : State} (hen : s.pwr.enabled = true) (hlamb : s.mgmt.lamb = false) (goal : Nat → Nat) {d : Nat} (hd : d < 3) :
    domDecided ([0, 1, 2].foldl (fun x d => capDom x d (goal d)) s) d = min (domDecided s d) (max (goal d) (domMin d)) := by
  have hnext (x : State) (k : Nat) (hx : x.pwr.enabled = true ∧ x.mgmt.lamb = false) :
      (capDom x k (goal k)).pwr.enabled = true ∧ (capDom x k (goal k)).mgmt.lamb = false := by
    obtain ⟨doms, h⟩ := capDom_eq x k (goal k)
    rw [h]
    exact hx
  have h0 := hnext s 0 ⟨hen, hlamb⟩
  have h1 := hnext _ 1 h0
  simp only [List.foldl_cons, List.foldl_nil, domDecided_capDom h1.1 h1.2, domDecided_capDom h0.1 h0.2, domDecided_capDom hen hlamb]
  obtain rfl | rfl | rfl : d = 0 ∨ d = 1 ∨ d = 2 := by omega
  all_goals simp

/-- A begun episode is listed. -/
theorem mem_eps_beginEpisode (s : State) (c who : Nat) : (c, who) ∈ (beginEpisode s c who).pwr.eps := by
  unfold beginEpisode
  dsimp only
  split
  · next h => exact List.contains_iff_mem.1 h
  · split <;> simp

theorem beginEpisode_eq (s : State) (c who : Nat) : (beginEpisode s c who).pwr = { s.pwr with eps := (beginEpisode s c who).pwr.eps }
    ∧ (beginEpisode s c who).mgmt = s.mgmt := by
  unfold beginEpisode
  dsimp only
  split
  · exact ⟨rfl, rfl⟩
  · split
    · exact ⟨rfl, rfl⟩
    · exact ⟨by simp, by simp⟩

/-- The caps that a cause sets are the only change to what its episode and its event have left. -/
theorem caps_eq (s : State) (goal : Nat → Nat) :
    ∃ doms, [0, 1, 2].foldl (fun x d => capDom x d (goal d)) s = { s with pwr := { s.pwr with doms := doms } } := by
  refine List.foldlRecOn (motive := fun (y : State) => ∃ doms, y = { s with pwr := { s.pwr with doms := doms } }) _ _ ⟨s.pwr.doms, rfl⟩ ?_
  rintro y ⟨q, rfl⟩ d -
  obtain ⟨doms, h⟩ := capDom_eq { s with pwr := { s.pwr with doms := q } } d (goal d)
  exact ⟨doms, h⟩

theorem liftCaps_eq (s : State) : ∃ doms, liftCaps s = { s with pwr := { s.pwr with doms := doms } } := by
  unfold liftCaps
  split
  · exact ⟨s.pwr.doms, rfl⟩
  · exact ⟨_, rfl⟩

/-- R666: the end of the episodes of a cause. -/
theorem endEpisode_pwr (s : State) (cause us : Nat) : (endEpisode s cause us).pwr.eps = s.pwr.eps.filter (fun e => e.1 != cause)
    ∧ (endEpisode s cause us).pwr.ovrTime = tabMod 0 s.pwr.ovrTime cause (· + BitVec.ofNat 64 us)
    ∧ .notice 2 [cause, us] ∈ (endEpisode s cause us).out := by
  unfold endEpisode
  dsimp only
  generalize hx : perfAdd (liftCaps _) .pwr 0 6 us = x
  have hkept : (ledgerDrain 4 (overrideEntry x cause us)).pwr = x.pwr := (Steady.refl (fun _ p => p) x).overrideEntry.ledgerDrain.kept
  obtain ⟨doms, h⟩ := liftCaps_eq { s with pwr := { s.pwr with
    eps := s.pwr.eps.filter (fun e => e.1 != cause), ovrTime := tabMod 0 s.pwr.ovrTime cause (· + BitVec.ofNat 64 us), ovrLast := cause } }
  rw [h] at hx
  refine ⟨?_, ?_, List.mem_append_right _ (List.mem_singleton.2 rfl)⟩
  · rw [emit_pwr, hkept, ← hx]; rfl
  · rw [emit_pwr, hkept, ← hx]; rfl

/-- A cause of protection that lowers every domain: its episode is open, its event shown, the domains capped. -/
theorem beginCaps {s : State} {c who n : Nat} (hn : n < 32) (goal : Nat → Nat) :
    let u := [0, 1, 2].foldl (fun x d => capDom x d (goal d)) (raiseEvent (beginEpisode s c who) .pwr 0 n)
    epOpen u c = true ∧ (page u .pwr 0).event.getLsbD n = true
      ∧ (s.pwr.enabled = true → s.mgmt.lamb = false → ∀ d < 3, domDecided u d = min (domDecided s d) (max (goal d) (domMin d))) := by
  intro u
  obtain ⟨doms, hu⟩ := caps_eq (raiseEvent (beginEpisode s c who) .pwr 0 n) goal
  obtain ⟨hpwr, hmgmt⟩ := beginEpisode_eq s c who
  have hopen : (c, who) ∈ u.pwr.eps := by
    rw [show u = _ from hu, raiseEvent_pwr]
    exact mem_eps_beginEpisode s c who
  refine ⟨List.any_eq_true.2 ⟨_, hopen, by simp⟩, ?_, fun hen hlamb d hd => ?_⟩
  · rw [show u = _ from hu]
    exact event_raiseEvent_self _ _ _ hn
  · rw [domDecided_caps (by rw [raiseEvent_pwr, hpwr]; exact hen) (by rw [raiseEvent_mgmt, hmgmt]; exact hlamb) goal hd,
      domDecided_congr (s := s) (by rw [raiseEvent_pwr, hpwr])]

theorem domDecided_begun (s : State) (c who n d : Nat) : domDecided (raiseEvent (beginEpisode s c who) .pwr 0 n) d = domDecided s d :=
  domDecided_congr (by rw [raiseEvent_pwr, (beginEpisode_eq s c who).1]) d

/-- Table 16.6, cause 1: the domains fall when the rail's episode begins. -/
theorem doCurrentLimit_eq (s : State) {rail : Nat} (h : rail < 4) : doCurrentLimit s rail
    = if (1, rail) ∈ s.pwr.eps then raiseEvent (beginEpisode s 1 rail) .pwr 0 4
      else [0, 1, 2].foldl (fun x d => capDom x d (domDecided s d - 200)) (raiseEvent (beginEpisode s 1 rail) .pwr 0 4) := by
  unfold doCurrentLimit
  rw [if_neg (by omega)]
  by_cases hin : (1, rail) ∈ s.pwr.eps <;> simp [hin, domDecided_begun]

theorem doBrake_eq (s : State) : doBrake s
    = [0, 1, 2].foldl (fun x d => capDom x d (domDecided s d / 2 / 50 * 50)) (raiseEvent (beginEpisode s 3 0) .pwr 0 1) := by
  simp only [doBrake, domDecided_begun]

/-- Table 16.6, cause 2: a die at 105 °C has its episode, and keeps its clocks for the boundaries to lower. -/
theorem doThermWarn_of_hot (s : State) {die temp : Nat} (hdie : die < 4) (htemp : 105 ≤ temp) :
    (doThermWarn s die temp).pwr.doms = s.pwr.doms ∧ (page (doThermWarn s die temp) .pwr 0).event.getLsbD 2 = true
      ∧ (2, die) ∈ (doThermWarn s die temp).pwr.eps := by
  rw [doThermWarn, if_neg (by simp; omega)]
  refine ⟨?_, event_raiseEvent_self _ _ _ (by decide), ?_⟩
  · rw [raiseEvent_pwr, (beginEpisode_eq _ _ _).1]
    rfl
  · rw [raiseEvent_pwr]
    exact mem_eps_beginEpisode _ _ _

/-- Settles O55, a command at a time. -/
theorem powerPolicyAndProtection : Obligations.PowerPolicyAndProtection := by
  intro s hlive
  refine ⟨fun r v hr hvf => ⟨?_, ?_, ?_⟩, fun m => ?_, fun d f hf => ?_, ⟨fun rail hrail => ?_, ?_⟩, fun die temp hdie htemp => ?_,
    fun die hdie => ?_, fun cause us h1 h4 hopen hclear => ?_⟩
  · rw [exec_limitWrite, regAccess_atPage hr, hvf, Bool.not_false, if_pos rfl, setLimit_opened]
  · rw [exec_grpPolWrite, regAccess_atPage hr, hvf, Bool.not_false, if_pos rfl, setGrpPol_opened]
  · rw [exec_clkPolWrite, regAccess_atPage hr, hvf, Bool.not_false, if_pos rfl, setClkPol_opened]
  · obtain ⟨hgroups, hlim, hmem, hjobs⟩ := doGrantBoundary_fields s m
    refine next_of_live hlive ⟨⟨hlim, fun g hg => ?_⟩, hmem, hjobs⟩
    have hgrp : pwrGrp (doGrantBoundary s m) g = refillAt (latchGroups s) m g (pwrGrp (latchGroups s) g) :=
      (pwrGrp_congr hgroups g).trans (pwrGrp_refilled _ m hg)
    exact refillAt_fields hg hgrp
  · refine next_of_live hlive ⟨?_, ?_, fun e he => ?_⟩
    · show domMhz (doClockSwitch s d) d = f
      rw [domMhz, doClockSwitch_dom hf, if_pos rfl]
      rfl
    · show (pwrDom (doClockSwitch s d) d).next = none
      rw [doClockSwitch_dom hf, if_pos rfl]
    · exact (doClockSwitch_dom hf e).trans (if_neg (Ne.symm he))
  · obtain ⟨hopen, hevent, hfalls⟩ := beginCaps (s := s) (c := 1) (who := rail) (n := 4) (by decide) (fun d => domDecided s d - 200)
    have hcl := doCurrentLimit_eq s hrail
    split at hcl
    · next hfirst =>
      refine next_of_live hlive ?_
      rw [hcl]
      refine ⟨List.any_eq_true.2 ⟨(1, rail), ?_, by simp⟩, event_raiseEvent_self _ _ _ (by decide), fun hnew => absurd hfirst hnew⟩
      show (1, rail) ∈ (raiseEvent (beginEpisode s 1 rail) .pwr 0 4).pwr.eps
      rw [raiseEvent_pwr]
      exact mem_eps_beginEpisode s 1 rail
    · refine next_of_live hlive ?_
      rw [hcl]
      exact ⟨hopen, hevent, fun _ => hfalls⟩
  · obtain ⟨hopen, hevent, hfalls⟩ := beginCaps (s := s) (c := 3) (who := 0) (n := 1) (by decide) (fun d => domDecided s d / 2 / 50 * 50)
    refine next_of_live hlive ?_
    rw [doBrake_eq]
    exact ⟨hopen, hevent, hfalls⟩
  · obtain ⟨hdoms, hev, hep⟩ := doThermWarn_of_hot s hdie htemp
    exact next_of_live hlive ⟨hep, hev, hdoms⟩
  · have htrip : doTrip s die = { s with mgmt := { s.mgmt with tripped := true } } := if_neg (by omega)
    refine next_of_live hlive ?_
    rw [htrip]
    exact ⟨by simp [live], rfl⟩
  · obtain ⟨heps, htime, hout⟩ := endEpisode_pwr s cause us
    have hend : doEpisodeEnd s cause us = endEpisode s cause us := by
      have hnot : (cause == 4 && refreshHeld s) = false := by
        by_cases h : cause = 4
        · simp [hclear h]
        · simp [h]
      rw [doEpisodeEnd, hopen, hnot]
      simp [h1, h4]
    refine next_of_live hlive ?_
    rw [hend]
    refine ⟨?_, hout, ?_⟩
    · show (endEpisode s cause us).pwr.eps.any (fun e => e.1 == cause) = false
      rw [heps]
      simp
    · show tabGet 0 (endEpisode s cause us).pwr.ovrTime cause = _
      rw [htime, tabGet_tabMod, if_pos rfl]

end Sys2Proof.Machine
end

section
/-! PROOFS. Hen's commands: the copy area and the triggers, copying and completing a cut, draining to the buddy (R681 to R695). -/

namespace Sys2Proof.Machine

/-! The rows of the command table. -/

theorem exec_tenCopyWrite (r : Requester) (v : Nat) (s : State) : exec (.tenCopyWrite r v) s = .next (whenLive s (doTenCopy s r v)) := rfl
theorem exec_tenTrigWrite (r : Requester) (v : Nat) (s : State) : exec (.tenTrigWrite r v) s = .next (whenLive s (doTenTrig s r v)) := rfl
theorem exec_chunkCopy (t : Nat) (s : State) : exec (.chunkCopy t) s = .next (whenLive s (doChunkCopy s t)) := rfl
theorem exec_cutComplete (t : Nat) (s : State) : exec (.cutComplete t) s = .next (whenLive s (doCutComplete s t)) := rfl
theorem exec_buddyDrainChunk (s : State) : exec .buddyDrainChunk s = .next (whenLive s (doDrainChunk s)) := rfl
theorem exec_buddyAck (m : HenMsg) (s : State) : exec (.buddyAck m) s = .next (whenLive s (doBuddyAck s m)) := rfl
theorem exec_chunkRequestedAgain (m : HenMsg) (s : State) : exec (.chunkRequestedAgain m) s = .next (whenLive s (doAgain s m)) := rfl
theorem exec_drainRestart (s : State) : exec .drainRestart s = .next (whenLive s (doDrainRestart s)) := rfl

/-! What Hen holds for a tenant. -/

theorem modHenTen_modHenTen (s : State) (t : Nat) (f g : HenTen → HenTen) :
    modHenTen (modHenTen s t f) t g = modHenTen s t (fun h => g (f h)) := by simp only [modHenTen, tabMod_tabMod]

@[simp] theorem henSel_opened (s : State) (r : Requester) (b : Block) (i off : Nat) : henSel (opened s r b i off) = henSel s := by
  simp only [henSel, regWord_opened]

@[simp] theorem opened_hen (s : State) (r : Requester) (b : Block) (i off : Nat) : (opened s r b i off).hen = s.hen := by simp [opened]

section Registers

variable {s : State} {r : Requester} (hr : atPage s r .hen 0 = true) (v : Nat)
include hr

/-- R681: slots that fit COPY_SIZE and meet no other tenant's are taken. -/
theorem doTenCopy_of_fits (hfit : bits v 0 24 + 2 * bits v 24 24 ≤ bits (regWord s .hen 0 0x110 0) 0 24)
    (hfree : s.hen.tens.any (fun e => e.1 != henSel s && rangesMeet (bits v 0 24) (2 * bits v 24 24) e.2.copyOff (2 * e.2.copySize)) = false) :
    doTenCopy s r v = modHenTen (opened s r .hen 0 0x138) (henSel s) (fun h => { h with copyOff := bits v 0 24, copySize := bits v 24 24 }) := by
  rw [doTenCopy, regAccess_atPage hr, if_pos rfl]
  simp only [regWord_opened, opened_hen, henSel_opened, hfree, Bool.or_false, decide_eq_true_eq]
  exact if_neg (not_lt.2 hfit)

theorem doTenTrig_atPage : doTenTrig s r v
    = if bits v 16 16 = 0 then modHenTen (opened s r .hen 0 0x140) (henSel s) (fun h => { h with steps := bits v 0 16, secs := 0 })
      else modHenTen (opened s r .hen 0 0x140) (henSel s)
        (fun h => { h with steps := bits v 0 16, secs := bits v 16 16, base := s.mgmt.ticks }) := by
  rw [doTenTrig, regAccess_atPage hr, if_pos rfl]
  dsimp only
  split
  · next h => rw [henSel_opened, h]
  · rw [henSel_opened, restartTimer, modHenTen_modHenTen]
    rw [show (modHenTen (opened s r .hen 0 0x140) (henSel s) _).mgmt = s.mgmt from opened_mgmt ..]

end Registers

/-! A cut that completes (R691). -/

theorem henPage_hen (s : State) (dst : Nat) (bs : List Byte) (bad : List Nat) : (henPage s dst bs bad).hen = s.hen := by
  unfold henPage
  split
  · rfl
  · split
    · unfold sealHit
      split <;> simp
    · exact List.foldlRecOn (motive := fun (x : State) => x.hen = s.hen) _ _ rfl (fun x hx j _ => hx)

theorem henWrite_hen (s : State) (dst : Nat) (bs : List Byte) : (henWrite s dst bs).hen = s.hen :=
  List.foldlRecOn (motive := fun (x : State) => x.hen = s.hen) _ _ rfl (fun x hx _ _ => (henPage_hen x _ _ _).trans hx)

/-- Hen when a cut of tenant `t` completes with digest `dig`. -/
def cutDone (h : Hen) (t : Nat) (c : Cutting) (dig : Nat) : Hen :=
  let done := fun x : Slot => { x with
    complete := true, poison := !c.bad.isEmpty, buddy := false, cut := c.cut, step := c.step, digest := dig, entries := c.entries }
  { h with
    tens := tabMod {} (tabMod {} h.tens t (fun h => if c.slot = 0 then { h with slot0 := done h.slot0 } else { h with slot1 := done h.slot1 })) t
      (fun h => { h with newest := some c.slot })
    cuts := h.cuts.filter (fun x => x.tenant != t)
    drain := h.drain.map (fun d => if d.tenant = t then { tenant := t, slot := c.slot, cut := c.cut } else d) }

/-- The state in which a cut's manifest has been written and the cut completes. -/
def cutFilled (w : State) (t : Nat) (c : Cutting) (dig : Nat) : State :=
  modHen (modHenTen (modSlot w t c.slot (fun x => { x with
      complete := true, poison := !c.bad.isEmpty, buddy := false, cut := c.cut, step := c.step, digest := dig, entries := c.entries }))
    t (fun h => { h with newest := some c.slot })) (fun h => { h with
      cuts := h.cuts.filter (fun x => x.tenant != t)
      drain := h.drain.map (fun d => if d.tenant = t then { tenant := t, slot := c.slot, cut := c.cut } else d) })

theorem cutFilled_hen (w : State) (t : Nat) (c : Cutting) (dig : Nat) : (cutFilled w t c dig).hen = cutDone w.hen t c dig := rfl

section Complete

variable {s : State} {t : Nat} {c : Cutting} (hon : henOn s = true) (hc : cutOf s t = some c) (hleft : c.left = [])
include hon hc hleft

theorem doCutComplete_eq : ∃ e, doCutComplete s t = perfAdd (raiseEvent (ledgerDue (cutFilled
    (henWrite s (slotBase s t c.slot) (manifestOf s c)) t c (beNat (sha256 (manifestOf s c)))) e) .hen 0 0) .hen 0 0 1 := by
  have hbusy : (!c.left.isEmpty) = false := by rw [hleft]; rfl
  rw [doCutComplete, hon, hc]
  simp only [hbusy, Bool.not_true, Bool.false_eq_true, if_false]
  exact ⟨_, rfl⟩

theorem doCutComplete_hen : (doCutComplete s t).hen = cutDone s.hen t c (beNat (sha256 (manifestOf s c))) := by
  obtain ⟨e, h⟩ := doCutComplete_eq hon hc hleft
  rw [h, perfAdd_hen, raiseEvent_hen, (Recorded.ledgerDue _ _).hen, cutFilled_hen, henWrite_hen]

end Complete

section CutDone

variable {s u : State} {t : Nat} {c : Cutting} {dig : Nat} (h : u.hen = cutDone s.hen t c dig)
include h

theorem henTen_cutDone : (henTen u t).newest = some c.slot := by
  simp [henTen, h, cutDone]

theorem slotOf_cutDone : slotOf u t c.slot = { slotOf s t c.slot with
    complete := true, poison := !c.bad.isEmpty, buddy := false, cut := c.cut, step := c.step, digest := dig, entries := c.entries } := by
  unfold slotOf henTen
  rw [h]
  simp only [cutDone, tabGet_tabMod, if_true]
  split <;> rfl

theorem cutOf_cutDone : cutOf u t = none := by
  rw [cutOf, h, cutDone, List.find?_eq_none]
  intro x hx
  have hne := (List.mem_filter.1 hx).2
  simpa using hne

end CutDone

/-- Settles O56, a command at a time. -/
theorem checkpointCommands : Obligations.CheckpointCommands := by
  refine ⟨fun s r v hr => ⟨fun hfit hfree => ?_, fun hz => ?_, fun hz => ?_⟩, fun s hlive hon => ⟨fun t i c l hc hl => ?_, fun t c hc hl => ?_,
    fun d hen hd hok hnext => ?_, fun m d hd => ⟨fun href => ?_, fun href => ?_, fun hagain => ?_⟩, fun d hd hfail => ?_⟩⟩
  · rw [exec_tenCopyWrite, doTenCopy_of_fits hr v hfit hfree]
  · rw [exec_tenTrigWrite, doTenTrig_atPage hr, if_pos hz]
  · rw [exec_tenTrigWrite, doTenTrig_atPage hr, if_neg hz]
  · rw [exec_chunkCopy, doChunkCopy, hon, hc]
    simp [hl]
  · have hhen := doCutComplete_hen hon hc hl
    rw [exec_cutComplete]
    generalize beNat (sha256 (manifestOf s c)) = dig at hhen ⊢
    generalize doCutComplete s t = x at hhen ⊢
    have hslot := slotOf_cutDone hhen
    exact next_of_live hlive ⟨congrArg Slot.complete hslot, congrArg Slot.cut hslot, congrArg Slot.step hslot, congrArg Slot.digest hslot,
      henTen_cutDone hhen, cutOf_cutDone hhen⟩
  · rw [exec_buddyDrainChunk, doDrainChunk, hon, hen]
    simp [hd, hok, not_lt.2 hnext]
  · rw [exec_buddyAck, doBuddyAck, hon, hd]
    simp [href]
  · rw [exec_buddyAck, doBuddyAck, hon, hd]
    simp [href]
  · rw [exec_chunkRequestedAgain, doAgain, hon, hd]
    dsimp only
    rw [hagain]
    rfl
  · rw [exec_drainRestart, doDrainRestart, hon, hd]
    simp [hfail]

end Sys2Proof.Machine
end

section
/-! PROOFS. What is steady: the completions of Goose and Hen's decisions, which a ledger entry can set going (R65, R465). -/

namespace Sys2Proof.Machine.Steady

variable {α : Type} {f : Xag → Pwr → α} {s u : State}

theorem modStream {t st : Nat} {g : Stream → Stream} (w : Steady f s u) : Steady f s (modStream u t st g) := w.modTen (fun _ => rfl)

/-! Streams and their records. -/

theorem takeFront {t st : Nat} (w : Steady f s u) : Steady f s (takeFront u t st) := by
  unfold Machine.takeFront
  dsimp only
  split
  exacts [w.modStream.perfAdd, w.modStream]

theorem tokenAdd {t n inc : Nat} (w : Steady f s u) : Steady f s (tokenAdd u t n inc) := w.modTen (fun _ => rfl)

theorem tokenErr {t n : Nat} (w : Steady f s u) : Steady f s (tokenErr u t n) := raiseEvent (modTen (fun _ => rfl) w)

theorem signal {t : Nat} {c : Cmd} {status : Nat} (w : Steady f s u) : Steady f s (signal u t c status) := by
  unfold Machine.signal
  dsimp only
  split
  · split
    exacts [w.tokenAdd.tokenErr, w.tokenAdd]
  · exact w

theorem markReady {t : Nat} (w : Steady f s u) : Steady f s (markReady u t) :=
  w.foldl (fun _ hx => by
    split
    exacts [hx.modStream, hx])

theorem putRec {t st : Nat} {r : Rec} (w : Steady f s u) : Steady f s (putRec u t st r).1 := by
  have hfill : Steady f s (Machine.fillTlb u t (cplSlot (stream u t st) (stream u t st).wr) 32) := w.fillTlb
  unfold Machine.putRec
  dsimp only
  split
  · exact hfill
  · split
    · exact hfill
    · split
      · exact hfill.sealHit
      · split
        · exact hfill
        · dsimp only
          split
          exacts [hfill.store.modStream.raiseVec, hfill.store.modStream]

theorem cplFault {t st : Nat} (w : Steady f s u) : Steady f s (cplFault u t st) := w.modStream.raiseEvent

theorem writeRec {t st : Nat} {r : Rec} (w : Steady f s u) : Steady f s (writeRec u t st r) := by
  unfold Machine.writeRec
  dsimp only
  split
  · exact w.modStream
  · split
    exacts [w.putRec, w.putRec.modStream.cplFault]

theorem flushHeld {n t st : Nat} (w : Steady f s u) : Steady f s (flushHeld n u t st) := by
  induction n generalizing u with
  | zero => exact w
  | succ n ih =>
    unfold Machine.flushHeld
    dsimp only
    split
    · exact w
    · split
      exacts [ih w.putRec.modStream, w.putRec.cplFault]

theorem countCompletion {t : Nat} {r : Result} {tm : Timing} (w : Steady f s u) : Steady f s (countCompletion u t r tm) := by
  have hcause := (w.perfAdd (b := .ten) (i := t) (k := 0) (n := 1))
  unfold Machine.countCompletion
  dsimp only
  generalize h1 : (if (tm.cause != 0) = true then _ else _ : State) = x1
  have w1 : Steady f s x1 := h1 ▸ ite hcause.perfAdd hcause
  generalize h2 : (if (tm.cause == 1) = true then _ else _ : State) = x2
  have w2 : Steady f s x2 := h2 ▸ ite w1.perfAdd.perfAdd w1
  generalize h3 : (if r.skip = true then _ else _ : State) = x3
  have w3 : Steady f s x3 := h3 ▸ ite w2.perfAdd w2
  generalize h4 : (if (r.status == 0x12) = true then _ else _ : State) = x4
  have w4 : Steady f s x4 := h4 ▸ ite w3.raiseEvent.perfAdd w3
  generalize h5 : (if (r.status == 0x10 || r.status == 0x11) = true then _ else _ : State) = x5
  have w5 : Steady f s x5 := h5 ▸ ite w4.raiseEvent w4
  exact ite w5.raiseEvent.perfAdd w5

theorem record {t st : Nat} {c : Cmd} {r : Result} {tm : Timing} (w : Steady f s u) : Steady f s (record u t st c r tm) :=
  writeRec (countCompletion (modTen (fun _ => rfl) w))

theorem completePlain {t st : Nat} {c : Cmd} {r : Result} {tm : Timing} (w : Steady f s u) : Steady f s (completePlain u t st c r tm) :=
  w.record.signal.markReady

theorem writeBodies {t st k n : Nat} (w : Steady f s u) : Steady f s (writeBodies u t st k n) := by
  induction n with
  | zero => exact w
  | succ n ih =>
    unfold Machine.writeBodies
    dsimp only
    split
    · exact ih
    · split
      · split
        exacts [ih.modStream.record, ih]
      · exact ih

theorem closeLoop {t st k : Nat} (w : Steady f s u) : Steady f s (closeLoop u t st k) := by
  unfold Machine.closeLoop
  dsimp only
  split
  · exact w
  · split
    exacts [w.writeBodies, ite w.writeBodies.modStream.completePlain w.writeBodies]

theorem completeBody {t st : Nat} {c : Cmd} {i : Nat} {r : Result} {tm : Timing} {hold : Nat} (w : Steady f s u) :
    Steady f s (completeBody u t st c i r tm hold) := by
  unfold Machine.completeBody
  split
  · exact w.signal
  · exact (ite w.modStream.record w.modStream).signal.closeLoop.markReady

theorem completeFront {t st now : Nat} {c : Cmd} {it : Option Nat} {r : Result} (w : Steady f s u) :
    Steady f s (completeFront u t st now c it r) := by
  unfold Machine.completeFront Machine.complete
  cases it with
  | none => exact w.takeFront.completePlain
  | some i => exact w.takeFront.completeBody

/-! The close of a step (R66), and Hen's part in it. -/

theorem clearTriggers {t : Nat} (w : Steady f s u) : Steady f s (clearTriggers u t) := by
  have hten : Steady f s (Machine.modTen u t (fun x => { x with cutPend := false })) := w.modTen (fun _ => rfl)
  exact hten.others.others

theorem cutBegin {t : Nat} {c : W64} (w : Steady f s u) : Steady f s (cutBegin u t c) := by
  unfold Machine.cutBegin
  split
  · exact w.clearTriggers.others.raiseEvent
  · exact w.others.clearTriggers.others.others

theorem henStepClosed {t : Nat} {c : W64} (w : Steady f s u) : Steady f s (henStepClosed u t c) := by
  unfold Machine.henStepClosed
  dsimp only
  split
  · exact w.others.cutBegin
  · split
    exacts [w.others, modTen (fun _ => rfl) w.others]

theorem henEnabled {t : Nat} (w : Steady f s u) : Steady f s (henEnabled u t) := by
  unfold Machine.henEnabled Machine.restAborts
  exact ite (ite w.others.raiseEvent w) w

theorem restartStream {t st : Nat} (w : Steady f s u) : Steady f s (restartStream u t st) := flushHeld (modStream w)

theorem applyEn {t : Nat} (w : Steady f s u) : Steady f s (applyEn u t) := by
  have hset : Steady f s (Machine.modTen u t (fun x => { x with en := x.enWritten })) := w.modTen (fun _ => rfl)
  exact markReady (henEnabled (hset.foldl (fun _ hx => hx.restartStream)))

theorem ctlDone {t st : Nat} {c : Cmd} {it : Option Nat} {r : Result} (w : Steady f s u) : Steady f s (ctlDone u t st c it r) := by
  have hlast : Steady f s (Machine.modTen u t (fun x => { x with lastStream := st })) := w.modTen (fun _ => rfl)
  exact completeFront (perfAdd hlast)

theorem finishStep {t : Nat} (w : Steady f s u) : Steady f s (finishStep u t) := by
  unfold Machine.finishStep
  split
  · exact w
  · dsimp only
    exact applyEn (modTen (fun _ => rfl) (ctlDone (modStream (perfAdd (raiseEvent (henStepClosed (modTen (fun _ => rfl) w)))))))

theorem ledgerRun (w : Steady f s u) : Steady f s (ledgerRun u) :=
  ite (w.ledgerDrain.foldl (fun _ hx => ite hx.finishStep hx)) w

end Sys2Proof.Machine.Steady
end

section
/-! PROOFS. What is steady: messages between nodes, which move no link out of its state (R493 to R513), and the herd (R582 to R588), where
nothing is asked of the agent. -/

namespace Sys2Proof.Machine

theorem slotBlind_st : SlotBlind (fun l : Link => l.st) := fun _ _ _ _ => rfl

namespace Steady

section Messages

variable {α : Type} {f : Xag → Pwr → α} {s u : State}

theorem modLink {n : Nat} {g : Link → Link} (hg : ∀ l, (g l).st = l.st) (w : Steady f s u) : Steady f s (modLink u n g) := by
  refine { w with links := fun k => Eq.trans ?_ (w.links k) }
  rw [lnk_modLink]
  split
  · next h => rw [hg, h]
  · rfl

theorem sendCtl {n typ : Nat} {body : List Byte} (w : Steady f s u) : Steady f s (sendCtl u n typ body) :=
  emit (modLink (fun l => slotBlind_st.payOwed l l.rxSeq) w)

theorem sendData {n seq : Nat} {x : TxFlit} (w : Steady f s u) : Steady f s (sendData u n seq x) :=
  emit (modLink (fun l => slotBlind_st.payOwed l l.rxSeq) w)

theorem tell {k n : Nat} (w : Steady f s u) : Steady f s (tell k u n) := by
  induction k generalizing u with
  | zero => exact w
  | succ k ih => exact ite (ih w.sendCtl.perfAdd) w

theorem tellAll {n : Nat} (w : Steady f s u) : Steady f s (tellAll u n) := w.tell

theorem leaveInput {p : Parcel} (w : Steady f s u) : Steady f s (leaveInput u p) := by
  unfold Machine.leaveInput Machine.freeInput
  split
  exacts [tellAll (modLink (fun l => slotBlind_st.freeInSlot l _) w), w]

theorem pumpLink {k n : Nat} (w : Steady f s u) : Steady f s (pumpLink k u n) := by
  induction k generalizing u with
  | zero => exact w
  | succ k ih =>
    unfold Machine.pumpLink
    dsimp only
    split
    · exact w
    · split
      · exact w
      · split
        · exact w
        · split
          · exact w
          · exact ih (ite (perfAdd (leaveInput (perfAdd (sendData (modLink (fun _ => rfl) w)))))
              (leaveInput (perfAdd (sendData (modLink (fun _ => rfl) w)))))

theorem pump {n : Nat} (w : Steady f s u) : Steady f s (pump u n) := w.pumpLink

theorem enqueue {n : Nat} {p : Parcel} (w : Steady f s u) : Steady f s (enqueue u n p) := by
  unfold Machine.enqueue Machine.countSent
  dsimp only
  exact pump (modLink (fun _ => rfl) (ite (ite w.perfAdd w) (perfAdd (perfAdd (ite w.perfAdd w)))))

theorem dropMsg {p : Parcel} (w : Steady f s u) : Steady f s (dropMsg u p) := w.raiseEvent.perfAdd.leaveInput

theorem sendMsg {p : Parcel} (w : Steady f s u) : Steady f s (sendMsg u p) := by
  unfold Machine.sendMsg
  split
  · exact emit (perfAdd (ite w (perfAdd (perfAdd w))))
  · split
    · exact w.dropMsg
    · split
      · exact w.others
      · split
        · exact (ite w.others.perfAdd w).enqueue
        · exact w.dropMsg

theorem sendHerd {node : Nat} {op : HerdOp} {m : HerdMsg} (w : Steady f s u) : Steady f s (sendHerd u node op m) := w.sendMsg

theorem respond {q : FabReq} {cause flags val : Nat} {data : List Byte} {bad : List Nat} (w : Steady f s u) :
    Steady f s (respond u q cause flags val data bad) := w.sendMsg

theorem sendMember {member k : Nat} {op : HerdOp} {g : HerdMsg → HerdMsg} (w : Steady f s u) : Steady f s (sendMember u member k op g) := by
  unfold Machine.sendMember
  split
  exacts [w.sendHerd, w]

theorem readHome {k : Nat} (w : Steady f s u) : Steady f s (readHome u k) := by
  unfold Machine.readHome
  split
  exacts [w.meetErrs, w]

theorem writeLineData {k : Nat} {d : List Byte} {poison : Bool} (w : Steady f s u) : Steady f s (writeLineData u k d poison) := by
  unfold Machine.writeLineData
  split
  exacts [ite w.storePoison w.store, w]

theorem sendDataS {k member : Nat} (w : Steady f s u) : Steady f s (sendDataS u k member) := by
  unfold Machine.sendDataS
  exact sendMember (readHome w)

theorem snoop {k : Nat} {op : HerdOp} {ms : List Nat} (w : Steady f s u) : Steady f s (snoop u k op ms) :=
  w.perfAdd.foldl (fun _ hx => hx.sendMember)

theorem routesChanged {before : List Nat} (w : Steady f s u) : Steady f s (routesChanged before u) := by
  have hspare : Steady f s (spareEvents before u) := w.foldl (fun _ hx => hx.raiseEvent)
  exact ite hspare hspare.others.raiseEvent.perfAdd

end Messages

section Herd

variable {α : Type} {g : Pwr → α} {s u : State}

theorem modDir {k : Nat} {h : DirLine → DirLine} (w : Steady (fun _ => g) s u) : Steady (fun _ => g) s (modDir u k h) := w.units rfl id

theorem modCache {h : List CacheLine → List CacheLine} (w : Steady (fun _ => g) s u) : Steady (fun _ => g) s (modCache u h) := w.units rfl id

theorem sendDataM {k member : Nat} (w : Steady (fun _ => g) s u) : Steady (fun _ => g) s (sendDataM u k member) := by
  unfold Machine.sendDataM
  exact w.modDir.readHome.sendMember

theorem openTrans {k : Nat} {req : Option (HerdOp × HerdMsg)} {op : HerdOp} {ms : List Nat} (w : Steady (fun _ => g) s u) :
    Steady (fun _ => g) s (openTrans u k req op ms) := w.modDir.snoop

theorem serveNext {k : Nat} (w : Steady (fun _ => g) s u) : Steady (fun _ => g) s (serveNext u k) := by
  unfold Machine.serveNext
  split
  · exact w
  · unfold serveHerd
    dsimp only
    exact ite (ite w.modDir.openTrans w.modDir.modDir.sendDataS) (ite w.modDir.openTrans (ite w.modDir.openTrans w.modDir.sendDataM))

theorem endTrans {k : Nat} {t : HerdTrans} (w : Steady (fun _ => g) s u) : Steady (fun _ => g) s (endTrans u k t) := by
  unfold Machine.endTrans
  dsimp only
  split
  exacts [w.modDir.modDir.sendDataS.serveNext, w.modDir.sendDataM.serveNext, w.modDir.modDir.serveNext]

theorem stepTrans {k : Nat} {t : HerdTrans} (w : Steady (fun _ => g) s u) : Steady (fun _ => g) s (stepTrans u k t) := ite w.endTrans w.modDir

theorem memberLeaves {m : Nat} (w : Steady (fun _ => g) s u) : Steady (fun _ => g) s (memberLeaves u m) :=
  w.foldl (fun e hx => by
    dsimp only
    generalize hy : Machine.modDir _ _ _ = y
    have hleft : Steady (fun _ => g) s y := hy ▸ modDir (ite (raiseEvent (writeLineData (modDir hx))) (modDir hx))
    split
    · exact hleft
    · split
      · exact ite (ite (serveNext (modDir hleft)) (modDir hleft)) (stepTrans hleft)
      · exact stepTrans hleft)

theorem checkSplits (w : Steady (fun _ => g) s u) : Steady (fun _ => g) s (checkSplits u) :=
  Steady.foldl (fun _ hx => hx.raiseEvent.memberLeaves) (w.units rfl id)

theorem evictHerd {l : HerdLine} (w : Steady (fun _ => g) s u) : Steady (fun _ => g) s (evictHerd u l) := by
  unfold Machine.evictHerd
  split
  · exact ite w.modCache.sendHerd (ite w.modCache.sendHerd w)
  · exact w

theorem dropTenantLines {p : CacheLine → Bool} (w : Steady (fun _ => g) s u) : Steady (fun _ => g) s (dropTenantLines u p) :=
  modCache (w.foldl (fun _ hx => hx.evictHerd))

theorem releaseNotices {p : Nat → Bool} (w : Steady (fun _ => g) s u) : Steady (fun _ => g) s (releaseNotices u p) :=
  Steady.foldl (fun _ hx => hx.sendMsg) (w.units rfl id)

end Herd

end Steady

end Sys2Proof.Machine
end

section
/-! PROOFS. What is steady: what ends a tenant's commands and drops what the units hold for it (R634, R383). -/

namespace Sys2Proof.Machine.Steady

section Endings

variable {α : Type} {f : Xag → Pwr → α} {s u : State}

theorem tStore {t va : Nat} {bs : List Byte} (w : Steady f s u) : Steady f s (tStore u t va bs).1 := by
  unfold Machine.tStore
  generalize bs.length / 4096 + 2 = n
  induction n generalizing u va bs with
  | zero => exact w
  | succ n ih =>
    unfold tStorePages
    split
    · exact w
    · refine ih ?_
      unfold tStorePage
      split
      exacts [w.store, w]

theorem zeroEngine {a n : Nat} (w : Steady f s u) : Steady f s (zeroEngine u a n) := by
  unfold Machine.zeroEngine zeroRange
  generalize hx : List.foldl _ u _ = x
  have hheld : Steady f s x := hx ▸ w.foldl (fun _ hy => hy.holdFor)
  exact hheld.others

theorem zeroOpen {a n : Nat} (w : Steady f s u) : Steady f s (zeroOpen u a n) :=
  ite w (w.foldl (fun _ hx => ite hx hx.zeroEngine))

theorem retireSet {d k : Nat} (w : Steady f s u) : Steady f s (retireSet u d k) := w.zeroOpen.zeroOpen.zeroOpen.zeroOpen.others

theorem lostFills {t : Nat} {c : Cmd} (w : Steady f s u) : Steady f s (lostFills u t c) := ite w.tokenAdd.tokenErr w

theorem flushFetched {n t st status : Nat} (w : Steady f s u) : Steady f s (flushFetched n u t st status) := by
  induction n generalizing u with
  | zero => exact w
  | succ n ih =>
    unfold Machine.flushFetched
    split
    · exact w
    · exact ih (completePlain (lostFills (modStream w)))

/-- An update of the commands listed adds none where there are none. -/
theorem mapJobs {h : Job → Job} (w : Steady f s u) : Steady f s { u with jobs := u.jobs.map h } :=
  w.units rfl (fun e => by rw [e]; rfl)

theorem endCommands {t status : Nat} (w : Steady f s u) : Steady f s (endCommands u t status) :=
  Steady.foldl (fun _ hx => hx.completePlain) (Steady.foldl (fun _ hx => hx.lostFills) (modTen (fun _ => rfl) w.mapJobs))

theorem finishJob {s0 : State} {j : Job} {r : Result} (w : Steady f s u) : Steady f s (finishJob s0 u j r) := by
  unfold Machine.finishJob
  dsimp only
  split
  exacts [mapJobs (u := { u with freeCount := u.freeCount + 1 }) w.others, w.mapJobs]

theorem holdJobs {s0 : State} {serves : Job → Bool} (w : Steady f s u) : Steady f s (holdJobs s0 u serves) :=
  ite (mapJobs (u := { u with freeCount := u.freeCount + 1 }) w.others) w

/-! The collective unit. -/

theorem collSend {o : CollOpn} {rank vc : Nat} {op : CollOp} {m : CollMsg} (w : Steady f s u) : Steady f s (collSend u o rank vc op m) := by
  unfold Machine.collSend
  split
  exacts [w, w.perfAdd.sendMsg.holdJobs]

theorem freeOp {k : Nat} (w : Steady f s u) : Steady f s (freeOp u k) := by
  unfold Machine.freeOp
  split
  exacts [others (w.foldl (fun _ hx => hx.tStore)), w.others]

theorem arFail {s0 : State} {j : Job} {status detail : Nat} {fl : Fl} (w : Steady f s u) : Steady f s (arFail s0 u j status fl detail) := by
  have hsum {x : State} (hx : Steady f s x) : Steady f s (arFailSum x j) := ite (ite hx (modTen (fun _ => rfl) hx)) hx
  exact finishJob (perfAdd (hsum (ite w.raiseEvent w)))

theorem abortOp {s0 : State} {k : Nat} {o : CollOpn} {cause origin : Nat} {sender : Option Nat} {status detail : Nat} (w : Steady f s u) :
    Steady f s (abortOp s0 u k o cause origin sender status detail) := by
  unfold Machine.abortOp
  dsimp only
  generalize hx : List.foldl _ _ _ = x
  have hsent : Steady f s x := hx ▸ Steady.foldl (fun _ hy => hy.collSend) (ite w.others.others.freeOp w.others.others)
  split
  exacts [hsent.arFail, hsent]

theorem collTenant {t status : Nat} (w : Steady f s u) : Steady f s (collTenant u t status) :=
  others (w.foldl (fun _ hx => ite hx hx.raiseEvent.abortOp))

theorem collLamb (w : Steady f s u) : Steady f s (collLamb u) := w.foldl (fun _ hx => ite hx hx.raiseEvent.abortOp)

/-! Arrays, cores, systems, groups, the agent, Hen. -/

theorem dropHeld {a : Nat} {used : Bool} (w : Steady f s u) : Steady f s (dropHeld u a used) := by
  unfold Machine.dropHeld
  split
  exacts [w.others.perfAdd, w]

theorem oxTenant {t : Nat} (w : Steady f s u) : Steady f s (oxTenant u t) :=
  w.foldl (fun _ hx => ite (ite hx.dropHeld hx).others (ite hx.dropHeld hx))

theorem muleTenant {t : Nat} (w : Steady f s u) : Steady f s (muleTenant u t) :=
  others (w.foldl (fun _ hx => hx.foldl (fun _ hy => hy.others)))

theorem releaseSystems {t : Nat} (w : Steady f s u) : Steady f s (releaseSystems u t) := w.others

theorem dropStaged {k : Nat} {r : PfRun} (w : Steady f s u) : Steady f s (dropStaged u k r) := ite w w.others.raiseEvent.perfAdd

theorem drakeTenant {t : Nat} (w : Steady f s u) : Steady f s (drakeTenant u t) :=
  others (w.foldl (fun _ hx => hx.foldl (fun _ hy => hy.dropStaged)))

theorem henTenant {t : Nat} (w : Steady f s u) : Steady f s (henTenant u t) := by
  unfold Machine.henTenant Machine.restAborts
  exact others (others (ite (ite w.others.others.raiseEvent w.others) w.others))

theorem bumpEpoch {b : Block} {i : Nat} (w : Steady f s u) : Steady f s (bumpEpoch u b i) := w.modPage (fun _ => rfl) (fun _ _ e => e)

end Endings

section Agent

variable {α : Type} {g : Pwr → α} {s u : State}

theorem xagTenant {t : Nat} (w : Steady (fun _ => g) s u) : Steady (fun _ => g) s (xagTenant u t) := by
  unfold Machine.xagTenant
  dsimp only
  generalize hx : List.foldl _ u _ = x
  have hresp : Steady (fun _ => g) s x := hx ▸ w.foldl (fun _ hy => hy.respond)
  exact releaseNotices (dropTenantLines (hresp.units rfl id))

end Agent

end Sys2Proof.Machine.Steady
end

section
/-! PROOFS. Ownership: claim, release, force, and the end of a release (R612 to R616, R641). -/

namespace Sys2Proof.Machine

/-! The rows of the command table. -/

theorem exec_ownCtrlClaim (r : Requester) (s : State) : exec (.ownCtrlClaim r) s = .next (whenLive s (doCtrlClaim s r)) := rfl
theorem exec_ownCtrlRelease (r : Requester) (s : State) : exec (.ownCtrlRelease r) s = .next (whenLive s (doCtrlRelease s r)) := rfl

/-! Every tenant reset (R633, R634). -/

/-- The tenants in reset stay so, and the host interface keeps all but its vectors. -/
structure Resets (s u : State) : Prop where
  hostIf : ∃ v, u.hostIf = { s.hostIf with msix := v }
  resetting : ∀ t, (ten s t).resetting = true → (ten u t).resetting = true

theorem Resets.trans {s u v : State} (h : Resets s u) (k : Resets u v) : Resets s v := by
  obtain ⟨x, hx⟩ := h.hostIf
  obtain ⟨y, hy⟩ := k.hostIf
  exact ⟨⟨y, by rw [hy, hx]⟩, fun t e => k.resetting t (h.resetting t e)⟩

theorem Resets.refl (s : State) : Resets s s := ⟨⟨_, rfl⟩, fun _ e => e⟩

theorem Steady.resets {α : Type} {f : Xag → Pwr → α} {s u : State} (w : Steady f s u) : Resets s u :=
  ⟨w.hostIf, fun t e => (w.resetting t).trans e⟩

/-- The state in which a tenant's reset begins (R634). -/
abbrev resetBegun (s : State) (t : Nat) : State := modTen s t (fun x => { x with resetting := true, done := false })

theorem ten_resetBegun (s : State) (t k : Nat) : (ten (resetBegun s t) k).resetting = (decide (t = k) || (ten s k).resetting) := by
  simp only [ten, resetBegun, modTen, tabGet_tabMod]
  by_cases h : t = k <;> simp [h]

theorem steady_startReset {s : State} {t : Nat} (ht : t < 512) (h : (ten s t).resetting = false) :
    Steady (fun _ p => p) (resetBegun s t) (startReset s t) := by
  have hend : Steady (fun _ p => p) (resetBegun s t) (endCommands (resetBegun s t) t 0x21) := (Steady.refl _ _).endCommands
  have hgen : Steady (fun _ p => p) (resetBegun s t)
      (modTen (endCommands (resetBegun s t) t 0x21) t (fun x => { x with gen := (x.gen + 1) % 2 ^ 16 })) := hend.modTen (fun _ => rfl)
  have hcoll := hgen.bumpEpoch (b := .ten) (i := t) |>.oxTenant (t := t) |>.collTenant (t := t) (status := 0x21)
  rw [startReset, if_neg (by simp [h]; omega)]
  exact ((((hcoll.units rfl (fun e => by rw [e]; rfl)).muleTenant.releaseSystems.drakeTenant).xagTenant).henTenant)

theorem resets_startReset (s : State) {t : Nat} (ht : t < 512) : Resets s (startReset s t) ∧ (ten (startReset s t) t).resetting = true := by
  by_cases h : (ten s t).resetting = true
  · have hsame : startReset s t = s := by rw [startReset, if_pos (by simp [h])]
    rw [hsame]
    exact ⟨.refl s, h⟩
  · have w := steady_startReset ht (Bool.eq_false_iff.2 h)
    have hbegin : Resets s (resetBegun s t) := ⟨⟨_, rfl⟩, fun k e => by rw [ten_resetBegun, e, Bool.or_true]⟩
    exact ⟨hbegin.trans w.resets, w.resets.resetting t (by rw [ten_resetBegun]; simp)⟩

theorem resets_foldl_startReset (l : List Nat) (hl : ∀ t ∈ l, t < 512) (s : State) :
    Resets s (l.foldl startReset s) ∧ ∀ t ∈ l, (ten (l.foldl startReset s) t).resetting = true := by
  induction l generalizing s with
  | nil => exact ⟨.refl s, fun _ h => absurd h List.not_mem_nil⟩
  | cons k l ih =>
    obtain ⟨hk, hset⟩ := resets_startReset s (hl k List.mem_cons_self)
    obtain ⟨hrest, hall⟩ := ih (fun t h => hl t (List.mem_cons_of_mem _ h)) (startReset s k)
    refine ⟨hk.trans hrest, fun t ht => ?_⟩
    rcases List.mem_cons.1 ht with rfl | ht
    · exact hrest.resetting _ hset
    · exact hall t ht

/-- R615: a release makes the node RELEASING, and every tenant is reset. -/
theorem startRelease_own (s : State) : (startRelease s).hostIf.own = 2 ∧ ∀ t < 512, (ten (startRelease s) t).resetting = true := by
  unfold startRelease resetAll
  dsimp only
  generalize hx : List.foldl _ { s with hostIf := { s.hostIf with own := 2, relSealed := false } } _ = x
  have w : Steady (fun _ p => p) { s with hostIf := { s.hostIf with own := 2, relSealed := false } } x :=
    hx ▸ (Steady.refl _ _).foldl (fun _ hy => hy.foldl (fun _ hz => hz.flushFetched))
  obtain ⟨hres, hall⟩ := resets_foldl_startReset (List.range 512) (fun t => List.mem_range.1) x
  obtain ⟨v, hv⟩ := (w.resets.trans hres).hostIf
  exact ⟨by rw [hv], fun t ht => hall t (List.mem_range.2 ht)⟩

/-! Shared sets retired (R383, R478). -/

theorem spad_modSpad_of_ne {s : State} {d e : Nat} (h : d ≠ e) (f : Spad → Spad) : spad (modSpad s d f) e = spad s e := by
  simp [spad, modSpad, h]

theorem sets_retireSet (s : State) (d k e : Nat) :
    (spad (retireSet s d k) e).sets = if d = e then tabDel (spad s e).sets k else (spad s e).sets := by
  split
  · next h => rw [← h, (spad_retireSet s d k).1]
  · next h =>
    unfold retireSet
    dsimp only
    rw [spad_modSpad_of_ne h]
    have hz := ((storedFrom_zeroOpen s (upperPage d (sharedSet s d k).first) ((sharedSet s d k).pages * 4096)).trans
      (storedFrom_zeroOpen _ (goldenPage d (sharedSet s d k).first) ((sharedSet s d k).pages * 4096))).trans
      ((storedFrom_zeroOpen _ (digestAt d (sharedSet s d k).first 0) ((sharedSet s d k).pages * 32)).trans
        (storedFrom_zeroOpen _ (digestAt d (sharedSet s d k).first 1) ((sharedSet s d k).pages * 32)))
    exact (hz.spad_eq e).2

/-- The sets of a list retired are gone from their die; the other die's are as they were. -/
theorem sets_foldl_retireSet (d : Nat) (l : List (Nat × SharedSet)) (s : State) :
    (∀ k, (tabFind (spad s d).sets k = none ∨ ∃ e ∈ l, e.1 = k) → tabFind (spad (l.foldl (fun y e => retireSet y d e.1) s) d).sets k = none)
      ∧ ∀ e, e ≠ d → (spad (l.foldl (fun y e => retireSet y d e.1) s) e).sets = (spad s e).sets := by
  induction l generalizing s with
  | nil => exact ⟨fun k h => h.elim id (fun ⟨_, he, _⟩ => absurd he List.not_mem_nil), fun _ _ => rfl⟩
  | cons x l ih =>
    obtain ⟨hself, hother⟩ := ih (retireSet s d x.1)
    refine ⟨fun k h => hself k ?_, fun e he => (hother e he).trans (by rw [sets_retireSet, if_neg he.symm])⟩
    rw [sets_retireSet, if_pos rfl, tabFind_tabDel]
    by_cases hk : x.1 = k
    · exact .inl (if_pos hk)
    · rcases h with h | ⟨e, he, hek⟩
      · exact .inl (by rw [if_neg hk, h])
      · rcases List.mem_cons.1 he with rfl | he
        · exact absurd hek hk
        · exact .inr ⟨e, he, hek⟩

/-- R478, R615: once the ledger has drained, or the time is over, the node is ZEROING and its shared sets are retired. -/
theorem doLedgerWaitEnd_zeroing {s : State} {timedOut : Bool} (hown : s.hostIf.own = 2) (hsealed : s.hostIf.relSealed = true)
    (hlamb : s.mgmt.lamb = false) (hend : timedOut = true ∨ s.ledger.wr = s.ledger.rd) :
    (doLedgerWaitEnd s timedOut).hostIf.own = 3 ∧ (doLedgerWaitEnd s timedOut).hostIf.vfEnable = false
      ∧ ∀ d < 2, ∀ e ∈ (spad s d).sets, sharedSet (doLedgerWaitEnd s timedOut) d e.1 = {} := by
  have hgo : (timedOut || s.ledger.wr == s.ledger.rd) = true := by simpa using hend
  let z : State := { s with hostIf := { s.hostIf with own := 3, vfEnable := false, numVfs := 0 } }
  let y := (spad z 0).sets.foldl (fun y e => retireSet y 0 e.1) z
  have heq : doLedgerWaitEnd s timedOut = (spad y 1).sets.foldl (fun y e => retireSet y 1 e.1) y := by
    rw [doLedgerWaitEnd, hown, hsealed, hlamb, hgo]
    rfl
  have w : Steady (fun _ p => p) z (doLedgerWaitEnd s timedOut) := by
    rw [heq]
    exact ((Steady.refl _ z).foldl (fun _ hx => hx.retireSet)).foldl (fun _ hx => hx.retireSet)
  obtain ⟨v, hv⟩ := w.hostIf
  obtain ⟨h0, h1⟩ := sets_foldl_retireSet 0 (spad z 0).sets z
  obtain ⟨k1, k0⟩ := sets_foldl_retireSet 1 (spad y 1).sets y
  refine ⟨by rw [hv], by rw [hv], fun d hd e he => ?_⟩
  rw [heq, sharedSet, tabGet]
  obtain rfl | rfl : d = 0 ∨ d = 1 := by omega
  · rw [k0 0 (by decide), h0 e.1 (.inr ⟨e, he, rfl⟩)]
    rfl
  · rw [k1 e.1 (.inr ⟨e, by rw [h1 1 (by decide)]; exact he, rfl⟩)]
    rfl

/-! The end of the release (R615, step 5). -/

/-- What an owner change clears, but for the pages and the ledger. -/
def wiped (s : State) : State := { s with
  mem := {}, poison := [], dark := [], darkPoison := [], memErrs := [], darkErrs := [], sealedG := [], seals := []
  spads := tabMap s.spads (fun _ x => { x with sets := [], wd := [] })
  tenants := tabMap s.tenants (fun _ x => { gen := x.gen, done := x.done })
  hen := {}, drakes := [], solvs := [], coll := { s.coll with ops := [], held := [] }, arbs := []
  oxs := tabMap s.oxs (fun _ x => { x with
    held := none, bank := 0, bank0 := {}, bank1 := {}, acc0 := [], acc1 := [], recomb := [], accNext := 0, accUse := [], owing := [] })
  xag := { peerEpoch := s.xag.peerEpoch, peerGen := s.xag.peerGen, nextTag := s.xag.nextTag, nextRmw := s.xag.nextRmw } }

theorem clearOwned_eq (s : State) : ∃ p l, clearOwned s = { wiped s with pages := p, ledger := l } := by
  have hfold : ∃ p, (List.range 512).foldl (fun x t =>
      if (tabFind x.pages (pageKey .ten t)).isSome then clearPage x .ten t (fun _ => false) else x) (wiped s) = { wiped s with pages := p } := by
    refine List.foldlRecOn (motive := fun (y : State) => ∃ p, y = { wiped s with pages := p }) _ _ ⟨(wiped s).pages, rfl⟩ ?_
    rintro y ⟨p, rfl⟩ t -
    split
    exacts [⟨_, rfl⟩, ⟨p, rfl⟩]
  obtain ⟨p, hp⟩ := hfold
  have hagent : ∃ q, (if (tabFind ({ wiped s with pages := p } : State).pages (pageKey .xag 0)).isSome then
      clearPage { wiped s with pages := p } .xag 0 (fun off => off == 0x104) else { wiped s with pages := p }) = { wiped s with pages := q } := by
    split
    exacts [⟨_, rfl⟩, ⟨p, rfl⟩]
  obtain ⟨q, hq⟩ := hagent
  have heq : clearOwned s = clearLedger { wiped s with pages := q } := by
    rw [← hq, ← hp]
    rfl
  exact ⟨_, _, heq⟩

theorem tabFind_tabMap {α : Type} (t : Tab α) (f : Nat → α → α) (k : Nat) : tabFind (tabMap t f) k = (tabFind t k).map (f k) := by
  induction t with
  | nil => rfl
  | cons e t ih =>
    obtain ⟨j, x⟩ := e
    by_cases h : j = k
    · subst h
      simp [tabMap, tabFind]
    · simpa [tabMap, tabFind, h] using ih

theorem ten_wiped {s u : State} (h : u.tenants = (wiped s).tenants) (t : Nat) : ten u t = { gen := (ten s t).gen, done := (ten s t).done } := by
  rw [ten, h, wiped, tabGet, tabFind_tabMap, ten, tabGet]
  cases tabFind s.tenants t <;> rfl

/-- R615, step 5: the node is UNOWNED, and what it held is gone. -/
theorem doZeroingEnd_unowned {s : State} (hown : s.hostIf.own = 3) (hlamb : s.mgmt.lamb = false) :
    (doZeroingEnd s).hostIf.own = 0 ∧ (∀ a, memByte (doZeroingEnd s) a = 0) ∧ (doZeroingEnd s).poison = []
      ∧ (doZeroingEnd s).sealedG = [] ∧ (doZeroingEnd s).hostIf.zreq = []
      ∧ (∀ t, ten (doZeroingEnd s) t = { gen := (ten s t).gen, done := (ten s t).done })
      ∧ .notice 1 [0] ∈ (doZeroingEnd s).out ∧ (page (doZeroingEnd s) .host 0).event.getLsbD 2 = true := by
  obtain ⟨p, l, hclear⟩ := clearOwned_eq s
  obtain ⟨x, hx, heq⟩ : ∃ x : State, ({ wiped s with pages := p, ledger := l, hostIf := { s.hostIf with
        own := 0, viaPf := false, eid := 0, smbus := false, zreq := [], relSealed := false, sealBusy := false, sealRefused := false,
        barWait := [] } } : State) = x ∧ doZeroingEnd s = ownChanged x := by
    refine ⟨_, rfl, ?_⟩
    rw [doZeroingEnd, hown, hlamb]
    simp only [hclear]
    rfl
  have hrec : Recorded x (ownChanged x) := (Recorded.raiseEvent x .host 0 2).trans (.emit _ _)
  obtain ⟨v, hv⟩ := hrec.hostIf
  rw [heq]
  refine ⟨by rw [hv, ← hx], fun a => by rw [memByte, hrec.mem, ← hx]; rfl, by rw [hrec.poison, ← hx]; rfl, by rw [hrec.sealedG, ← hx]; rfl,
    by rw [hv, ← hx], ten_wiped (by rw [hrec.tenants, ← hx]), ?_, event_raiseEvent_self _ _ _ (by decide)⟩
  exact List.mem_append_right _ (List.mem_singleton.2 (by rw [← hx]))

/-! Writes of OWN_CTRL (R613 to R616). -/

@[simp] theorem opened_own (s : State) (r : Requester) (b : Block) (i off : Nat) : (opened s r b i off).hostIf = s.hostIf := by simp [opened]

section Ctrl

variable {s : State} (hr : atPage s .pf .host 0 = true)
include hr

theorem doCtrlClaim_atPage : doCtrlClaim s .pf
    = if s.hostIf.own ≠ 0 then regError (raiseEvent (opened s .pf .host 0 0x108) .host 0 6) .host 0 0x108
      else if s.mgmt.lamb then regError (opened s .pf .host 0 0x108) .host 0 0x108
      else claimFor (opened s .pf .host 0 0x108) true 0 false := by
  simp [doCtrlClaim, regAccess_atPage hr]

theorem doCtrlRelease_atPage (hlamb : s.mgmt.lamb = false) (hown : s.hostIf.own ≠ 0) : doCtrlRelease s .pf
    = if s.hostIf.own = 1 then startRelease (opened s .pf .host 0 0x108) else opened s .pf .host 0 0x108 := by
  simp [doCtrlRelease, regAccess_atPage hr, hlamb, hown]

end Ctrl

/-- A register write that is ignored sets ERR_STATUS and leaves the events (R736). -/
theorem page_regError_self (s : State) (b : Block) (i off : Nat) :
    (page (regError s b i off) b i).errValid = true ∧ (page (regError s b i off) b i).event = (page s b i).event := by
  have heq : regError s b i off = modPage s b i (noteErr 1 (off / 4) (0xF000000000 + blkBase b + 0x1000 * i + off) (if b = .ten then i else 0xFFF)) := by
    rw [regError, blkError]
    rfl
  rw [heq, page_modPage, if_pos rfl]
  unfold noteErr
  split
  · next h => exact ⟨h, rfl⟩
  · exact ⟨rfl, rfl⟩

/-- R614: a refused claim leaves the owner, and shows that the claimant is not. -/
theorem claimRefused (s : State) (r : Requester) :
    let u := regError (raiseEvent (opened s r .host 0 0x108) .host 0 6) .host 0 0x108
    u.hostIf.own = s.hostIf.own ∧ u.hostIf.eid = s.hostIf.eid ∧ (page u .host 0).event.getLsbD 6 = true ∧ (page u .host 0).errValid = true := by
  intro u
  have hrec : Recorded s u := ((Recorded.opened s r .host 0 0x108).trans (.raiseEvent _ .host 0 6)).trans (.blkError _ _ _ _ _ _ _)
  obtain ⟨v, hv⟩ := hrec.hostIf
  obtain ⟨herr, hev⟩ := page_regError_self (raiseEvent (opened s r .host 0 0x108) .host 0 6) .host 0 0x108
  refine ⟨by rw [hv], by rw [hv], ?_, herr⟩
  rw [hev]
  exact event_raiseEvent_self _ _ _ (by decide)

/-! Messages (R613 to R616, R637). -/

section Message

variable {s : State} {src : McSender} (hup : mctpUp s src.smbus = true) (hrun : s.mgmt.restarting = false)
include hup hrun

theorem doOwnClaim_up : doOwnClaim s src = if s.hostIf.own ≠ 0 then refuseOwner (heard s) src
    else if s.mgmt.lamb then reply (heard s) src aqtanBusy [] else reply (claimFor (heard s) false src.eid src.smbus) src aqtanOk [] := by
  rw [doOwnClaim, aqtanIn_up hup hrun, perfAdd_hostIf, perfAdd_mgmt]
  exact if_congr (by simp) rfl rfl

theorem doOwnRelease_up : doOwnRelease s src = if isOwner s src then releaseFor (heard s) src else refuseOwner (heard s) src := by
  rw [doOwnRelease, aqtanIn_up hup hrun, isOwner_heard]

theorem doOwnForce_up : doOwnForce s src = if isAuthority s src then releaseFor (heard s) src else refuseOwner (heard s) src := by
  rw [doOwnForce, aqtanIn_up hup hrun, isAuthority_heard]

end Message

/-- R615: a release asked by one who may begins. -/
theorem releaseFor_own {s : State} (src : McSender) (hown : s.hostIf.own = 1) (hlamb : s.mgmt.lamb = false) :
    (releaseFor (heard s) src).hostIf.own = 2 := by
  have hrel := (startRelease_own (heard s)).1
  rw [releaseFor, perfAdd_mgmt, perfAdd_hostIf, hlamb, hown, if_neg Bool.false_ne_true, if_pos rfl]
  generalize startRelease (heard s) = x at hrel ⊢
  exact hrel

/-- Settles O53, a command at a time. -/
theorem ownershipChanges : Obligations.OwnershipChanges := by
  intro s hlive
  refine ⟨?_, fun src hup hrun => ⟨fun hown hlamb => ?_, fun hown => ?_, ?_, fun hnot => ?_, fun his hown hlamb => ?_, fun hnot => ?_,
    fun his hown hlamb => ?_⟩, fun timedOut hown hsealed hlamb hend => ?_, fun hown hlamb => ?_⟩
  · rintro r hr rfl
    refine ⟨fun hown hlamb => ?_, fun hown => ?_, fun hown hlamb => ?_, fun hown hlamb => ?_⟩
    · rw [exec_ownCtrlClaim, doCtrlClaim_atPage hr]
      simp [hown, hlamb]
    · refine next_of_live hlive ?_
      rw [doCtrlClaim_atPage hr, if_pos hown]
      exact claimRefused s .pf
    · refine next_of_live hlive ?_
      rw [doCtrlRelease_atPage hr hlamb (by omega), if_pos hown]
      obtain ⟨hrel, hall⟩ := startRelease_own (opened s .pf .host 0 0x108)
      generalize startRelease (opened s .pf .host 0 0x108) = x at hrel hall ⊢
      exact ⟨hrel, fun t ht _ => hall t ht⟩
    · rw [exec_ownCtrlRelease, doCtrlRelease_atPage hr hlamb (by omega), if_neg (by omega)]
  · rw [exec_ownClaim, doOwnClaim_up hup hrun, hown, hlamb]
    rfl
  · rw [exec_ownClaim, doOwnClaim_up hup hrun, if_pos hown]
  · rw [exec_ownStatus, doOwnStatus, aqtanIn_up hup hrun]
    rfl
  · rw [exec_ownRelease, doOwnRelease_up hup hrun, hnot]
    rfl
  · refine next_of_live hlive ?_
    rw [doOwnRelease_up hup hrun, if_pos his]
    exact releaseFor_own src hown hlamb
  · rw [exec_ownForce, doOwnForce_up hup hrun, hnot]
    rfl
  · refine next_of_live hlive ?_
    rw [doOwnForce_up hup hrun, if_pos his]
    exact releaseFor_own src hown hlamb
  · exact next_of_live hlive (doLedgerWaitEnd_zeroing hown hsealed hlamb hend)
  · exact next_of_live hlive (doZeroingEnd_unowned hown hlamb)

end Sys2Proof.Machine
end

section
/-! PROOFS. Lamb mode (19.8): what each part of the entry does, and what the parts before and after it leave. -/

namespace Sys2Proof.Machine

theorem steady_bar0Count (s : State) (r : Requester) : Steady (fun _ p => p) s (bar0Count s r) := by
  unfold bar0Count
  cases r with
  | mgmt | cfg => exact .refl _ s
  | pf | vf => exact .ite (.perfAdd (.refl _ s)) (.refl _ s)

theorem steady_opened (s : State) (r : Requester) (b : Block) (i off : Nat) : Steady (fun _ p => p) s (opened s r b i off) := by
  unfold opened useStaged
  exact .ite (steady_bar0Count s r) (.modPage (fun _ => rfl) (fun _ _ e => e) (steady_bar0Count s r))

namespace Steady

section Anything

variable {α : Type} {f : Xag → Pwr → α} {s u : State}

/-! The units that Drake's commands and prefetches hold (R745, steps 1 to 3). -/

theorem fillRest {t n : Nat} {c : Cmd} (w : Steady f s u) : Steady f s (fillRest u t c n) := ite w.tokenAdd.tokenErr w

theorem pfCancel {k : Nat} {j : Job} (w : Steady f s u) : Steady f s (pfCancel u k j) := by
  unfold Machine.pfCancel
  split
  · exact w
  · split
    exacts [markReady (others (fillRest w.dropStaged)), w.fillRest.markReady]

theorem dropRuns {k : Nat} (w : Steady f s u) : Steady f s (dropRuns u k) := others (w.foldl (fun _ hx => hx.dropStaged))

/-! Seals and entries of the ledger (R470). -/

theorem sealFree {c : Nat} (w : Steady f s u) : Steady f s (sealFree u c) := ite (raiseEvent w.others) (ledgerDue w.others)

theorem sealGained (w : Steady f s u) : Steady f s (sealGained u) := w.foldl (fun _ hx => ite hx.sealFree hx)

theorem sealAsked (w : Steady f s u) : Steady f s (sealAsked u) := w.foldl (fun _ hx => ite (sealFree hx.others) hx)

theorem linkLost {n : Nat} (w : Steady f s u) : Steady f s (linkLost u n) := by
  unfold Machine.linkLost
  exact ite w (raiseEvent (modPage (fun _ => rfl) (fun _ _ e => e)
    (Steady.foldl (fun _ hx => hx.leaveInput) (modLink (fun _ => rfl) w))))

end Anything

end Steady

/-- The frequency in force of a domain, as the power unit has it. -/
def domClock (p : Pwr) (d : Nat) : Option Nat := (tabGet {} p.doms d).mhz

namespace Steady

variable {s u : State}

/-! Episodes that end (R674): no domain's clock changes. -/

theorem liftCaps (w : Steady (fun _ => domClock) s u) : Steady (fun _ => domClock) s (liftCaps u) := by
  have hdom {x : State} (d : Nat) (hx : Steady (fun _ => domClock) s x) :
      Steady (fun _ => domClock) s (modDom x d (fun y => { y with cap := none })) := by
    refine units (funext fun k => ?_) id hx
    unfold domClock
    rw [tabGet_tabMod]
    split
    · next h => rw [h]
    · rfl
  exact ite w (foldl (fun d hx => hdom d hx) w)

theorem endEpisode {c us : Nat} (w : Steady (fun _ => domClock) s u) : Steady (fun _ => domClock) s (endEpisode u c us) :=
  emit (ledgerDrain (overrideEntry (perfAdd (liftCaps (units rfl id w)))))

theorem endLinkOverride {n : Nat} (w : Steady (fun _ => domClock) s u) : Steady (fun _ => domClock) s (endLinkOverride u n) :=
  ite (emit (ledgerRun (overrideEntry (perfAdd (units rfl id (modLink (fun _ => rfl) w)))))) w

theorem endEpisodes (w : Steady (fun _ => domClock) s u) : Steady (fun _ => domClock) s (endEpisodes u) := by
  unfold Machine.endEpisodes
  dsimp only
  generalize hx : List.foldl _ u _ = x
  have hcauses : Steady (fun _ => domClock) s x := hx ▸ w.foldl (fun _ hy => ite (endEpisode hy.others) hy)
  exact hcauses.foldl (fun _ hy => ite hy.endLinkOverride hy)

theorem linkMoved {before : List Nat} {n : Nat} (w : Steady (fun _ => domClock) s u) : Steady (fun _ => domClock) s (linkMoved before u n) :=
  checkSplits (routesChanged (ite w.endLinkOverride w))

end Steady

/-! The entry into Lamb mode, step by step (R745). -/

/-- `u` has entered Lamb mode from `s` for the cause `c`, and no block has changed its STATE yet. -/
structure Entered (s : State) (c : Nat) (u : State) : Prop where
  lamb : u.mgmt.lamb = true
  cause : u.mgmt.lambCause = c
  restarting : u.mgmt.restarting = s.mgmt.restarting
  states : ∀ b i, blkState u b i = blkState s b i

theorem Steady.entered {α : Type} {f : Xag → Pwr → α} {s u v : State} {c : Nat} (w : Steady f u v) (h : Entered s c u) : Entered s c v := by
  obtain ⟨l, k, o, hm⟩ := w.mgmt
  exact ⟨by rw [hm]; exact h.lamb, by rw [hm]; exact h.cause, by rw [hm]; exact h.restarting, fun b i => (w.states b i).trans (h.states b i)⟩

/-- What a link that is disabled leaves of the others, and its own state (R745, step 4). -/
theorem disableLink_steps (s : State) (n : Nat) : ∃ x, Steady (fun _ => domClock) s x
    ∧ Steady (fun _ => domClock) (modLink (linkIdle x n 0) n (fun l => { l with attempts := 0 })) (disableLink s n) :=
  ⟨linkLost s n, (Steady.refl _ s).linkLost, (Steady.refl _ _).linkMoved⟩

theorem st_disableLink (s : State) (n k : Nat) : (lnk (disableLink s n) k).st = if n = k then 0 else (lnk s k).st := by
  obtain ⟨x, hx, hu⟩ := disableLink_steps s n
  rw [hu.links, lnk_modLink, ← hx.links]
  simp only [linkIdle, lnk_modLink]
  split <;> rfl

theorem entered_disableLink {s u : State} {c : Nat} (n : Nat) (h : Entered s c u) (hj : u.jobs = []) :
    Entered s c (disableLink u n) ∧ (disableLink u n).jobs = [] := by
  obtain ⟨x, hx, hu⟩ := disableLink_steps u n
  obtain ⟨hlamb, hcause, hrestart, hstates⟩ := hx.entered h
  exact ⟨hu.entered ⟨hlamb, hcause, hrestart, hstates⟩, hu.jobs (hx.jobs hj)⟩

/-- Every link listed is DISABLED, and the others stay as they are. -/
theorem st_foldl_disableLink (l : List Nat) (s : State) (k : Nat) :
    (lnk (l.foldl disableLink s) k).st = if k ∈ l then 0 else (lnk s k).st := by
  induction l generalizing s with
  | nil => rfl
  | cons n l ih =>
    rw [List.foldl_cons, ih, st_disableLink]
    by_cases hl : k ∈ l
    · simp [hl]
    · by_cases hn : n = k
      · simp [hn]
      · simp [hl, hn, Ne.symm hn]

theorem lnk_of_notMem {s : State} {k : Nat} (h : k ∉ s.links.map (·.1)) : (lnk s k).st = 0 := by
  have hnone : tabFind s.links k = none := by
    generalize s.links = l at h
    induction l with
    | nil => rfl
    | cons e l ih =>
      obtain ⟨hne, hl⟩ := by simpa [not_or] using h
      rw [tabFind, if_neg (Ne.symm hne)]
      exact ih (by simpa using hl)
  rw [lnk, tabGet, hnone]
  rfl

/-- R745, steps 1 to 4: no job, every link DISABLED, the three clocks at 0. -/
structure Halted (u : State) : Prop where
  jobs : u.jobs = []
  links : ∀ n, (lnk u n).st = 0
  clocks : ∀ d < 3, domClock u.pwr d = some 0

theorem Steady.halted {u v : State} (w : Steady (fun _ => domClock) u v) (h : Halted u) : Halted v :=
  ⟨w.jobs h.jobs, fun n => (w.links n).trans (h.links n), fun d hd => (congrFun w.kept d).trans (h.clocks d hd)⟩

/-- The clocks of the three domains stop, and nothing but the power unit changes. -/
theorem lambPower_eq (s : State) : ∃ p, lambPower s = { s with pwr := p } ∧ ∀ d < 3, domClock p d = some 0 := by
  have hgrp : ∃ p, pwrGroups.foldl (fun x g => modGrp x g (fun y => { y with grant := if g = 5 || g = 9 || g = 10 then y.grant else 0 })) s
      = { s with pwr := p } := by
    refine List.foldlRecOn (motive := fun (y : State) => ∃ p, y = { s with pwr := p }) _ _ ⟨s.pwr, rfl⟩ ?_
    rintro y ⟨p, rfl⟩ g -
    exact ⟨_, rfl⟩
  obtain ⟨p, hp⟩ := hgrp
  have hclock {d : Nat} (hd : d < 3) : (pwrDom (lambPower s) d).mhz = some 0 := by
    unfold lambPower
    obtain rfl | rfl | rfl : d = 0 ∨ d = 1 ∨ d = 2 := by omega
    all_goals simp [pwrDom_modDom]
  refine ⟨(lambPower s).pwr, ?_, fun d hd => hclock hd⟩
  unfold lambPower
  rw [hp]
  rfl

theorem lambStop_halts {s s0 : State} {c : Nat} (h : Entered s0 c s) : Entered s0 c (lambStop s) ∧ Halted (lambStop s) := by
  unfold lambStop
  dsimp only
  generalize hx : collLamb _ = x
  have hended : Steady (fun _ => domClock) s x := hx ▸ Steady.collLamb (Steady.foldl (fun _ hy => hy.endCommands)
    (Steady.foldl (fun _ hy => hy.dropRuns) (Steady.foldl (fun _ hy => hy.foldl (fun _ hz => hz.pfCancel)) (.refl _ s))))
  obtain ⟨hlamb, hcause, hrestart, hstates⟩ := hended.entered h
  generalize hy : ({ x with jobs := [], mgmt := { x.mgmt with fenced := [], resetting := [], mmBusy := false } } : State) = y
  have hbegun : Entered s0 c y ∧ y.jobs = [] := by subst hy; exact ⟨⟨hlamb, hcause, hrestart, hstates⟩, rfl⟩
  obtain ⟨hin, hjobs⟩ := List.foldlRecOn (motive := fun (z : State) => Entered s0 c z ∧ z.jobs = []) (y.links.map (·.1)) disableLink hbegun
    (fun z hz n _ => entered_disableLink n hz.1 hz.2)
  have hlinks (n : Nat) : (lnk ((y.links.map (·.1)).foldl disableLink y) n).st = 0 := by
    rw [st_foldl_disableLink]
    split
    · rfl
    · next hn => exact lnk_of_notMem hn
  have heq : x.links.map (·.1) = y.links.map (·.1) := by rw [← hy]
  rw [heq]
  generalize List.foldl disableLink y (y.links.map (·.1)) = z at hin hjobs hlinks ⊢
  obtain ⟨p, hp, hclocks⟩ := lambPower_eq z
  rw [hp]
  obtain ⟨hlamb, hcause, hrestart, hstates⟩ := hin
  exact ⟨⟨hlamb, hcause, hrestart, hstates⟩, hjobs, hlinks, hclocks⟩

/-! The STATE of the blocks (R745, step 6). -/

/-- What each step of a fold keeps, and the step of one member brings about. -/
theorem foldl_reaches {β : Type} {P Q : State → Prop} {step : State → β → State} {l : List β} {a : β} {s : State} (ha : a ∈ l)
    (hP : ∀ x b, P x → P (step x b)) (hQ : ∀ x b, Q x → Q (step x b)) (hreach : ∀ x, P x → Q (step x a)) (h : P s) :
    Q (l.foldl step s) := by
  obtain ⟨l, r, rfl⟩ := List.append_of_mem ha
  rw [List.foldl_append, List.foldl_cons]
  exact List.foldlRecOn (motive := Q) r step (hreach _ (List.foldlRecOn (motive := P) l step h (fun x hx b _ => hP x b hx)))
    (fun x hx b _ => hQ x b hx)

/-- A block in use as Lamb mode finds it reads LAMB, and nothing else changes. -/
def lambBlock (b : Block) (x : State) (i : Nat) : State := if blkState x b i = 0 || blkState x b i = 6 then x else setBlkState x b i 5

/-- The instances of a block, none of those that go on. -/
def lambBlocks (x : State) (b : Block) : State := if lambKeeps b then x else (List.range (blkCount b)).foldl (lambBlock b) x

theorem lambStates_eq (s : State) : lambStates s = blkList.foldl lambBlocks s := rfl

theorem blkState_setBlkState_cases (s : State) (b c : Block) (i k v : Nat) :
    blkState (setBlkState s b i v) c k = if pageKey b i = pageKey c k then v else blkState s c k := by
  unfold blkState setBlkState
  rw [page_modPage]
  split <;> rfl

theorem lambBlocks_keeps {P : State → Prop} (hP : ∀ x b i, P x → P (lambBlock b x i)) (x : State) (b : Block) (h : P x) : P (lambBlocks x b) := by
  unfold lambBlocks
  split
  exacts [h, List.foldlRecOn (motive := P) _ _ h (fun y hy i _ => hP y b i hy)]

theorem blkState_lambBlock (x : State) (b c : Block) (i k : Nat) : blkState (lambBlock b x i) c k = blkState x c k ∨ blkState (lambBlock b x i) c k = 5 := by
  unfold lambBlock
  split
  · exact .inl rfl
  · rw [blkState_setBlkState_cases]
    split
    exacts [.inr rfl, .inl rfl]

theorem blkState_lambStates {s : State} {b : Block} {i : Nat} (hb : lambKeeps b = false) (hi : i < blkCount b) (h0 : blkState s b i ≠ 0)
    (h6 : blkState s b i ≠ 6) : blkState (lambStates s) b i = 5 := by
  let Used (x : State) : Prop := blkState x b i ≠ 0 ∧ blkState x b i ≠ 6
  let Stopped (x : State) : Prop := blkState x b i = 5
  have hused (x : State) (c : Block) (k : Nat) (h : Used x) : Used (lambBlock c x k) := by
    rcases blkState_lambBlock x c b k i with e | e
    · simpa only [Used, e] using h
    · simp [Used, e]
  have hstopped (x : State) (c : Block) (k : Nat) (h : Stopped x) : Stopped (lambBlock c x k) :=
    (blkState_lambBlock x c b k i).elim (fun e => e.trans h) id
  rw [lambStates_eq]
  refine foldl_reaches (P := Used) (Q := Stopped) (a := b) (by cases b <;> decide) (lambBlocks_keeps hused) (lambBlocks_keeps hstopped)
    (fun x hx => ?_) ⟨h0, h6⟩
  rw [lambBlocks, if_neg (by simp [hb])]
  refine foldl_reaches (P := Used) (List.mem_range.2 hi) (fun y k => hused y b k) (fun y k => hstopped y b k) (fun y hy => ?_) hx
  obtain ⟨hy0, hy6⟩ := hy
  simp [Stopped, lambBlock, hy0, hy6]

/-- Nothing but pages changes. -/
theorem lambStates_pages (s : State) : ∃ p, lambStates s = { s with pages := p } := by
  rw [lambStates_eq]
  refine List.foldlRecOn (motive := fun (y : State) => ∃ p, y = { s with pages := p }) _ _ ⟨s.pages, rfl⟩ (fun x hx b _ => ?_)
  refine lambBlocks_keeps (P := fun y => ∃ p, y = { s with pages := p }) ?_ x b hx
  rintro y c i ⟨p, rfl⟩
  unfold lambBlock
  split
  exacts [⟨_, rfl⟩, ⟨_, rfl⟩]

/-- R745, R746: what Lamb mode of the cause `c` is, entered from `s`. -/
structure InLamb (s : State) (c : Nat) (u : State) : Prop where
  lamb : u.mgmt.lamb = true
  cause : u.mgmt.lambCause = c
  halted : Halted u
  states : s.mgmt.restarting = false →
    ∀ b i, lambKeeps b = false → i < blkCount b → blkState s b i ≠ 0 → blkState s b i ≠ 6 → blkState u b i = 5

theorem lambRecord_inLamb {s u : State} {c : Nat} (h : Entered s c u) (hh : Halted u) : InLamb s c (lambRecord u) := by
  have w : Steady (fun _ => domClock) u (ledgerRun (if (endEpisodes u).mgmt.lambCause = 4 then endEpisodes u else sealGained (endEpisodes u))) :=
    (Steady.ite (Steady.refl _ u).endEpisodes (Steady.refl _ u).endEpisodes.sealGained).ledgerRun
  unfold lambRecord
  dsimp only
  generalize ledgerRun _ = x at w ⊢
  obtain ⟨hlamb, hcause, hrestart, hstates⟩ := w.entered h
  obtain ⟨p, hp⟩ := lambStates_pages x
  have hblk := @blkState_lambStates x
  have hhx := w.halted hh
  rw [hp] at hblk ⊢
  have w' : Steady (fun _ => domClock) { x with pages := p } (emit (raiseEvent { x with pages := p } .mgmt 0 0) (.notice 3 [x.mgmt.lambCause])) :=
    (Steady.refl _ _).raiseEvent.emit
  obtain ⟨l, k, o, hm⟩ := w'.mgmt
  refine ⟨by rw [hm]; exact hlamb, by rw [hm]; exact hcause, w'.halted ⟨hhx.jobs, hhx.links, hhx.clocks⟩, fun _ b i hb hi h0 h6 => ?_⟩
  rw [w'.states]
  exact hblk hb hi (by rwa [hstates]) (by rwa [hstates])

/-- R744, R745: a live node outside Lamb mode enters it. -/
theorem enterLamb_inLamb {α : Type} {f : Xag → Pwr → α} {s x : State} (w : Steady f s x) (hlive : live s = true)
    (hlamb : s.mgmt.lamb = false) (c : Nat) : InLamb s c (enterLamb x c) := by
  obtain ⟨l, k, o, hm⟩ := w.mgmt
  have hno : ¬ (x.mgmt.lamb || x.mgmt.por || x.mgmt.tripped) = true := by
    rw [hm]
    simpa [live, hlamb] using hlive
  unfold enterLamb
  rw [if_neg hno]
  dsimp only
  generalize hy : ({ x with mgmt := _ } : State) = y
  have hbegin : Entered s c y := by
    subst hy
    exact ⟨rfl, rfl, by dsimp only; rw [hm], w.states⟩
  obtain ⟨hin, hhalt⟩ := lambStop_halts hbegin
  generalize lambStop y = z at hin hhalt ⊢
  obtain ⟨hzlamb, hcause, hrestart, hstates⟩ := hin
  split
  · next hr =>
    refine ⟨hzlamb, hcause, ⟨hhalt.jobs, hhalt.links, hhalt.clocks⟩, fun hno => ?_⟩
    rw [hrestart, hno] at hr
    cases hr
  · exact lambRecord_inLamb ⟨hzlamb, hcause, hrestart, hstates⟩ hhalt

end Sys2Proof.Machine
end

section
/-! PROOFS. Power-on, the start-up phases, node and firmware resets, ticks, and the causes of Lamb mode (19.1, 19.2, 19.7, 19.8). -/

namespace Sys2Proof.Machine

/-! The rows of the command table. -/

theorem exec_porRelease (s : State) : exec .porRelease s = .next (doPorRelease s) := rfl
theorem exec_railFault (rail : Nat) (s : State) : exec (.railFault rail) s = .next (doRailFault s rail) := rfl
theorem exec_startupPhaseEnd (rs : List CheckResult) (s : State) :
    exec (.startupPhaseEnd rs) s = .next (whenLive s (doPhaseEnd s rs)) := rfl
theorem exec_mgmtRestart (r : Requester) (s : State) : exec (.mgmtRestart r) s = .next (whenLive s (doMgmtRestart s r)) := rfl

/-! The causes of Lamb mode (R744, R735, R666, R785). -/

theorem steady_beginEpisode {s x : State} {c who : Nat} (w : Steady (fun _ _ => ()) s x) :
    Steady (fun _ _ => ()) s (beginEpisode x c who) :=
  .ite w (.ite (.units rfl id w) (.raiseEvent (.units rfl id w)))

section Causes

variable {s : State} (hlive : live s = true)
include hlive

theorem por_of_live : s.mgmt.por = false ∧ s.mgmt.tripped = false := by simpa [live] using hlive

variable (hlamb : s.mgmt.lamb = false)
include hlamb

theorem doControlFault_inLamb {b : Block} {i : Nat} (hi : i < blkCount b) : InLamb s 1 (doControlFault s b i) := by
  rw [doControlFault, if_neg (by omega)]
  exact enterLamb_inLamb ((Steady.refl (fun _ p => p) s).blkError.raiseEvent) hlive hlamb 1

theorem doLambCtrl_inLamb {r : Requester} (hr : atPage s r .mgmt 0 = true) (ho : asOwner s r = true) : InLamb s 5 (doLambCtrl s r) := by
  rw [doLambCtrl, regAccess_atPage hr, if_pos ho]
  exact enterLamb_inLamb (steady_opened s r .mgmt 0 0x11C) hlive hlamb 5

theorem doThermalHold_inLamb {die temp : Nat} (hd : die < 4) (ht : 110 ≤ temp) : InLamb s 2 (doThermalHold s die temp) := by
  have hgo : ¬ (4 ≤ die || !(epOpen s 2 || 110 ≤ temp) || s.mgmt.lamb) = true := by simp [hlamb, ht, hd]
  have hnoted : Steady (fun _ _ => ()) s (raiseEvent (noteTemp s die temp) .pwr 0 3) := .raiseEvent (.units rfl id (.refl _ s))
  rw [doThermalHold, if_neg hgo]
  exact enterLamb_inLamb (steady_beginEpisode hnoted) hlive hlamb 2

theorem doRailFault_inLamb {rail : Nat} (hr : rail < 10) :
    ∃ u, exec (.railFault rail) s = .next u ∧ InLamb s 3 u := by
  have hgo : ¬ (12 ≤ rail || s.mgmt.por) = true := by simp [(por_of_live hlive).1]; omega
  refine ⟨_, exec_railFault rail s, ?_⟩
  rw [doRailFault, if_neg hgo, if_neg (by omega), if_neg (by omega), if_neg (by simp [hlamb]), whenLive_of_live hlive]
  obtain ⟨h1, h2, ⟨h3, h4, h5⟩, h6⟩ := enterLamb_inLamb (steady_beginEpisode (.refl _ s) (c := 5) (who := rail)) hlive hlamb 3
  exact ⟨h1, h2, ⟨h3, h4, h5⟩, h6⟩

end Causes

/-- A command that enters Lamb mode, as the statement has it. -/
theorem lambs_of_inLamb {s : State} {i : Instr} {c : Nat} (h : ∃ u, exec i s = .next u ∧ InLamb s c u) : ∃ u, exec i s = .next u ∧ u.mgmt.lamb = true
    ∧ u.mgmt.lambCause = c ∧ u.jobs = [] ∧ (∀ n, (lnk u n).st = 0) ∧ (∀ d < 3, (pwrDom u d).mhz = some 0)
    ∧ (s.mgmt.restarting = false → ∀ b i, lambKeeps b = false → i < blkCount b → blkState s b i ≠ 0 → blkState s b i ≠ 6 → blkState u b i = 5) := by
  obtain ⟨u, hu, h1, h2, ⟨h3, h4, h5⟩, h6⟩ := h
  exact ⟨u, hu, h1, h2, h3, h4, h5, h6⟩

theorem inLamb_of_live {s x : State} (hlive : live s = true) {c : Nat} (h : InLamb s c x) :
    ∃ u, (Host.Outcome.next (whenLive s x) : Host.Outcome State Fault Refusal) = .next u ∧ InLamb s c u := by
  obtain ⟨h1, h2, ⟨h3, h4, h5⟩, h6⟩ := h
  exact next_of_live hlive ⟨h1, h2, ⟨h3, h4, h5⟩, h6⟩

/-! Phase 6: the blocks are checked one by one (R720, R310). -/

/-- A block's code is its place in the list of blocks. -/
theorem blkList_blkCode (b : Block) : blkList[blkCode b - 1]? = some b := by cases b <;> rfl

theorem pageKey_inj {b c : Block} {i k : Nat} (hi : i < 4096) (hk : k < 4096) (h : pageKey b i = pageKey c k) : b = c ∧ i = k := by
  unfold pageKey at h
  have hcode : blkCode b = blkCode c := by omega
  have hb : b = c := Option.some.inj (by rw [← blkList_blkCode b, hcode, blkList_blkCode c])
  exact ⟨hb, by subst hb; omega⟩

theorem steady_steerCheck {α : Type} {f : Xag → Pwr → α} {s u : State} {a : Nat} {pass : Bool} (w : Steady f s u) :
    Steady f s (steerCheck u a pass) := by
  have hended {x : State} {sg : Nat} (hx : Steady f s x) : Steady f s (steerEnded x a sg) :=
    .ite (.raiseEvent (.raiseEvent hx.others)) (.raiseEvent hx.others)
  unfold steerCheck
  dsimp only
  generalize hx : modOx (setRegWord _ .ox a 0x118 0) a _ = x
  have hseed : Steady f s x := hx ▸ w.setRegWord.setRegWord.setRegWord.setRegWord.setRegWord.setRegWord.others
  exact .others (.others (.dropHeld (.ite (hended hseed) (hended hseed.others))))

theorem blkState_enterFault (s : State) (b c : Block) (i k t : Nat) :
    blkState (enterFault s b i t) c k = if pageKey b i = pageKey c k then 6 else blkState s c k := by
  rw [enterFault, blkState_raiseEvent, blkState_setBlkState_cases, (Steady.refl (fun _ p => p) s).blkError.states]

theorem blkState_checkInst (rs : List CheckResult) (s : State) (b c : Block) (i k : Nat) :
    blkState (checkInst rs b s i) c k = if pageKey b i = pageKey c k then (if failed rs b i then 6 else 1) else blkState s c k := by
  unfold checkInst
  dsimp only
  generalize hx : (if b = .ox then _ else _ : State) = x
  have hsame : blkState x c k = blkState s c k := by
    have w : Steady (fun _ p => p) s x := hx ▸ .ite (steady_steerCheck (.refl _ s)) (.refl _ s)
    exact w.states c k
  split
  · rw [blkState_enterFault, hsame]
  · rw [blkState_setBlkState_cases, hsame]

theorem blkState_checkCluster (rs : List CheckResult) (s : State) {cl k : Nat} {c : Block} (h : pageKey .mule cl ≠ pageKey c k) :
    blkState (checkCluster rs s cl) c k = blkState s c k := by
  unfold checkCluster
  dsimp only
  generalize hx : List.foldl _ s _ = x
  have w : Steady (fun _ p => p) s x := hx ▸ .foldl (fun _ hy => hy.others) (.refl _ s)
  split
  · rw [blkState_enterFault, if_neg h, w.states]
  · rw [blkState_setBlkState_cases, if_neg h]
    exact (Steady.ite w.blkError.raiseEvent w).states c k

/-- The step of one member settles what the steps of the others keep. -/
theorem foldl_settles {β : Type} {Q : State → Prop} {step : State → β → State} {l : List β} {a : β} (s : State) (hl : l.Nodup) (ha : a ∈ l)
    (hQ : ∀ x, ∀ b ∈ l, b ≠ a → Q x → Q (step x b)) (hreach : ∀ x, Q (step x a)) : Q (l.foldl step s) := by
  obtain ⟨l, r, rfl⟩ := List.append_of_mem ha
  have hr : a ∉ r := (List.nodup_cons.1 (List.nodup_append.1 hl).2.1).1
  rw [List.foldl_append, List.foldl_cons]
  exact List.foldlRecOn (motive := Q) r step (hreach _)
    (fun x hx b hb => hQ x b (by simp [hb]) (fun e => hr (e ▸ hb)) hx)

theorem blkState_phase6 (rs : List CheckResult) (s : State) {b : Block} {i : Nat} (hb : b ∈ checkedBlocks) (hi : i < blkCount b) :
    blkState (phase6 s rs) b i = if failed rs b i then 6 else 1 := by
  have hcount (c : Block) : blkCount c ≤ 512 := by cases c <;> decide
  have hone (c : Block) (k : Nat) (hk : k < blkCount c) (hne : ¬ (c = b ∧ k = i)) : pageKey c k ≠ pageKey b i := fun e =>
    hne (pageKey_inj (by have := hcount c; omega) (by have := hcount b; omega) e)
  have hchecked : blkState (checkedBlocks.foldl (fun x b => (List.range (blkCount b)).foldl (checkInst rs b) x) s) b i
      = if failed rs b i then 6 else 1 := by
    refine foldl_settles (Q := fun x => blkState x b i = if failed rs b i then 6 else 1) s (by decide) hb (fun x c _ hc hx => ?_) (fun x => ?_)
    · refine List.foldlRecOn (motive := fun x => blkState x b i = if failed rs b i then 6 else 1) _ _ hx (fun y hy k hk => ?_)
      rw [blkState_checkInst, if_neg (hone c k (List.mem_range.1 hk) (fun e => hc e.1)), hy]
    · refine foldl_settles (Q := fun x => blkState x b i = if failed rs b i then 6 else 1) x List.nodup_range (List.mem_range.2 hi)
        (fun y k hk hne hy => ?_) (fun y => ?_)
      · rw [blkState_checkInst, if_neg (hone b k (List.mem_range.1 hk) (fun e => hne e.2)), hy]
      · rw [blkState_checkInst, if_pos rfl]
  have hmule : b ≠ .mule := by rintro rfl; revert hb; decide
  refine Eq.trans ?_ hchecked
  exact List.foldlRecOn (motive := fun (x : State) => blkState x b i = blkState _ b i) _ _ rfl (fun x hx cl hcl => by
    rw [blkState_checkCluster rs x (hone .mule cl (List.mem_range.1 hcl) (fun e => hmule e.1.symm)), hx])

/-! The other phases (R718, R721, R520). -/

/-- R520: the switch is READY once it is set up. -/
theorem blkState_setupSwitch (s : State) : blkState (setupSwitch s) .wsw 0 = 1 := by
  unfold setupSwitch
  dsimp only
  generalize hx : setBlkState _ .wsw 0 1 = x
  have hready : blkState x .wsw 0 = 1 := by rw [← hx, blkState_setBlkState]
  generalize hy : List.foldl _ x _ = y
  have hlinks : blkState y .wsw 0 = 1 := by
    rw [← hy]
    refine List.foldlRecOn (motive := fun (z : State) => blkState z .wsw 0 = 1) _ _ hready (fun z hz n hn => ?_)
    have hne : pageKey .wlink n ≠ pageKey .wsw 0 := fun e => by cases (pageKey_inj (by have := List.mem_range.1 hn; omega) (by omega) e).1
    rw [blkState_setBlkState_cases, if_neg hne, hz]
  exact List.foldlRecOn (motive := fun (z : State) => blkState z .wsw 0 = 1) _ _ hlinks (fun z hz n _ => by
    split
    exacts [hz, hz])

/-- What ends each phase. -/
def phaseEnd (s : State) (rs : List CheckResult) : Nat → State
  | 1 => toPhase s 2
  | 2 => phase2 s
  | 3 => if s.mgmt.board.good then toPhase s 4 else enterLamb s 4
  | 4 => toPhase s 5
  | 5 => toPhase (s.mgmt.board.ports.foldl (trainPort rs) s) 6
  | 6 => phase6 s rs
  | 7 => toPhase { setupSwitch (setupWindows s) with pwr := { (setupSwitch (setupWindows s)).pwr with enabled := true } } 8
  | 8 => setBlkState { s with mgmt := { s.mgmt with startDone := true }, hostIf := { s.hostIf with crs := false } } .host 0 1
  | _ => s

theorem doPhaseEnd_running {s : State} (hlive : live s = true) (hdone : s.mgmt.startDone = false) (hlamb : s.mgmt.lamb = false)
    (rs : List CheckResult) {n : Nat} (hn : s.mgmt.phase = n) : doPhaseEnd s rs = phaseEnd s rs n := by
  rw [doPhaseEnd, if_neg (by simp [(por_of_live hlive).1, hdone, hlamb]), ← hn]
  rfl

theorem phase2_starts {s : State} (hst : s.mgmt.staged = false) :
    (fwGood s false = true → (phase2 s).mgmt.phase = 3 ∧ (phase2 s).mgmt.slotB = false)
    ∧ (fwGood s false = false → fwGood s true = true → (phase2 s).mgmt.phase = 3 ∧ (phase2 s).mgmt.slotB = true)
    ∧ (fwGood s false = false → fwGood s true = false → phase2 s = enterLamb s 4) := by
  have hskip : ¬ (s.mgmt.staged && fwGood s (!s.mgmt.slotB)) = true := by simp [hst]
  unfold phase2
  rw [if_neg hskip]
  refine ⟨fun ha => ?_, fun ha hb => ?_, fun ha hb => ?_⟩
  · rw [if_pos ha]
    exact ⟨rfl, rfl⟩
  · rw [if_neg (by simp [ha]), if_pos hb]
    exact ⟨rfl, rfl⟩
  · rw [if_neg (by simp [ha]), if_neg (by simp [hb])]

/-! Resets of the node and of the firmware (R723, R741 to R743). -/

theorem doNodeReset_resets {s : State} {r : Requester} (hr : atPage s r .mgmt 0 = true) (ho : asOwner s r = true)
    (howed : s.mgmt.lambOwed = false) : doNodeReset s r = nodeResetNow (opened s r .mgmt 0 0x118) := by
  rw [doNodeReset, regAccess_atPage hr, if_pos ho, startNodeReset, if_neg (by simp [howed])]

/-- R742: a management restart from a slot that authenticates. -/
theorem startRestart_eq {s : State} (hrun : s.mgmt.restarting = false) (hrom : bootRom s = false) :
    (s.mgmt.staged = false → fwGood s s.mgmt.slotB = true → startRestart s = restartFrom s s.mgmt.slotB)
    ∧ (s.mgmt.staged = true → fwGood s (!s.mgmt.slotB) = true → startRestart s
      = { restartFrom s (!s.mgmt.slotB) with mgmt := { (restartFrom s (!s.mgmt.slotB)).mgmt with restartTicked := false } }) := by
  constructor
  · intro hst hg
    rw [startRestart, if_neg (by simp [hrun, hrom]), if_neg (by simp [hst]), if_pos hg]
  · intro hst hg
    rw [startRestart, if_neg (by simp [hrun, hrom]), if_pos hst]
    exact if_pos hg

theorem doMgmtRestart_atPage {s : State} {r : Requester} (hr : atPage s r .mgmt 0 = true) (ho : asOwner s r = true) :
    doMgmtRestart s r = if s.mgmt.restarting || bootRom s then regError (opened s r .mgmt 0 0x114) .mgmt 0 0x114
      else startRestart (opened s r .mgmt 0 0x114) := by
  rw [doMgmtRestart, regAccess_atPage hr, if_pos ho]
  simp [bootRom]

/-- R742: a restart that owes nothing of Lamb mode or of a node reset ends. -/
theorem doRestartEnd_ends {s : State} (hrun : s.mgmt.restarting = true) (howed : s.mgmt.lambOwed = false) (hreset : s.mgmt.nodeRstOwed = false) :
    (doRestartEnd s).mgmt.restarting = false ∧ (doRestartEnd s).mgmt.owed = [] ∧ (page (doRestartEnd s) .mgmt 0).event.getLsbD 6 = true := by
  rw [doRestartEnd, if_neg (by simp [hrun])]
  dsimp only
  generalize hy : raiseEvent { s with mgmt := _ } .mgmt 0 6 = y
  generalize hx : ledgerRun _ = x
  have w : Steady (fun _ p => p) y x := hx ▸ .ledgerRun (.foldl (fun _ hz => hz.ledgerDue) (.refl _ y))
  obtain ⟨l, h, o, hm⟩ := w.mgmt
  have hym : y.mgmt = { s.mgmt with restarting := false, owed := [] } := by rw [← hy]; simp
  have hlamb : x.mgmt.lambOwed = false := by rw [hm, hym]; exact howed
  have hnode : x.mgmt.nodeRstOwed = false := by rw [hm, hym]; exact hreset
  simp only [hlamb, hnode, Bool.false_eq_true, if_false]
  refine ⟨by rw [hm, hym], by rw [w.owed (by rw [hym]), hym], w.events .mgmt 0 6 ?_⟩
  rw [← hy]
  exact event_raiseEvent_self _ _ _ (by decide)

/-- R743: the watchdog of firmware that has ticked restarts it; of firmware that has not, it falls back to the other slot. -/
theorem doWatchdog_restarts {s : State} (hlive : live s = true) (hrom : bootRom s = false) (hphase : 3 ≤ s.mgmt.phase)
    (hother : fwGood s (!s.mgmt.slotB) = true) (hthis : fwGood s s.mgmt.slotB = true) (hst : s.mgmt.staged = false) :
    (doWatchdog s).mgmt.restarting = true
    ∧ (doWatchdog s).mgmt.slotB = (if s.mgmt.restartTicked then s.mgmt.slotB else !s.mgmt.slotB)
    ∧ (s.mgmt.restartTicked = false → (page (doWatchdog s) .mgmt 0).event.getLsbD 5 = true) := by
  rw [doWatchdog, if_neg (by simp [(por_of_live hlive).1, hrom]; omega)]
  cases htick : s.mgmt.restartTicked with
  | true =>
    have hgo := (startRestart_eq (s := { s with mgmt := { s.mgmt with restarting := false } }) rfl hrom).1 hst hthis
    rw [if_neg (by simp), hgo]
    exact ⟨rfl, rfl, fun h => absurd h (by simp)⟩
  | false =>
    rw [if_pos (by simp), rollBack]
    dsimp only
    generalize hy : raiseEvent { s with mgmt := _ } .mgmt 0 5 = y
    have hym : y.mgmt = { s.mgmt with restartTicked := true } := by rw [← hy]; simp
    have hgood : fwGood y (!s.mgmt.slotB) = true := by rw [fwGood, hym]; exact hother
    rw [if_pos hgood]
    refine ⟨rfl, rfl, fun _ => ?_⟩
    refine (Steady.refl (fun _ p => p) y).perfAdd.events .mgmt 0 5 ?_
    rw [← hy]
    exact event_raiseEvent_self _ _ _ (by decide)

/-! The management tick (R740). -/

/-- The ticks counted and the time. -/
def clockOf (s : State) : Nat × W64 := (s.mgmt.ticks, s.mgmt.systime)

theorem Steady.clock {α : Type} {f : Xag → Pwr → α} {s u : State} (w : Steady f s u) : clockOf u = clockOf s := by
  obtain ⟨l, h, o, hm⟩ := w.mgmt
  rw [clockOf, hm, clockOf]

theorem clock_toReady (s : State) (b : Block) (i : Nat) : clockOf (toReady s b i) = clockOf s := by
  unfold toReady
  split
  · rfl
  · dsimp only
    split
    · unfold setCores
      generalize hx : setBlkState (unfence s b i) b i 1 = x
      have hsame : clockOf x = clockOf s := by rw [← hx]; rfl
      rw [← hsame]
      exact (Steady.foldl (f := fun _ p => p) (fun _ hy => .ite hy hy.others) (.refl _ x)).clock
    · split
      · exact (Steady.refl (fun _ p => p) (setBlkState (unfence s b i) b i 1)).ledgerRun.clock
      · rfl

theorem clock_reconcile (s : State) : clockOf (reconcile s) = clockOf s :=
  List.foldlRecOn (motive := fun (x : State) => clockOf x = clockOf s) _ _ rfl (fun x hx k _ => by
    dsimp only
    split
    · split
      · exact (clock_toReady _ _ _).trans hx
      · exact hx
    · exact hx)

theorem clock_doTick {s : State} (hrun : s.mgmt.restarting = false) (hdone : s.mgmt.startDone = true) (hlamb : s.mgmt.lamb = false) :
    clockOf (doTick s) = (s.mgmt.ticks + 1, if s.mgmt.systimeSet then s.mgmt.systime + 1000 else s.mgmt.systime) := by
  rw [doTick, if_neg (by simp [hrun, hdone, hlamb, bootRom])]
  dsimp only
  generalize hx : perfAdd _ .mgmt 0 0 1 = x
  rw [clock_reconcile, ((Steady.refl (fun _ p => p) x).sealAsked.ledgerRun).clock, ← hx]
  rfl

/-! Power-on (R718, R798, R785, R797). -/

theorem doRailFault_powers {s : State} (hpor : s.mgmt.por = false) : doRailFault s 11 = powerOn s
    ∧ doRailFault s 10 = powerOn { s with mgmt := { s.mgmt with tripped := false } } := by
  constructor <;> simp [doRailFault, hpor]

theorem doPorRelease_begins {s : State} (h : s.mgmt.por = true) : (doPorRelease s).mgmt.por = false ∧ (doPorRelease s).mgmt.tripped = false
    ∧ (doPorRelease s).mgmt.phase = 1 ∧ (doPorRelease s).mgmt.rstKind = if s.mgmt.tripped then 1 else 0 := by
  rw [doPorRelease, if_neg (by simp [h])]
  refine ⟨rfl, rfl, rfl, ?_⟩
  show b2n s.mgmt.tripped = _
  cases s.mgmt.tripped <;> rfl

/-- Settles O59, a command at a time. -/
theorem startupResetsAndLambMode : Obligations.StartupResetsAndLambMode := by
  refine ⟨fun s => ⟨rfl, rfl, rfl, rfl, rfl, rfl, rfl, fun h => ⟨_, exec_porRelease s, doPorRelease_begins h⟩, fun h => ?_⟩,
    fun s hlive => ⟨fun b i hi hlamb => ?_, fun r hr ho hlamb => ?_, fun die temp hd ht hlamb => ?_, fun rail hr hlamb => ?_,
      fun rs hdone hlamb => ?_, fun r hr ho => ⟨fun howed => ?_, fun hrun hrom hst hg => ?_, fun hrun hrom hst hg => ?_, fun hrun => ?_⟩,
      fun hrun howed hreset => ?_, fun hrom hphase hother hthis hst => ?_, fun hrun hdone hlamb => ?_⟩⟩
  · rw [exec_railFault, exec_railFault, (doRailFault_powers h).1, (doRailFault_powers h).2]
    exact ⟨rfl, rfl⟩
  · exact lambs_of_inLamb (inLamb_of_live hlive (doControlFault_inLamb hlive hlamb hi))
  · exact lambs_of_inLamb (inLamb_of_live hlive (doLambCtrl_inLamb hlive hlamb hr ho))
  · exact lambs_of_inLamb (inLamb_of_live hlive (doThermalHold_inLamb hlive hlamb hd ht))
  · exact lambs_of_inLamb (doRailFault_inLamb hlive hlamb hr)
  · have hend {n : Nat} (hn : s.mgmt.phase = n) : doPhaseEnd s rs = phaseEnd s rs n := doPhaseEnd_running hlive hdone hlamb rs hn
    refine ⟨fun h1 => ?_, fun h2 hst => ?_, fun h3 => ⟨fun hg => ?_, fun hg _ => ?_⟩, fun h6 => ?_, fun h7 => ?_, fun h8 => ?_⟩
    · rw [exec_startupPhaseEnd, hend h1]
      rfl
    · obtain ⟨ha, hb, hnone⟩ := phase2_starts hst
      rw [exec_startupPhaseEnd, hend h2]
      refine ⟨fun h => next_of_live hlive (ha h), fun h h' => next_of_live hlive (hb h h'), fun h h' _ => ?_⟩
      have hphase : phaseEnd s rs 2 = enterLamb s 4 := hnone h h'
      refine lambs_of_inLamb (inLamb_of_live hlive ?_)
      rw [hend h2, hphase]
      exact enterLamb_inLamb (.refl (fun _ p => p) s) hlive hlamb 4
    · rw [exec_startupPhaseEnd, hend h3, phaseEnd, if_pos hg]
    · refine lambs_of_inLamb (inLamb_of_live hlive ?_)
      rw [hend h3, phaseEnd, if_neg (by simp [hg])]
      exact enterLamb_inLamb (.refl (fun _ p => p) s) hlive hlamb 4
    · refine next_of_live hlive ?_
      rw [hend h6]
      exact ⟨rfl, fun b hb i hi => blkState_phase6 rs s hb hi⟩
    · refine next_of_live hlive ?_
      rw [hend h7]
      exact ⟨rfl, rfl, blkState_setupSwitch (setupWindows s)⟩
    · refine next_of_live hlive ?_
      rw [hend h8]
      exact ⟨rfl, rfl, blkState_setBlkState _ _ _ _⟩
  · refine next_of_live hlive ?_
    rw [doNodeReset_resets hr ho howed]
    have hm : (opened s r .mgmt 0 0x118).mgmt = s.mgmt := by simp
    generalize opened s r .mgmt 0 0x118 = x at hm ⊢
    rw [← hm]
    exact ⟨rfl, rfl, rfl, rfl, rfl, rfl, rfl, rfl, rfl⟩
  · refine next_of_live hlive ?_
    rw [doMgmtRestart_atPage hr ho, if_neg (by simp [hrun, hrom])]
    have hs : (opened s r .mgmt 0 0x114).mgmt = s.mgmt ∧ (opened s r .mgmt 0 0x114).mem = s.mem ∧ (opened s r .mgmt 0 0x114).jobs = s.jobs
        ∧ (opened s r .mgmt 0 0x114).tenants = s.tenants := by simp [opened]
    generalize opened s r .mgmt 0 0x114 = x at hs ⊢
    obtain ⟨hm, hmem, hjobs, hten⟩ := hs
    rw [bootRom, ← hm] at hrom
    rw [fwGood, ← hm] at hg
    rw [← hm] at hrun hst
    rw [(startRestart_eq hrun hrom).1 hst hg]
    exact ⟨rfl, show x.mgmt.slotB = s.mgmt.slotB by rw [hm], hmem, hjobs, hten⟩
  · refine next_of_live hlive ?_
    rw [doMgmtRestart_atPage hr ho, if_neg (by simp [hrun, hrom])]
    have hm : (opened s r .mgmt 0 0x114).mgmt = s.mgmt := by simp
    generalize opened s r .mgmt 0 0x114 = x at hm ⊢
    rw [bootRom, ← hm] at hrom
    rw [fwGood, ← hm] at hg
    rw [← hm] at hrun hst ⊢
    rw [(startRestart_eq hrun hrom).2 hst hg]
    exact ⟨rfl, rfl, rfl⟩
  · rw [exec_mgmtRestart, doMgmtRestart_atPage hr ho, if_pos (by simp [hrun])]
  · exact next_of_live hlive (doRestartEnd_ends hrun howed hreset)
  · exact next_of_live hlive (doWatchdog_restarts hlive hrom hphase hother hthis hst)
  · refine next_of_live hlive ?_
    have h := clock_doTick hrun hdone hlamb
    exact ⟨congrArg Prod.fst h, congrArg Prod.snd h⟩

end Sys2Proof.Machine
end

section
/-! PROOFS. Herd messages (14.6): a member that leaves owned the line of a page table (R597). -/

namespace Sys2Proof.Machine

/-- The pages of the agent, whose herd of two members is in force, and of ports 0 to 3, READY, with one window over the four ports. -/
def leavingPages : Tab Page :=
  [(pageKey .lpc 0, { st := 1, regs := [(0x140, 0x44000)] }), (pageKey .lpc 1, { st := 1 }), (pageKey .lpc 2, { st := 1 }),
    (pageKey .lpc 3, { st := 1 }), (pageKey .xag 0, { st := 1, regs := [(0x128, 144), (0x130, 0x100001)] })]

/-- A node whose tenant 0 maps its first GiB to the same local addresses, by a root table at 0x10000 and a table at 0x11000. Member 1 owns
two lines of the tenant's herd region: that of the root table's first entries, and that at 0x14000. -/
def leavingNode : State :=
  { mgmt := { por := false }, pages := leavingPages
    ports := [(0, { usable := 60 }), (1, { usable := 60 }), (2, { usable := 60 }), (3, { usable := 60 })]
    tenants := [(0, { rootValid := true, root := 0x10000 })]
    mem := { cells := [(0x10000, 5), (0x10001, 0x10), (0x10002, 1), (0x11000, 7)] }
    xag := {
      regions := [⟨0, true, true, false, false, 0, 0, 2 ^ 20, 0⟩]
      dir := [(0x400, { st := 2, owner := 1 }), (0x500, { st := 2, owner := 1 })] } }

theorem leavingNode_live : live leavingNode = true ∧ leavingNode.mgmt.lamb = false ∧ (herdNode leavingNode 1).isSome = true := by decide

theorem leavingNode_line : dirLocal leavingNode 0x500 = some 0x14000 ∧ served leavingNode 0x14000 = true := by decide +kernel

/-- The table's line is poisoned first, and the other line has no local address after that. -/
theorem leavingNode_left :
    linePoison (whenLive leavingNode (barResume (doMemberLeave leavingNode 1))) (0x14000 / 64) = false := by decide +kernel

theorem exec_herdMemberLeave (m : Nat) (s : State) : exec (.herdMemberLeave m) s = .next (whenLive s (barResume (doMemberLeave s m))) := rfl

/-- Refutes O41: where the member that leaves owned a line of the page table that maps another line it owned, the model poisons the table
first and then finds no local address for the other line, which does not read as poison. -/
theorem not_herdMessages : ¬ Obligations.HerdMessages := by
  intro h
  obtain ⟨hlive, hlamb, hmember⟩ := leavingNode_live
  obtain ⟨hlocal, hserved⟩ := leavingNode_line
  obtain ⟨-, -, -, -, -, -, hleave⟩ := h leavingNode hlive hlamb
  obtain ⟨u, hu, -, -, hpoison⟩ := hleave 1 0x500 { st := 2, owner := 1 } hmember (by decide) (by decide) (by decide) rfl rfl rfl rfl rfl rfl rfl rfl
  have hread := hpoison 0x14000 hlocal hserved (by decide)
  rw [exec_herdMemberLeave] at hu
  cases hu
  exact absurd hread (by rw [leavingNode_left]; decide)

end Sys2Proof.Machine
end

section
/-! PROOFS. Timeouts at the source (R731): the tag by which a step names Hen's request is none of the agent's. -/

namespace Sys2Proof.Machine

/-- A node whose agent runs one command, a LOCK, with one part sent, whose tag is the one that names Hen's outstanding request. -/
def henTaggedNode : State :=
  { mgmt := { por := false }
    jobs := [{ tenant := 0, stream := 0, cmd := { words := [0x56] }, unit := .xag, started := true }]
    xag := { runs := [⟨0, 0, 0, none, 0, [{ node := 1, tenant := 0, offset := 0, len := 64, tag := henTag, st := 1 }]⟩] } }

/-- The run, its part and its command. -/
theorem henTaggedNode_runs : ∃ r p j, tagPart henTaggedNode henTag = some (r, p) ∧ xRunJob henTaggedNode r = some j
    ∧ partsDone (closeSignals henTaggedNode j (r.parts.map (fun x => if x = p then { p with st := 2, cause := 100 } else x))
      (r.parts.map (fun x => if x = p then { p with st := 2, cause := 100 } else x))).2 = true := by
  refine ⟨_, _, _, rfl, rfl, ?_⟩
  decide

theorem exec_fabricTimeout (node tag : Nat) (s : State) : exec (.fabricTimeout node tag) s
    = .next (whenLive s (if tag = henTag then (if node = nodeNum s then henTimeout s else s) else doFabTimeout s node tag)) := rfl

/-- The command has no result after the timeout. -/
theorem henTaggedNode_timeout : ∀ k ∈ (whenLive henTaggedNode (henTimeout henTaggedNode)).jobs, k.result = none := by decide

/-- Refutes O40: its clause for timeouts names every tag, also the one beyond the agent's 16 bits by which a step names Hen's request. A part
of that tag, which the agent never gives out, is not answered by a timeout: the timeout is Hen's. -/
theorem not_remoteRequestsAreServed : ¬ Obligations.RemoteRequestsAreServed := by
  intro h
  obtain ⟨-, -, -, htimeout⟩ := h henTaggedNode (by decide) rfl (by decide)
  obtain ⟨r, p, j, htag, hjob, hdone⟩ := henTaggedNode_runs
  obtain ⟨u, hu, hcarries, -⟩ := htimeout henTag r p j htag hjob
  rw [exec_fabricTimeout, if_pos rfl, if_pos rfl] at hu
  cases hu
  unfold carriesOn at hcarries
  dsimp only at hcarries
  rw [if_pos hdone] at hcarries
  obtain ⟨k, hk, -, hres⟩ := hcarries
  rw [henTaggedNode_timeout k hk] at hres
  cases hres

end Sys2Proof.Machine
end

section
/-! PROOFS. The fabric agent at the source (14.2 to 14.4): what sending and ending leave of the commands that the agent runs. -/

namespace Sys2Proof.Machine

/-! The rows of the command table. -/

theorem exec_xload (s : State) : exec .xload s = .next (whenLive s (doXload s)) := rfl
theorem exec_xstore (s : State) : exec .xstore s = .next (whenLive s (doXstore s)) := rfl
theorem exec_xmcast (s : State) : exec .xmcast s = .next (whenLive s (doXmcast s)) := rfl
theorem exec_xadd (s : State) : exec .xadd s = .next (whenLive s (doXadd s)) := rfl

/-! What the agent keeps while it sends. -/

/-- The agent runs the same commands with the same parts, its directory stays, and no command issued changes but in how long something has
held it. -/
structure Ongoing (s u : State) : Prop where
  runs : u.xag.runs = s.xag.runs
  dir : u.xag.dir = s.xag.dir
  jobs : OnlyHeld s u

namespace Ongoing

variable {s u v : State}

theorem refl (s : State) : Ongoing s s := ⟨rfl, rfl, .of_jobs rfl⟩

theorem trans (h : Ongoing s u) (k : Ongoing u v) : Ongoing s v :=
  ⟨k.runs.trans h.runs, k.dir.trans h.dir, h.jobs.trans k.jobs⟩

/-- An update that leaves the agent and the commands issued alone. -/
theorem same (hx : v.xag = u.xag) (hj : v.jobs = u.jobs) (w : Ongoing s u) : Ongoing s v :=
  w.trans ⟨by rw [hx], by rw [hx], .of_jobs hj⟩

theorem stored (h : StoredFrom u v) (w : Ongoing s u) : Ongoing s v := by
  obtain ⟨-, -, -, -, -, -, -, hjobs, -, -, -, -, -, -, -, -, -, -, -, hxag, -⟩ := h.fields
  exact w.same hxag hjobs

theorem ite {c : Prop} [Decidable c] (hu : Ongoing s u) (hv : Ongoing s v) : Ongoing s (if c then u else v) := by
  split
  exacts [hu, hv]

theorem perfAdd {b : Block} {i k n : Nat} (w : Ongoing s u) : Ongoing s (perfAdd u b i k n) :=
  w.trans ⟨rfl, rfl, .of_jobs rfl⟩

theorem raiseEvent {b : Block} {i n : Nat} (w : Ongoing s u) : Ongoing s (raiseEvent u b i n) := w.stored (storedFrom_raiseEvent _ _ _ _)

theorem sendMsg {p : Parcel} (w : Ongoing s u) : Ongoing s (sendMsg u p) :=
  w.same (Steady.refl (fun x _ => x) u).sendMsg.kept (jobs_of_unitWork (unitWork_sendMsg u p))

theorem sendHerd {n : Nat} {op : HerdOp} {m : HerdMsg} (w : Ongoing s u) : Ongoing s (sendHerd u n op m) := w.sendMsg

theorem modCache {f : List CacheLine → List CacheLine} (w : Ongoing s u) : Ongoing s (modCache u f) :=
  w.trans ⟨rfl, rfl, .of_jobs rfl⟩

theorem holdJobs {s0 : State} {serves : Job → Bool} (w : Ongoing s u) : Ongoing s (holdJobs s0 u serves) := by
  have hxag : (Machine.holdJobs s0 u serves).xag = u.xag := by
    unfold Machine.holdJobs
    split <;> rfl
  exact w.trans ⟨by rw [hxag], by rw [hxag], (Sent.holdJobs s0 u serves).jobs⟩

theorem evictHerd {l : HerdLine} (w : Ongoing s u) : Ongoing s (evictHerd u l) := by
  unfold Machine.evictHerd
  split
  · exact ite w.modCache.sendHerd (ite w.modCache.sendHerd w)
  · exact w

/-! Requests sent (R568, R583). -/

theorem sendPart {j : Job} {p : XPart} (w : Ongoing s u) : Ongoing s (sendPart u j p).1 :=
  holdJobs (sendMsg (perfAdd (w.trans ⟨rfl, rfl, .of_jobs rfl⟩)))

theorem sendParts {j : Job} {ps : List XPart} (w : Ongoing s u) : Ongoing s (sendParts u j ps).1 := by
  induction ps generalizing u with
  | nil => exact w
  | cons p ps ih =>
    unfold Machine.sendParts
    split
    exacts [ih w, ih w.sendPart]

theorem closeSignals {j : Job} {all ps : List XPart} (w : Ongoing s u) : Ongoing s (closeSignals u j all ps).1 := by
  induction ps generalizing u with
  | nil => exact w
  | cons p ps ih =>
    unfold Machine.closeSignals
    dsimp only
    split
    · split
      exacts [ih w.sendPart, ih w]
    · exact ih w

theorem askHome {l : HerdLine} {op : HerdOp} {t gen : Nat} {st : LineSt} (w : Ongoing s u) : Ongoing s (askHome u l op t gen st).1 := by
  have htag : Ongoing s (nextTag (Machine.perfAdd (Machine.perfAdd u .xag 0 0 1) .xag 0 3 1)).1 := w.trans ⟨rfl, rfl, .of_jobs rfl⟩
  unfold Machine.askHome
  dsimp only
  split
  exacts [htag.modCache.sendHerd, htag.modCache.sendHerd]

theorem pumpPart {j : Job} {p : XPart} (w : Ongoing s u) : Ongoing s (pumpPart u j p).1 := by
  unfold Machine.pumpPart
  dsimp only
  split
  · exact w
  · split
    · exact w.askHome.holdJobs
    · split
      · exact w.evictHerd
      · split
        · split
          · exact w.modCache.perfAdd
          · split
            exacts [w.askHome.holdJobs, w]
        · split
          exacts [w.perfAdd, w]

theorem pumpParts {j : Job} {ps : List XPart} (w : Ongoing s u) : Ongoing s (pumpParts u j ps).1 := by
  induction ps generalizing u with
  | nil => exact w
  | cons p ps ih => exact ih w.pumpPart

end Ongoing

/-! Parts (R571). -/

theorem xag_sendPart (s : State) (j : Job) (p : XPart) :
    (sendPart s j p).1.xag = { s.xag with nextTag := (s.xag.nextTag + 1) % 65536 } := by
  unfold sendPart
  dsimp only
  generalize hx : perfAdd (nextTag s).1 .xag 0 0 1 = x
  have hxag : x.xag = { s.xag with nextTag := (s.xag.nextTag + 1) % 65536 } := by rw [← hx]; rfl
  rw [← hxag]
  unfold holdJobs
  split
  exacts [(Steady.refl (fun x _ => x) x).sendMsg.kept, (Steady.refl (fun x _ => x) x).sendMsg.kept]

/-- The parts after their closing signals depend on the next tag alone. -/
theorem closeSignals_congr {s u : State} (h : u.xag.nextTag = s.xag.nextTag) (j k : Job) (all ps : List XPart) :
    (closeSignals u k all ps).2 = (closeSignals s j all ps).2 := by
  induction ps generalizing s u with
  | nil => rfl
  | cons p ps ih =>
    have hnext : (sendPart u k p).1.xag.nextTag = (sendPart s j p).1.xag.nextTag := by rw [xag_sendPart, xag_sendPart, h]
    have hpart : (sendPart u k p).2 = (sendPart s j p).2 := by simp only [sendPart, nextTag, h]
    unfold closeSignals
    dsimp only
    split
    · split
      · simp only [ih hnext, hpart]
      · simp only [ih h]
    · simp only [ih h]

/-! The end of a command (R564). -/

theorem xEnd_eq (s0 s : State) (j : Job) (r : Result) (spans : List (Option (Nat × Nat))) :
    ∃ x, xEnd s0 s j r spans = finishJob s0 x j r ∧ Ongoing s x := by
  have hgone : Ongoing s (if r.status = 0x22 then raiseEvent s .xag 0 0 else if r.status = 0x24 then raiseEvent s .xag 0 1 else s) :=
    .ite (.raiseEvent (.refl s)) (.ite (.raiseEvent (.refl s)) (.refl s))
  unfold xEnd
  dsimp only
  generalize (if r.status = 0x22 then raiseEvent s .xag 0 0 else if r.status = 0x24 then raiseEvent s .xag 0 1 else s) = x at hgone ⊢
  have hpoison {c : Prop} [Decidable c] : Ongoing s (if c then raiseEvent x .xag 0 6 else x) := .ite hgone.raiseEvent hgone
  refine ⟨_, rfl, .ite ?_ hpoison⟩
  exact hpoison.trans ⟨rfl, rfl, .of_jobs rfl⟩

theorem xFinish_eq (s0 s : State) (j : Job) (ps : List XPart) : ∃ x r, xFinish s0 s j ps = finishJob s0 x j r ∧ Ongoing s x := by
  unfold xFinish
  dsimp only
  generalize hw : (if cOp j.cmd = 0x51 then _ else _ : Wrote) = w
  have hwrote : Ongoing s w.st := by
    rw [← hw]
    split
    exacts [(Ongoing.refl s).stored (storedFrom_writeOut _ _ _ _), .refl s]
  have hend (y : State) (hy : Ongoing w.st y) (r : Result) (spans : List (Option (Nat × Nat))) :
      ∃ x r', xEnd s0 y j r spans = finishJob s0 x j r' ∧ Ongoing s x := by
    obtain ⟨x, hx, hgo⟩ := xEnd_eq s0 y j r spans
    exact ⟨x, r, hx, (hwrote.trans hy).trans hgo⟩
  split
  · exact hend w.st (.refl _) _ _
  · split
    · exact hend w.st (.refl _) _ _
    · split
      · refine hend _ ?_ _ _
        exact ⟨rfl, rfl, .of_jobs rfl⟩
      · split
        · split
          · exact hend w.st (.refl _) _ _
          · refine hend _ ?_ _ _
            exact ⟨rfl, rfl, .of_jobs rfl⟩
        · exact hend w.st (.refl _) _ _

theorem heldNowhere_congr {s u : State} (h : u.xag.dir = s.xag.dir) : heldNowhere u = heldNowhere s := by rw [heldNowhere, h, heldNowhere]

theorem xGate_of_heldNowhere {s : State} (h : heldNowhere s = true) (j : Job) : xGate s j = none := by
  unfold xGate
  split
  exacts [herdGate_of_heldNowhere h _ _ _, rfl]

/-- The running command has gone on in `u` from the parts `ps` in `s`: it has ended, or the agent holds the parts with their signals. -/
inductive Stepped (s0 s : State) (r : XRun) (j : Job) (ps : List XPart) (u : State) : Prop
  | done (x : State) (v : Result) (h : partsDone (closeSignals s j ps ps).2 = true) (hu : u = finishJob s0 x j v) (jobs : OnlyHeld s x)
  | held (h : partsDone (closeSignals s j ps ps).2 = false)
      (runs : u.xag.runs = s.xag.runs.map (fun y => if y = r then { r with parts := (closeSignals s j ps ps).2 } else y))

theorem stepped_xStep {s : State} {r : XRun} {j : Job} (s0 : State) (ps : List XPart) (hj : xRunJob s r = some j)
    (hheld : heldNowhere s = true) : Stepped s0 s r j ps (xStep s0 s r ps) := by
  have hgo : Ongoing s (closeSignals s j ps ps).1 := (Ongoing.refl s).closeSignals
  unfold xStep
  rw [hj]
  dsimp only
  generalize hq : closeSignals s j ps ps = q at hgo
  rw [xGate_of_heldNowhere ((heldNowhere_congr hgo.dir).trans hheld)]
  cases hdone : partsDone q.2 with
  | true =>
    rw [if_pos rfl]
    dsimp only
    generalize hy : ({ q.1 with xag := { q.1.xag with runs := q.1.xag.runs.filter (fun x => x != r) } } : State) = y
    obtain ⟨x, v, hx, hend⟩ := xFinish_eq s0 y j q.2
    exact .done x v (by rw [hq]; exact hdone) hx (hgo.jobs.trans (.trans (.of_jobs (by rw [← hy])) hend.jobs))
  | false =>
    rw [if_neg Bool.false_ne_true]
    exact .held (by rw [hq]; exact hdone) (by rw [hq, ← hgo.runs])

/-! A command that begins. -/

/-- A run's command is issued to the agent, has no result, and is the one that the run names. -/
theorem mem_of_xRunJob {s : State} {j k : Job} {ps : List XPart} (h : xRunJob s (xRunOf j ps) = some k) : k ∈ s.jobs ∧ sameJob j k = true := by
  have hk := List.find?_some h
  simp only [xRunOf, Bool.and_eq_true, beq_iff_eq] at hk
  obtain ⟨⟨⟨⟨⟨⟨-, -⟩, ht⟩, hst⟩, hc⟩, hi⟩, hg⟩ := hk
  exact ⟨List.mem_of_find?_eq_some h, by simp [sameJob, ht, hst, hc, of_decide_eq_true hi, hg]⟩

theorem xRunJob_isSome {s : State} {j k : Job} (ps : List XPart) (hk : k ∈ s.jobs) (hsame : sameJob j k = true) (hunit : k.unit = .xag)
    (hres : k.result = none) : ∃ i, xRunJob s (xRunOf j ps) = some i := by
  refine Option.isSome_iff_exists.1 (List.find?_isSome.2 ⟨k, hk, ?_⟩)
  simp only [sameJob, Bool.and_eq_true, beq_iff_eq, decide_eq_true_eq] at hsame
  obtain ⟨⟨⟨⟨ht, hst⟩, hc⟩, hi⟩, hg⟩ := hsame
  simp [xRunOf, hunit, hres, ht, hst, hc, hi, hg]

theorem sameJob_trans {i j k : Job} (h : sameJob i j = true) (g : sameJob j k = true) : sameJob i k = true := by
  simp only [sameJob, Bool.and_eq_true, beq_iff_eq, decide_eq_true_eq] at h g ⊢
  obtain ⟨⟨⟨⟨h1, h2⟩, h3⟩, h4⟩, h5⟩ := h
  obtain ⟨⟨⟨⟨g1, g2⟩, g3⟩, g4⟩, g5⟩ := g
  exact ⟨⟨⟨⟨h1.trans g1, h2.trans g2⟩, h3.trans g3⟩, h4.trans g4⟩, h5.trans g5⟩

theorem finished_finishJob {s : State} {i j k : Job} (hi : i ∈ s.jobs) (hki : sameJob k i = true) (hjk : sameJob j k = true) (s0 : State)
    (r : Result) : finished (finishJob s0 s k r) j := by
  obtain ⟨n, f, e, hf⟩ := finishJob_eq s0 s k r
  obtain ⟨c, d, hfi⟩ := hf i
  refine ⟨f i, ?_, ?_, by rw [hfi]; rfl⟩
  · rw [e]
    exact List.mem_map.2 ⟨i, hi, if_pos hki⟩
  · rw [hfi]
    exact sameJob_trans hjk hki

/-- A held command is still among those issued. -/
theorem OnlyHeld.mem {s u : State} (h : OnlyHeld s u) {k : Job} (hk : k ∈ s.jobs) : ∃ c d, { k with cause := c, hold := d } ∈ u.jobs := by
  obtain ⟨f, hf, hu⟩ := h
  obtain ⟨c, d, hfk⟩ := hf k
  exact ⟨c, d, by rw [hu, ← hfk]; exact List.mem_map_of_mem hk⟩

/-- The agent holds the parts of the command it begins, and no line is held elsewhere after their requests are sent. -/
theorem xSent_sent {s : State} {j : Job} (ps : List XPart) (hj : j ∈ s.jobs) (hheld : heldNowhere s = true) :
    xRunOf j (xSent s j ps).2 ∈ (xSent s j ps).1.xag.runs ∧ heldNowhere (xSent s j ps).1 = true
      ∧ ∃ c d, { j with started := true, cause := c, hold := d } ∈ (xSent s j ps).1.jobs := by
  generalize hy : modJob s j (fun k => { k with started := true }) = y
  have hstart : { j with started := true } ∈ y.jobs := by
    rw [← hy]
    exact List.mem_map.2 ⟨j, hj, if_pos (sameJob_self j)⟩
  have hdir : y.xag.dir = s.xag.dir := by rw [← hy]; rfl
  have w : Ongoing y (if byLines j.cmd then pumpParts y j ps else sendParts y j ps).1 := by
    split
    exacts [(Ongoing.refl y).pumpParts, (Ongoing.refl y).sendParts]
  obtain ⟨c, d, hmem⟩ := w.jobs.mem hstart
  unfold xSent
  rw [hy]
  dsimp only
  generalize (if byLines j.cmd then pumpParts y j ps else sendParts y j ps) = q at w hmem ⊢
  exact ⟨List.mem_append_right _ (List.mem_singleton.2 rfl), (heldNowhere_congr (w.dir.trans hdir)).trans hheld, c, d, hmem⟩

theorem carriesOn_xBegin {s : State} {j : Job} (s0 : State) (ps : List XPart) (hj : j ∈ s.jobs) (hunit : j.unit = .xag) (hres : j.result = none)
    (hheld : heldNowhere s = true) : carriesOn (xSent s j ps).1 (xBegin s0 s j ps) (xRunOf j []) j (xSent s j ps).2 := by
  obtain ⟨hrun, hnone, c, d, hmem⟩ := xSent_sent ps hj hheld
  obtain ⟨k, hk⟩ := xRunJob_isSome (j := j) (xSent s j ps).2 hmem (sameJob_self j) hunit hres
  obtain ⟨hkmem, hsame⟩ := mem_of_xRunJob hk
  have hsteps := stepped_xStep s0 (xSent s j ps).2 hk hnone
  have hparts := closeSignals_congr (rfl : (xSent s j ps).1.xag.nextTag = (xSent s j ps).1.xag.nextTag) j k (xSent s j ps).2 (xSent s j ps).2
  unfold carriesOn xBegin
  dsimp only
  cases hsteps with
  | done x v hdone hu hjobs =>
    rw [hparts] at hdone
    rw [if_pos hdone, hu]
    obtain ⟨c', d', hx⟩ := hjobs.mem hkmem
    exact finished_finishJob hx (sameJob_self k) hsame s0 v
  | held hdone hruns =>
    rw [hparts] at hdone hruns
    rw [if_neg (by simp [hdone]), hruns]
    exact List.mem_map.2 ⟨_, hrun, if_pos rfl⟩

end Sys2Proof.Machine
end

section
/-! PROOFS. Remote commands begin at their source (14.2 to 14.5, 14.7): the parts of a command cover its packed bytes. -/

namespace Sys2Proof.Machine

/-! The lengths of cut ranges (R568). -/

/-- The bytes that parts cover. -/
def lens (ps : List XPart) : List Nat := ps.map (·.len)

/-- The bytes that pieces cover. -/
def spanned (rs : List (Nat × Nat)) : Nat := (rs.map (·.2)).sum

theorem spanned_cutRange {fuel off n : Nat} (h : n ≤ 4096 * fuel) : spanned (cutRange fuel off n) = n := by
  induction fuel generalizing off n with
  | zero => simp [cutRange, spanned]; omega
  | succ fuel ih =>
    unfold cutRange
    split
    · next h0 => simp [spanned, h0]
    · have hrest := ih (off := off + min n 4096) (n := n - min n 4096) (by omega)
      simp only [spanned, List.map_cons, List.sum_cons] at hrest ⊢
      omega

theorem spanned_cutLines {fuel off n : Nat} (h : n = 0 ∨ n + off % 64 ≤ 64 * fuel) : spanned (cutLines fuel off n) = n := by
  induction fuel generalizing off n with
  | zero => simp [cutLines, spanned]; omega
  | succ fuel ih =>
    unfold cutLines
    dsimp only
    split
    · next h0 => simp [spanned, h0]
    · have hrest : spanned (cutLines fuel (off + min n (64 - off % 64)) (n - min n (64 - off % 64))) = n - min n (64 - off % 64) := by
        rcases Nat.le_total n (64 - off % 64) with hle | hle
        · exact ih (.inl (by omega))
        · exact ih (.inr (by rw [min_eq_right hle]; omega))
      simp only [spanned, List.map_cons, List.sum_cons] at hrest ⊢
      omega

theorem covers_cutRange (off n : Nat) : spanned (cutRange (n / 4096 + 1) off n) = n := spanned_cutRange (by omega)

theorem covers_cutLines (off n : Nat) : spanned (cutLines (n / 64 + 2) off n) = n := spanned_cutLines (.inr (by omega))

theorem sum_lens_map {f : Nat × Nat → XPart} (hf : ∀ r, (f r).len = r.2) (rs : List (Nat × Nat)) : (lens (rs.map f)).sum = spanned rs := by
  rw [lens, List.map_map, spanned]
  exact congrArg List.sum (List.map_congr_left (fun r _ => hf r))

/-! The parts of each command. -/

theorem sum_lens_foldl {step : List XPart → Nat × Nat → List XPart} (h : ∀ acc r, (lens (step acc r)).sum = (lens acc).sum + r.2)
    (rs : List (Nat × Nat)) (acc : List XPart) : (lens (rs.foldl step acc)).sum = (lens acc).sum + spanned rs := by
  induction rs generalizing acc with
  | nil => simp [spanned]
  | cons r rs ih =>
    rw [List.foldl_cons, ih, h]
    simp only [spanned, List.map_cons, List.sum_cons]
    omega

/-- Each line of an XLOAD is a part from the cache, joins the part before it, or is a part of its own. -/
theorem sum_lens_cachedParts (s : State) (t node rt off n : Nat) : (lens (cachedParts s t node rt off n)).sum = n := by
  have hadd (acc : List XPart) (p : XPart) : (lens (acc ++ [p])).sum = (lens acc).sum + p.len := by simp [lens]
  unfold cachedParts
  dsimp only
  rw [sum_lens_foldl (fun acc r => ?_)]
  · exact (Nat.zero_add _).trans (covers_cutLines off n)
  · split
    · exact hadd acc _
    · split
      · next p hp =>
        have hlast : acc = acc.dropLast ++ [p] := (List.dropLast_append_getLast? p hp).symm
        split
        · rw [hadd, hlast, hadd]
          simp
          omega
        · exact hadd acc _
      · exact hadd acc _

theorem sum_lens_xloadParts (s : State) (j : Job) : (lens (xloadParts s j).2).sum = packedBytes (xaDesc j.cmd) := by
  unfold xloadParts
  dsimp only
  split
  · exact (sum_lens_map (fun _ => rfl) _).trans (covers_cutLines _ _)
  · split
    · exact (sum_lens_map (fun _ => rfl) _).trans (covers_cutRange _ _)
    · exact sum_lens_cachedParts _ _ _ _ _ _

theorem sum_lens_signalled (sig : Bool) (node tenant member off : Nat) (ps : List XPart) :
    (lens (signalled sig node tenant member off ps)).sum = (lens ps).sum := by
  unfold signalled
  split
  · rfl
  · split
    · rfl
    · simp [lens]

theorem sum_lens_storeParts (c : Cmd) (node tenant member : Nat) (bytes : List Byte) (bad : List Nat) :
    (lens (storeParts c node tenant member bytes bad)).sum = bytes.length := by
  have hcuts : (lens ((if byLines c then cutLines (bytes.length / 64 + 2) (xaOff c) bytes.length
      else cutRange (bytes.length / 4096 + 1) (xaOff c) bytes.length).map (dataPart node tenant member (xaOff c) bytes bad))).sum = bytes.length := by
    refine (sum_lens_map (fun _ => rfl) _).trans ?_
    split
    exacts [covers_cutLines _ _, covers_cutRange _ _]
  unfold storeParts
  dsimp only
  split
  · simpa [lens] using hcuts
  · rw [sum_lens_signalled, hcuts]

theorem length_packTensor (s : State) (t : Nat) (d : TDesc) : (packTensor s t d).length = packedBytes d := by
  rw [packTensor, length_leBytes]

theorem sum_lens_flatMap {f : Nat × Nat × Nat → List XPart} {n : Nat} (hf : ∀ m, (lens (f m)).sum = n) (ms : List (Nat × Nat × Nat)) :
    (lens (ms.flatMap f)).sum = ms.length * n := by
  induction ms with
  | nil => simp [lens]
  | cons m ms ih =>
    simp only [lens, List.flatMap_cons, List.map_append, List.sum_append] at hf ih ⊢
    rw [hf, ih, List.length_cons]
    ring

theorem foldl_add_eq_sum (l : List Nat) : l.foldl (· + ·) 0 = l.sum := by
  rw [List.sum_eq_foldl]

/-! Local reads before a command begins (R566). -/

theorem ongoing_fillSpans (s : State) (t : Nat) (spans : List (Option (Nat × Nat))) : Ongoing s (fillSpans s t spans) := by
  refine (Ongoing.refl s).same ?_ (jobs_of_unitWork (unitWork_fillSpans s t spans))
  have w : Steady (fun x _ => x) s (fillSpans s t spans) := .foldl (fun sp hx => by
    cases sp with
    | none => exact hx
    | some e => exact hx.fillTlb) (.refl _ s)
  exact w.kept

theorem ongoing_readSpans (s : State) (t : Nat) (spans : List (Option (Nat × Nat))) : Ongoing s (readSpans s t spans) :=
  (ongoing_fillSpans s t spans).stored (storedFrom_meetErrs _ _)

theorem Ongoing.withdrawNew {s u s0 s1 : State} (w : Ongoing s u) : Ongoing s (withdrawNew s0 s1 u) :=
  w.same (Steady.refl (fun x _ => x) u).withdrawNew.kept (jobs_of_unitWork (unitWork_withdrawNew s0 s1 u))

theorem Ongoing.readNow {s u : State} {p : Nat → Bool} (w : Ongoing s u) : Ongoing s (readNow u p) :=
  Ongoing.withdrawNew (w.stored (storedFrom_meetErrs _ _))

theorem unitWork_readNow (s : State) (p : Nat → Bool) : unitWork (readNow s p) = unitWork s :=
  (unitWork_withdrawNew _ _ _).trans (unitWork_meetErrs s p)

/-- A command whose local tensor can be read, and whose target can be reached, goes on with the tensor's packed bytes. -/
theorem xReadLocal_reads {s : State} {j : Job} (f : State → List Byte → List Nat → State) (hheld : heldNowhere s = true) :
    let d := xaDesc j.cmd
    let r := readSpans s j.tenant [boxSpan d (fullBox d)]
    missing r j.tenant none ((extIdx d).map (fun i => (dAddr d i, elemSpan (dFmt d)))) = none → herdCut (withdrawNew s r r) j = false →
      xReadLocal s j f = f (withdrawNew s r r) (packTensor r j.tenant d) (packBad r j.tenant d) := by
  intro d r hmiss hcut
  unfold xReadLocal
  dsimp only
  rw [herdGate_of_heldNowhere hheld]
  dsimp only
  rw [if_neg (by rw [hcut]; exact Bool.false_ne_true), hmiss]

/-! The commands (R570 to R573, R577, R590, R591). -/

theorem xJob_spec {s : State} {op : Nat} {j : Job} (h : xJob s op = some j) : j ∈ s.jobs ∧ j.unit = .xag ∧ j.result = none := by
  unfold xJob at h
  split at h
  · cases h
  · have hmem : j ∈ xFresh s := List.mem_of_find?_eq_some h
    simp only [xFresh, List.mem_filter, Bool.and_eq_true, decide_eq_true_eq, Option.isNone_iff_eq_none] at hmem
    obtain ⟨hj, ⟨hunit, hres⟩, -⟩ := hmem
    exact ⟨hj, hunit, hres⟩

/-- A command that begins has in the agent the parts that cover its bytes, or has ended. -/
theorem begun_xBegin {s x : State} {op n : Nat} {j : Job} {ps : List XPart} (hj : xJob s op = some j) (hheld : heldNowhere s = true)
    (w : Ongoing s x) (hjobs : x.jobs = s.jobs) (hn : (lens ps).sum = n) : begun x (xBegin s x j ps) j ps n := by
  obtain ⟨hmem, hunit, hres⟩ := xJob_spec hj
  exact ⟨(foldl_add_eq_sum _).trans hn, carriesOn_xBegin s ps (hjobs ▸ hmem) hunit hres ((heldNowhere_congr w.dir).trans hheld)⟩

/-- A command that begins, as a step of the node. -/
theorem begins_of_live {s x y : State} {j : Job} {ps : List XPart} {n : Nat} (hlive : live s = true) (h : begun x y j ps n) :
    ∃ u, (Host.Outcome.next (whenLive s y) : Host.Outcome State Fault Refusal) = .next u ∧ begun x u j ps n :=
  next_of_live hlive h

section Commands

variable {s : State} {j : Job} (hlive : live s = true) (hheld : heldNowhere s = true)
include hlive hheld

theorem xload_begins (hj : xJob s 0x51 = some j) :
    let d := xaDesc j.cmd
    let s1 := fillSpans s j.tenant [boxSpan d (fullBox d)]
    herdCut s1 j = false →
      ∃ u, exec .xload s = .next u ∧ begun (xloadParts s1 j).1 u j (xloadParts s1 j).2 (packedBytes d) := by
  intro d s1 hcut
  rw [exec_xload, doXload, hj]
  dsimp only
  rw [if_neg (by rw [hcut]; exact Bool.false_ne_true)]
  have hcount : (xloadParts s1 j).1.jobs = s1.jobs ∧ Ongoing s1 (xloadParts s1 j).1 := by
    unfold xloadParts
    dsimp only
    split
    · exact ⟨rfl, .refl _⟩
    · split
      exacts [⟨rfl, .refl _⟩, ⟨rfl, (Ongoing.refl _).perfAdd.perfAdd⟩]
  obtain ⟨hjobs, hgo⟩ := hcount
  exact begins_of_live hlive (begun_xBegin hj hheld ((ongoing_fillSpans s j.tenant _).trans hgo)
    (hjobs.trans (jobs_of_unitWork (unitWork_fillSpans s j.tenant _))) (sum_lens_xloadParts s1 j))

theorem lock_begins {op : Nat} (hj : xJob s op = some j) (hcut : herdCut s j = false) :
    ∃ u, (Host.Outcome.next (whenLive s (doLockCmd s op)) : Host.Outcome State Fault Refusal) = .next u
      ∧ begun s u j [{ node := xaNode j.cmd, tenant := xaTen j.cmd, offset := xaOff j.cmd, len := 64 }] 64 := by
  rw [doLockCmd, hj]
  dsimp only
  rw [if_neg (by rw [hcut]; exact Bool.false_ne_true)]
  exact begins_of_live hlive (begun_xBegin hj hheld (.refl s) rfl rfl)

section Reads

variable (hmiss : missing (readSpans s j.tenant [boxSpan (xaDesc j.cmd) (fullBox (xaDesc j.cmd))]) j.tenant none
    ((extIdx (xaDesc j.cmd)).map (fun (i : List Nat) => (dAddr (xaDesc j.cmd) i, elemSpan (dFmt (xaDesc j.cmd))))) = none)
  (hcut : herdCut (withdrawNew s (readSpans s j.tenant [boxSpan (xaDesc j.cmd) (fullBox (xaDesc j.cmd))])
    (readSpans s j.tenant [boxSpan (xaDesc j.cmd) (fullBox (xaDesc j.cmd))])) j = false)
include hmiss hcut

/-- XSTORE and XADD: one target, and the parts of the packed tensor. -/
theorem store_begins {op : Nat} (hj : xJob s op = some j) :
    let d := xaDesc j.cmd
    let r := readSpans s j.tenant [boxSpan d (fullBox d)]
    let x := withdrawNew s r r
    let ps := storeParts j.cmd (xaNode j.cmd) (xaTen j.cmd) 0 (packTensor r j.tenant d) (packBad r j.tenant d)
    ∃ u, (Host.Outcome.next (whenLive s (xReadLocal s j (fun s' bytes bad =>
        xBegin s s' j (storeParts j.cmd (xaNode j.cmd) (xaTen j.cmd) 0 bytes bad)))) : Host.Outcome State Fault Refusal) = .next u
      ∧ begun x u j ps (packedBytes d) := by
  intro d r x ps
  rw [xReadLocal_reads _ hheld hmiss hcut]
  refine begins_of_live hlive (begun_xBegin hj hheld (ongoing_readSpans s j.tenant _).withdrawNew ?_ ?_)
  · exact (jobs_of_unitWork (unitWork_withdrawNew s r r)).trans (jobs_of_unitWork (unitWork_readSpans s j.tenant _))
  · rw [sum_lens_storeParts, length_packTensor]

/-- XMCAST: the parts of the packed tensor for every member of the group. -/
theorem xmcast_begins (hj : xJob s 0x53 = some j) :
    let d := xaDesc j.cmd
    let r := readSpans s j.tenant [boxSpan d (fullBox d)]
    let x := withdrawNew s r r
    let a := (xten x j.tenant).groupBase + 256 * xaNode j.cmd
    let y := readNow x (fun (l : Nat) => rangesMeet (l * 64) 64 a 256)
    let ms := groupMembers y j.tenant (xaNode j.cmd)
    servedRange y a 256 = true → anyPoison y a 256 = false →
      ∃ u, exec .xmcast s = .next u ∧ begun y u j (((List.range ms.length).zip ms).flatMap (fun (m : Nat × Nat × Nat) =>
        storeParts j.cmd m.2.1 m.2.2 m.1 (packTensor r j.tenant d) (packBad r j.tenant d))) (ms.length * packedBytes d) := by
  intro d r x a y ms hserved hclean
  rw [exec_xmcast, doXmcast, hj]
  dsimp only
  rw [xReadLocal_reads _ hheld hmiss hcut, if_neg (by rw [show servedRange _ _ 256 = true from hserved, show anyPoison _ _ 256 = false from hclean]; decide)]
  refine begins_of_live hlive (begun_xBegin hj hheld (ongoing_readSpans s j.tenant _).withdrawNew.readNow ?_ ?_)
  · exact (jobs_of_unitWork (unitWork_readNow _ _)).trans
      ((jobs_of_unitWork (unitWork_withdrawNew s r r)).trans (jobs_of_unitWork (unitWork_readSpans s j.tenant _)))
  · rw [sum_lens_flatMap (n := packedBytes d) (fun m => by rw [sum_lens_storeParts, length_packTensor]), List.length_zip, List.length_range,
      Nat.min_self]

end Reads

end Commands

/-- R577: XINVAL drops the tenant's lines in its range, and tells their number. -/
theorem xinval_ends {s : State} {j : Job} (hlive : live s = true) (hj : xJob s 0x55 = some j) :
    let hit := fun (e : CacheLine) => e.st == .opened && e.tenant == j.tenant
      && (xaOrd j.cmd || (e.node == xaNode j.cmd && e.rtenant == xaTen j.cmd && rangesMeet (e.line * 64) 64 (xaOff j.cmd) (cf j.cmd 5 0 42)))
    ∃ u, exec .xinval s = .next u ∧ finishedAs u j { detail := min (s.xag.cache.filter hit).length (2 ^ 32 - 1) }
      ∧ u.xag = { s.xag with cache := s.xag.cache.filter (fun (e : CacheLine) => !hit e) } := by
  intro hit
  obtain ⟨hmem, -, -⟩ := xJob_spec hj
  refine next_of_live hlive ?_
  rw [doXinval, hj]
  dsimp only
  generalize hx : modCache s _ = x
  have hxag : x.xag = { s.xag with cache := s.xag.cache.filter (fun (e : CacheLine) => !hit e) } := by rw [← hx]; rfl
  have hjx : j ∈ x.jobs := by rw [← hx]; exact hmem
  have hend (n : Nat) : xEnd s x j { detail := n } [] = finishJob s x j { detail := n } := by
    have hflag : bitAt 0 4 = false := rfl
    simp [xEnd, hflag]
  have hfinish (v : Result) : (finishJob s x j v).xag = x.xag := by
    obtain ⟨n, f, e, -⟩ := finishJob_eq s x j v
    rw [e]
    rfl
  rw [hend]
  exact ⟨finishedAs_finishJob hjx s _, (hfinish _).trans hxag⟩

/-- Settles O39, a command at a time. -/
theorem remoteCommandsComplete : Obligations.RemoteCommandsComplete := by
  intro s j hlive hheld
  refine ⟨fun hj => xload_begins hlive hheld hj, fun hj hread => ?_, fun hj hread => ?_, fun hj hread => ?_, fun hj hcut => ?_, fun hj hcut => ?_,
    fun hj => xinval_ends hlive hj⟩
  · obtain ⟨hmiss, hcut⟩ := hread
    have h := store_begins hlive hheld hmiss hcut hj
    rw [exec_xstore, doXstore, hj]
    exact h
  · obtain ⟨hmiss, hcut⟩ := hread
    have h := store_begins hlive hheld hmiss hcut hj
    rw [exec_xadd, doXadd, hj]
    exact h
  · obtain ⟨hmiss, hcut⟩ := hread
    exact xmcast_begins hlive hheld hmiss hcut hj
  · exact lock_begins hlive hheld hj hcut
  · exact lock_begins hlive hheld hj hcut

end Sys2Proof.Machine
end
